-- ==== Sys2Proof/Word.lean ====
section
/-! DEFINITION. The word types of the OV9600: a byte of memory, a 32-bit register or slot word, a 64-bit
memory word, and a 72-bit link word (64 data bits below 8 check bits, R451). -/
namespace Sys2Proof

/-- One byte of memory (R5). -/
abbrev Byte := BitVec 8

/-- A register or a signal bus slot (R6, R26). -/
abbrev Word := BitVec 32

/-- A 64-bit memory or message word. -/
abbrev DWord := BitVec 64

/-- A link word: data in bits 63 to 0, Hsiao check bits in bits 71 to 64 (R451). -/
abbrev ECWord := BitVec 72

end Sys2Proof
end

