-- ==== Sys2Proof/Syntax.lean ====
section
/-! DEFINITION. The commands and events of the OV9600: one constructor of `Instr` for each row of the opcode
table, with the operand types the constructors use. -/
namespace Sys2Proof

/-- The fabric masters 0 to 8 of R453. -/
inductive Master where
  | host | debug | sequencer | station | lantern | cairn | security | loader | redundancy
deriving DecidableEq, Repr

/-- The size of a fabric access in bytes: 1, 2, 4 or 8 (R6). -/
inductive Access where
  | byte | half | word | dword
deriving DecidableEq, Repr

/-- What a memory access does (R454): read, write, sequencer instruction fetch, or the read-modify-write of a
write narrower than 64 bits. -/
inductive AccessKind where
  | read | write | fetch
deriving DecidableEq, Repr

/-- Whether the mailbox access of a command shares its CK_FAB cycle with the last mailbox access before it, or with the
next one after it, on the other port (R456). -/
inductive Share where
  | no | last | next
deriving DecidableEq, Repr

/-- Why a receiver finds loss of signal (R78): no transition for 64 UI, an amplitude in mV peak-to-peak, or a level of the
LANE_LOS pin. -/
inductive LosCause where
  | still
  | amp (mv : Nat)
  | pin (high : Bool)
deriving DecidableEq, Repr

/-- The four markers (R68). -/
inductive Marker where
  | frame | block | alert | trig
deriving DecidableEq, Repr

/-- Why a hub commits an ALERT (R72): a cell's latched FCODE changed, or its own fault code became nonzero. -/
inductive HubAlertCause where
  | cell (c : Fin 128) (fcode : BitVec 6)
  | own (fcode : BitVec 8)
deriving DecidableEq, Repr

/-- What a concentrator measured for one sample tick (R251, R252): the results of its channels in instant
order (channel fastest; none where invalid), the fault bits [4:1] of each channel's CSTAT, its temperature, fault code
and timing word values. -/
structure ConcData where
  samples : List (Option Int)
  faults  : List (BitVec 4)
  temp    : BitVec 8
  fcode   : BitVec 8
  rxt     : BitVec 16
  txt     : BitVec 16
deriving DecidableEq, Repr

/-- What a hub measured for one tick (R109, R115): its temperature code, T_HUB and L_H, the cells whose link is
up, whether the other uplink receives frames, and the round trips in ns of the cells that echoed a PROBE. -/
structure HubData where
  temp : BitVec 8
  thub : BitVec 16
  lh   : BitVec 16
  up   : BitVec 128
  otherUp : Bool
  rtts : List (Fin 128 × Nat)
deriving DecidableEq, Repr

/-- What the unit measured for the frames it launches: TPAIR of ML0 and ML1 in 0.25 ns (R291), and the bus
turnaround of ML2 and ML3 (R350). -/
structure LaunchData where
  tp0 : BitVec 16
  tp1 : BitVec 16
  ta2 : BitVec 16
  ta3 : BitVec 16
deriving DecidableEq, Repr

/-- Why a cell closes its bypass switch on its own decision (R145). -/
inductive BypassCause where
  | vcap (v : BitVec 14)
  | aux2ms
deriving DecidableEq, Repr

/-- A Sync with its Follow_Up as the port timestamped it (R264): `t2` is the receive timestamp in 1/16 ns of
control time, `ls` the local scale in ns at that instant, `corr` the summed correction fields in 2^-16 ns,
`intv` the sample interval in ns. -/
structure PtpSync where
  pdom : BitVec 8
  src  : BitVec 80
  sec  : BitVec 48
  ns   : BitVec 32
  corr : Int
  t2   : Nat
  ls   : Nat
  intv : Nat
deriving DecidableEq, Repr

/-- An Announce (R264): the sender's port identity and the data set that the best master clock algorithm compares
(PRESUMED from IEEE 1588-2019, log entry 75). -/
structure PtpAnnounce where
  pdom : BitVec 8
  src  : BitVec 80
  prio1 : BitVec 8
  cls   : BitVec 8
  acc   : BitVec 8
  var   : BitVec 16
  prio2 : BitVec 8
  gm    : BitVec 64
  steps : BitVec 16
  utc  : BitVec 16
  utcValid : Bool
deriving DecidableEq, Repr

/-- A Pdelay_Req with its receive timestamp in 1/16 ns (R399). -/
structure PtpPdelayReq where
  pdom : BitVec 8
  src  : BitVec 80
  seq  : BitVec 16
  t2   : Nat
deriving DecidableEq, Repr

/-- A Pdelay_Resp and its follow-up: the four timestamps and the corrections, in 2^-16 ns (R264). -/
structure PtpPdelayResp where
  pdom : BitVec 8
  seq  : BitVec 16
  t1 : Int
  t2 : Int
  t3 : Int
  t4 : Int
  corr : Int
deriving DecidableEq, Repr

/-- A frame at a station port: the verdict of its FCS, its bytes from the destination address to the end of
the padding, and the ns from its last bit to the first tick boundary after the receive checks (R388, R400). -/
structure StnFrame where
  fcsOk : Bool
  bytes : List Byte
  age   : Nat
deriving DecidableEq, Repr

/-- Which threshold a rail has passed (R478, R481). -/
inductive RailKind where
  | low | high | below10
deriving DecidableEq, Repr

/-- The commands and events of the opcode table. -/
inductive Instr where
  /-- TICK_BOUNDARY (R43); `drift` is how many CK_CORE cycles the tick that ends lasted beyond what its crossing gives (R47):
  0 while CK_CORE is on frequency. -/
  | tickBoundary (drift : Int)
  /-- STATE_REQUEST (R42). -/
  | stateRequest (m : Master) (val : Word)
  /-- REGISTER_WRITE (R7). -/
  | registerWrite (m : Master) (addr : Word) (acc : Access) (val : Word)
  /-- COUNTER_CLEAR (R15). -/
  | counterClear (m : Master) (addr : Word) (val : Word)
  /-- COUNTER_LOW_READ (R14). -/
  | counterLowRead (m : Master) (addr : Word)
  /-- STAGED_SLOT_WRITE (R29). -/
  | stagedSlotWrite (m : Master) (slot : Fin 1024) (val : Word)
  /-- INPUT_PHASE (R48). -/
  | inputPhase
  /-- AUX_TIMEOUT (R111). -/
  | auxTimeout (g : Fin 4096)
  /-- SELECTION_PASS_1 (R168). -/
  | selectionPass1
  /-- CELL_ESCALATION (R240). -/
  | cellEscalation
  /-- CHANNEL_STEP (R202). -/
  | channelStep (p : Fin 192)
  /-- CONTROL_FENCE (R50). -/
  | controlFence
  /-- PLANNER_PHASE (R179). -/
  | plannerPhase
  /-- SELECTION_THRESHOLD (R169). -/
  | selectionThreshold
  /-- SELECTION_PASS_2 (R170). -/
  | selectionPass2
  /-- COMPOSER_PHASE (R52). -/
  | composerPhase
  /-- FRAME_LAUNCH (R82). -/
  | frameLaunch (lph : Fin 32) (d : LaunchData)
  /-- PRIORITY_MARKER_SEND (R73). -/
  | priorityMarkerSend (lane : Fin 40) (k : Marker) (w : Nat)
  /-- FRAME_MARKER_RX (R79). -/
  | frameMarkerRx (lane : Fin 40) (word : Word) (ui : Nat)
  /-- FRAME_MISS (R79). -/
  | frameMiss (lane : Fin 40)
  /-- LOS (R78). -/
  | los (lane : Fin 40) (cause : LosCause)
  /-- LOS_CLEAR (R78); `pin` is the level of the LANE_LOS pin. -/
  | losClear (lane : Fin 40) (pin : Bool)
  /-- LOL (R79). -/
  | lol (lane : Fin 40) (cdrUnlock : Bool)
  /-- LOL_CLEAR (R79). -/
  | lolClear (lane : Fin 40)
  /-- FAULTED_RECOVERY (R81). -/
  | faultedRecovery (lane : Fin 40)
  /-- PORT_SILENT (R83). -/
  | portSilent (lane : Fin 40)
  /-- PORT_ENABLE (R501). -/
  | portEnable (m : Master) (lane : Fin 40)
  /-- PORT_DISABLE (R501). -/
  | portDisable (m : Master) (lane : Fin 40)
  /-- LOOPBACK_SELECT (R85). -/
  | loopbackSelect (m : Master) (lane : Fin 40) (lb : Fin 4)
  /-- CELL_FRAME_RX (R96). -/
  | cellFrameRx (port : Fin 32) (line : List Bool) (cyc : Nat) (rtt : Nat)
  /-- ALERT_RX (R72). -/
  | alertRx (lane : Fin 40) (word : Word)
  /-- BLOCK_MARKER_RX (R238). -/
  | blockMarkerRx (lane : Fin 40) (word : Word)
  /-- TRIG_RX (R352). -/
  | trigRx (lane : Fin 40) (word : Word) (ofs : Nat)
  /-- EXEC_OFFSET_WRITE (R54). -/
  | execOffsetWrite (m : Master) (val : Word)
  /-- HUB_HEADER_ACCEPT (R102). -/
  | hubHeaderAccept (hub : Fin 32) (u : Fin 2) (hdr : ECWord) (ui : Nat)
  /-- HUB_WORD_FORWARD (R104). -/
  | hubWordForward (hub : Fin 32) (u : Fin 2) (pos : Fin 133) (word : ECWord) (crcOk : Bool)
  /-- HUB_BLOCK_RELAY (R236). -/
  | hubBlockRelay (hub : Fin 32) (u : Fin 2) (word : Word)
  /-- HUB_ALERT (R72). -/
  | hubAlert (hub : Fin 32) (cause : HubAlertCause)
  /-- CONC_ALERT (R72). -/
  | concAlert (conc : Fin 4) (ch : Fin 8) (cstat : BitVec 8)
  /-- CONC_FRAME_LAUNCH (R251). -/
  | concFrameLaunch (conc : Fin 4) (d : ConcData)
  /-- CELL_WORD_ACCEPT (R132). -/
  | cellWordAccept (g : Fin 4096) (word : ECWord) (mark inst : Int)
  /-- CELL_MISSING_TICK (R107). -/
  | cellMissingTick (g : Fin 4096) (xtick : Fin 512) (mark inst : Int)
  /-- CELL_EDGE (R128). -/
  | cellEdge (g : Fin 4096)
  /-- CELL_REPORT (R131). -/
  | cellReport (g : Fin 4096) (j : Fin 512) (vcap : BitVec 14) (temp : BitVec 8)
  /-- CELL_BLOCK_MARKER (R237). -/
  | cellBlockMarker (g : Fin 4096) (word : Word) (inst : Int)
  /-- SHOOT_THROUGH_ATTEMPT (R139). -/
  | shootThroughAttempt (g : Fin 4096) (sw : Fin 4) (inst : Int)
  /-- DESAT (R140). -/
  | desat (g : Fin 4096) (sw : Fin 4) (inst : Int)
  /-- OC (R141). -/
  | oc (g : Fin 4096) (inst : Int)
  /-- UVLO_GATE (R143). -/
  | uvloGate (g : Fin 4096) (sw : Fin 4) (inst : Int)
  /-- UVLO_AUX (R143). -/
  | uvloAux (g : Fin 4096) (inst : Int)
  /-- CAP_OV (R145). -/
  | capOv (g : Fin 4096) (vcap : BitVec 14) (inst : Int)
  /-- AUTONOMOUS_BYPASS (R145). -/
  | autonomousBypass (g : Fin 4096) (cause : BypassCause) (inst : Int)
  /-- BYPASS_CONFIRM (R152). -/
  | bypassConfirm (g : Fin 4096)
  /-- BYPASS_FAIL (R152). -/
  | bypassFail (g : Fin 4096)
  /-- SELFTEST_END (R150). -/
  | selftestEnd (g : Fin 4096) (fails : BitVec 10)
  /-- NOP (R110). -/
  | nop (g : Fin 4096) (data : BitVec 16)
  /-- SET_ADDR (R110). -/
  | setAddr (g : Fin 4096) (data : BitVec 16)
  /-- WRITE (R134). -/
  | write (g : Fin 4096) (data : BitVec 16)
  /-- COMMIT (R136). -/
  | commit (g : Fin 4096) (data : BitVec 16)
  /-- ENABLE (R147). -/
  | enable (g : Fin 4096) (data : BitVec 16)
  /-- DCOMP (R119). -/
  | dcomp (g : Fin 4096) (data : BitVec 16)
  /-- PROBE (R115). -/
  | probe (g : Fin 4096) (data : BitVec 16)
  /-- SELFTEST (R149). -/
  | selftest (g : Fin 4096) (data : BitVec 16)
  /-- CLOSE_BYPASS (R152). -/
  | closeBypass (g : Fin 4096) (data : BitVec 16)
  /-- AUX_REQ_SET_ADDR (R110). -/
  | auxReqSetAddr (m : Master) (g : Fin 4096) (data : BitVec 16)
  /-- AUX_REQ_WRITE (R112). -/
  | auxReqWrite (m : Master) (g : Fin 4096) (data : BitVec 16)
  /-- AUX_REQ_ENABLE (R112). -/
  | auxReqEnable (m : Master) (g : Fin 4096) (data : BitVec 16)
  /-- AUX_REQ_CLOSE_BYPASS (R110). -/
  | auxReqCloseBypass (m : Master) (g : Fin 4096) (data : BitVec 16)
  /-- SELFTEST_PERIOD (R151). -/
  | selftestPeriod (arm : Fin 6)
  /-- STEST_TIMEOUT (R151). -/
  | stestTimeout (g : Fin 4096)
  /-- EXCLUDE (R158). -/
  | exclude (m : Master) (g : Fin 4096)
  /-- READMIT (R161). -/
  | readmit (m : Master) (g : Fin 4096)
  /-- EXCLUDE_FOR_SELFTEST (R158). -/
  | excludeForSelftest (m : Master) (g : Fin 4096)
  /-- EXCL_DENIED (R159). -/
  | exclDenied (g : Fin 4096)
  /-- PATTERN_COMMIT_REQUEST (R188). -/
  | patternCommitRequest (m : Master)
  /-- SWAP_REQUEST (R221). -/
  | swapRequest (m : Master) (val : Word)
  /-- BANK_SWAP (R222). -/
  | bankSwap
  /-- PRIME_REQUEST (R219). -/
  | primeRequest (m : Master) (c : Fin 192)
  /-- SLACK_CLEAR (R213). -/
  | slackClear (m : Master)
  /-- TRIP_PIN (R230). -/
  | tripPin (p : Fin 16) (sampled : Bool)
  /-- TRIP_PIN_CFG_WRITE (R230). -/
  | tripPinCfgWrite (m : Master) (val : Word)
  /-- COMPARATOR_SAMPLE (R231). -/
  | comparatorSample (n : Fin 32) (code : BitVec 16) (valid : Bool)
  /-- MINBLK_EXPIRY (R242). -/
  | minblkExpiry
  /-- RELEASE_REQUEST (R243). -/
  | releaseRequest (m : Master) (val : Word)
  /-- FORCE_BLOCK (R244). -/
  | forceBlock (m : Master) (val : Word)
  /-- SENSOR_FRAME_RX (R254). -/
  | sensorFrameRx (port : Fin 4) (line : List Bool) (cyc : Nat) (rtt : Nat)
  /-- PTP_SYNC_RX (R264). -/
  | ptpSyncRx (p : Fin 4) (msg : PtpSync)
  /-- ANNOUNCE_RX (R264). -/
  | announceRx (p : Fin 4) (msg : PtpAnnounce)
  /-- PDELAY_REQ_RX (R399). -/
  | pdelayReqRx (p : Fin 4) (msg : PtpPdelayReq)
  /-- TP0_PULSE (R265). -/
  | tp0Pulse (t : Nat) (mhz : Option Nat)
  /-- BUS_FRAME_RX (R350). -/
  | busFrameRx (ml : Fin 2) (line : List Bool) (cyc : Nat) (rtt : Nat)
  /-- DOM_LOST (R267). -/
  | domLost (d : Fin 2)
  /-- HO_EXPIRED (R269). -/
  | hoExpired
  /-- DOMAIN_SRC_WRITE (R267). -/
  | domainSrcWrite (m : Master) (d : Fin 2) (val : Word)
  /-- TP1_EDGE (R278). -/
  | tp1Edge (pps : Bool) (inst : BitVec 64)
  /-- CLOCK_LOSS (R57). -/
  | clockLoss (src : Fin 9) (clk : Fin 7)
  /-- CK_CORE_LOSS (R58). -/
  | ckCoreLoss
  /-- CK_TIME_LOSS (R59). -/
  | ckTimeLoss
  /-- CK_TIME_RETURN (R280). -/
  | ckTimeReturn
  /-- BLOCK_STREAM_CRESET (R58). -/
  | blockStreamCreset
  /-- PAIR_FRAME_RX (R283). -/
  | pairFrameRx (ml : Fin 2) (line : List Bool) (cyc : Nat) (x : Int)
  /-- ROLE_WAIT_EXPIRY (R286). -/
  | roleWaitExpiry
  /-- DEMOTED (R287). -/
  | demoted
  /-- EPOCH_CLEAR (R288). -/
  | epochClear (m : Master)
  /-- STAT_LATE (R293). -/
  | statLate
  /-- STATE_FOLLOW (R294). -/
  | stateFollow (stat : ECWord)
  /-- MIRRORED_REQUEST_APPLY (R295). -/
  | mirroredRequestApply (msgs : List ECWord)
  /-- DIGEST_COMPARE (R298). -/
  | digestCompare
  /-- CHECKPOINT_CYCLE_START (R300). -/
  | checkpointCycleStart
  /-- TAKEOVER_DECISION (R306). -/
  | takeoverDecision
  /-- DOUBLES_ANNOUNCE (R311). -/
  | doublesAnnounce
  /-- DOUBLES_REQUEST (R311). -/
  | doublesRequest (m : Master) (val : Word)
  /-- DOUBLES_CHECK (R312). -/
  | doublesCheck
  /-- DOUBLES_SWAP (R312). -/
  | doublesSwap
  /-- HEARTBEAT_TOGGLE (R313). -/
  | heartbeatToggle
  /-- HB_LOST (R314). -/
  | hbLost
  /-- SUMP_SERVICE (R322). -/
  | sumpService
  /-- SRC_CLEAR (R323). -/
  | srcClear (src : Fin 1024)
  /-- CRESET (R333). -/
  | creset
  /-- ERR_CLEAR (R329). -/
  | errClear (m : Master)
  /-- FRESET_DONE (R328). -/
  | fresetDone (fn : Fin 32) (idx : Fin 32)
  /-- FRESET_CL_PORT (R425). -/
  | fresetClPort (n : Fin 32)
  /-- FRESET_SENSOR (R259). -/
  | fresetSensor
  /-- FRESET_ML_PORT (R425). -/
  | fresetMlPort (n : Fin 4)
  /-- FRESET_STATION_PORT (R401). -/
  | fresetStationPort (n : Fin 4)
  /-- FRESET_TIME_DOMAIN (R280). -/
  | fresetTimeDomain (n : Fin 2)
  /-- FRESET_ACQUISITION (R354). -/
  | fresetAcquisition
  /-- FRESET_ENERGY (R368). -/
  | fresetEnergy
  /-- FRESET_SECURITY (R385). -/
  | fresetSecurity
  /-- FRESET_REDUNDANCY (R425). -/
  | fresetRedundancy
  /-- FRESET_SEQUENCER (R445). -/
  | fresetSequencer
  /-- FRESET_ENGINE (R212). -/
  | fresetEngine
  /-- FRESET_PLANNER (R191). -/
  | fresetPlanner
  /-- FRESET_SELECTION (R175). -/
  | fresetSelection
  /-- FRESET_COMPOSER (R124). -/
  | fresetComposer
  /-- FRESET_PROTECTION (R246). -/
  | fresetProtection
  /-- RECORDER_ARM (R342). -/
  | recorderArm (m : Master) (r : Fin 4)
  /-- RECORDER_STOP (R346). -/
  | recorderStop (m : Master) (r : Fin 4)
  /-- MISSED_CLEAR (R348). -/
  | missedClear (m : Master) (r : Fin 4)
  /-- SOFT_TRIGGER (R345). -/
  | softTrigger (m : Master) (mask : BitVec 4)
  /-- SEGMENT_FREE (R343). -/
  | segmentFree (m : Master) (r : Fin 4) (seg : Fin 16)
  /-- RECORD_HEADER_WRITTEN (R346). -/
  | recordHeaderWritten (r : Fin 4)
  /-- HOLD_OFF_END (R346). -/
  | holdOffEnd (r : Fin 4)
  /-- RETENTION_ENTER (R353). -/
  | retentionEnter (m : Master)
  /-- RETENTION_WAKE (R353). -/
  | retentionWake (m : Master)
  /-- RETENTION_AWAKE (R353). -/
  | retentionAwake
  /-- RECORD_COMMIT (R365). -/
  | recordCommit
  /-- SIGN_FAIL (R365). -/
  | signFail
  /-- RECORD_RESEND (R366). -/
  | recordResend
  /-- RECORD_ACK (R366). -/
  | recordAck (p : Fin 4) (f : StnFrame)
  /-- RECORD_REQ (R366). -/
  | recordReq (p : Fin 4) (f : StnFrame)
  /-- ATTEST_REQ (R382). -/
  | attestReq (p : Fin 4) (f : StnFrame)
  /-- ENERGY_CLEAR (R367). -/
  | energyClear (m : Master) (val : Word)
  /-- OWN_PROG (R377). -/
  | ownProg (m : Master) (ofs : BitVec 16)
  /-- OWN_REVOKE (R377). -/
  | ownRevoke (m : Master) (ofs : BitVec 16)
  /-- ARB_ADV (R379). -/
  | arbAdv (m : Master) (ofs : BitVec 16)
  /-- PORT_KEY (R381). -/
  | portKey (m : Master) (ofs : BitVec 16)
  /-- ATTEST (R383). -/
  | attest (m : Master) (ofs : BitVec 16)
  /-- GET_ID (R377). -/
  | getId (m : Master) (ofs : BitVec 16)
  /-- DBG_RAISE (R377). -/
  | dbgRaise (m : Master) (ofs : BitVec 16)
  /-- SECURITY_COMMAND_END (R377). -/
  | securityCommandEnd
  /-- SIGNATURE_DONE (R372). -/
  | signatureDone
  /-- ENT_FAIL (R372). -/
  | entFail
  /-- ID_REGEN (R375). -/
  | idRegen
  /-- KEY_STORE_RELOAD (R376). -/
  | keyStoreReload (word : Fin 8192)
  /-- DEBUG_AUTH (R471). -/
  | debugAuth (m : Master) (val : Word)
  /-- CHALLENGE_READ (R471). -/
  | challengeRead (m : Master)
  /-- DEBUG_SESSION_TIMEOUT (R384). -/
  | debugSessionTimeout
  /-- TRST (R469). -/
  | trst
  /-- LINK_DOWN (R387). -/
  | linkDown (p : Fin 4) (hiBer : Bool)
  /-- SETPOINT (R398). -/
  | setpoint (p : Fin 4) (f : StnFrame)
  /-- REQUEST (R439). -/
  | request (p : Fin 4) (f : StnFrame)
  /-- C0_LATE (R398). -/
  | c0Late (p : Fin 4)
  /-- STATUS (R397). -/
  | status (p : Fin 4)
  /-- RESPONSE (R439). -/
  | response (p : Fin 4)
  /-- POWER_ON (R479). -/
  | powerOn
  /-- RESET_RELEASE (R480). -/
  | resetRelease (idBlobOk : Bool)
  /-- PLL_LOCK (R60). -/
  | pllLock (locked : BitVec 4) (flashOk : Bool)
  /-- PORST (R480): PORST_N has been low for 1 µs or more, or is high again. -/
  | porst (low : Bool)
  /-- CHIP_RESET (R36). -/
  | chipReset
  /-- IMAGE_READ_COMPLETE (R36). -/
  | imageReadComplete
  /-- IMAGE_VERIFY (R414). -/
  | imageVerify
  /-- IMAGE_LOAD_REQUEST (R418). -/
  | imageLoadRequest (m : Master) (val : Word)
  /-- FLASH_READ (R420). -/
  | flashRead (m : Master) (val : Word)
  /-- FLASH_PROGRAM (R420). -/
  | flashProgram (m : Master) (val : Word)
  /-- FLASH_ERASE (R420). -/
  | flashErase (m : Master) (val : Word)
  /-- FLASH_DONE (R420). -/
  | flashDone
  /-- FL_ERR (R421). -/
  | flErr
  /-- PORT_OFFLINE (R423). -/
  | portOffline (m : Master) (port : Fin 32)
  /-- PORT_ONLINE (R424). -/
  | portOnline (m : Master) (port : Fin 32)
  /-- OFFLINE_WITHDRAW (R423). -/
  | offlineWithdraw (port : Fin 32)
  /-- ADD (R432). -/
  | add (rd ra rb : Fin 16)
  /-- SUB (R432). -/
  | sub (rd ra rb : Fin 16)
  /-- AND (R432). -/
  | and (rd ra rb : Fin 16)
  /-- OR (R432). -/
  | or (rd ra rb : Fin 16)
  /-- XOR (R432). -/
  | xor (rd ra rb : Fin 16)
  /-- SLL (R432). -/
  | sll (rd ra rb : Fin 16)
  /-- SRL (R432). -/
  | srl (rd ra rb : Fin 16)
  /-- SRA (R432). -/
  | sra (rd ra rb : Fin 16)
  /-- SLT (R432). -/
  | slt (rd ra rb : Fin 16)
  /-- SLTU (R432). -/
  | sltu (rd ra rb : Fin 16)
  /-- MUL (R432). -/
  | mul (rd ra rb : Fin 16)
  /-- DIV (R432). -/
  | div (rd ra rb : Fin 16)
  /-- ADDI (R432). -/
  | addi (rd ra : Fin 16) (imm : BitVec 18)
  /-- ANDI (R432). -/
  | andi (rd ra : Fin 16) (imm : BitVec 18)
  /-- ORI (R432). -/
  | ori (rd ra : Fin 16) (imm : BitVec 18)
  /-- SLLI (R432). -/
  | slli (rd ra : Fin 16) (imm : BitVec 18)
  /-- SRLI (R432). -/
  | srli (rd ra : Fin 16) (imm : BitVec 18)
  /-- SRAI (R432). -/
  | srai (rd ra : Fin 16) (imm : BitVec 18)
  /-- LUI (R432). -/
  | lui (rd : Fin 16) (imm : BitVec 14)
  /-- LW (R433). -/
  | lw (rd ra : Fin 16) (imm : BitVec 18)
  /-- LBU (R433). -/
  | lbu (rd ra : Fin 16) (imm : BitVec 18)
  /-- SW (R433). -/
  | sw (rd ra : Fin 16) (imm : BitVec 18)
  /-- SB (R433). -/
  | sb (rd ra : Fin 16) (imm : BitVec 18)
  /-- BEQ (R432). -/
  | beq (ra rb : Fin 16) (off : BitVec 18)
  /-- BNE (R432). -/
  | bne (ra rb : Fin 16) (off : BitVec 18)
  /-- BLT (R432). -/
  | blt (ra rb : Fin 16) (off : BitVec 18)
  /-- BGE (R432). -/
  | bge (ra rb : Fin 16) (off : BitVec 18)
  /-- BLTU (R432). -/
  | bltu (ra rb : Fin 16) (off : BitVec 18)
  /-- BGEU (R432). -/
  | bgeu (ra rb : Fin 16) (off : BitVec 18)
  /-- JAL (R432). -/
  | jal (rd : Fin 16) (off : BitVec 22)
  /-- JALR (R432). -/
  | jalr (rd ra : Fin 16) (imm : BitVec 18)
  /-- WTICK (R434). -/
  | wtick (imm : BitVec 18)
  /-- WEVT (R434). -/
  | wevt (rd ra rb : Fin 16)
  /-- WAIT_COMPLETE (R434). -/
  | waitComplete
  /-- SRD (R435). -/
  | srd (rd ra : Fin 16) (imm : BitVec 18)
  /-- SWR (R435). -/
  | swr (rd ra : Fin 16) (imm : BitVec 18)
  /-- REQ (R436). -/
  | req (imm : BitVec 18)
  /-- BLK (R244). -/
  | blk
  /-- FLT (R437). -/
  | flt (ra : Fin 16) (imm : BitVec 18)
  /-- SIGN (R438). -/
  | sign (rd ra rb : Fin 16)
  /-- SEND (R439). -/
  | send (rd ra rb : Fin 16)
  /-- RDSR (R430). -/
  | rdsr (rd : Fin 16) (imm : BitVec 18)
  /-- RETN (R440). -/
  | retn
  /-- KICK (R442). -/
  | kick
  /-- SEQ_ILLEGAL (R431). -/
  | seqIllegal
  /-- NMI_ENTRY (R440). -/
  | nmiEntry
  /-- ROLE_VECTOR_ENTRY (R429). -/
  | roleVectorEntry (reason : Fin 4)
  /-- LOCKSTEP (R441). -/
  | lockstep
  /-- WDOG (R442). -/
  | wdog
  /-- EVENT_SET (R434). -/
  | eventSet (m : Master) (val : Word)
  /-- FABRIC_ACCESS (R454). -/
  | fabricAccess (m : Master) (addr : Word) (acc : Access) (kind : AccessKind) (val : DWord) (sh : Share)
  /-- CORRECTED_WRITEBACK (R452). -/
  | correctedWriteback
  /-- CAVER_TEST_START (R457). -/
  | caverTestStart
  /-- CAVER_TEST_DONE (R457). -/
  | caverTestDone (mismatch : Option Nat)
  /-- CAVER_ABANDON (R457). -/
  | caverAbandon
  /-- HOST_READ (R464); of the requests that waited `waiting` still do when it begins, and it waits itself where `wait` says so
  (R466). -/
  | hostRead (hdr : ECWord) (waiting : Nat) (wait : Bool) (sh : Share)
  /-- HOST_WRITE (R464); `waiting` and `wait` as in HOST_READ. -/
  | hostWrite (hdr : ECWord) (data : List ECWord) (waiting : Nat) (wait : Bool) (sh : Share)
  /-- EXTEST (R469). Here and below `tdi` are the bits of the DR scan that follows the loading of an instruction, none where it
  is empty, and `pins` what the boundary register captures in it. -/
  | extest (pins tdi : List Bool)
  /-- SAMPLE_PRELOAD (R468). -/
  | samplePreload (pins tdi : List Bool)
  /-- IDCODE (R468). -/
  | idcode (tdi : List Bool)
  /-- CLAMP (R469). -/
  | clamp (tdi : List Bool)
  /-- HIGHZ (R469). -/
  | highz (tdi : List Bool)
  /-- EXTEST_PULSE (R469). -/
  | extestPulse (pins tdi : List Bool)
  /-- EXTEST_TRAIN (R469). -/
  | extestTrain (pins tdi : List Bool)
  /-- KDA (R470). -/
  | kda
  /-- BYPASS (R468). -/
  | bypass (code : BitVec 8) (tdi : List Bool)
  /-- KDA_SCAN (R470). -/
  | kdaScan (word : ECWord)
  /-- SEQ_HALT (R472). -/
  | seqHalt
  /-- SEQ_RESUME (R472). -/
  | seqResume
  /-- SEQ_STEP (R472). -/
  | seqStep
  /-- BREAKPOINT_HIT (R472). -/
  | breakpointHit
  /-- PIPE_HALT (R473). -/
  | pipeHalt
  /-- PIPE_RESUME (R473). -/
  | pipeResume
  /-- PIPE_STEP (R473). -/
  | pipeStep (count : Fin 256)
  /-- SUPPLY_EXCURSION (R478). -/
  | supplyExcursion (rail : Fin 16) (kind : RailKind)
  /-- TEMP_READING (R491). -/
  | tempReading (code : BitVec 8)
  /-- TEMP_MAX_CLEAR (R491). -/
  | tempMaxClear (m : Master)
  /-- C0_LAT_CLEAR (R400). -/
  | c0LatClear (m : Master) (p : Fin 4)
  /-- CLOCK_RETURN (R242). -/
  | clockReturn (clk : Fin 7)
  /-- LINK_UP (R387). -/
  | linkUp (p : Fin 4)
  /-- TRIP_PIN_INACTIVE (R230). -/
  | tripPinInactive (p : Fin 16)
  /-- CONC_HEADER_ACCEPT (R249). -/
  | concHeaderAccept (conc : Fin 4) (u : Fin 2) (hdr d0 d1 : ECWord) (mark : Int)
  /-- HUB_FRAME_LAUNCH (R94). -/
  | hubFrameLaunch (hub : Fin 32) (u : Fin 2) (j : Fin 512) (d : HubData)
  /-- HUB_POWER_UP (R288). -/
  | hubPowerUp (hub : Fin 32)
  /-- CELL_POWER_UP (R137). -/
  | cellPowerUp (g : Fin 4096)
  /-- PDELAY_RESP_RX (R264). -/
  | pdelayRespRx (p : Fin 4) (msg : PtpPdelayResp)
  /-- ENTROPY_RECOVERY (R372). -/
  | entropyRecovery
  /-- KEY_STORE_RELOAD_DONE (R376). -/
  | keyStoreReloadDone (blobOk : BitVec 8)
  /-- DEBUG_BACKOFF_END (R384). -/
  | debugBackoffEnd
  /-- SUPPLY_RECOVERY (R478). -/
  | supplyRecovery (rail : Fin 16)
  /-- GATE_SUPPLY_RECOVERY (R143). -/
  | gateSupplyRecovery (g : Fin 4096) (supply : Fin 5) (inst : Int)
  /-- HEARTBEAT_EDGE_RX (R314). -/
  | heartbeatEdgeRx
deriving DecidableEq, Repr

end Sys2Proof
end

