-- ==== Sys2Proof/Decode.lean ====
section
/-! DEFINITION. Words of the opcode table. Its rows are operations and events and give no bits, so that no word spells a
command; the words of the sequencer's own instructions stand in Machine/SeqCode.lean. -/
namespace Sys2Proof

/-- The command that a word of `nbits` bits spells by the table's bits: none. -/
def decodeTableWord (_nbits _w : Nat) : Option Instr := none

end Sys2Proof
end

