-- ==== Sys2Proof/Config.lean ====
section
/-! DEFINITION. What an implementation fixes and the values the spec leaves open: uninterpreted constants. -/
namespace Sys2Proof

/-- Free values: the n-th value the model draws where the spec states none. Nothing constrains it. -/
opaque Config.freeValue : Nat → BitVec 4096

/-- SERIAL of R373, from OTP. -/
opaque Config.serial : BitVec 64

/-- The programmed owner slots of the OTP of this part at power-on (R373): PROG, REVOKED and USE as in `SEC_OWN`. -/
opaque Config.otpOwner : BitVec 20

/-- OTP debug policy and anti-rollback value at power-on (R373). -/
opaque Config.otpPolicy : Fin 3
opaque Config.otpArb : Fin 129

/-- DEV_SEED of R373, from OTP. -/
opaque Config.devSeed : BitVec 256

/-- Digest of OWNER_ROOT programmed in slot s at power-on (R373). -/
opaque Config.otpRoot : Nat → BitVec 256

/-- Falcon-1024 verification: public key, message, signature (R370, R378). -/
opaque Config.falconVerify : List Byte → List Byte → List Byte → Bool

/-- Falcon-1024 signature with a secret key and the n-th salt of a message: 1,280 bytes (R370, R372). -/
opaque Config.falconSign : List Byte → Nat → List Byte → List Byte

/-- Falcon-1024 key generation from expanded seed bytes: the secret key; and the public key of a secret key (R374). -/
opaque Config.falconSecret : List Byte → List Byte
opaque Config.falconPublic : List Byte → List Byte

/-- The first 32 KiB of the MRAM security area as Knawick's test leaves them: identity blob and certificate (R375). -/
opaque Config.factoryArea : Nat → Byte

/-- The cell of the boundary register that Knawick's BSDL description gives an output pin (R468): 0 BLOCK_OUT, 1 ERR_A, 2 ERR_B,
3 INT_N. -/
opaque Config.bsdlCell : Nat → Nat

/-- The interval of Announces, their receipt time-out and the interval of Pdelay_Req, in ticks, which the profile of IEEE 1588
fixes (R264). -/
opaque Config.announceInterval : Nat
opaque Config.announceTimeout : Nat
opaque Config.pdelayInterval : Nat

end Sys2Proof
end

