-- ==== Sys2Proof/Machine/Keccak.lean ====
section
/-! DEFINITION. SHAKE256 and KMAC256 as the spec names them (R373, R374, R391, R407): the sponge of FIPS 202 and the keyed hash of
NIST SP 800-185 (PRESUMED: the two standards are outside the spec, log entry 129). -/
namespace Sys2Proof

/-- Lane x + 5y of a Keccak state. -/
def keccakLane (a : List DWord) (i : Nat) : DWord := a.getD i 0

/-- The rotation of lane x + 5y in ρ. -/
def keccakRot : List Nat :=
  [0, 1, 62, 28, 27, 36, 44, 6, 55, 20, 3, 10, 43, 25, 39, 41, 45, 15, 21, 8, 18, 2, 61, 56, 14]

/-- The round constants of ι. -/
def keccakRc : List DWord :=
  [0x0000000000000001, 0x0000000000008082, 0x800000000000808A, 0x8000000080008000, 0x000000000000808B, 0x0000000080000001,
   0x8000000080008081, 0x8000000000008009, 0x000000000000008A, 0x0000000000000088, 0x0000000080008009, 0x000000008000000A] ++
  [0x000000008000808B, 0x800000000000008B, 0x8000000000008089, 0x8000000000008003, 0x8000000000008002, 0x8000000000000080,
   0x000000000000800A, 0x800000008000000A, 0x8000000080008081, 0x8000000000008080, 0x0000000080000001, 0x8000000080008008]

/-- θ. -/
def keccakTheta (a : List DWord) : List DWord :=
  let c := (List.range 5).map fun x =>
    keccakLane a x ^^^ keccakLane a (x + 5) ^^^ keccakLane a (x + 10) ^^^ keccakLane a (x + 15) ^^^ keccakLane a (x + 20)
  let d := (List.range 5).map fun x => keccakLane c ((x + 4) % 5) ^^^ (keccakLane c ((x + 1) % 5)).rotateLeft 1
  (List.range 25).map fun i => keccakLane a i ^^^ keccakLane d (i % 5)

/-- ρ and π: the lane that comes to j = X + 5Y is that of x = X + 3Y, y = X. -/
def keccakRhoPi (a : List DWord) : List DWord :=
  (List.range 25).map fun j =>
    let i := (j % 5 + 3 * (j / 5)) % 5 + 5 * (j % 5)
    (keccakLane a i).rotateLeft (keccakRot.getD i 0)

/-- χ and ι. -/
def keccakChi (b : List DWord) (rc : DWord) : List DWord :=
  (List.range 25).map fun j =>
    let y := 5 * (j / 5)
    let v := keccakLane b j ^^^ (~~~(keccakLane b (y + (j + 1) % 5)) &&& keccakLane b (y + (j + 2) % 5))
    if j = 0 then v ^^^ rc else v

/-- Keccak-f[1600]. -/
def keccakF (a : List DWord) : List DWord := keccakRc.foldl (fun a rc => keccakChi (keccakRhoPi (keccakTheta a)) rc) a

/-- Eight bytes, the first in the low bits. -/
def keccakWord : List Byte → Nat
  | [] => 0
  | b :: t => b.toNat + 256 * keccakWord t

/-- The bytes of a lane. -/
def keccakBytes (w : DWord) : List Byte := (List.range 8).map fun i => BitVec.ofNat 8 (w.toNat / 256 ^ i)

/-- A block of 136 bytes is added to the state. -/
def keccakAdd (a : List DWord) (l : List Byte) : List DWord :=
  (List.range 25).map fun i => keccakLane a i ^^^ BitVec.ofNat 64 (keccakWord ((l.drop (8 * i)).take 8))

/-- Absorbing n blocks. -/
def keccakAbsorb : Nat → List DWord → List Byte → List DWord
  | 0, a, _ => a
  | n + 1, a, l => keccakAbsorb n (keccakF (keccakAdd a (l.take 136))) (l.drop 136)

/-- Squeezing n blocks. -/
def keccakSqueeze : Nat → List DWord → List Byte
  | 0, _ => []
  | n + 1, a => (a.take 17).flatMap keccakBytes ++ keccakSqueeze n (keccakF a)

/-- The padded message: the suffix byte, zeros, and the last bit of the last block. -/
def keccakPad (suffix : Byte) (m : List Byte) : List Byte :=
  let r := 135 - m.length % 136
  if r = 0 then m ++ [suffix ||| 0x80] else m ++ [suffix] ++ List.replicate (r - 1) 0 ++ [0x80]

/-- The sponge with capacity 512: n bytes. -/
def keccak512 (suffix : Byte) (m : List Byte) (n : Nat) : List Byte :=
  let p := keccakPad suffix m
  (keccakSqueeze ((n + 135) / 136) (keccakAbsorb (p.length / 136) [] p)).take n

/-- The first n bytes of SHAKE256. -/
def shakeBytes (m : List Byte) (n : Nat) : List Byte := keccak512 0x1F m n

/-- SHAKE256 of a byte string: its first n bits as a little-endian number (R407, R372). -/
def shake256 (m : List Byte) (n : Nat) : BitVec n := BitVec.ofNat n (keccakWord (shakeBytes m ((n + 7) / 8)))

/-- The bytes of a number, most significant first, at least one (SP 800-185, 2.3.1). -/
def encodeNat (x : Nat) : List Byte :=
  let n := max 1 ((Nat.log2 x) / 8 + 1)
  ((List.range n).map fun i => BitVec.ofNat 8 (x / 256 ^ i)).reverse

def leftEncode (x : Nat) : List Byte := BitVec.ofNat 8 (encodeNat x).length :: encodeNat x
def rightEncode (x : Nat) : List Byte := encodeNat x ++ [BitVec.ofNat 8 (encodeNat x).length]
def encodeString (l : List Byte) : List Byte := leftEncode (8 * l.length) ++ l

/-- bytepad to a multiple of 136 bytes. -/
def bytepad (l : List Byte) : List Byte :=
  let x := leftEncode 136 ++ l
  x ++ List.replicate ((136 - x.length % 136) % 136) 0

/-- KMAC256 of SP 800-185: a key, a message and a customisation string, n bytes. -/
def kmacBytes (key m cust : List Byte) (n : Nat) : List Byte :=
  keccak512 0x04 (bytepad (encodeString [0x4B, 0x4D, 0x41, 0x43] ++ encodeString cust) ++ bytepad (encodeString key) ++ m
    ++ rightEncode (8 * n)) n

end Sys2Proof
end

