-- ==== Sys2Proof/Machine/State.lean ====
section
/-! DEFINITION. The state of the OV9600 and of the companion parts its commands reach (hubs, concentrators, cells),
as plain data, with its value after reset. -/
namespace Sys2Proof.Machine
open Sys2Proof

/-- A sparse table: strictly rising keys, an absent key reads as the table's default. -/
abbrev NMap (α : Type) := List (Nat × α)

/-! ### Chapters 1 and 2: signal bus staging, operating state requests, tick and clocks -/

/-- One staged slot write (R29). -/
structure Staged where
  slot : Nat
  val  : Int
deriving DecidableEq, Repr

/-- Tick, control time and the requests the boundary evaluates (R29, R36 to R47, R59, R60). -/
structure TickCtl where
  /-- Tick counter, 64 bits (R46). -/
  tick    : Nat := 0
  /-- The first boundary has fallen (R60). -/
  started : Bool := false
  /-- Boundary time of the present tick in ns: the grid instant at which it began (R43, R275). -/
  btime   : Nat := 0
  /-- Control-time instant of the next boundary (differs from btime + 1000 in a realignment tick). -/
  nextB   : Nat := 1000
  /-- Local instant in ns of cycle 0 of the present tick (R43, R275). -/
  edge0   : Nat := 0
  /-- The present tick is a realignment tick (R45). -/
  realign : Bool := false
  /-- Staged slot writes, oldest first (R29). -/
  staged  : List Staged := []
  /-- Accepted host request: target state code (R42). -/
  hostReq : Option Nat := none
  /-- Sequencer request: target state code and release key (R436). -/
  seqReq  : Option Nat := none
  /-- A clock that is lost now, by monitor source 0x010 to 0x016 (R57). -/
  lost    : List Nat := []
  /-- The lost clocks that their own loss monitors have found stopped (R57). -/
  dead    : List Nat := []
  /-- PLL_SYS and PLL_TIME have locked since power-on (R60). -/
  clocked : Bool := false
  /-- The block stream of R58 runs. -/
  stream  : Bool := false
deriving DecidableEq, Repr

/-! ### Chapter 3: the forty lanes -/

/-- Why a port is FAULTED (R81). -/
inductive FaultedBy where
  | none | loss | partner
deriving DecidableEq, Repr

/-- One received, checked frame kept for unpacking (R96, R121): payload words in position order,
`none` where a word was discarded. -/
structure RxFrame where
  tick  : Nat
  cyc   : Nat
  hdr   : BitVec 64
  words : List (Option (BitVec 64))
  /-- Words whose real check event an injection replaced, header first (R332). -/
  rep : List Bool := []
deriving DecidableEq, Repr

/-- One of the forty lanes: what the port machine keeps beside its registers. -/
structure Lane where
  /-- Why the port is FAULTED, and the tick of the entry (R81). -/
  faultedBy : FaultedBy := .none
  faultedAt : Nat := 0
  /-- Tick from which the silent timer counts; none when stopped (R83). -/
  silentFrom : Option Nat := none
  /-- Consecutive frames that identified another partner (R81). -/
  wrongRun : Nat := 0
  /-- EN was cleared: the transmitter stops at the next boundary (R82). -/
  stopping : Bool := false
  /-- Markers committed in the present frame with their boundaries, and those carried over to the next frame (R74, R75). -/
  commits : List (Nat × Marker) := []
  carry   : List Marker := []
  /-- Markers sent in the present frame: line word boundary and marker (R73 to R75). -/
  marks : List (Nat × Marker) := []
  /-- A BLOCK marker request waits at the inserter (R233). -/
  blockReq : Bool := false
  /-- ALERT and TRIG requests that wait at the inserter, oldest first (R73 to R75). -/
  deferred : List Marker := []
  /-- Level of the transceiver's LANE_LOS pin (R78). -/
  losPin : Bool := false
  /-- A FRAME marker has been recognised since the last LOS or CDR unlock, and the last two were 12,400 to 12,600 UI apart
  (R79). -/
  seen   : Bool := false
  spaced : Bool := false
  /-- The 64-bit words of the frame now on the line, header first (R76). -/
  txWords : List (BitVec 64) := []
  /-- Received frames kept for unpacking. -/
  rx : List RxFrame := []
  /-- FE loopback retransmission content: the last received frame's words (R87). -/
  feWords : List (BitVec 64) := []
deriving DecidableEq, Repr

/-! ### Chapter 4: composer, hubs and the port's delay measurement -/

/-- Who asked for a management item (R111 priority classes). -/
inductive ItemSrc where
  | host | prof | own
deriving DecidableEq, Repr

/-- A management item in progress at a cell (R111). `phase` 0 for a plain item; 1, 2 for the two
phases of the clear sequence (R112). `sent` lists the execution ticks whose words carried it. -/
structure ItemRun where
  src   : ItemSrc
  id    : Nat
  code  : Nat
  data  : Nat
  phase : Nat
  sent  : List Nat
  zeros : List Nat
  dmv   : Bool
deriving DecidableEq, Repr

/-- One queued host or sequencer item (R110, R112). -/
structure QItem where
  id   : Nat
  cell : Nat
  code : Nat
  data : Nat
deriving DecidableEq, Repr

/-- What the composer keeps for one cell. -/
structure CmpCell where
  /-- Item in progress (R111). -/
  cur   : Option ItemRun := none
  /-- Profile download: next step 0 to 31 of a running download, none when idle (R138). -/
  prof  : Option Nat := none
  /-- Failed attempts of the download. -/
  tries : Nat := 0
  /-- The download is confirmed (R138, R156). -/
  profOk : Bool := false
  /-- Resolved round trips of the most recent probe answers, newest first, at most 16 (R116). -/
  rtts  : List Int := []
  /-- Verdict of the last lateness evaluation, none when never evaluated (R54). -/
  late  : Option Bool := none
  /-- The execution tick whose word carried the PROBE sent last, until its report (R111). -/
  probe : Option Nat := none
  /-- The compensation of R308: its value, and the execution tick whose word carried it once sent. -/
  adopt : Option (Nat × Option Nat) := none
  /-- Self-test stage of the cell (R151): 0 none, 1 exclusion requested, 2 item queued, 3 confirmed, 4 running seen. -/
  stest : Nat := 0
  /-- Tick at which the stage began. -/
  stestAt : Nat := 0
deriving DecidableEq, Repr

/-- The command composer (chapters 4 and 5). -/
structure Composer where
  queue  : List QItem := []
  nextId : Nat := 0
  /-- Execution offset sampled at cycle 980 (R52). -/
  ofs    : Nat := 0
  /-- Launch phase of the last frames (R93, R296). -/
  lph    : Nat := 0
  /-- Frames composed for the next tick: per port, the 132 payload words (R90 to R93). -/
  frames : NMap (List (BitVec 64)) := []
  /-- CRC-64 digest of the command stream built in the tick (R297). -/
  digest : Nat := 0
  /-- Per arm: the tick of the last self-test period expiry and the last cell tested (R151). -/
  stestNext : NMap Nat := []
  stestLast : NMap Nat := []
deriving DecidableEq, Repr

/-- A port's delay measurement: the last 16 of each quantity, newest first (R116). -/
structure PortDly where
  rttp : List Nat := []
  thub : List Int := []
  lh   : List Nat := []
deriving DecidableEq, Repr

/-- A tick for which a hub has accepted a frame (R103): the uplink of the frame whose words it forwards, the UI in which
that frame's FRAME marker arrived, and whether a command word of it has been forwarded (HOLDING of R94). -/
structure HubTick where
  tick : Int
  u    : Nat
  ui   : Nat
  sent : Bool := false
deriving DecidableEq, Repr

/-- The header fields of a frame that a hub relays with its words (R101, R119): the execution tick, OFS and LPH. -/
structure HubHdr where
  tick : Int := 0
  ofs  : Nat := 0
  lph  : Nat := 0
deriving DecidableEq, Repr

/-- An OVH128 hub (R102 to R109, R236). -/
structure Hub where
  /-- Identity of the hub. -/
  ident : Nat := 0
  eAcc  : Nat := 0
  uAcc  : Nat := 0
  /-- The frame being received on uplink 0 and 1 when its words are forwarded (R103, R104). -/
  fwd0  : Option HubHdr := none
  fwd1  : Option HubHdr := none
  /-- FRAME markers of U_acc relayed to the cells as timing marks (R104). -/
  marks : Nat := 0
  /-- The ticks accepted, newest first: those that the 9 bits of XTICK can name beside the newest (R94, R103). -/
  ticks : List HubTick := []
  /-- Frames refused on uplink 0 and 1, modulo 256 (R105, R109). -/
  refused0 : Nat := 0
  refused1 : Nat := 0
  /-- Last EPOCH and TOKEN seen on each uplink. -/
  ep0 : Nat := 0
  tk0 : Bool := false
  ep1 : Nat := 0
  tk1 : Bool := false
  /-- CL_HOLD for the cells (R108). -/
  hold : Nat := 4
  /-- Management word last applied, and H2 of the last frame (R108). -/
  h1   : BitVec 64 := 0
  h2   : BitVec 64 := 0
  /-- Per cell: the command word last forwarded, with the header fields of its frame. -/
  words : NMap (Option (BitVec 64 × HubHdr)) := []
  /-- Per cell: FCODE of the previous report (R72). -/
  fcodes : NMap Nat := []
  /-- Hub fault code. -/
  flt   : Nat := 0
  /-- ALERT markers committed toward the OV9600, BLOCK markers relayed to the cells. -/
  alerts : Nat := 0
  blocks : Nat := 0
  /-- The upstream frame last launched on each uplink, header first (R94, R109). -/
  up0   : List (BitVec 64) := []
  up1   : List (BitVec 64) := []
deriving DecidableEq, Repr

/-! ### Chapter 5: the cell controllers -/

/-- A scheduled edge: instant in ps on the cell timebase, state code, gate profile (R119, R128). -/
structure Edge where
  at_ : Int
  st  : Nat
  gp  : Nat
deriving DecidableEq, Repr

/-- What a cell made of the word of an execution tick: the tick, rejection code (0 for none), PROBE carried, and the word's
TEST flag (R149). -/
structure WordRes where
  xtick : Int
  rej   : Nat
  probe : Bool
  test  : Bool
deriving DecidableEq, Repr

/-- One OVC210 cell controller. Instants are in ps on the cell timebase. -/
structure Cell where
  /-- Hardware type: full-bridge (R136). -/
  fb     : Bool := false
  /-- Gate-driver enable level (R147). -/
  enable : Bool := false
  /-- Consecutive accepted ENABLE words with DATA = 0, in BLOCK throughout (R147). -/
  zeroRun : Nat := 0
  /-- Latched fault code, 0 for none (R146, R153). -/
  latch  : Nat := 0
  /-- A commit has been accepted since power-up; before that the cell is STARTING (R137). -/
  committed : Bool := false
  /-- The auxiliary contact has confirmed the bypass switch closed (R152). -/
  bypassed : Bool := false
  /-- The bypass switch is being driven closed since this instant (R152). -/
  bypDrive : Option Int := none
  /-- State code after the last scheduled edge (R132). -/
  sched  : Nat := 0
  /-- State code the switches hold or are entering (R129). -/
  state  : Nat := 0
  /-- Instant of the last state change, none for minus infinity (R132). -/
  tLast  : Option Int := none
  /-- Edges not yet executed, earliest first. -/
  edges  : List Edge := []
  /-- Switches on: bit i for S(i+1) (R127). -/
  on     : BitVec 4 := 0
  /-- Gate-on commands still waiting on their dead time: switch and instant (R128). -/
  waitOn : List (Nat × Int) := []
  /-- Switches that their supply under lock-out holds off although the state turns them on (R143). -/
  held   : BitVec 4 := 0
  /-- Instant of the last gate-off and gate-on command of each switch; none before the first. -/
  offAt  : NMap (Option Int) := []
  onAt   : NMap (Option Int) := []
  /-- Source current of the last gate-on and sink current of the last gate-off command, 0.1 A; 0 before the first
  (R128, R135, R144). -/
  srcI   : Nat := 0
  sinkI  : Nat := 0
  /-- Gate profile of the edge last executed, for its waiting gate-on commands (R128). -/
  gp     : Nat := 0
  /-- Staged settings words written since power-up, and the active settings (R134, R136). -/
  stagedSet : NMap (Option Nat) := []
  activeSet : NMap Nat := []
  /-- Settings that an accepted commit makes active between two ticks (R136). -/
  setNext : Option (NMap Nat) := none
  /-- Settings address selected by SET_ADDR. -/
  selAddr : Nat := 0
  /-- Delay compensation in force and the one waiting for the next origin (R119). -/
  dcomp  : Nat := 0
  dcompNext : Option Nat := none
  /-- Origin last set (R119), the LPH of its mark, and the timing marks of the hub that it has taken (R104). -/
  origin : Int := 0
  lph    : Nat := 0
  marks  : Nat := 0
  /-- Self-test: comparator mask and ticks left; a test accepted but not yet started has 33 (R150). -/
  stest  : Option (Nat × Nat) := none
  /-- SEQ of the last accepted word (R113) and the instant it was accepted (R132). -/
  seq    : Nat := 0
  accAt  : Int := 0
  /-- The execution ticks closed, by an accepted word or as missing, newest first: those that the 9 bits of XTICK can name
  beside the newest (R106, R107). -/
  closed : List Int := []
  /-- What became of the last words, newest first, at most 4. -/
  res    : List WordRes := []
  /-- HOLD_OK of the last accepted word (R107). -/
  holdOk : Bool := false
  /-- Consecutive missing ticks (R107). -/
  missing : Nat := 0
  /-- The missing ticks have taken the cell to BLOCK (R107); it happened after a hold (R153, 0x20). -/
  ended  : Bool := false
  holdExp : Bool := false
  /-- Supplies under lock-out (R143). -/
  gsup   : BitVec 5 := 0
  /-- Capacitor voltage last latched, 0.25 V. -/
  vcap   : Nat := 0
  /-- Desaturation trip of a leg: leg and instant (R142). -/
  desat  : Option (Nat × Int) := none
  /-- In the marker-block condition (R237). -/
  markBlk : Bool := false
  /-- The telemetry word last launched (R130, R131). -/
  report : BitVec 64 := 0
deriving DecidableEq, Repr

/-! ### Chapter 6: selection -/

/-- Targets of selection (R163). -/
inductive Tgt where
  | blk | out | pos | neg
deriving DecidableEq, Repr

/-- Class of a cell in the present tick (R163). -/
inductive Cls where
  | none | locked | drain | free | pip
deriving DecidableEq, Repr

/-- Per-cell record of the selection engine (R163). -/
structure SelRec where
  prev  : Tgt := .blk
  dwell : Nat := 0
  drain : Bool := false
  bin   : Nat := 0
  cls   : Cls := .none
  tgt   : Tgt := .blk
  /-- Target before this tick's pass 2, and the visit rank among up or down changes (R185). -/
  was   : Tgt := .blk
  rank  : Nat := 0
  /-- The exclusion being drained is for self-test (R160). -/
  forTest : Bool := false
  /-- A readmit waits for the unpacker's next update (R161). -/
  readmit : Bool := false
deriving DecidableEq, Repr

/-- A pending exclusion request (R158, R159). -/
structure ExclReq where
  cell  : Nat
  act   : Nat
  tick  : Nat
  /-- Written in the present evaluation window. -/
  fresh : Bool
deriving DecidableEq, Repr

/-- Per-arm work of the selection engine within a tick (R168, R169). -/
structure SelArm where
  hpos : NMap Nat := []
  spos : NMap Nat := []
  hneg : NMap Nat := []
  sneg : NMap Nat := []
  fipos : Nat := 0
  fineg : Nat := 0
  /-- The arm's request was active in this tick (R171). -/
  act  : Bool := false
  neg  : Bool := false
  low  : Bool := false
  n    : Int := 0
  why  : Nat := 0
  s    : Nat := 0
  sw   : Nat := 0
  thH  : Int := 0
  rH   : Nat := 0
  thS  : Int := 0
  rS   : Nat := 0
  nfbx : Nat := 0
  /-- NACH differed from N in the last tick (R173). -/
  shortRun : Bool := false
deriving DecidableEq, Repr

/-! ### Chapter 7: planner -/

/-- Per-arm planner state (R179 to R187, R192). -/
structure PlnArm where
  nprev : Int := 0
  first : Bool := false
  pip   : Option Nat := none
  pptr  : Nat := 0
  rc    : Nat := 0
  ps    : Bool := false
  tl    : Nat := 0
  bal   : Int := 0
  /-- Pattern counter (R188). -/
  pc    : Nat := 0
  /-- Count and demand given out in this tick. -/
  n     : Int := 0
  wq    : Int := 0
  /-- Pip edges of this tick: offset and target (R183). -/
  edges : List (Nat × Tgt) := []
  /-- The arm was out of the safe state in this tick. -/
  act   : Bool := false
  /-- Conditions that held in the last tick (R187). -/
  limRun   : Bool := false
  noPipRun : Bool := false
  bsatRun  : Bool := false
  noVmRun  : Bool := false
deriving DecidableEq, Repr

/-- The pattern generator's commit (R188, R189). -/
structure PatCommit where
  perW    : Bool := false
  dutyW   : Bool := false
  /-- Active levels (the active period and duty are in PLN_PAT_ACT). -/
  lo      : Int := 0
  hi      : Int := 0
deriving DecidableEq, Repr

/-! ### Chapters 8 and 9: control engine and supervisor -/

/-- A pending bank swap (R221). -/
structure Swap where
  sel  : List Nat
  tick : Nat
deriving DecidableEq, Repr

/-- The arm control engine's own state (its channel blocks and coefficients are in memory). -/
structure Engine where
  /-- End cycle of the last due channel that ran in this tick (R49). -/
  endCyc : Nat := 0
  /-- End cycle of the last one that completed (CE_SLACK). -/
  lastEnd : Nat := 0
  /-- Channels completed in this tick, and started but abandoned (R50). -/
  done   : List Nat := []
  aband  : List Nat := []
  /-- Channels whose last run was abandoned for an invalid set (R500). -/
  badRun : List Nat := []
  /-- r, f, v and the preload slot as each channel that ran in this tick read them (R302). -/
  reads  : NMap (Int × Int × Int × Int) := []
  swap   : Option Swap := none
deriving DecidableEq, Repr

/-! ### Chapter 10: fast protection -/

/-- The sample history of one comparator; its run count and trip state are in PRT_CMPn_STAT (R231). -/
structure Cmp where
  h  : List Int := []
  nv : Nat := 0
deriving DecidableEq, Repr

/-- An FCODE change found by the unpacker in this tick (R240). -/
structure FChange where
  cell : Nat
  arm  : Nat
  code : Nat
deriving DecidableEq, Repr

/-- What has set or joined the latched block since the last boundary (R229, R243): causes, the first of them, Sump sources,
clock monitors, PLN_OFF; and whether the block was set at that boundary. -/
structure BlkSet where
  all   : Nat := 0
  first : Nat := 0
  sump  : List Nat := []
  clk   : List Nat := []
  pln   : Bool := false
  old   : Bool := false
deriving DecidableEq, Repr

/-- The fast protection unit (R228 to R247). The latched block and its causes are in PRT_STAT and
PRT_CAUSE. -/
structure Prot where
  /-- BLOCK_SET is owed at the next boundary (R229). -/
  setMsg  : Bool := false
  /-- Tick of the last set or added cause, and whether the minimum block time has expired (R242). -/
  setTick : Nat := 0
  minDone : Bool := false
  /-- Levels of TRIP_IN[15:0] (R230). -/
  pins    : BitVec 16 := 0
  /-- A release request is pending (R243). -/
  relReq  : Bool := false
  /-- BLOCK_OUT is held by the always-on domain (R239). -/
  boHold  : Bool := true
  /-- Level of the BLOCK_OUT pin. -/
  blockOut : Bool := true
  /-- Sump sources whose CBLOCK set or joined the block (condition 4). -/
  sumpSrc : List Nat := []
  /-- Clock monitors whose loss set the block (condition 5). -/
  clkSrc  : List Nat := []
  /-- PLN_OFF is among the causes (condition 7). -/
  plnOff  : Bool := false
  /-- What has set or joined the block since the last boundary. -/
  fresh   : BlkSet := {}
  /-- Comparator histories. -/
  cmps    : NMap Cmp := []
  /-- Comparators act: PARKED has been entered from VERIFY (R231). -/
  cmpOn   : Bool := false
  /-- SL ports that have been RUNNING since that entry (R231). -/
  slRan   : List Nat := []
  /-- FCODE changes of this tick, and the cells counted in the window with the tick of their change (R240). -/
  changes : List FChange := []
  window  : List (Nat × Nat × Nat) := []
deriving DecidableEq, Repr

/-! ### Chapter 11: sensor ports and concentrators -/

/-- An OVS08 concentrator (R248, R249). -/
structure Conc where
  ident : Nat := 0
  eAcc  : Nat := 0
  uAcc  : Nat := 0
  /-- Input whose frame was accepted since the last launch (R249). -/
  fwd   : Option Nat := none
  /-- The FRAME marker of that frame, in ps (R103). -/
  mark  : Int := 0
  refused : Nat := 0
  /-- Input used as timebase; an accepted input drives it (TBIN, SYNC of R251). -/
  tbin  : Nat := 0
  sync  : Bool := false
  /-- Origin of the present tick in ps on the concentrator timebase, and the compensation received. -/
  origin : Int := 0
  dcomp : Nat := 0
  /-- Instant at which the last frame was launched, in ps (R251). -/
  sentAt : Int := 0
  /-- Control time of the last D0; the RATE code and ADV in force for the present sample tick, and those received for the
  next (R248, R250). -/
  time   : Nat := 0
  rate   : Nat := 0
  adv    : Nat := 200
  rateNext : Nat := 0
  advNext  : Nat := 200
  /-- CSTAT of the previous sample tick, channel 0 first (R72). -/
  cstat : List Nat := []
  alerts : Nat := 0
  /-- The upstream frame last launched, header first (R251). -/
  up    : List (BitVec 64) := []
deriving DecidableEq, Repr

/-- What a sensor port keeps beside its registers (R253, R258). -/
structure SnsPort where
  rttp : List Nat := []
  tc   : List Int := []
  /-- Kinds of R258 seen in this tick and in the last one. -/
  evNow  : List Nat := []
  evLast : List Nat := []
  cstat  : List Nat := []
  /-- SYNC was 0 in the last usable frame (R258, R259). -/
  noSync : Bool := false
  cf     : Nat := 0
  /-- Health bits HELD per channel at the last boundary. -/
  held   : List Nat := []
deriving DecidableEq, Repr

/-! ### Chapter 12: station time -/

/-- A time domain's model (R266). Its state is in TIM_Dd_STAT and y in TIM_Dd_FREQ. -/
structure Dom where
  th    : Int := 0
  ld    : Nat := 0
  qt    : Int := 0
  /-- The next sample is a first sample. -/
  first : Bool := true
  /-- Sample interval in ns (R267). -/
  intv  : Nat := 0
  /-- meanLinkDelay of the domain's port in 2^-16 ns (R264). -/
  mld   : Int := 0
  /-- Selected grandmaster's port, the rank of its data set and the tick of its last Announce, none before one qualifies. -/
  gm    : Option (Nat × Nat × Nat) := none
  /-- Per foreign master heard: the tick of its last Announce (R264). -/
  heard : NMap Nat := []
deriving DecidableEq, Repr

/-- A PTP message sent by an SP port: messageType, domain, requester, sequence, and the timestamp it carries in
1/16 ns (R399). -/
structure PtpTx where
  port : Nat
  type : Nat
  pdom : Nat
  dst  : Nat
  seq  : Nat
  time : Nat
deriving DecidableEq, Repr

/-- An output of TP1 (R278): its level, the control-time instant in ns at which the pulse in progress falls, and the
instant in 1/16 ns at which the last edge was placed (R274). -/
structure Tp1Out where
  high : Bool := false
  fall : Nat := 0
  at_  : Int := 0
deriving DecidableEq, Repr

/-- The time unit (R261 to R281). -/
structure Time where
  /-- Local scale L at the boundary of the present tick, in 2^-16 ns (R266, R275). -/
  l16   : Nat := 0
  /-- L in ns at the last CK_TIME edge at or before the boundary, and control time there in 2^-32 ns, modulo 2^96
  (R13, R261). -/
  edgeL : Nat := 0
  edgeC : Nat := 0
  /-- How far the last read of control time in the present tick lay from its start, in 2^-32 ns. -/
  rd    : Nat := 0
  /-- Control time in ns at cycle 0 of the present tick; `ctl.btime` but in a realignment tick. -/
  ct0   : Nat := 0
  /-- Increment in force, 2^-32 ns (R261). -/
  inc   : Nat := 0x400000000
  yUse  : Int := 0
  sUse  : Int := 0
  /-- Mode of R269 and the selected domain. -/
  mode  : Nat := 0
  sel   : Nat := 0
  /-- Predicted error of the selected domain at the boundary, 2^-16 ns. -/
  e     : Int := 0
  stepPend : Bool := false
  /-- Tick at which HOLDOVER was entered, control-time ns spent in it, and ERR at entry (R279). -/
  hoNs  : Nat := 0
  hoErr : Nat := 0
  dom0  : Dom := {}
  dom1  : Dom := {}
  /-- TP1 outputs: 1PPS and 10 MHz, gated (R278). -/
  pps   : Tp1Out := {}
  mhz   : Tp1Out := {}
  gated : Bool := false
  /-- Round trips of ML2 and ML3 without the turnaround, in ps, newest first, at most 16 each (R277). -/
  bus2  : List Int := []
  bus3  : List Int := []
  /-- PTP messages sent, newest first (R399). -/
  ptpTx : List PtpTx := []
  /-- Per SP port: tick and sequence number of the last Pdelay_Req sent (R264). -/
  pdly  : NMap (Nat × Nat) := []
deriving DecidableEq, Repr

/-! ### Chapter 13: active and standby units -/

/-- Header view of the partner's last usable pair frame (R290). -/
structure PairHdr where
  epoch : Nat
  role  : Nat
  sub   : Nat
  token : Bool
  unit  : Nat
  /-- Tick in which it was received. -/
  tick  : Nat
deriving DecidableEq, Repr

/-- The partner's last STAT word (R291) with the tick of reception. -/
structure PairStat where
  state    : Nat
  latched  : Bool
  handover : Bool
  cause    : Nat
  hash     : Nat
  tick     : Nat
deriving DecidableEq, Repr

/-- A queued or carried mirrored request (R295). -/
structure MirMsg where
  kind : Nat
  body : Nat
deriving DecidableEq, Repr

/-- A received checkpoint cycle: sequence number, epoch, and its slices by index (R299, R303). -/
structure Cycle where
  seq    : Nat
  epoch  : Nat
  slices : NMap (List (BitVec 64))
deriving DecidableEq, Repr

/-- One record of the 6-tick log (R302): tick, memory and registers as the owners read them, what each channel
that ran read, and the mirrored requests applied in the tick. -/
structure InLog where
  tick  : Nat
  mem   : List Host.Cell
  regs  : NMap Nat
  chans : NMap (Int × Int × Int × Int)
  msgs  : List MirMsg
deriving DecidableEq, Repr

/-- The redundancy manager. Role, SUB, epoch and counters are in the RED_ registers, the stored epoch is in MRAM. -/
structure Red where
  /-- Level of UNIT_SEL (R282). -/
  unitSel : Bool := false
  /-- Tick at which the role decision began to wait (R286). -/
  waitFrom : Option Nat := none
  hdr  : Option PairHdr := none
  stat : Option PairStat := none
  /-- Launch tick of the last usable frame, per lane. -/
  lanesJ : NMap Nat := []
  /-- Lanes that miss frames now (PAIR_MISS once per run). -/
  missing : List Nat := []
  /-- Tick in which a pair frame, usable or not, was last received (R288). -/
  heardAt : Option Nat := none
  /-- The partner's tick in its last frame, and the own tick of that launch (R304). -/
  lastW7 : Option (Nat × Nat) := none
  /-- Ticks without a usable pair frame, counted at cycle 80 (R306). -/
  silent : Nat := 0
  /-- x, TPAIR and 80 (lph_p − lph_o) of the most recent usable frames, newest first (R292). -/
  offs   : List (Int × Int × Int) := []
  dlyOk  : Bool := false
  /-- dlt in ps (R292). -/
  dlt    : Int := 0
  /-- Tick, DPORT and CLPH reported per CL port, newest first (R296). -/
  dports : NMap (List (Nat × Nat × Nat)) := []
  /-- dmeas_own per cell, and the own port delay per CL port (R296). -/
  own    : NMap Nat := []
  ownPort : NMap Nat := []
  /-- Mirrored request queue, the requests carried by the frame of this tick, those applied in it (R295). -/
  queue  : List MirMsg := []
  now    : List MirMsg := []
  applied : List MirMsg := []
  /-- Own digests by tick, newest first, and the partner's digests by lane and tick (R298). -/
  digs   : List (Nat × Nat) := []
  pdigs  : List (Nat × Nat × Nat) := []
  missRun : Nat := 0
  /-- Checkpoint cycle in progress: start tick, two lanes; what NEXT2 said last (R300). -/
  cyc    : Option (Nat × Bool) := none
  next2  : Option Bool := none
  seqNo  : Nat := 0
  /-- Own captures by group: tick and words; the received and the kept cycle (R301 to R303). -/
  caps   : NMap (Nat × List (BitVec 64)) := []
  rx     : Option Cycle := none
  kept   : Option Cycle := none
  /-- Groups that differed in the cycle being received; digest trouble in it; clean cycles in a row (R305). -/
  misg   : Nat := 0
  dirty  : Bool := false
  clean  : Nat := 0
  /-- JOIN: tick counter adopted; every group is to be loaded once (R304). -/
  adopted : Bool := false
  loadAll : Bool := false
  /-- The cycle being received had begun before the adoption (R304). -/
  cut    : Bool := false
  /-- Takeover decided for the next boundary; a handover is asked (R306). -/
  take   : Bool := false
  handover : Bool := false
  /-- Tick of an ALERT decoded on ML0 or ML1 since the last decision (R306). -/
  alertAt : Option Nat := none
  /-- Ticks in a row that meet R287, and upstream headers in a row of each CL port that show HOLDING, up to 2 (R306). -/
  demRun  : Nat := 0
  hold    : NMap Nat := []
  /-- A deadline of R293 was missed in this tick, and in the last one. -/
  lateNow : Bool := false
  lateRun : Bool := false
  /-- Doubles: announced swap tick, whether its check passed, earliest next announcement (R311, R312). -/
  dbl    : Option Nat := none
  dblOk  : Bool := false
  dblNext : Nat := 0
  /-- Heartbeat pins: own level and the tick of its last change, tick of the partner's last edge, and whether the partner's
  pin is lost (R313, R314). -/
  hbOwn  : Bool := false
  hbAt   : Nat := 0
  hbGone : Bool := false
  hbSeen : Nat := 0
  log    : List InLog := []
  /-- A mismatching configuration hash has been reported. -/
  badHash : Bool := false
deriving DecidableEq, Repr

/-! ### Chapter 14: Sump -/

/-- An occupied source slot (R318, R324). `inj` marks an INJECTED message: 0 not injected, 1 uncounted,
2 counted; `cls` is the class in force. -/
structure SumpSlot where
  kind   : Nat
  detail : Nat
  tick   : Nat
  cls    : Nat
  inj    : Nat
  m      : Nat
  mKind  : Nat
  mD     : Bool
deriving DecidableEq, Repr

/-- Hidden classification state of a source (R322); ST and CNT are in FLT_SRCn_STAT. -/
structure SumpSrc where
  /-- The source has had a counted event since reset. -/
  used : Bool := false
  ws  : Nat := 0
  tl  : Nat := 0
  /-- An ERRPIN reaction was applied in the present fault state (R329). -/
  err : Bool := false
deriving DecidableEq, Repr

/-- The fault collector and the pins it drives. -/
structure Sump where
  slots : NMap SumpSlot := []
  /-- Source after which the round robin continues. -/
  last  : Nat := 0
  srcs  : NMap SumpSrc := []
  /-- LOG_FULL has been sent in this full episode (R327). -/
  fullSent : Bool := false
  /-- ERRPIN hold, state assertion, and always-on assertions of ERR_A and ERR_B (R329). -/
  errHold  : Bool := false
  errState : Bool := true
  aonA  : Bool := false
  aonB  : Bool := false
  /-- A CRESET reaction: its source and the tick of the reset (R333). -/
  creset : Option (Nat × Nat) := none
  /-- Function resets in progress: 64 × function number + index, and causing source (R328). -/
  fresets : List (Nat × Nat) := []
  /-- Those of them whose reset has been performed. -/
  fresetRun : List Nat := []
  /-- Messages served in this tick, for event channels of type 4 (R339): source and kind. -/
  served : List (Nat × Nat) := []
deriving DecidableEq, Repr

/-! ### Chapter 15: Lantern -/

/-- The trigger of an open record. `inst` is the instant in control time and `g` its place on the tick grid (1,000 ns
for each tick number), both in 2^-16 ns. -/
structure Trig where
  inst  : Int
  g     : Int
  tsrc  : Nat
  exact : Bool
  origin : Nat
  tseq  : Nat
  /-- Time-quality word at the trigger. -/
  tq    : Nat
  /-- Row of the segment that holds the trigger, and its position in 1/256 input from the segment's first input. -/
  row   : Nat
  pos   : Int
  /-- The trigger fell in the tick of ARM (R354). -/
  inArm : Bool
  /-- The tick in which it was acted on. -/
  seen  : Nat
deriving DecidableEq, Repr

/-- What is kept of a tick that has ended: its event lane (R340), boundary time, and at its boundary the time-quality word and
the offset of UTC, 0 where it is not valid (R279, R363). -/
structure TickRec where
  tick  : Nat
  lane  : Nat
  btime : Nat
  tq    : Nat
  utc   : Int
deriving DecidableEq, Repr

/-- A recorder's own state; its state code, segment and counters are in ACQ_Rr_STAT. -/
structure Recorder where
  /-- Rows written into the present segment since it was armed. -/
  rows   : Nat := 0
  /-- Minima and maxima of the row under construction, the inputs it holds, the OR of their event bits (R341). -/
  part   : List (Int × Int) := []
  partN  : Nat := 0
  partEv : Nat := 0
  /-- Grid place of the segment's first input, and the tick of arming. -/
  t0     : Int := 0
  armTick : Nat := 0
  /-- Segment from which the next free one is sought (R343). -/
  next   : Nat := 0
  trig   : Option Trig := none
  /-- POST does not end before this many rows are written (R352). -/
  minEnd : Nat := 0
  retrig : Nat := 0
  /-- Record sequence number. -/
  seq    : Nat := 0
  /-- Tick of a CT_STEP inside the record (R354). -/
  stepIn : Option Nat := none
  /-- Tick at which HOLD was entered and triggers received in it. -/
  holdAt : Nat := 0
  holdN  : Nat := 0
  /-- ACQ_MISSED was sent in the present HOLD or FULL. -/
  missSent : Bool := false
deriving DecidableEq, Repr

/-- A trigger unit (R344). -/
structure TrigUnit where
  rdy : Bool := false
  x0  : Option Int := none
deriving DecidableEq, Repr

/-- A received TRIG marker waiting for its message (R352): lane 38 or 39, arrival, provisional instant and grid
place in 2^-16 ns, and the recorders that it triggered. -/
structure BusTrig where
  lane : Nat
  arr  : Int
  inst : Int
  g    : Int
  recs : List Nat
deriving DecidableEq, Repr

/-- A trigger message whose TRIG marker is requested or sent (R351). -/
structure BusMsg where
  origin : Nat
  tseq   : Nat
  hops   : Nat
  inst   : Int
deriving DecidableEq, Repr

/-- Acquisition and triggers. -/
structure Acq where
  recs  : NMap Recorder := []
  units : NMap TrigUnit := []
  /-- Values committed at cycle 980: derived channel k, and slot 0x380 at key 64 (R337, R339). -/
  der   : NMap Int := []
  /-- Event bits of the last whole tick and of the tick before (R339). -/
  ev    : Nat := 0
  evPrev : Nat := 0
  /-- Conditions gathered during the tick: pins active, comparators tripped, block set, state change, TRIG received. -/
  pinsSeen : Nat := 0
  cmpSeen  : Nat := 0
  blkSeen  : Bool := false
  opSeen   : Bool := false
  trigSeen : Bool := false
  /-- The last ticks, newest first. -/
  log   : List TickRec := []
  tseq  : Nat := 0
  /-- Messages of the TRIG markers requested on ML2 and ML3, oldest first (R351). -/
  pend2 : List BusMsg := []
  pend3 : List BusMsg := []
  wait  : List BusTrig := []
  /-- Launch of the last bus frames in ps of control time (R277), counted from the boundary time, and what a step added to
  control time at that boundary, in ns (R45). -/
  launch : Nat := 0
  jump   : Int := 0
  /-- Lanes that received a bus frame in this tick, and lanes that miss frames now. -/
  busGot  : List Nat := []
  busMiss : List Nat := []
  /-- Tick at which the wake began (R353). -/
  wake   : Option Nat := none
deriving DecidableEq, Repr

/-! ### Chapter 16: Cairn -/

/-- The settlement interval in progress (R363, R364). -/
structure Interval where
  rseq   : Nat := 0
  start  : Nat := 0
  imp0   : Nat := 0
  exp0   : Nat := 0
  tq0    : Nat := 0
  errMax : Nat := 0
  modes  : Nat := 0
  subst  : Nat := 0
  gap    : Nat := 0
  health : Nat := 0
  /-- The first tick whose time quality is not yet in `errMax` and `modes`. -/
  upTo   : Nat := 0
  restart : Bool := false
  step   : Bool := false
  utc    : Int := 0
deriving DecidableEq, Repr

/-- A closed body awaiting its signature (R365). -/
structure Body where
  rseq  : Nat
  words : List (BitVec 64)
  tick  : Nat
deriving DecidableEq, Repr

/-- Energy metering. IMPORT, EXPORT and the sequence numbers are in the NRG_ registers. -/
structure Energy where
  /-- Metering has started: PARKED has been entered. -/
  on     : Bool := false
  res    : Int := 0
  lastP  : Option Int := none
  missRun : Nat := 0
  /-- Flags CLEARED and JNEW of the next record (R361, R367). -/
  cleared : Bool := false
  jnew   : Bool := false
  open_  : Option Interval := none
  /-- Next whole second of control time, in ns, to be journalled. -/
  nextSec : Nat := 0
  queue  : List Body := []
  /-- Signed bodies that wait for their commit: RSEQ, words, bytes of the signature. -/
  signed : List (Nat × List (BitVec 64) × List Byte) := []
  /-- The next interval is the first after a restart (R362). -/
  restart : Bool := false
  /-- An acknowledgement has been received. -/
  acked  : Bool := false
  /-- Tick of the last offer of each committed record. -/
  offered : NMap Nat := []
  /-- Tick at which SIGN_FAIL was last sent (R365). -/
  failAt : Option Nat := none
deriving DecidableEq, Repr

/-! ### Chapter 17: security unit -/

/-- A request for a signature (R371, R372): 0 Cairn record, 1 attestation by command, 2 attestation over
SP2, 3 sequencer body. `arg` is the RSEQ, the response offset or the body offset; `nonce` the requester's. -/
structure SigReq where
  kind  : Nat
  arg   : Nat
  arg2  : Nat
  nonce : Nat
deriving DecidableEq, Repr

/-- A command of the security unit (R377): the block's offset, its operation and bytes once the unit has taken it, its result
where a check has failed or its signature is made, whether step 3 was reached, and its stage: 0 waits for the unit, 1 is in
progress, 2 waits for its signature. -/
structure SecJob where
  ofs   : Nat
  op    : Nat := 0
  block : List Byte := []
  res   : Option Nat := none
  auth  : Bool := false
  stage : Nat := 0
deriving DecidableEq, Repr

/-- The security unit. OTP fields that are not in registers stand here. -/
structure Sec where
  /-- OWNER_ROOT digests of programmed slots (R373). -/
  roots  : NMap Nat := []
  /-- A debug challenge is in force (R376, R384). -/
  chal   : Bool := false
  /-- The key store is being reloaded (R376). -/
  reload : Bool := false
  /-- Identity regeneration in progress (R375). -/
  regen  : Bool := false
  /-- Tick of the last failed debug attempt (R384). -/
  backAt : Nat := 0
  /-- Tick of the last debug access (R384). -/
  dbgTick : Nat := 0
  /-- The command submitted last, until it ends (R377). -/
  job    : Option SecJob := none
  /-- The loader's image verification waits for the unit, or has it (R371). -/
  imgWait : Bool := false
  /-- Signature in progress and requests waiting (R371). -/
  cur    : Option (SigReq × List (BitVec 64)) := none
  wait   : List SigReq := []
  /-- Statement sequence number (R383). -/
  stmt   : Nat := 0
  entFail : Bool := false
deriving DecidableEq, Repr

/-! ### Chapter 18: station ports -/

/-- A SETPOINT staged for the next cycle 0 (R398): class, ns from its last bit to that boundary (R400), entries. -/
structure Setp where
  cls : Nat
  age : Nat
  ent : List (Nat × Int)
  /-- Its place in the order in which the frames of all ports completed. -/
  ord : Nat := 0
deriving DecidableEq, Repr

/-- A station frame sent by the device: type, key identifier, sequence number, PCP, body and tag (R390 to R392), and the bytes
of its Ethernet frame without the FCS (R389, R394). -/
structure StnTx where
  type : Nat
  kid  : Nat
  seq  : Nat
  pcp  : Nat
  body : List (BitVec 8)
  tag  : Nat
  frame : List (BitVec 8)
deriving DecidableEq, Repr

/-- A station port. -/
structure Stn where
  /-- Last accepted SEQ by class (R396). -/
  seqs   : NMap Nat := []
  /-- Tokens by class in thousandths, and the tick each was brought up to; absent: full (R395). -/
  tokens : NMap Nat := []
  tokTick : NMap Nat := []
  staged : List Setp := []
  /-- Tick of the last latched class-0 SETPOINT, and whether C0_LATE has been sent in this run (R398). -/
  c0At   : Nat := 0
  c0Sent : Bool := false
  txSeq  : Nat := 0
  /-- Tick of the last message of each kind (R402). -/
  told   : NMap Nat := []
  /-- Frames sent, newest first. -/
  tx     : List StnTx := []
deriving DecidableEq, Repr

/-! ### Chapter 19: loader, image in force and service requests -/

/-- One configured cell of the image's cell map (R409). -/
structure CellCfg where
  prof  : Nat
  fb    : Bool
  nomRt : Nat
deriving DecidableEq, Repr

/-- What the sections of an image give outside the registers and memories (R406 to R409). -/
structure Image where
  /-- Cell map by global index. -/
  cells : NMap CellCfg := []
  /-- Profile settings words: key 256 p + a (R409). -/
  profs : NMap Nat := []
  /-- Arm of each CL port that is assigned to one, and the lanes marked used (PORTMAP). -/
  arms  : NMap Nat := []
  used  : List Nat := []
  /-- LSB exponent and unit of the slots that declare them (SLOTMAP): key slot, value unit + 256 exponent. -/
  slots : NMap Nat := []
  /-- The image has a SLOTMAP. -/
  slotMap : Bool := false
  /-- Held REG pairs, in order (R409). -/
  held  : List (Nat × Nat) := []
  gen   : Nat := 0
  svn   : Nat := 0
  /-- Configuration hash, 256 bits (R407). -/
  hash  : Nat := 0
deriving DecidableEq, Repr

/-- A flash command in progress (R420): operation, flash address, length, mailbox offset, tick of its start. -/
structure FlashCmd where
  op   : Nat
  addr : Nat
  len  : Nat
  ofs  : Nat
  tick : Nat
deriving DecidableEq, Repr

/-- An offline request (R423): port, tick of the write, granted, cells that it made draining. -/
structure OffReq where
  port  : Nat
  tick  : Nat
  grant : Bool
  cells : List Nat
deriving DecidableEq, Repr

/-- The configuration loader. -/
structure Loader where
  /-- Flash contents that differ from erased (0xFF). -/
  flash : List Host.Cell := []
  /-- XSPI_RST_N is low: its 10 µs at a reset release, over before the first command (R404, R480). -/
  rstPulse : Bool := false
  /-- Flash offers 8D-8D-8D (R404). -/
  flashOk : Bool := false
  /-- Candidates still to be tried, 1 for slot A and 2 for slot B, the one being read first; the first one tried. -/
  cand  : List Nat := []
  first : Nat := 0
  /-- The candidate is still to be read; what it gives once it is (R413). -/
  reading : Bool := false
  trial : Image := {}
  /-- The image in force. -/
  img   : Image := {}
  /-- The owner slot verdict of R378 is kept in SEC_STAT. -/
  cmd   : Option FlashCmd := none
  offs  : List OffReq := []
  /-- Cells that an offline request excluded, by port (R424). -/
  offCells : NMap (List Nat) := []
deriving DecidableEq, Repr

/-! ### Chapter 20: the station sequencer -/

/-- A wait in progress (R434): boundaries left for WTICK; mask, destination and boundaries left (0: no
timeout) for WEVT. -/
inductive Wait where
  | tick (left : Nat)
  | evt (mask : Nat) (rd : Nat) (left : Option Nat)
deriving DecidableEq, Repr

/-- The sequencer. Its mode, EPC, ENTRY, events and ring pointers are in the SEQ_ registers. -/
structure Seq where
  /-- Registers s1 to s15. -/
  x     : NMap Nat := []
  pc    : Nat := 0
  /-- The cores run, are stopped, or are stopped after a miscompare. -/
  run   : Bool := false
  dead  : Bool := false
  wait  : Option Wait := none
  /-- In a handler: NMI masked (R440). -/
  masked : Bool := false
  /-- An NMI is to be taken at the next instruction boundary; one is held while masked. -/
  nmi   : Bool := false
  held  : Bool := false
  /-- A role entry is held during a debug halt: reason (R472). -/
  role  : Option Nat := none
  /-- Watchdog count (R442). -/
  wd    : Nat := 0
  /-- Debug halt (R472), and a breakpoint to be passed once by STEP or RESUME. -/
  halt  : Bool := false
  pass  : Bool := false
deriving DecidableEq, Repr

/-! ### Chapters 21 to 23: memories, ports, debug, supplies -/

/-- Caver's test in progress (R457): its region and the tick of its start. -/
structure CaverRun where
  region : Nat
  tick   : Nat
deriving DecidableEq, Repr

/-- The mailbox in the CK_FAB cycle of its last access (R456): the words that ports H and F have read and written in it, and
whether the next access shares it; `undef` marks a request of port H that has read undefined data. -/
structure MboxPort where
  hr : List Nat := []
  hw : List Nat := []
  fr : List Nat := []
  fw : List Nat := []
  shares : Bool := false
  undef  : Bool := false
deriving DecidableEq, Repr

/-- The memories. -/
structure Memory where
  /-- Bytes that differ from what an unlisted address reads as. -/
  bytes : List Host.Cell := []
  /-- Inverted bits of stored 72-bit words, by word address: data bits 63 to 0, check bits 71 to 64 (R451). -/
  err   : NMap Nat := []
  /-- Corrected words waiting for their write-back (R452). -/
  wback : List Nat := []
  caver : Option CaverRun := none
  /-- The tick of the last expiry of Caver's period (R457). -/
  caverAt : Option Nat := none
  /-- Keys marked unusable by an uncorrectable word: 2p + s for a station port's slot, 8 identity, 9 challenge (R376). -/
  keyUe : List Nat := []
  /-- The last access of each port to the mailbox, with the share of its cycle (R456). -/
  mbox  : MboxPort := {}
deriving DecidableEq, Repr

/-- A response of the host port, and whether BUSY_N is low for its bytes (R465). -/
structure HostResp where
  words : List (BitVec 72)
  busy  : Bool
deriving DecidableEq, Repr

/-- A host request that waits for its response: header, data words as the checker passed them, its share of a cycle of the
mailbox (R464, R466). -/
structure HostReq where
  hdr  : BitVec 64
  data : List (Option (BitVec 64))
  sh   : Share
deriving DecidableEq, Repr

/-- Host port, TAP and debug access. -/
structure Dbg where
  /-- Responses sent by the host port, newest first, with BUSY_N held low (R465). -/
  resp  : List HostResp := []
  /-- Requests that wait, oldest first (R466). -/
  reqs  : List HostReq := []
  /-- TAP instruction register (R468), boundary register, pins held by boundary scan (R469), and the bits that the last scan
  shifted out on TDO, the first in bit 0. -/
  ir    : Nat := 2
  bsr   : List Bool := []
  scan  : Bool := false
  tdo   : Nat := 0xB9600A4D
  /-- KDA responses waiting, oldest first, and a KDA write whose data words are still to come (R470). -/
  kda   : List (BitVec 72) := []
  kdaReq : Option (BitVec 64 × List (Option (BitVec 64))) := none
  /-- The tick pipeline stands still in the present tick (R473). -/
  frozen : Bool := false
  /-- Authentication buffer bytes (R471). -/
  auth  : NMap Nat := []
deriving DecidableEq, Repr

/-- Supplies, temperature, reset and the pins that report (R475 to R494). -/
structure Elec where
  /-- The chip reset is asserted (R480). -/
  inReset : Bool := true
  /-- PORST_N is low (R480). -/
  porst : Bool := false
  /-- Rails below their low threshold, above their high threshold, and below nominal −10 % (R477, R478). -/
  low   : List Nat := []
  high  : List Nat := []
  below : List Nat := []
  /-- Reset held for temperature, and a TEMP_HIGH excursion in progress (R491). -/
  hot   : Bool := false
  tempHi : Bool := false
  /-- INT_N, ERR_A and ERR_B as asserted (R329). -/
  intN  : Bool := false
  errA  : Bool := true
  errB  : Bool := true
deriving DecidableEq, Repr

/-- The whole block. Registers are stored once, in `regs`: key 32 × byte address + lowest bit of the
field, value the field's content; an absent key reads as the field's reset value. -/
structure State where
  regs    : NMap Nat := []
  /-- R14 latches: key 16 × address of the latched register + master. -/
  latches : NMap Nat := []
  mem     : Memory := {}
  ctl     : TickCtl := {}
  lanes   : NMap Lane := []
  cmp     : Composer := {}
  ccell   : NMap CmpCell := []
  pdly    : NMap PortDly := []
  hubs    : NMap Hub := []
  cells   : NMap Cell := []
  sel     : NMap SelRec := []
  selArm  : NMap SelArm := []
  excl    : List ExclReq := []
  pln     : NMap PlnArm := []
  pat     : PatCommit := {}
  eng     : Engine := {}
  prot    : Prot := {}
  concs   : NMap Conc := []
  sns     : NMap SnsPort := []
  time    : Time := {}
  red     : Red := {}
  sump    : Sump := {}
  acq     : Acq := {}
  nrg     : Energy := {}
  sec     : Sec := {}
  stn     : NMap Stn := []
  ld      : Loader := {}
  seq     : Seq := {}
  dbg     : Dbg := {}
  elec    : Elec := {}
  /-- The MODEL'S OWN counter of free values drawn; not a register of the spec. -/
  fresh   : Nat := 0
  /-- Commands waiting, first in first out. -/
  pending : List Instr := []
deriving DecidableEq, Repr


/-- Faults: reasons for which the machine stops. The block has none: every command of the table runs. -/
inductive Fault where
deriving DecidableEq, Repr

/-- Refusals. -/
inductive Refusal where
  /-- Raised by an arm of `exec` whose command has no meaning yet; safe, since no effect is invented. -/
  | notModelled (mnemonic : String)
deriving DecidableEq, Repr

/-- The machine right after a power-on reset, before its release (R480): state RESET, every register at its Reset
column value (no key listed in `regs`), the memories with nothing listed, and no command waiting. -/
def State.reset : State := {}

end Sys2Proof.Machine
end

