-- ==== Sys2Proof/Machine/Ops.lean ====
section
/-! DEFINITION. The named operations over sparse tables, memory and numbers: the helpers of R16 and the byte
memory of R5, with the drawing of free values. -/
namespace Sys2Proof.Machine
open Sys2Proof

/-! ### Sparse tables -/

/-- The value at a key; an absent key reads as the default. -/
def mget {α : Type} (d : α) : NMap α → Nat → α
  | [], _ => d
  | (k, v) :: t, i => if k = i then v else mget d t i

/-- Insertion at a key, in rising key order. -/
def mput {α : Type} : NMap α → Nat → α → NMap α
  | [], i, x => [(i, x)]
  | (k, v) :: t, i, x =>
    if i < k then (i, x) :: (k, v) :: t
    else if i = k then (i, x) :: t
    else (k, v) :: mput t i x

/-- Removal of a key. -/
def mdel {α : Type} : NMap α → Nat → NMap α
  | [], _ => []
  | (k, v) :: t, i => if k = i then mdel t i else (k, v) :: mdel t i

/-- The table with a key set to a value; the default value is not listed. -/
def mset {α : Type} [DecidableEq α] (d : α) (m : NMap α) (i : Nat) (x : α) : NMap α :=
  if x = d then mdel m i else mput m i x

/-- The table with the value at a key changed. -/
def mupd {α : Type} [DecidableEq α] (d : α) (m : NMap α) (i : Nat) (f : α → α) : NMap α :=
  mset d m i (f (mget d m i))

/-! ### Numbers: the helpers of R16 -/

/-- `wrap(x, w)`. -/
def wrap (x : Int) (w : Nat) : Nat := (x % (2 ^ w : Nat)).toNat

/-- `bits(x, m, l)`. -/
def bitsOf (x m l : Nat) : Nat := x / 2 ^ l % 2 ^ (m + 1 - l)

/-- `sext(x, w)`. -/
def sext (x w : Nat) : Int :=
  let y := x % 2 ^ w
  if y < 2 ^ (w - 1) then y else (y : Int) - (2 ^ w : Nat)

/-- The value that an assignment to a declared signed width keeps (R16). -/
def swrap (x : Int) (w : Nat) : Int := sext (wrap x w) w

/-- The tick nearest to the present one with the given low 9 bits, an XTICK (R93, R94). -/
def nearTick (now x : Nat) : Int := now + sext (wrap ((x : Int) - now) 9) 9

/-- The ticks of a list that the 9 bits of an XTICK can name beside tick t. -/
def nearTicks (t : Int) (l : List Int) : List Int := l.filter fun k => decide ((k - t).natAbs < 512)

/-- `clamp(x, lo, hi)`. -/
def clampI (x lo hi : Int) : Int := if x < lo then lo else if hi < x then hi else x

/-- `sat(x, w)`. -/
def sat (x : Int) (w : Nat) : Int := clampI x (-(2 ^ (w - 1) : Nat)) ((2 ^ (w - 1) : Nat) - 1)

/-- `usat(x, w)`. -/
def usat (x : Int) (w : Nat) : Nat := (clampI x 0 ((2 ^ w : Nat) - 1)).toNat

/-- `floor_div(a, b)`, b > 0. -/
def floorDiv (a : Int) (b : Nat) : Int := a / (b : Int)

/-- `floor_shift(x, s)`. -/
def floorShift (x : Int) (s : Nat) : Int := x / ((2 ^ s : Nat) : Int)

/-- `round_shift(x, s)`: halves round toward plus infinity. -/
def roundShift (x : Int) (s : Nat) : Int :=
  if s = 0 then x else (x + ((2 ^ (s - 1) : Nat) : Int)) / ((2 ^ s : Nat) : Int)

/-- Serial order modulo 2^w (R499): b is after a. -/
def serialAfter (w b a : Nat) : Bool :=
  let d := wrap ((b : Int) - a) w
  1 ≤ d && d < 2 ^ (w - 1)

/-- Bit i of a number. -/
def tbit (x i : Nat) : Bool := x / 2 ^ i % 2 == 1

/-- A number with bit i set. -/
def setBit (x i : Nat) : Nat := if tbit x i then x else x + 2 ^ i

/-- A number with bit i cleared. -/
def clrBit (x i : Nat) : Nat := if tbit x i then x - 2 ^ i else x

/-- A truth value as a bit. -/
def b2n (b : Bool) : Nat := if b then 1 else 0

/-- The numbers below n in rising order. -/
def upto (n : Nat) : List Nat := List.range n

/-- The indices below n whose bit of x is set. -/
def bitsSet (x n : Nat) : List Nat := (upto n).filter (tbit x)

/-- Little-endian bytes of a number (R5). -/
def leBytes : Nat → Nat → List Byte
  | 0, _ => []
  | n + 1, v => BitVec.ofNat 8 v :: leBytes n (v / 256)

/-- The number of little-endian bytes (R5). -/
def leNat : List Byte → Nat
  | [] => 0
  | b :: t => b.toNat + 256 * leNat t

/-- Most significant byte first (network byte order). -/
def beNat (l : List Byte) : Nat := leNat l.reverse

/-- The n bytes of a number in network byte order. -/
def beBytes (n v : Nat) : List Byte := (leBytes n v).reverse

/-- The 64-bit words of a byte string in address order (R5). -/
def wordsOf : Nat → List Byte → List (BitVec 64)
  | 0, _ => []
  | n + 1, l => BitVec.ofNat 64 (leNat (l.take 8)) :: wordsOf n (l.drop 8)

/-- The bytes of 64-bit words in address order. -/
def bytesOf (l : List (BitVec 64)) : List Byte := l.flatMap fun w => leBytes 8 w.toNat

/-- n bits of a number, least significant first. -/
def lsbBits : Nat → Nat → List Bool
  | 0, _ => []
  | n + 1, v => (v % 2 == 1) :: lsbBits n (v / 2)

/-- A list of bits, least significant first, as a number. -/
def lsbNat : List Bool → Nat
  | [] => 0
  | b :: t => b2n b + 2 * lsbNat t

/-- A list of bits, most significant first, as a number. -/
def msbNat (l : List Bool) : Nat := l.foldl (fun a b => 2 * a + b2n b) 0

/-- n bits of a number, most significant first. -/
def msbBits (n v : Nat) : List Bool := (lsbBits n v).reverse

/-! ### Byte memory -/

/-- What an unlisted address reads as: 0, but byte 82 of each channel state block, whose PRIME_PEND bit is 1
after chip reset (R217), and the identity blob and the certificate that the MRAM security area holds from Knawick's test
(R375). Random access memory that nothing has written reads 0 (DESIGN CHOICE, log entry 2). -/
def memDefault (a : Nat) : Byte :=
  if 0x10020000 ≤ a ∧ a < 0x10026000 ∧ (a - 0x10020000) % 128 = 82 then 0x10
  else if 0x40100000 ≤ a ∧ a < 0x40108000 then Config.factoryArea (a - 0x40100000)
  else 0

/-- One byte of a cell list whose unlisted addresses read as `d`. -/
def cget (d : Nat → Byte) : List Host.Cell → Nat → Byte
  | [], a => d a
  | (k, v) :: t, a => if k = a then v else cget d t a

/-- Insertion of one byte, in rising address order. -/
def cput : List Host.Cell → Nat → Byte → List Host.Cell
  | [], a, v => [(a, v)]
  | (k, x) :: t, a, v =>
    if a < k then (a, v) :: (k, x) :: t
    else if a = k then (a, v) :: t
    else (k, x) :: cput t a v

/-- Removal of one byte. -/
def cdel : List Host.Cell → Nat → List Host.Cell
  | [], _ => []
  | (k, x) :: t, a => if k = a then cdel t a else (k, x) :: cdel t a

/-- The cell list with one byte written, in canonical form. -/
def cset (d : Nat → Byte) (l : List Host.Cell) (a : Nat) (v : Byte) : List Host.Cell :=
  if v = d a then cdel l a else cput l a v

/-- n bytes from an address on, as a little-endian number. -/
def crd (d : Nat → Byte) (l : List Host.Cell) (a : Nat) : Nat → Nat
  | 0 => 0
  | n + 1 => (cget d l a).toNat + 256 * crd d l (a + 1) n

/-- n bytes of a number written from an address on. -/
def cwr (d : Nat → Byte) (l : List Host.Cell) (a : Nat) : Nat → Nat → List Host.Cell
  | 0, _ => l
  | n + 1, v => cwr d (cset d l a (BitVec.ofNat 8 v)) (a + 1) n (v / 256)

/-- Strictly rising addresses, all above a bound. -/
def cellsSorted : Option Nat → List Host.Cell → Bool
  | _, [] => true
  | none, (k, _) :: t => cellsSorted (some k) t
  | some b, (k, _) :: t => decide (b < k) && cellsSorted (some k) t

/-- The canonical form: addresses strictly rising, no entry equal to what its address reads as unlisted. -/
def Memory.wf (m : Memory) : Bool :=
  cellsSorted none m.bytes && m.bytes.all fun c => c.2 != memDefault c.1

/-- One byte of memory. -/
def State.byteAt (s : State) (a : Nat) : Byte := cget memDefault s.mem.bytes a

/-- n bytes of memory as a little-endian number. -/
def State.rd (s : State) (a n : Nat) : Nat := crd memDefault s.mem.bytes a n

/-- n bytes of memory written; the words they lie in get fresh check bits (R449, R450). -/
def State.wr (s : State) (a n v : Nat) : State :=
  { s with mem := { s.mem with bytes := cwr memDefault s.mem.bytes a n v,
                               err := s.mem.err.filter fun p => decide (p.1 + 8 ≤ a ∨ a + n ≤ p.1) } }

/-- n bytes of memory as a list. -/
def State.rdBytes (s : State) (a : Nat) (n : Nat) : List Byte := (upto n).map fun i => s.byteAt (a + i)

/-- A list of bytes written from an address on. -/
def State.wrBytes (s : State) : Nat → List Byte → State
  | _, [] => s
  | a, b :: t => State.wrBytes (s.wr a 1 b.toNat) (a + 1) t

/-- 64-bit words written from an address on. -/
def State.wrWords (s : State) : Nat → List (BitVec 64) → State
  | _, [] => s
  | a, w :: t => State.wrWords (s.wr a 8 w.toNat) (a + 8) t

/-- n 64-bit words of memory from an address on. -/
def State.rdWords (s : State) (a n : Nat) : List (BitVec 64) :=
  (upto n).map fun i => BitVec.ofNat 64 (s.rd (a + 8 * i) 8)

/-! ### The signal bus (R26) -/

/-- A slot read as an s32. -/
def State.slot (s : State) (i : Nat) : Int := sext (s.rd (0x10000000 + 4 * (i % 1024)) 4) 32

/-- A slot written with `sat32` of a value. -/
def State.setSlot (s : State) (i : Nat) (v : Int) : State :=
  s.wr (0x10000000 + 4 * (i % 1024)) 4 (wrap (sat v 32) 32)

/-- A slot written with a 32-bit pattern (R31). -/
def State.setSlotBits (s : State) (i : Nat) (v : Nat) : State := s.wr (0x10000000 + 4 * (i % 1024)) 4 v

/-! ### Free values -/

/-- The next free value, cut to w bits, and the state that has drawn it. -/
def State.draw (s : State) (w : Nat) : Nat × State :=
  ((Config.freeValue s.fresh).toNat % 2 ^ w, { s with fresh := s.fresh + 1 })

/-- A state folded over the numbers below n. -/
def foldUpto (n : Nat) (f : State → Nat → State) (s : State) : State := (upto n).foldl f s

/-- The number of a fabric master (R453). -/
def Master.num : Master → Nat
  | .host => 0 | .debug => 1 | .sequencer => 2 | .station => 3 | .lantern => 4
  | .cairn => 5 | .security => 6 | .loader => 7 | .redundancy => 8

/-- The size of an access in bytes. -/
def Access.size : Access → Nat
  | .byte => 1 | .half => 2 | .word => 4 | .dword => 8

end Sys2Proof.Machine
end

