-- ==== Sys2Proof/Machine/Operands.lean ====
section
/-! DEFINITION. The forms in which data arrive: the Hsiao (72,64) code (R449 to R451), the scrambler (R64), bit
stuffing (R65, R66), markers (R68 to R71), the words of a frame on the line (R63, R76) and its CRC (R92), and the
CRC-64 of the command digest (R297). -/
namespace Sys2Proof.Machine
open Sys2Proof

/-! ### Hsiao (72,64) -/

/-- Number of ones of a byte. -/
def popcount8 (v : Nat) : Nat := ((upto 8).filter (tbit v)).length

/-- The columns of the code by their rule (R450): weight 3 in rising value, then the first 8 of weight 5. -/
def hsiaoRule : List Nat :=
  (upto 256).filter (fun v => popcount8 v == 3) ++ ((upto 256).filter fun v => popcount8 v == 5).take 8

/-- The columns col[0] to col[63] (R450); the tests show them equal to `hsiaoRule`. -/
def hsiaoCols : List Nat :=
  [0x07, 0x0B, 0x0D, 0x0E, 0x13, 0x15, 0x16, 0x19, 0x1A, 0x1C, 0x23, 0x25, 0x26, 0x29, 0x2A, 0x2C,
   0x31, 0x32, 0x34, 0x38, 0x43, 0x45, 0x46, 0x49, 0x4A, 0x4C, 0x51, 0x52, 0x54, 0x58, 0x61, 0x62,
   0x64, 0x68, 0x70, 0x83, 0x85, 0x86, 0x89, 0x8A, 0x8C, 0x91, 0x92, 0x94, 0x98, 0xA1, 0xA2, 0xA4,
   0xA8, 0xB0, 0xC1, 0xC2, 0xC4, 0xC8, 0xD0, 0xE0, 0x1F, 0x2F, 0x37, 0x3B, 0x3D, 0x3E, 0x4F, 0x57]

/-- The check bits of 64 data bits: the exclusive or of the columns of the bits that are 1. -/
def hsiaoChk (d : BitVec 64) : BitVec 8 :=
  (hsiaoCols.zipIdx).foldl (fun a p => if d.getLsbD p.2 then a ^^^ BitVec.ofNat 8 p.1 else a) 0

/-- A 64-bit word with its check bits, as a link word. -/
def hsiaoEnc (d : BitVec 64) : ECWord := hsiaoChk d ++ d

/-- What a checker makes of a syndrome (R451): nothing, a corrected data bit, a corrected check bit, or an
uncorrectable word. -/
inductive Ecc where
  | ok | data (i : Nat) | check | ue
deriving DecidableEq, Repr

/-- Decoding of a syndrome (R451). -/
def eccOf (syn : BitVec 8) : Ecc :=
  if syn = 0 then .ok
  else match hsiaoCols.findIdx? (fun c => c == syn.toNat) with
    | some i => .data i
    | none => if [1, 2, 4, 8, 16, 32, 64, 128].contains syn.toNat then .check else .ue

/-- The syndrome of a 72-bit word. -/
def syndrome (w : ECWord) : BitVec 8 := hsiaoChk (w.extractLsb' 0 64) ^^^ w.extractLsb' 64 8

/-- A received word: its outcome and the data delivered. -/
def hsiaoDec (w : ECWord) : Ecc × BitVec 64 :=
  let d := w.extractLsb' 0 64
  match eccOf (syndrome w) with
  | .data i => (.data i, d ^^^ (1#64 <<< i))
  | e => (e, d)

/-- The word passed its check bits, corrected or not. -/
def Ecc.good : Ecc → Bool
  | .ue => false
  | _ => true

/-- A single-bit error was corrected. -/
def Ecc.fixed : Ecc → Bool
  | .data _ => true
  | .check => true
  | _ => false

/-! ### Scrambler (R64) -/

/-- The key bit of the scrambler. -/
def scrKey (l : BitVec 23) : Bool := l.getLsbD 22 != l.getLsbD 17

/-- The scrambler's next state. -/
def scrNext (l : BitVec 23) : BitVec 23 := (l <<< 1) ||| (if scrKey l then 1 else 0)

/-- Data bits scrambled from a state of the shift register; the same function descrambles. -/
def scramble : BitVec 23 → List Bool → List Bool
  | _, [] => []
  | l, d :: t => (d != scrKey l) :: scramble (scrNext l) t

/-- The seed after each FRAME marker. -/
def scrSeed : BitVec 23 := 0x7FFFFF

/-! ### Bit stuffing (R65, R66) -/

/-- The run counter after one data bit. -/
def runNext (run : Nat) (last b : Bool) : Nat := if run = 0 ∨ b ≠ last then 1 else run + 1

/-- The transmitter's stuffing of scrambled data bits. -/
def stuff : Nat → Bool → List Bool → List Bool
  | _, _, [] => []
  | run, last, b :: t =>
    if runNext run last b = 7 then b :: (!b) :: stuff 0 b t
    else b :: stuff (runNext run last b) b t

/-- The receiver's destuffing: `due` says that the next bit is a stuff bit. The data bits, and the number of
stuffing violations. -/
def destuff : Bool → Nat → Bool → List Bool → List Bool × Nat
  | _, _, _, [] => ([], 0)
  | true, _, last, b :: t =>
    let r := destuff false 0 last t
    (r.1, r.2 + b2n (b == last))
  | false, run, last, b :: t =>
    let n := runNext run last b
    let r := if n = 7 then destuff true 0 b t else destuff false n b t
    (b :: r.1, r.2)

/-! ### Markers (R68 to R71) -/

/-- The 32-bit line word of a marker (R68). -/
def markerWord : Marker → Nat
  | .frame => 0x001FFCD6
  | .block => 0xFFE00329
  | .alert => 0xFFE002C3
  | .trig  => 0x001FFD3C

/-- The 10-bit code of a marker. -/
def markerCode (m : Marker) : Nat := markerWord m % 1024

/-- Number of differing bits. -/
def hamming (w a b : Nat) : Nat := ((upto w).filter fun i => tbit a i != tbit b i).length

/-- What a receiver makes of a recognised marker (R70). -/
inductive MarkRx where
  | ok (k : Marker)
  | fixed (k : Marker)
  | bad (ones : Bool)
deriving DecidableEq, Repr

/-- Decoding of 10 code bits against the two codes that share the preamble (`ones`: ones then zeros). -/
def markerDecode (ones : Bool) (code : Nat) : MarkRx :=
  let (a, b) := if ones then (Marker.block, Marker.alert) else (Marker.frame, Marker.trig)
  let da := hamming 10 code (markerCode a)
  let db := hamming 10 code (markerCode b)
  if da = 0 then .ok a else if db = 0 then .ok b
  else if da ≤ 2 then .fixed a else if db ≤ 2 then .fixed b
  else .bad ones

/-- A line word recognised as a marker (R69): 11 equal bits, exactly 11 of the other value, then the code. -/
def markerOf (w : Word) : Option MarkRx :=
  let hi := w.toNat / 2 ^ 10
  let c9 := tbit w.toNat 9
  if hi = 0x3FF800 ∧ c9 then some (markerDecode true (w.toNat % 1024))
  else if hi = 0x7FF ∧ !c9 then some (markerDecode false (w.toNat % 1024))
  else none

/-- The receiver's removal of markers and guard bits (R66 step 1, R69, R71) from the line bits that follow a
FRAME marker's last code bit: the data segments between markers. `acc` holds the bits since the last marker, newest
first; `cv`, `cn` the present run, `pn` the run before it; `code` counts code bits still to come. A segment loses
its last bit, the guard, before a marker. -/
def segments : List Bool → List Bool → Bool → Nat → Nat → Nat → List (List Bool)
  | [], acc, _, _, _, _ => [acc.reverse]
  | b :: t, acc, cv, cn, pn, code =>
    if code = 1 then segments t [] b 0 0 0
    else if code > 1 then segments t acc b 0 0 (code - 1)
    else if cn > 0 ∧ b = cv then segments t (b :: acc) cv (cn + 1) pn 0
    else if cn = 11 ∧ 11 ≤ pn then
      ((acc.drop 22).drop 1).reverse :: segments t [] b 0 0 9
    else segments t (b :: acc) b 1 cn 0

/-- Destuffing of the segments, the run counter restarting at each (R66): data bits and violations. -/
def destuffAll (segs : List (List Bool)) : List Bool × Nat :=
  segs.foldl (fun a sg => let r := destuff false 0 false sg; (a.1 ++ r.1, a.2 + r.2)) ([], 0)

/-! ### Frames on the line (R63, R76, R92) -/

/-- CRC-32C over one 64-bit word, most significant bit first (R92). -/
def crc32Word (crc : BitVec 32) (w : BitVec 64) : BitVec 32 :=
  (msbBits 64 w.toNat).foldl (fun c b =>
    let fb := c.getLsbD 31 != b
    let c := c <<< 1
    if fb then c ^^^ 0x1EDC6F41#32 else c) crc

/-- The trailer of a frame's payload words (R92). -/
def crc32 (ws : List (BitVec 64)) : BitVec 32 := (ws.foldl crc32Word 0xFFFFFFFF#32) ^^^ 0xFFFFFFFF#32

/-- CRC-64 over one word (R297). -/
def crc64Word (c w : BitVec 64) : BitVec 64 :=
  (msbBits 64 w.toNat).foldl (fun c b =>
    let fb := c.getLsbD 63 != b
    let c := c <<< 1
    if fb then c ^^^ 0x42F0E1EBA9EA3693#64 else c) c

/-- The bits of a link word in line order (R63): data 63 down to 0, then check bits 7 down to 0. -/
def lineWord (d : BitVec 64) : List Bool := msbBits 64 d.toNat ++ msbBits 8 (hsiaoChk d).toNat

/-- The data bits of a frame after its FRAME marker: header, payload and trailer, then n fill bits (R76). -/
def frameData (hdr : BitVec 64) (ws : List (BitVec 64)) (fill : Nat) : List Bool :=
  lineWord hdr ++ ws.flatMap lineWord ++ msbBits 32 (crc32 ws).toNat ++ List.replicate fill false

/-- The line bits of a frame without priority markers, after its FRAME marker. -/
def frameLine (hdr : BitVec 64) (ws : List (BitVec 64)) (fill : Nat) : List Bool :=
  stuff 0 false (scramble scrSeed (frameData hdr ws fill))

/-- The data bits recovered from the line bits after a FRAME marker, and the stuffing violations (R66). -/
def lineData (line : List Bool) : List Bool × Nat :=
  let r := destuffAll (segments line [] false 0 0 0)
  (scramble scrSeed r.1, r.2)

/-- The next 72-bit words of recovered data bits: data from the first 64 bits, check bits from the last 8. -/
def takeWords : Nat → List Bool → List ECWord × List Bool
  | 0, l => ([], l)
  | n + 1, l =>
    let w : ECWord := BitVec.ofNat 8 (msbNat ((l.drop 64).take 8)) ++ BitVec.ofNat 64 (msbNat (l.take 64))
    let r := takeWords n (l.drop 72)
    (w :: r.1, r.2)

/-- A frame as received: header outcome and word, payload outcomes and words, whether its CRC passes, and the
stuffing violations. -/
structure FrameIn where
  hdrEcc : Ecc
  hdr    : BitVec 64
  words  : List (Ecc × BitVec 64)
  crcOk  : Bool
  stuffV : Nat
  /-- Syndromes of the header and the payload words. -/
  syns   : List (BitVec 8)
deriving DecidableEq, Repr

/-- Reception of a frame of n payload words from its line bits (R66, R92). -/
def frameIn (n : Nat) (line : List Bool) : FrameIn :=
  let (bits, v) := lineData line
  let (ws, rest) := takeWords (n + 1) bits
  let hd := hsiaoDec (ws.headD 0)
  let pl := (ws.drop 1).map hsiaoDec
  { hdrEcc := hd.1, hdr := hd.2, words := pl,
    crcOk := decide (bits.length ≥ 72 * (n + 1) + 32) &&
      (crc32 (pl.map (·.2))).toNat == msbNat (rest.take 32),
    stuffV := v, syns := ws.map syndrome }

/-! ### Transmission with priority markers (R71) -/

/-- The line bits of a frame with priority markers at line word boundaries, from position `pos` on: `pend` is a
stuff bit still to be sent. A marker occupies its line word; the bit before it is a guard bit of the opposite value
unless a marker stands there; a stuff bit whose place a guard takes is cancelled (R65). -/
def txLine (marks : List (Nat × Marker)) : Nat → Nat → Nat → Bool → Option Bool → List Bool → List Bool
  | 0, _, _, _, _, _ => []
  | fuel + 1, pos, run, last, pend, ds =>
    match (if pos % 32 = 0 then marks.find? (fun m => m.1 = pos / 32) else none) with
    | some m => msbBits 32 (markerWord m.2) ++ txLine marks fuel (pos + 32) 0 last none ds
    | none =>
      match (if pos % 32 = 31 then marks.find? (fun m => m.1 = pos / 32 + 1) else none) with
      | some m => (!(tbit (markerWord m.2) 31)) :: txLine marks fuel (pos + 1) (if pend.isSome then 0 else run) last none ds
      | none =>
        match pend with
        | some b => b :: txLine marks fuel (pos + 1) 0 last none ds
        | none =>
          match ds with
          | [] => []
          | d :: t =>
            let n := runNext run last d
            d :: txLine marks fuel (pos + 1) n d (if n = 7 then some (!d) else none) t

/-- How many of the data bits have not been sent when the line reaches a bit position: the walk of `txLine`
without its output. -/
def txRest (marks : List (Nat × Marker)) (stop : Nat) : Nat → Nat → Nat → Bool → Option Bool → List Bool → Nat
  | 0, _, _, _, _, ds => ds.length
  | fuel + 1, pos, run, last, pend, ds =>
    if stop ≤ pos then ds.length
    else match (if pos % 32 = 0 then marks.find? (fun m => m.1 = pos / 32) else none) with
    | some _ => txRest marks stop fuel (pos + 32) 0 last none ds
    | none =>
      match (if pos % 32 = 31 then marks.find? (fun m => m.1 = pos / 32 + 1) else none) with
      | some _ => txRest marks stop fuel (pos + 1) (if pend.isSome then 0 else run) last none ds
      | none =>
        match pend, ds with
        | some _, ds => txRest marks stop fuel (pos + 1) 0 last none ds
        | none, [] => 0
        | none, d :: t =>
          let n := runNext run last d
          txRest marks stop fuel (pos + 1) n d (if n = 7 then some (!d) else none) t

/-- A command word in the form of R100: to BLOCK at offset 0, no edge B, HOLD_OK set, and the gate profile of a word
that carries only a change to BLK (R186); its other fields stay. -/
def blockForm (gp : Nat) (w : BitVec 64) : BitVec 64 :=
  (w &&& 0xFE0000007F8FFFFF#64) ||| 0x00000FFF80100000#64 ||| BitVec.ofNat 64 (gp % 4 * 2 ^ 21)

/-- Which marker may directly follow another (R71). -/
def mayFollow : Marker → Marker → Bool
  | .frame, .block => true
  | .frame, .alert => true
  | .block, .frame => true
  | .block, .trig  => true
  | .alert, .frame => true
  | .alert, .trig  => true
  | .trig,  .block => true
  | .trig,  .alert => true
  | _, _ => false

/-- The order in which requests committed for one boundary are sent (R74). -/
def markerOrder : List Marker := [.block, .alert, .trig]

/-- The marker sent at boundary b of a frame of `fw` line words, out of those committed for b or before (R71, R73, R74):
`prev` is the marker directly before b, and at `fw` the next FRAME marker follows. R74 orders the requests of one boundary
only; the same order stands between markers that wait from different boundaries (DESIGN CHOICE, log entry 121). -/
def markerAt (fw b : Nat) (prev : Option Marker) (wait : List (Nat × Marker)) : Option (Nat × Marker) :=
  let fits (k : Marker) : Bool :=
    (match prev with
      | some p => mayFollow p k
      | none => true) && (b + 1 != fw || mayFollow k .frame)
  markerOrder.findSome? fun k => if fits k then wait.find? fun m => m.2 == k && decide (m.1 ≤ b) else none

/-- The boundaries at which committed markers are sent from boundary b on (R73, R74), one at each admissible boundary; the
boundary `fw` belongs to the next frame. -/
def schedule (fw : Nat) : Nat → Nat → Option Marker → List (Nat × Marker) → List (Nat × Marker)
  | 0, _, _, _ => []
  | n + 1, b, prev, wait =>
    if wait.isEmpty ∨ fw ≤ b then []
    else match markerAt fw b prev wait with
      | some m => (b, m.2) :: schedule fw n (b + 1) (some m.2) (wait.erase m)
      | none => schedule fw n (b + 1) none wait

/-- The markers of a frame of `fw` line words at their boundaries. -/
def frameMarks (fw : Nat) (commits : List (Nat × Marker)) : List (Nat × Marker) :=
  let b := commits.foldl (fun a m => min a m.1) fw
  schedule fw fw (max b 1) (if b ≤ 1 then some .frame else none) commits

end Sys2Proof.Machine
end

