-- ==== Sys2Proof/Machine/Regs.lean ====
section
/-! DEFINITION. The named register fields: address, lowest bit, width and reset value of each, from the
chapters' register tables. A field's content is stored once, in `State.regs`. -/
namespace Sys2Proof.Machine
open Sys2Proof

/-- A register field. -/
structure Fld where
  addr : Nat
  lo   : Nat
  w    : Nat
  rst  : Nat
deriving DecidableEq, Repr

/-- Base address of the line register set of a lane: CL 0 to 31, SL 32 to 35, ML 36 to 39 (R88). -/
def lineBase (n : Nat) : Nat :=
  if n < 32 then 0x100000 + 0x1000 * n
  else if n < 36 then 0x128000 + 0x1000 * (n - 32)
  else 0x138000 + 0x1000 * (n - 36)

/-- N, W in the unit given, WMS, Q, QMS, minor and severe mask that source n holds after chip reset (R335). -/
def fltDefault (n : Nat) : Nat × Nat × Nat × Nat × Nat × Nat × Nat :=
  let ms (n w q minor severe : Nat) := (n, w, 1, q, 1, minor, severe)
  if n ≤ 1 then ms 16 1000 10 0x03 0x23
  else if (0x10 ≤ n ∧ n ≤ 0x12) ∨ (0x16 ≤ n ∧ n ≤ 0x18) ∨ (0x20 ≤ n ∧ n ≤ 0x2F) then (1, 1, 0, 1000, 1, 0x33, 0x33)
  else if 0x13 ≤ n ∧ n ≤ 0x15 then ms 1 1000 1000 0x03 0x23
  else if n = 0x30 then ms 1 10000 10000 0x03 0x33
  else if 0x80 ≤ n ∧ n ≤ 0xEF then ms 64 1000 1000 0x01 0x23
  else if n = 0xF0 then ms 16 1000 100 0x03 0x07
  else if (0x100 ≤ n ∧ n ≤ 0x17F ∧ n % 4 = 0) ∨ (0x180 ≤ n ∧ n ≤ 0x1BF ∧ n % 8 = 0) then ms 4 1000 100 0x03 0x23
  else if (0x100 ≤ n ∧ n ≤ 0x17F ∧ n % 4 = 1) ∨ (0x180 ≤ n ∧ n ≤ 0x1BF ∧ n % 8 = 1) then (8, 1000, 0, 100, 1, 0x01, 0x03)
  else if 0x100 ≤ n ∧ n ≤ 0x17F then ms 16 1000 1000 0x03 0x23
  else if 0x180 ≤ n ∧ n ≤ 0x19F ∧ (n % 8 = 2 ∨ n % 8 = 3) then ms 4 1000 1000 0x03 0x23
  else if 0x1C0 ≤ n ∧ n ≤ 0x1FF then ms 16 1000 100 0x03 0x23
  else if 0x200 ≤ n ∧ n ≤ 0x26F then (4, 1000, 0, 1000, 0, 0x01, 0x13)
  else if n = 0x270 then ms 4 1000 100 0x03 0x07
  else if 0x280 ≤ n ∧ n ≤ 0x2C0 then ms 8 1000 100 0x03 0x23
  else if 0x300 ≤ n ∧ n ≤ 0x333 then ms 1 1000 1000 0x03 0x23
  else if 0x340 ≤ n ∧ n ≤ 0x343 then ms 4 60000 1000 0x03 0x03
  else if 0x380 ≤ n ∧ n ≤ 0x385 then ms 4 1000 1000 0x03 0x23
  else if 0x3C0 ≤ n ∧ n ≤ 0x3DF then ms 8 1000 1000 0x03 0x23
  else if 0x3E0 ≤ n ∧ n ≤ 0x3E7 then ms 4 1000 1000 0x03 0x27
  else ms 16 1000 1000 0x01 0x01

/-- Reset value of a field whose Reset column is not a number: the source defaults of R335, the OTP fields, the
regions of R453 and the buckets of `STN_RATEc`. -/
def resetAt (addr lo : Nat) : Nat :=
  if 0x14000 ≤ addr ∧ addr < 0x18000 then
    let (n, w, wms, q, qms, minor, severe) := fltDefault ((addr - 0x14000) / 16)
    if addr % 16 = 0 then
      (if lo = 0 then n else if lo = 8 then w else if lo = 24 then wms else qms)
    else (if lo = 0 then minor else if lo = 8 then severe else q)
  else if addr = 0xB0004 then Config.serial.toNat % 2 ^ 32
  else if addr = 0xB0008 then Config.serial.toNat / 2 ^ 32
  else if addr = 0xB000C then
    (if lo = 0 then Config.otpOwner.toNat % 16 else if lo = 4 then Config.otpOwner.toNat / 16 % 16
     else Config.otpOwner.toNat / 256)
  else if 0xE1000 ≤ addr ∧ addr < 0xE1900 then
    let m := (addr - 0xE1000) / 0x100
    let r := addr % 0x100 / 0x10
    if addr % 16 = 0 then 0
    else if addr % 16 = 4 then (if m < 3 ∧ r = 0 then 0xFFFFFF else 0)
    else if lo = 3 then (if m = 2 ∧ r = 0 then 1 else 0)
    else (if m < 3 ∧ r = 0 then 1 else 0)
  else if 0x140000 ≤ addr ∧ lo = 16 then
    let c := (addr % 0x4000 - 0x20) / 4
    if c = 0 then 2 else if c = 4 then 0x40 else 0x10
  else 0

/-- The content of a field. -/
def State.fld (s : State) (f : Fld) : Nat := mget f.rst s.regs (32 * f.addr + f.lo)

/-- The field set to a value, of which it keeps the low bits. -/
def State.setFld (s : State) (f : Fld) (v : Nat) : State :=
  { s with regs := mset f.rst s.regs (32 * f.addr + f.lo) (v % 2 ^ f.w) }

/-- A one-bit field read as a truth value. -/
def State.bit (s : State) (f : Fld) : Bool := s.fld f != 0

def CLK_CHIP_ID_PART : Fld := ⟨0x0, 16, 16, 0x9600⟩
def CLK_CHIP_ID_STEP_MAJOR : Fld := ⟨0x0, 12, 4, 0xB⟩
def CLK_CHIP_ID_STEP_MINOR : Fld := ⟨0x0, 8, 4, 0⟩
def CLK_CHIP_ID_PKG : Fld := ⟨0x0, 0, 8, 1⟩
def CLK_STATE_STATE : Fld := ⟨0x10, 0, 4, 0⟩
def CLK_STATE_PREV : Fld := ⟨0x10, 4, 4, 0⟩
def CLK_STATE_REQ_REJ : Fld := ⟨0x10, 8, 1, 0⟩
def CLK_STATE_LATCHED_BLOCK : Fld := ⟨0x10, 9, 1, 0⟩
def CLK_STATE_CAUSE : Fld := ⟨0x10, 16, 8, 0⟩
def CLK_STATE_REQ_TARGET : Fld := ⟨0x14, 0, 4, 0⟩
def CLK_STATE_REQ_KEY : Fld := ⟨0x14, 16, 16, 0⟩
def CLK_TICK_LO : Fld := ⟨0x20, 0, 32, 0⟩
def CLK_TICK_HI : Fld := ⟨0x24, 0, 32, 0⟩
def CLK_TICK_LEN_LAST : Fld := ⟨0x28, 0, 11, 0⟩
def CLK_TICK_LEN_SEEN_999 : Fld := ⟨0x28, 16, 1, 0⟩
def CLK_TICK_LEN_SEEN_1001 : Fld := ⟨0x28, 17, 1, 0⟩
def CLK_TICK_LEN_REALIGN : Fld := ⟨0x28, 18, 1, 0⟩
def CLK_TICK_LEN_LEN_ERR : Fld := ⟨0x28, 19, 1, 0⟩
def CLK_MON_SYS_LOCK : Fld := ⟨0x30, 0, 1, 0⟩
def CLK_MON_TIME_LOCK : Fld := ⟨0x30, 1, 1, 0⟩
def CLK_MON_LANE_LOCK : Fld := ⟨0x30, 2, 1, 0⟩
def CLK_MON_STN_LOCK : Fld := ⟨0x30, 3, 1, 0⟩
def CLK_MON_LOSS_CORE : Fld := ⟨0x30, 8, 1, 0⟩
def CLK_MON_LOSS_FAB : Fld := ⟨0x30, 9, 1, 0⟩
def CLK_MON_LOSS_LTX : Fld := ⟨0x30, 10, 1, 0⟩
def CLK_MON_LOSS_TIME : Fld := ⟨0x30, 11, 1, 0⟩
def CLK_MON_LOSS_STN : Fld := ⟨0x30, 12, 1, 0⟩
def CLK_MON_LOSS_HOST : Fld := ⟨0x30, 13, 1, 0⟩
def CLK_MON_LOSS_AON : Fld := ⟨0x30, 14, 1, 0⟩
def CLK_MON_FREQ_ERR : Fld := ⟨0x30, 15, 1, 0⟩
def CLK_MON_TIME_FREERUN : Fld := ⟨0x30, 16, 1, 0⟩
def CLK_PWR_GOOD : Fld := ⟨0x40, 0, 12, 0⟩
def CLK_PWR_EXC : Fld := ⟨0x40, 16, 12, 0⟩
def CLK_TEMP_NOW : Fld := ⟨0x44, 0, 8, 0⟩
def CLK_TEMP_MAX : Fld := ⟨0x44, 8, 8, 0⟩
def CLK_TEMP_HI : Fld := ⟨0x44, 16, 8, 0x91⟩
def CLK_TEMP_HI_SEEN : Fld := ⟨0x44, 24, 1, 0⟩
def CLK_TEMP_TRIP_SEEN : Fld := ⟨0x44, 25, 1, 0⟩
def CLK_TEMP_MAX_CLR : Fld := ⟨0x44, 26, 1, 0⟩
def FLT_CTRL_INT_EN : Fld := ⟨0x10000, 0, 1, 0⟩
def FLT_STAT_LOG_WRAP : Fld := ⟨0x10004, 0, 1, 0⟩
def FLT_STAT_LOG_FULL : Fld := ⟨0x10004, 1, 1, 0⟩
def FLT_STAT_ERR_HELD : Fld := ⟨0x10004, 2, 1, 0⟩
def FLT_STAT_ERR : Fld := ⟨0x10004, 3, 1, 1⟩
def FLT_INJ_COUNT_EN : Fld := ⟨0x10008, 0, 1, 0⟩
def FLT_NMI_SRC_SRC : Fld := ⟨0x1000C, 0, 10, 0⟩
def FLT_NMI_SRC_KIND : Fld := ⟨0x1000C, 10, 6, 0⟩
def FLT_CRESET_CAUSE_SRC : Fld := ⟨0x10010, 0, 10, 0⟩
def FLT_CRESET_CAUSE_KIND : Fld := ⟨0x10010, 10, 6, 0⟩
def FLT_CRESET_CAUSE_VALID : Fld := ⟨0x10010, 16, 1, 0⟩
def FLT_ERR_CLR : Fld := ⟨0x10014, 0, 1, 0⟩
def FLT_LOG_CFG_STOP : Fld := ⟨0x10020, 0, 1, 0⟩
def FLT_LOG_WP_PTR : Fld := ⟨0x10024, 0, 14, 0⟩
def FLT_LOG_RP_PTR : Fld := ⟨0x10028, 0, 14, 0⟩
def FLT_CNT_EVT : Fld := ⟨0x10040, 0, 32, 0⟩
def FLT_CNT_MERGED : Fld := ⟨0x10044, 0, 32, 0⟩
def FLT_CNT_LOGLOST : Fld := ⟨0x10048, 0, 32, 0⟩
def FLT_CNT_OVF : Fld := ⟨0x1004C, 0, 3, 0⟩
def FLT_CNT_CLR : Fld := ⟨0x10050, 0, 3, 0⟩
def FLT_PEND (i : Nat) : Fld := ⟨0x10080 + 4 * i, 0, 32, 0⟩
def FLT_INJ_MASK (i : Nat) : Fld := ⟨0x11000 + 4 * i, 0, 8, 0⟩
def FLT_INJ_MODE (i : Nat) : Fld := ⟨0x11000 + 4 * i, 8, 1, 0⟩
def FLT_INJ_ARM (i : Nat) : Fld := ⟨0x11000 + 4 * i, 9, 1, 0⟩
def FLT_SRC_CFG0_N (n : Nat) : Fld := ⟨0x14000 + 16 * n, 0, 8, (resetAt (0x14000 + 16 * n) 0)⟩
def FLT_SRC_CFG0_W (n : Nat) : Fld := ⟨0x14000 + 16 * n, 8, 16, (resetAt (0x14000 + 16 * n) 8)⟩
def FLT_SRC_CFG0_WMS (n : Nat) : Fld := ⟨0x14000 + 16 * n, 24, 1, (resetAt (0x14000 + 16 * n) 24)⟩
def FLT_SRC_CFG0_QMS (n : Nat) : Fld := ⟨0x14000 + 16 * n, 25, 1, (resetAt (0x14000 + 16 * n) 25)⟩
def FLT_SRC_CFG1_MINOR (n : Nat) : Fld := ⟨0x14004 + 16 * n, 0, 7, (resetAt (0x14004 + 16 * n) 0)⟩
def FLT_SRC_CFG1_SEVERE (n : Nat) : Fld := ⟨0x14004 + 16 * n, 8, 7, (resetAt (0x14004 + 16 * n) 8)⟩
def FLT_SRC_CFG1_Q (n : Nat) : Fld := ⟨0x14004 + 16 * n, 16, 16, (resetAt (0x14004 + 16 * n) 16)⟩
def FLT_SRC_STAT_ST (n : Nat) : Fld := ⟨0x14008 + 16 * n, 0, 2, 0⟩
def FLT_SRC_STAT_CNT (n : Nat) : Fld := ⟨0x14008 + 16 * n, 2, 9, 0⟩
def FLT_SRC_STAT_LAST_KIND (n : Nat) : Fld := ⟨0x14008 + 16 * n, 11, 6, 0⟩
def FLT_SRC_STAT_SEV_SEEN (n : Nat) : Fld := ⟨0x14008 + 16 * n, 17, 1, 0⟩
def FLT_SRC_STAT_REC_OVF (n : Nat) : Fld := ⟨0x14008 + 16 * n, 18, 1, 0⟩
def FLT_SRC_REC_REC (n : Nat) : Fld := ⟨0x1400C + 16 * n, 0, 16, 0⟩
def FLT_SRC_REC_CLR (n : Nat) : Fld := ⟨0x1400C + 16 * n, 31, 1, 0⟩
def TIM_CTRL_PREF : Fld := ⟨0x20000, 0, 1, 0⟩
def TIM_CTRL_REVERT : Fld := ⟨0x20000, 1, 1, 1⟩
def TIM_CTRL_STEP_EN : Fld := ⟨0x20000, 2, 1, 1⟩
def TIM_CTRL_TP1_EN : Fld := ⟨0x20000, 3, 1, 0⟩
def TIM_CTRL_TP1_GATE : Fld := ⟨0x20000, 4, 1, 1⟩
def TIM_STAT_DISAGREE : Fld := ⟨0x20004, 0, 1, 0⟩
def TIM_STAT_STEP_SEEN : Fld := ⟨0x20004, 1, 1, 0⟩
def TIM_STAT_SWITCH_SEEN : Fld := ⟨0x20004, 2, 1, 0⟩
def TIM_STAT_HO_SEEN : Fld := ⟨0x20004, 3, 1, 0⟩
def TIM_STAT_CT_STEP_SEEN : Fld := ⟨0x20004, 4, 1, 0⟩
def TIM_TQ : Fld := ⟨0x20008, 0, 32, 0xFFFF0000⟩
def TIM_NOW_LO : Fld := ⟨0x20010, 0, 32, 0⟩
def TIM_NOW_HI : Fld := ⟨0x20014, 0, 32, 0⟩
def TIM_NOW_FR : Fld := ⟨0x20018, 0, 32, 0⟩
def TIM_INC_NOM_LO : Fld := ⟨0x20020, 0, 32, 0⟩
def TIM_INC_NOM_HI : Fld := ⟨0x20024, 0, 32, 4⟩
def TIM_INC_LO : Fld := ⟨0x20028, 0, 32, 0⟩
def TIM_INC_HI : Fld := ⟨0x2002C, 0, 32, 4⟩
def TIM_SLEW_TAU : Fld := ⟨0x20030, 0, 16, 0xA⟩
def TIM_SLEW_SMAX : Fld := ⟨0x20030, 16, 8, 0xC8⟩
def TIM_HO_RATE : Fld := ⟨0x20034, 0, 16, 0x14⟩
def TIM_HO_LIMIT : Fld := ⟨0x20034, 16, 16, 0xE10⟩
def TIM_DIFF_MAX : Fld := ⟨0x20038, 0, 24, 0x2710⟩
def TIM_UTC_OFS : Fld := ⟨0x2003C, 0, 16, 0⟩
def TIM_UTC_VALID : Fld := ⟨0x2003C, 16, 1, 0⟩
def TIM_TP0_SECSRC : Fld := ⟨0x20040, 0, 1, 0⟩
def TIM_TP0_SEC_LO : Fld := ⟨0x20044, 0, 32, 0⟩
def TIM_TP0_SEC_HI : Fld := ⟨0x20048, 0, 32, 0⟩
def TIM_D_CFG_SRC (d : Nat) : Fld := ⟨0x20100 + 64 * d, 0, 3, 0⟩
def TIM_D_CFG_PORT (d : Nat) : Fld := ⟨0x20100 + 64 * d, 3, 2, 0⟩
def TIM_D_CFG_PDOM (d : Nat) : Fld := ⟨0x20100 + 64 * d, 8, 8, 0⟩
def TIM_D_CFG_ACC (d : Nat) : Fld := ⟨0x20100 + 64 * d, 16, 16, 0x64⟩
def TIM_D_QUAL_QUAL_S (d : Nat) : Fld := ⟨0x20104 + 64 * d, 0, 12, 0x3C⟩
def TIM_D_QUAL_TOL (d : Nat) : Fld := ⟨0x20104 + 64 * d, 16, 10, 0xFA⟩
def TIM_D_QUAL_LOSS_N (d : Nat) : Fld := ⟨0x20104 + 64 * d, 28, 4, 3⟩
def TIM_D_GAIN_KP_SH (d : Nat) : Fld := ⟨0x20108 + 64 * d, 0, 5, 2⟩
def TIM_D_GAIN_KI_SH (d : Nat) : Fld := ⟨0x20108 + 64 * d, 8, 5, 5⟩
def TIM_D_STAT_STATE (d : Nat) : Fld := ⟨0x2010C + 64 * d, 0, 2, 0⟩
def TIM_D_STAT_QT (d : Nat) : Fld := ⟨0x2010C + 64 * d, 2, 12, 0⟩
def TIM_D_OFS (d : Nat) : Fld := ⟨0x20110 + 64 * d, 0, 32, 0⟩
def TIM_D_FREQ (d : Nat) : Fld := ⟨0x20114 + 64 * d, 0, 32, 0⟩
def TIM_ASYM_ING (n : Nat) : Fld := ⟨0x20200 + 8 * n, 0, 32, 0⟩
def TIM_ASYM_EGR (n : Nat) : Fld := ⟨0x20204 + 8 * n, 0, 32, 0⟩
def TIM_CNT_STEP : Fld := ⟨0x20300, 0, 32, 0⟩
def TIM_CNT_SWITCH : Fld := ⟨0x20304, 0, 32, 0⟩
def TIM_CNT_HO : Fld := ⟨0x20308, 0, 32, 0⟩
def TIM_CNT_OVF : Fld := ⟨0x2030C, 0, 3, 0⟩
def TIM_CNT_CLR : Fld := ⟨0x20310, 0, 3, 0⟩
def PRT_CTRL_BO_MODE : Fld := ⟨0x30000, 0, 1, 0⟩
def PRT_CTRL_BO_POL : Fld := ⟨0x30000, 1, 1, 0⟩
def PRT_CTRL_RX01 : Fld := ⟨0x30000, 2, 1, 1⟩
def PRT_CTRL_RX23 : Fld := ⟨0x30000, 3, 1, 0⟩
def PRT_CTRL_REPEAT : Fld := ⟨0x30000, 4, 1, 1⟩
def PRT_CTRL_ALERT_BLK : Fld := ⟨0x30000, 5, 1, 0⟩
def PRT_STAT_LATCHED : Fld := ⟨0x30004, 0, 1, 0⟩
def PRT_STAT_BO : Fld := ⟨0x30004, 1, 1, 1⟩
def PRT_STAT_REL_READY : Fld := ⟨0x30004, 2, 1, 0⟩
def PRT_STAT_REL_REJ : Fld := ⟨0x30004, 3, 1, 0⟩
def PRT_STAT_PARTNER_BLK : Fld := ⟨0x30004, 4, 1, 0⟩
def PRT_STAT_UNMET : Fld := ⟨0x30004, 5, 8, 0⟩
def PRT_CAUSE_ALL : Fld := ⟨0x30008, 0, 8, 0⟩
def PRT_CAUSE_FIRST : Fld := ⟨0x30008, 12, 4, 0⟩
def PRT_CAUSE_FIRST_TICK : Fld := ⟨0x30008, 16, 16, 0⟩
def PRT_PIN_CFG_EN : Fld := ⟨0x30010, 0, 16, 0⟩
def PRT_PIN_CFG_POL : Fld := ⟨0x30010, 16, 16, 0⟩
def PRT_PIN_STAT_ACTIVE : Fld := ⟨0x30014, 0, 16, 0⟩
def PRT_PIN_STAT_SEEN : Fld := ⟨0x30014, 16, 16, 0⟩
def PRT_REL_CFG_MINBLK : Fld := ⟨0x30018, 0, 16, 0x3E8⟩
def PRT_REL_CFG_AUTO : Fld := ⟨0x30018, 16, 1, 0⟩
def PRT_REL_CFG_AUTO_MASK : Fld := ⟨0x30018, 24, 8, 0⟩
def PRT_REL_GO : Fld := ⟨0x3001C, 0, 1, 0⟩
def PRT_REL_KEY : Fld := ⟨0x3001C, 16, 16, 0⟩
def PRT_FORCE_BLK : Fld := ⟨0x30020, 0, 1, 0⟩
def PRT_FORCE_KEY : Fld := ⟨0x30020, 16, 16, 0⟩
def PRT_CELL_ESC_CODES : Fld := ⟨0x30024, 0, 5, 3⟩
def PRT_CELL_ESC_MCOUNT : Fld := ⟨0x30024, 8, 8, 3⟩
def PRT_CELL_ESC_MWIN : Fld := ⟨0x30024, 16, 16, 0x3E8⟩
def PRT_CNT_SET : Fld := ⟨0x30030, 0, 32, 0⟩
def PRT_CNT_RELREJ : Fld := ⟨0x30034, 0, 32, 0⟩
def PRT_CNT_OVF : Fld := ⟨0x30038, 0, 2, 0⟩
def PRT_CNT_CLR : Fld := ⟨0x3003C, 0, 2, 0⟩
def PRT_CMP_SEEN : Fld := ⟨0x30040, 0, 32, 0⟩
def PRT_CMP_CFG_EN_HI (n : Nat) : Fld := ⟨0x30100 + 16 * n, 0, 1, 0⟩
def PRT_CMP_CFG_EN_LO (n : Nat) : Fld := ⟨0x30100 + 16 * n, 1, 1, 0⟩
def PRT_CMP_CFG_EN_RATE (n : Nat) : Fld := ⟨0x30100 + 16 * n, 2, 1, 0⟩
def PRT_CMP_CFG_BADTRIP (n : Nat) : Fld := ⟨0x30100 + 16 * n, 3, 1, 1⟩
def PRT_CMP_CFG_PERSIST (n : Nat) : Fld := ⟨0x30100 + 16 * n, 4, 4, 1⟩
def PRT_CMP_CFG_SRC (n : Nat) : Fld := ⟨0x30100 + 16 * n, 8, 5, 0⟩
def PRT_CMP_HL_LO (n : Nat) : Fld := ⟨0x30104 + 16 * n, 0, 16, 0x8000⟩
def PRT_CMP_HL_HI (n : Nat) : Fld := ⟨0x30104 + 16 * n, 16, 16, 0x7FFF⟩
def PRT_CMP_RATE_RATE (n : Nat) : Fld := ⟨0x30108 + 16 * n, 0, 16, 0xFFFF⟩
def PRT_CMP_STAT_TRIP (n : Nat) : Fld := ⟨0x3010C + 16 * n, 0, 1, 0⟩
def PRT_CMP_STAT_RUN (n : Nat) : Fld := ⟨0x3010C + 16 * n, 1, 4, 0⟩
def PRT_CMP_STAT_HI_SEEN (n : Nat) : Fld := ⟨0x3010C + 16 * n, 5, 1, 0⟩
def PRT_CMP_STAT_LO_SEEN (n : Nat) : Fld := ⟨0x3010C + 16 * n, 6, 1, 0⟩
def PRT_CMP_STAT_RATE_SEEN (n : Nat) : Fld := ⟨0x3010C + 16 * n, 7, 1, 0⟩
def PRT_CMP_STAT_BAD_SEEN (n : Nat) : Fld := ⟨0x3010C + 16 * n, 8, 1, 0⟩
def CE_STAT_TURN_ERR : Fld := ⟨0x40000, 0, 1, 0⟩
def CE_STAT_TURN_SEEN : Fld := ⟨0x40000, 1, 1, 0⟩
def CE_STAT_UE_SEEN : Fld := ⟨0x40000, 2, 1, 0⟩
def CE_STAT_BANK_WR : Fld := ⟨0x40000, 3, 1, 0⟩
def CE_STAT_STATE_WR : Fld := ⟨0x40000, 4, 1, 0⟩
def CE_SLACK_LAST_END : Fld := ⟨0x40004, 0, 11, 0⟩
def CE_SLACK_MIN_SLACK : Fld := ⟨0x40004, 16, 10, 0x300⟩
def CE_BANK_ACT (i : Nat) : Fld := ⟨0x40010 + 4 * i, 0, 32, 0⟩
def CE_CNT_STALL : Fld := ⟨0x40040, 0, 32, 0⟩
def CE_CNT_UE : Fld := ⟨0x40044, 0, 32, 0⟩
def CE_CNT_OVF : Fld := ⟨0x40050, 0, 2, 0⟩
def CE_CNT_CLR_CLR : Fld := ⟨0x40054, 0, 2, 0⟩
def CE_CNT_CLR_SLACK_CLR : Fld := ⟨0x40054, 2, 1, 0⟩
def CE_SWAP_SEL (i : Nat) : Fld := ⟨0x40060 + 4 * i, 0, 32, 0⟩
def CE_SWAP_CTRL_GO : Fld := ⟨0x40080, 0, 1, 0⟩
def CE_SWAP_CTRL_AT : Fld := ⟨0x40080, 1, 1, 0⟩
def CE_SWAP_CTRL_PEND : Fld := ⟨0x40080, 8, 1, 0⟩
def CE_SWAP_CTRL_REJ : Fld := ⟨0x40080, 9, 1, 0⟩
def CE_SWAP_CTRL_SWAP_BAD : Fld := ⟨0x40080, 10, 1, 0⟩
def CE_SWAP_TICK : Fld := ⟨0x40084, 0, 32, 0⟩
def CE_OVR (i : Nat) : Fld := ⟨0x400A0 + 4 * i, 0, 32, 0⟩
def CE_CLAMP_ON_SWAP (i : Nat) : Fld := ⟨0x400C0 + 4 * i, 0, 32, 0⟩
def CE_FE (i : Nat) : Fld := ⟨0x400E0 + 4 * i, 0, 32, 0⟩
def CE_TURN_CH (p : Nat) : Fld := ⟨0x40400 + 4 * p, 0, 8, 0⟩
def CE_TURN_VALID (p : Nat) : Fld := ⟨0x40400 + 4 * p, 8, 1, 0⟩
def CE_CH_CFG_EN (c : Nat) : Fld := ⟨0x41000 + 16 * c, 0, 1, 0⟩
def CE_CH_CFG_LAW (c : Nat) : Fld := ⟨0x41000 + 16 * c, 1, 2, 0⟩
def CE_CH_CFG_NEN (c : Nat) : Fld := ⟨0x41000 + 16 * c, 3, 1, 0⟩
def CE_CH_CFG_FFEN (c : Nat) : Fld := ⟨0x41000 + 16 * c, 4, 1, 0⟩
def CE_CH_CFG_RATE (c : Nat) : Fld := ⟨0x41000 + 16 * c, 5, 3, 0⟩
def CE_CH_CFG_PHASE (c : Nat) : Fld := ⟨0x41000 + 16 * c, 8, 6, 0⟩
def CE_CH_CFG_RUNS (c : Nat) : Fld := ⟨0x41000 + 16 * c, 14, 2, 0⟩
def CE_CH_CFG_AUX_SEL (c : Nat) : Fld := ⟨0x41000 + 16 * c, 16, 2, 0⟩
def CE_CH_CFG_FSRC (c : Nat) : Fld := ⟨0x41000 + 16 * c, 18, 7, 0⟩
def CE_CH_IN_REF (c : Nat) : Fld := ⟨0x41004 + 16 * c, 0, 10, 0⟩
def CE_CH_IN_FB (c : Nat) : Fld := ⟨0x41004 + 16 * c, 10, 10, 0⟩
def CE_CH_IN_FF (c : Nat) : Fld := ⟨0x41004 + 16 * c, 20, 10, 0⟩
def CE_CH_IN_REF_EN (c : Nat) : Fld := ⟨0x41004 + 16 * c, 30, 1, 0⟩
def CE_CH_IN_FB_EN (c : Nat) : Fld := ⟨0x41004 + 16 * c, 31, 1, 0⟩
def CE_CH_SUP_AWEN (c : Nat) : Fld := ⟨0x41008 + 16 * c, 0, 1, 1⟩
def CE_CH_SUP_FEEN (c : Nat) : Fld := ⟨0x41008 + 16 * c, 1, 1, 0⟩
def CE_CH_SUP_BUMP (c : Nat) : Fld := ⟨0x41008 + 16 * c, 2, 1, 1⟩
def CE_CH_SUP_PRE_SRC (c : Nat) : Fld := ⟨0x41008 + 16 * c, 3, 1, 0⟩
def CE_CH_SUP_PRE_SLOT (c : Nat) : Fld := ⟨0x41008 + 16 * c, 4, 10, 0⟩
def CE_CH_SUP_PRIME (c : Nat) : Fld := ⟨0x41008 + 16 * c, 14, 1, 1⟩
def CE_CH_STAT_FE_RUNS (c : Nat) : Fld := ⟨0x4100C + 16 * c, 0, 16, 0⟩
def CE_CH_STAT_FE_ACT (c : Nat) : Fld := ⟨0x4100C + 16 * c, 16, 1, 0⟩
def CE_CH_STAT_SAT_HI (c : Nat) : Fld := ⟨0x4100C + 16 * c, 17, 1, 0⟩
def CE_CH_STAT_SAT_LO (c : Nat) : Fld := ⟨0x4100C + 16 * c, 18, 1, 0⟩
def CE_CH_STAT_ICLAMP (c : Nat) : Fld := ⟨0x4100C + 16 * c, 19, 1, 0⟩
def CE_CH_STAT_PRIME_PEND (c : Nat) : Fld := ⟨0x4100C + 16 * c, 20, 1, 1⟩
def CE_CH_STAT_BUMP_PEND (c : Nat) : Fld := ⟨0x4100C + 16 * c, 21, 1, 0⟩
def PLN_CTRL_EN : Fld := ⟨0x50000, 0, 1, 0⟩
def PLN_STAT_PAIR_WARN : Fld := ⟨0x50004, 0, 1, 0⟩
def PLN_STAT_DUTY_CLAMP : Fld := ⟨0x50004, 1, 1, 0⟩
def PLN_STAT_OFF_SEEN : Fld := ⟨0x50004, 2, 1, 0⟩
def PLN_STAT_COMMIT_PEND : Fld := ⟨0x50004, 3, 1, 0⟩
def PLN_PIP_CFG_MODE : Fld := ⟨0x50008, 0, 1, 0⟩
def PLN_PIP_CFG_DTC : Fld := ⟨0x50008, 1, 1, 1⟩
def PLN_PIP_CFG_BAND : Fld := ⟨0x50008, 2, 10, 0⟩
def PLN_PIP_CFG_ROT : Fld := ⟨0x50008, 16, 16, 0x40⟩
def PLN_STG_BASE : Fld := ⟨0x5000C, 0, 10, 0⟩
def PLN_STG_STEP : Fld := ⟨0x5000C, 10, 8, 0x14⟩
def PLN_STG_GP_ORD : Fld := ⟨0x5000C, 18, 2, 0⟩
def PLN_STG_GP_PIP : Fld := ⟨0x5000C, 20, 2, 0⟩
def PLN_STG_GP_BLK : Fld := ⟨0x5000C, 22, 2, 0⟩
def PLN_PAT_PER_PER : Fld := ⟨0x50020, 0, 16, 2⟩
def PLN_PAT_DUTY_DUTY : Fld := ⟨0x50024, 0, 16, 0⟩
def PLN_PAT_LO_LVL : Fld := ⟨0x50028, 0, 20, 0⟩
def PLN_PAT_HI_LVL : Fld := ⟨0x5002C, 0, 20, 0⟩
def PLN_COMMIT_GO : Fld := ⟨0x50030, 0, 1, 0⟩
def PLN_PAT_ACT_PER : Fld := ⟨0x50034, 0, 16, 2⟩
def PLN_PAT_ACT_DUTY : Fld := ⟨0x50034, 16, 16, 0⟩
def PLN_CNT_OVF : Fld := ⟨0x50050, 0, 30, 0⟩
def PLN_CNT_CLR : Fld := ⟨0x50054, 0, 30, 0⟩
def PLN_ARM_REF_SLOT (a : Nat) : Fld := ⟨0x50100 + 64 * a, 0, 10, 0⟩
def PLN_ARM_REF_SRC (a : Nat) : Fld := ⟨0x50100 + 64 * a, 10, 1, 0⟩
def PLN_ARM_LIM_DN_MAX (a : Nat) : Fld := ⟨0x50104 + 64 * a, 0, 8, 8⟩
def PLN_ARM_LIM_EMAX (a : Nat) : Fld := ⟨0x50104 + 64 * a, 16, 10, 0x14⟩
def PLN_ARM_PIP_PIPG (a : Nat) : Fld := ⟨0x50108 + 64 * a, 0, 12, 0⟩
def PLN_ARM_PIP_VALID (a : Nat) : Fld := ⟨0x50108 + 64 * a, 12, 1, 0⟩
def PLN_ARM_PIP_PS (a : Nat) : Fld := ⟨0x50108 + 64 * a, 13, 1, 0⟩
def PLN_ARM_PIP_TL (a : Nat) : Fld := ⟨0x50108 + 64 * a, 16, 16, 0xFFFF⟩
def PLN_ARM_BAL (a : Nat) : Fld := ⟨0x5010C + 64 * a, 0, 32, 0⟩
def PLN_ARM_OUT_N (a : Nat) : Fld := ⟨0x50110 + 64 * a, 0, 12, 0⟩
def PLN_ARM_OUT_WNS (a : Nat) : Fld := ⟨0x50110 + 64 * a, 12, 10, 0⟩
def PLN_ARM_OUT_LIM (a : Nat) : Fld := ⟨0x50110 + 64 * a, 22, 1, 0⟩
def PLN_ARM_OUT_DVLIM (a : Nat) : Fld := ⟨0x50110 + 64 * a, 23, 1, 0⟩
def PLN_ARM_OUT_NOPIP (a : Nat) : Fld := ⟨0x50110 + 64 * a, 24, 1, 0⟩
def PLN_ARM_OUT_BSAT (a : Nat) : Fld := ⟨0x50110 + 64 * a, 25, 1, 0⟩
def PLN_ARM_STAT_LIM_SEEN (a : Nat) : Fld := ⟨0x50114 + 64 * a, 0, 1, 0⟩
def PLN_ARM_STAT_DVLIM_SEEN (a : Nat) : Fld := ⟨0x50114 + 64 * a, 1, 1, 0⟩
def PLN_ARM_STAT_NOPIP_SEEN (a : Nat) : Fld := ⟨0x50114 + 64 * a, 2, 1, 0⟩
def PLN_ARM_STAT_BSAT_SEEN (a : Nat) : Fld := ⟨0x50114 + 64 * a, 3, 1, 0⟩
def PLN_ARM_STAT_ROT_MISS (a : Nat) : Fld := ⟨0x50114 + 64 * a, 4, 1, 0⟩
def PLN_ARM_CNT_LIM (a : Nat) : Fld := ⟨0x50118 + 64 * a, 0, 32, 0⟩
def PLN_ARM_CNT_DVLIM (a : Nat) : Fld := ⟨0x5011C + 64 * a, 0, 32, 0⟩
def PLN_ARM_CNT_EDGE (a : Nat) : Fld := ⟨0x50120 + 64 * a, 0, 32, 0⟩
def PLN_ARM_CNT_HELD (a : Nat) : Fld := ⟨0x50124 + 64 * a, 0, 32, 0⟩
def PLN_ARM_CNT_ROT (a : Nat) : Fld := ⟨0x50128 + 64 * a, 0, 32, 0⟩
def SEL_CFG_AGE_MAX : Fld := ⟨0x60000, 0, 4, 3⟩
def SEL_DWELL_ON_MIN (p : Nat) : Fld := ⟨0x60010 + 4 * p, 0, 8, 0x15⟩
def SEL_DWELL_OFF_MIN (p : Nat) : Fld := ⟨0x60010 + 4 * p, 8, 8, 0x15⟩
def SEL_EXCL_REQ_CELL : Fld := ⟨0x60040, 0, 12, 0⟩
def SEL_EXCL_REQ_ACT : Fld := ⟨0x60040, 12, 2, 0⟩
def SEL_EXCL_STAT_PENDING : Fld := ⟨0x60044, 0, 13, 0⟩
def SEL_EXCL_STAT_DENIED : Fld := ⟨0x60044, 13, 1, 0⟩
def SEL_EXCL_STAT_BAD : Fld := ⟨0x60044, 14, 1, 0⟩
def SEL_EXCL_STAT_LAST : Fld := ⟨0x60044, 16, 12, 0⟩
def SEL_CNT_OVF : Fld := ⟨0x60050, 0, 18, 0⟩
def SEL_CNT_CLR : Fld := ⟨0x60054, 0, 18, 0⟩
def SEL_ARM_BIN_BASE (a : Nat) : Fld := ⟨0x60100 + 64 * a, 0, 14, 0⟩
def SEL_ARM_BIN_SHIFT (a : Nat) : Fld := ⟨0x60100 + 64 * a, 16, 3, 4⟩
def SEL_ARM_BAND_BAND (a : Nat) : Fld := ⟨0x60104 + 64 * a, 0, 10, 8⟩
def SEL_ARM_BAND_QUOTA (a : Nat) : Fld := ⟨0x60104 + 64 * a, 16, 10, 0x10⟩
def SEL_ARM_IPRED_SLOT (a : Nat) : Fld := ⟨0x60108 + 64 * a, 0, 10, 0⟩
def SEL_ARM_IPRED_IPOL (a : Nat) : Fld := ⟨0x60108 + 64 * a, 10, 1, 0⟩
def SEL_ARM_IPRED_DB (a : Nat) : Fld := ⟨0x60108 + 64 * a, 16, 16, 0⟩
def SEL_ARM_MIN_MIN_AVAIL (a : Nat) : Fld := ⟨0x6010C + 64 * a, 0, 11, 0⟩
def SEL_ARM_PTR_PTR (a : Nat) : Fld := ⟨0x60110 + 64 * a, 0, 10, 0⟩
def SEL_ARM_PTR_NCONF (a : Nat) : Fld := ⟨0x60110 + 64 * a, 16, 11, 0⟩
def SEL_ARM_STAT_CHARGE (a : Nat) : Fld := ⟨0x60114 + 64 * a, 0, 1, 1⟩
def SEL_ARM_STAT_NEG (a : Nat) : Fld := ⟨0x60114 + 64 * a, 1, 1, 0⟩
def SEL_ARM_STAT_QLIM (a : Nat) : Fld := ⟨0x60114 + 64 * a, 2, 1, 0⟩
def SEL_ARM_STAT_SHORT (a : Nat) : Fld := ⟨0x60114 + 64 * a, 3, 1, 0⟩
def SEL_ARM_STAT_QLIM_SEEN (a : Nat) : Fld := ⟨0x60114 + 64 * a, 8, 1, 0⟩
def SEL_ARM_STAT_SHORT_SEEN (a : Nat) : Fld := ⟨0x60114 + 64 * a, 9, 1, 0⟩
def SEL_ARM_STAT_DRAIN (a : Nat) : Fld := ⟨0x60114 + 64 * a, 12, 11, 0⟩
def SEL_ARM_CNT_SWAPS (a : Nat) : Fld := ⟨0x60118 + 64 * a, 0, 32, 0⟩
def SEL_ARM_CNT_QLIM (a : Nat) : Fld := ⟨0x6011C + 64 * a, 0, 32, 0⟩
def SEL_ARM_CNT_SHORT (a : Nat) : Fld := ⟨0x60120 + 64 * a, 0, 32, 0⟩
def CMP_CTRL_HOLD_EN : Fld := ⟨0x70000, 0, 1, 1⟩
def CMP_CTRL_HOLD : Fld := ⟨0x70000, 4, 4, 4⟩
def CMP_EXEC_OFS : Fld := ⟨0x70010, 0, 10, 0x190⟩
def CMP_AUX_REQ_CELL : Fld := ⟨0x70020, 0, 12, 0⟩
def CMP_AUX_REQ_CODE : Fld := ⟨0x70020, 12, 3, 0⟩
def CMP_AUX_REQ_DATA : Fld := ⟨0x70020, 16, 16, 0⟩
def CMP_AUX_STAT_LEVEL : Fld := ⟨0x70024, 0, 6, 0⟩
def CMP_AUX_STAT_FULL : Fld := ⟨0x70024, 6, 1, 0⟩
def CMP_AUX_STAT_REJ : Fld := ⟨0x70024, 7, 1, 0⟩
def CMP_AUX_STAT_DROP : Fld := ⟨0x70024, 8, 1, 0⟩
def CMP_DLY_CFG_BG_EN : Fld := ⟨0x70028, 0, 1, 1⟩
def CMP_DLY_CFG_HYST : Fld := ⟨0x70028, 4, 4, 2⟩
def CMP_DLY_CFG_STEP : Fld := ⟨0x70028, 8, 8, 4⟩
def CMP_STEST_CFG_EN : Fld := ⟨0x70030, 0, 1, 1⟩
def CMP_STEST_CFG_PERIOD : Fld := ⟨0x70030, 4, 12, 0xA⟩
def CMP_STEST_CFG_MASK : Fld := ⟨0x70030, 16, 10, 0x3FF⟩
def CMP_STEST_STAT_ACTIVE : Fld := ⟨0x70034, 0, 6, 0⟩
def CMP_STEST_STAT_FAIL : Fld := ⟨0x70034, 8, 1, 0⟩
def CMP_STEST_STAT_TIMEOUT : Fld := ⟨0x70034, 9, 1, 0⟩
def CMP_STEST_STAT_PASS_OVF : Fld := ⟨0x70034, 10, 1, 0⟩
def CMP_STEST_STAT_FAIL_OVF : Fld := ⟨0x70034, 11, 1, 0⟩
def CMP_STEST_STAT_LAST : Fld := ⟨0x70034, 12, 12, 0⟩
def CMP_PROF_STAT_PENDING : Fld := ⟨0x70038, 0, 13, 0⟩
def CMP_PROF_STAT_FAIL : Fld := ⟨0x70038, 13, 1, 0⟩
def CMP_STEST_CNT_PASS : Fld := ⟨0x7003C, 0, 16, 0⟩
def CMP_STEST_CNT_FAIL : Fld := ⟨0x7003C, 16, 16, 0⟩
def CMP_STEST_CLR : Fld := ⟨0x70040, 0, 1, 0⟩
def RED_ID_UNIT : Fld := ⟨0x80000, 0, 1, 0⟩
def RED_CFG_PAIR : Fld := ⟨0x80004, 0, 1, 0⟩
def RED_CFG_MODE : Fld := ⟨0x80004, 1, 1, 0⟩
def RED_CFG_PAIR_ID : Fld := ⟨0x80004, 2, 8, 0⟩
def RED_CFG_SILENT : Fld := ⟨0x80004, 10, 3, 2⟩
def RED_CFG_TAKE_STALE : Fld := ⟨0x80004, 13, 1, 1⟩
def RED_CFG_VCYC : Fld := ⟨0x80004, 14, 4, 0xC⟩
def RED_CFG_WAIT : Fld := ⟨0x80004, 18, 8, 0x14⟩
def RED_STAT_ROLE : Fld := ⟨0x80008, 0, 2, 0⟩
def RED_STAT_SUB : Fld := ⟨0x80008, 2, 2, 0⟩
def RED_STAT_PARTNER : Fld := ⟨0x80008, 4, 1, 0⟩
def RED_STAT_ONE_LANE : Fld := ⟨0x80008, 5, 1, 0⟩
def RED_STAT_CFG_MIS : Fld := ⟨0x80008, 6, 1, 0⟩
def RED_STAT_STAT_LATE : Fld := ⟨0x80008, 7, 1, 0⟩
def RED_STAT_DEMOTED : Fld := ⟨0x80008, 8, 1, 0⟩
def RED_STAT_TAKEOVER : Fld := ⟨0x80008, 9, 1, 0⟩
def RED_STAT_EPOCH_EXH : Fld := ⟨0x80008, 10, 1, 0⟩
def RED_STAT_DBL_ABORT : Fld := ⟨0x80008, 11, 1, 0⟩
def RED_STAT_MIRQ_FULL : Fld := ⟨0x80008, 12, 1, 0⟩
def RED_STAT_NOT_ACTIVE : Fld := ⟨0x80008, 13, 1, 0⟩
def RED_STAT_DBL_PEND : Fld := ⟨0x80008, 14, 1, 0⟩
def RED_EPOCH_EPOCH : Fld := ⟨0x8000C, 0, 24, 0⟩
def RED_EPOCH_CLR : Fld := ⟨0x8000C, 24, 1, 0⟩
def RED_PAIR_DLY_DPAIR : Fld := ⟨0x80010, 0, 16, 0⟩
def RED_PAIR_DLY_DELTA : Fld := ⟨0x80010, 16, 16, 0⟩
def RED_DBL_INT : Fld := ⟨0x80014, 0, 14, 0x1E0⟩
def RED_DBL_NEXT : Fld := ⟨0x80018, 0, 32, 0⟩
def RED_DBL_REQ_GO : Fld := ⟨0x8001C, 0, 1, 0⟩
def RED_DBL_REQ_KEY : Fld := ⟨0x8001C, 16, 16, 0⟩
def RED_CKPT_SEQ : Fld := ⟨0x80020, 0, 16, 0⟩
def RED_CKPT_MISG : Fld := ⟨0x80020, 16, 6, 0⟩
def RED_CKPT_CLEAN : Fld := ⟨0x80020, 22, 1, 0⟩
def RED_CNT_DMIS : Fld := ⟨0x80040, 0, 32, 0⟩
def RED_CNT_DMISS : Fld := ⟨0x80044, 0, 32, 0⟩
def RED_CNT_GAPP : Fld := ⟨0x80048, 0, 32, 0⟩
def RED_CNT_TAKE : Fld := ⟨0x8004C, 0, 32, 0⟩
def RED_CNT_DBL : Fld := ⟨0x80050, 0, 32, 0⟩
def RED_CNT_OVF : Fld := ⟨0x8005C, 0, 5, 0⟩
def RED_CNT_CLR : Fld := ⟨0x80060, 0, 5, 0⟩
def ACQ_CTRL_RET : Fld := ⟨0x90000, 0, 1, 0⟩
def ACQ_STAT_IN_RET : Fld := ⟨0x90004, 0, 1, 0⟩
def ACQ_STAT_AWAKE : Fld := ⟨0x90004, 1, 1, 1⟩
def ACQ_SOFT_REC : Fld := ⟨0x90008, 0, 4, 0⟩
def ACQ_BUS_CFG_ID : Fld := ⟨0x90080, 0, 8, 0⟩
def ACQ_BUS_CFG_TX : Fld := ⟨0x90080, 8, 2, 0⟩
def ACQ_BUS_CFG_RX : Fld := ⟨0x90080, 10, 2, 0⟩
def ACQ_BUS_CFG_FWD : Fld := ⟨0x90080, 12, 1, 0⟩
def ACQ_BUS_CFG_TXMASK : Fld := ⟨0x90080, 16, 4, 0⟩
def ACQ_BUS_PEER_ML2 : Fld := ⟨0x90084, 0, 8, 0⟩
def ACQ_BUS_PEER_ML3 : Fld := ⟨0x90084, 8, 8, 0⟩
def ACQ_BUS_DLY_D2 : Fld := ⟨0x90088, 0, 16, 0⟩
def ACQ_BUS_DLY_D3 : Fld := ⟨0x90088, 16, 16, 0⟩
def ACQ_DCH_SLOT (k : Nat) : Fld := ⟨0x90100 + 4 * k, 0, 10, 0⟩
def ACQ_EVT_TYPE (e : Nat) : Fld := ⟨0x90200 + 4 * e, 0, 3, 0⟩
def ACQ_EVT_ARG (e : Nat) : Fld := ⟨0x90200 + 4 * e, 3, 10, 0⟩
def ACQ_EVT_KIND (e : Nat) : Fld := ⟨0x90200 + 4 * e, 13, 6, 0⟩
def ACQ_EVT_ANY (e : Nat) : Fld := ⟨0x90200 + 4 * e, 19, 1, 0⟩
def ACQ_TRG_CFG_TYP (u : Nat) : Fld := ⟨0x90300 + 16 * u, 0, 2, 0⟩
def ACQ_TRG_CFG_SRC (u : Nat) : Fld := ⟨0x90300 + 16 * u, 2, 2, 0⟩
def ACQ_TRG_CFG_CH (u : Nat) : Fld := ⟨0x90300 + 16 * u, 4, 6, 0⟩
def ACQ_TRG_LVL (u : Nat) : Fld := ⟨0x90304 + 16 * u, 0, 32, 0⟩
def ACQ_TRG_HYST (u : Nat) : Fld := ⟨0x90308 + 16 * u, 0, 32, 0⟩
def ACQ_R_CFG_MODE (r : Nat) : Fld := ⟨0x91000 + 256 * r, 0, 1, 0⟩
def ACQ_R_CFG_RATE (r : Nat) : Fld := ⟨0x91000 + 256 * r, 1, 3, 0⟩
def ACQ_R_CFG_DIV (r : Nat) : Fld := ⟨0x91000 + 256 * r, 4, 3, 0⟩
def ACQ_R_CFG_RED (r : Nat) : Fld := ⟨0x91000 + 256 * r, 7, 3, 0⟩
def ACQ_R_CFG_EVT (r : Nat) : Fld := ⟨0x91000 + 256 * r, 10, 1, 0⟩
def ACQ_R_CFG_REARM (r : Nat) : Fld := ⟨0x91000 + 256 * r, 11, 1, 1⟩
def ACQ_R_CFG_OVW (r : Nat) : Fld := ⟨0x91000 + 256 * r, 12, 1, 0⟩
def ACQ_R_CFG_HMODE (r : Nat) : Fld := ⟨0x91000 + 256 * r, 13, 2, 0⟩
def ACQ_R_CFG_NSEG (r : Nat) : Fld := ⟨0x91000 + 256 * r, 15, 4, 1⟩
def ACQ_R_RAW (r : Nat) : Fld := ⟨0x91004 + 256 * r, 0, 32, 0⟩
def ACQ_R_DLO (r : Nat) : Fld := ⟨0x91008 + 256 * r, 0, 32, 0⟩
def ACQ_R_DHI (r : Nat) : Fld := ⟨0x9100C + 256 * r, 0, 32, 0⟩
def ACQ_R_MEM_BASE (r : Nat) : Fld := ⟨0x91010 + 256 * r, 0, 13, 0⟩
def ACQ_R_MEM_SIZE (r : Nat) : Fld := ⟨0x91010 + 256 * r, 16, 13, 0⟩
def ACQ_R_PRE_ROWS (r : Nat) : Fld := ⟨0x91014 + 256 * r, 0, 22, 0⟩
def ACQ_R_POST_ROWS (r : Nat) : Fld := ⟨0x91018 + 256 * r, 0, 22, 0⟩
def ACQ_R_TMASK_UNITS (r : Nat) : Fld := ⟨0x9101C + 256 * r, 0, 8, 0⟩
def ACQ_R_TMASK_BUS (r : Nat) : Fld := ⟨0x9101C + 256 * r, 8, 1, 0⟩
def ACQ_R_HOLD (r : Nat) : Fld := ⟨0x91020 + 256 * r, 0, 32, 0⟩
def ACQ_R_CTRL_ARM (r : Nat) : Fld := ⟨0x91024 + 256 * r, 0, 1, 0⟩
def ACQ_R_CTRL_STOP (r : Nat) : Fld := ⟨0x91024 + 256 * r, 1, 1, 0⟩
def ACQ_R_CTRL_MCLR (r : Nat) : Fld := ⟨0x91024 + 256 * r, 2, 1, 0⟩
def ACQ_R_STAT_STATE (r : Nat) : Fld := ⟨0x91028 + 256 * r, 0, 3, 0⟩
def ACQ_R_STAT_SEG (r : Nat) : Fld := ⟨0x91028 + 256 * r, 3, 4, 0⟩
def ACQ_R_STAT_MOVF (r : Nat) : Fld := ⟨0x91028 + 256 * r, 7, 1, 0⟩
def ACQ_R_STAT_REJ (r : Nat) : Fld := ⟨0x91028 + 256 * r, 8, 1, 0⟩
def ACQ_R_STAT_CLOSED (r : Nat) : Fld := ⟨0x91028 + 256 * r, 9, 15, 0⟩
def ACQ_R_FREE_SEG (r : Nat) : Fld := ⟨0x9102C + 256 * r, 0, 4, 0⟩
def ACQ_R_MISSED (r : Nat) : Fld := ⟨0x91030 + 256 * r, 0, 32, 0⟩
def ACQ_R_FMISS_LO (r : Nat) : Fld := ⟨0x91034 + 256 * r, 0, 32, 0⟩
def ACQ_R_FMISS_HI (r : Nat) : Fld := ⟨0x91038 + 256 * r, 0, 32, 0⟩
def NRG_CFG_EN : Fld := ⟨0xA0000, 0, 1, 0⟩
def NRG_CFG_DIR : Fld := ⟨0xA0000, 1, 1, 0⟩
def NRG_CFG_VN_EN : Fld := ⟨0xA0000, 2, 1, 1⟩
def NRG_CFG_UTC : Fld := ⟨0xA0000, 3, 1, 1⟩
def NRG_CFG_VP : Fld := ⟨0xA0000, 4, 5, 0⟩
def NRG_CFG_VN : Fld := ⟨0xA0000, 9, 5, 0⟩
def NRG_CFG_I : Fld := ⟨0xA0000, 14, 5, 0⟩
def NRG_CFG_RESEND : Fld := ⟨0xA0000, 19, 8, 0x1E⟩
def NRG_INT_SEC : Fld := ⟨0xA0004, 0, 12, 0x384⟩
def NRG_INT_HOLDMAX : Fld := ⟨0xA0004, 16, 16, 0x3E8⟩
def NRG_STAT_SAT_IMP : Fld := ⟨0xA0008, 0, 1, 0⟩
def NRG_STAT_SAT_EXP : Fld := ⟨0xA0008, 1, 1, 0⟩
def NRG_STAT_JNEW : Fld := ⟨0xA0008, 2, 1, 0⟩
def NRG_STAT_GAP : Fld := ⟨0xA0008, 3, 1, 0⟩
def NRG_STAT_SIGN_PEND : Fld := ⟨0xA0008, 4, 1, 0⟩
def NRG_STAT_QUEUE : Fld := ⟨0xA0008, 5, 5, 0⟩
def NRG_CAL_GAIN (x : Nat) : Fld := ⟨0xA0010 + 16 * x, 0, 32, 1⟩
def NRG_CAL_OFS (x : Nat) : Fld := ⟨0xA0014 + 16 * x, 0, 32, 0⟩
def NRG_CAL_SH_SH (x : Nat) : Fld := ⟨0xA0018 + 16 * x, 0, 5, 0⟩
def NRG_IMP (i : Nat) : Fld := ⟨0xA0040 + 4 * i, 0, 32, 0⟩
def NRG_EXP (i : Nat) : Fld := ⟨0xA0050 + 4 * i, 0, 32, 0⟩
def NRG_JSEQ : Fld := ⟨0xA0060, 0, 32, 0⟩
def NRG_RSEQ : Fld := ⟨0xA0064, 0, 32, 0⟩
def NRG_ACK : Fld := ⟨0xA0068, 0, 32, 0⟩
def NRG_CLR_GO : Fld := ⟨0xA006C, 0, 1, 0⟩
def NRG_CLR_KEY : Fld := ⟨0xA006C, 16, 16, 0⟩
def NRG_CNT_SUBST : Fld := ⟨0xA0080, 0, 32, 0⟩
def NRG_CNT_GAP : Fld := ⟨0xA0084, 0, 32, 0⟩
def NRG_CNT_JBAD : Fld := ⟨0xA0088, 0, 32, 0⟩
def NRG_CNT_OVF : Fld := ⟨0xA008C, 0, 3, 0⟩
def NRG_CNT_CLR : Fld := ⟨0xA0090, 0, 3, 0⟩
def SEC_STAT_READY : Fld := ⟨0xB0000, 0, 1, 0⟩
def SEC_STAT_BLANK : Fld := ⟨0xB0000, 1, 1, 1⟩
def SEC_STAT_DBG_POLICY : Fld := ⟨0xB0000, 2, 2, 0⟩
def SEC_STAT_DBG_LEVEL : Fld := ⟨0xB0000, 4, 2, 0⟩
def SEC_STAT_ENT_OK : Fld := ⟨0xB0000, 6, 1, 0⟩
def SEC_STAT_KEYS_LOADED : Fld := ⟨0xB0000, 7, 1, 0⟩
def SEC_STAT_ARB : Fld := ⟨0xB0000, 8, 8, 0⟩
def SEC_STAT_SVN : Fld := ⟨0xB0000, 16, 8, 0⟩
def SEC_STAT_IMG_SLOT : Fld := ⟨0xB0000, 24, 2, 0⟩
def SEC_SN_LO : Fld := ⟨0xB0004, 0, 32, (resetAt 0xB0004 0)⟩
def SEC_SN_HI : Fld := ⟨0xB0008, 0, 32, (resetAt 0xB0008 0)⟩
def SEC_OWN_PROG : Fld := ⟨0xB000C, 0, 4, (resetAt 0xB000C 0)⟩
def SEC_OWN_REVOKED : Fld := ⟨0xB000C, 4, 4, (resetAt 0xB000C 4)⟩
def SEC_OWN_USE : Fld := ⟨0xB000C, 8, 12, (resetAt 0xB000C 8)⟩
def SEC_CMD_OFS : Fld := ⟨0xB0010, 0, 16, 0⟩
def SEC_CMD_GO : Fld := ⟨0xB0010, 16, 1, 0⟩
def SEC_CMD_STAT_BUSY : Fld := ⟨0xB0014, 0, 1, 0⟩
def SEC_CMD_STAT_DONE : Fld := ⟨0xB0014, 1, 1, 0⟩
def SEC_CMD_STAT_RESULT : Fld := ⟨0xB0014, 2, 4, 0⟩
def SEC_CMD_STAT_OP : Fld := ⟨0xB0014, 6, 8, 0⟩
def SEC_NONCE (i : Nat) : Fld := ⟨0xB0020 + 4 * i, 0, 32, 0⟩
def SEC_IDH (i : Nat) : Fld := ⟨0xB0040 + 4 * i, 0, 32, 0⟩
def SEC_PKEY_TX : Fld := ⟨0xB0060, 0, 4, 0⟩
def SEC_PKEY_VALID : Fld := ⟨0xB0060, 4, 8, 0⟩
def SEC_DBG_TO : Fld := ⟨0xB0064, 0, 8, 0x1E⟩
def SEC_PKID_ID0 (p : Nat) : Fld := ⟨0xB0070 + 4 * p, 0, 16, 0⟩
def SEC_PKID_ID1 (p : Nat) : Fld := ⟨0xB0070 + 4 * p, 16, 16, 0⟩
def SEC_CNT_SIGN : Fld := ⟨0xB0080, 0, 32, 0⟩
def SEC_CNT_VERIFY : Fld := ⟨0xB0084, 0, 32, 0⟩
def SEC_CNT_DENIED : Fld := ⟨0xB0088, 0, 32, 0⟩
def SEC_CNT_OVF : Fld := ⟨0xB008C, 0, 3, 0⟩
def SEC_CNT_CLR : Fld := ⟨0xB0090, 0, 3, 0⟩
def CFG_STAT_SLOT : Fld := ⟨0xC0000, 0, 2, 0⟩
def CFG_STAT_FALLBACK : Fld := ⟨0xC0000, 2, 1, 0⟩
def CFG_STAT_MODIFIED : Fld := ⟨0xC0000, 3, 1, 0⟩
def CFG_CTRL_MOD_OK : Fld := ⟨0xC0004, 0, 1, 0⟩
def CFG_CTRL_NEXT : Fld := ⟨0xC0004, 1, 2, 0⟩
def CFG_GEN : Fld := ⟨0xC0008, 0, 32, 0⟩
def CFG_HASH (i : Nat) : Fld := ⟨0xC0010 + 4 * i, 0, 32, 0⟩
def CFG_SLOT_STAT_CLASS (x : Nat) : Fld := ⟨0xC0040 + 8 * x, 0, 2, 0⟩
def CFG_SLOT_STAT_PASSED (x : Nat) : Fld := ⟨0xC0040 + 8 * x, 2, 1, 0⟩
def CFG_SLOT_STAT_CODE (x : Nat) : Fld := ⟨0xC0040 + 8 * x, 8, 8, 0⟩
def CFG_SLOT_GEN (x : Nat) : Fld := ⟨0xC0044 + 8 * x, 0, 32, 0⟩
def CFG_LOAD_GO : Fld := ⟨0xC0050, 0, 1, 0⟩
def CFG_LOAD_KEY : Fld := ⟨0xC0050, 16, 16, 0⟩
def CFG_FL_CMD_OP : Fld := ⟨0xC0060, 0, 2, 0⟩
def CFG_FL_CMD_OFS : Fld := ⟨0xC0060, 4, 16, 0⟩
def CFG_FL_ADDR : Fld := ⟨0xC0064, 0, 32, 0⟩
def CFG_FL_LEN : Fld := ⟨0xC0068, 0, 32, 0⟩
def CFG_FL_STAT_BUSY : Fld := ⟨0xC006C, 0, 1, 0⟩
def CFG_FL_STAT_DONE : Fld := ⟨0xC006C, 1, 1, 0⟩
def CFG_FL_STAT_ERR : Fld := ⟨0xC006C, 2, 1, 0⟩
def CFG_FL_STAT_DENIED : Fld := ⟨0xC006C, 3, 1, 0⟩
def CFG_FRESET_TARGET : Fld := ⟨0xC0070, 0, 5, 0⟩
def CFG_FRESET_INDEX : Fld := ⟨0xC0070, 5, 5, 0⟩
def CFG_FRESET_KEY : Fld := ⟨0xC0070, 16, 16, 0⟩
def CFG_OFFLINE_PORT : Fld := ⟨0xC0078, 0, 5, 0⟩
def CFG_OFFLINE_ACT : Fld := ⟨0xC0078, 5, 1, 0⟩
def CFG_OFF_STAT : Fld := ⟨0xC007C, 0, 32, 0⟩
def CFG_OFF_PEND : Fld := ⟨0xC0080, 0, 32, 0⟩
def SEQ_CTRL_LS_RESTART : Fld := ⟨0xD0000, 0, 1, 1⟩
def SEQ_CTRL_ROLE_VEC : Fld := ⟨0xD0000, 1, 1, 1⟩
def SEQ_STAT_MODE : Fld := ⟨0xD0004, 0, 3, 0⟩
def SEQ_STAT_NMI_PEND : Fld := ⟨0xD0004, 3, 1, 0⟩
def SEQ_STAT_ENTRY : Fld := ⟨0xD0004, 4, 12, 0⟩
def SEQ_STAT_LS_SEEN : Fld := ⟨0xD0004, 16, 1, 0⟩
def SEQ_STAT_WD_SEEN : Fld := ⟨0xD0004, 17, 1, 0⟩
def SEQ_EPC : Fld := ⟨0xD0008, 0, 32, 0⟩
def SEQ_EVT : Fld := ⟨0xD0010, 0, 32, 0⟩
def SEQ_EVT_SET_SW : Fld := ⟨0xD0014, 16, 16, 0⟩
def SEQ_REQ_STAT_TARGET : Fld := ⟨0xD0018, 0, 4, 0⟩
def SEQ_REQ_STAT_PEND : Fld := ⟨0xD0018, 4, 1, 0⟩
def SEQ_REQ_STAT_ACC : Fld := ⟨0xD0018, 5, 1, 0⟩
def SEQ_REQ_STAT_REASON : Fld := ⟨0xD0018, 6, 3, 0⟩
def SEQ_SIGN_STAT_STATE : Fld := ⟨0xD001C, 0, 2, 0⟩
def SEQ_SIGN_STAT_RESULT : Fld := ⟨0xD001C, 2, 4, 0⟩
def SEQ_WDOG_TICKS : Fld := ⟨0xD0020, 0, 16, 0⟩
def SEQ_SLOT_OWN0 : Fld := ⟨0xD0028, 0, 32, 0xFFFFFFFF⟩
def SEQ_SLOT_OWN1 : Fld := ⟨0xD002C, 0, 32, 0xFFFFFFFF⟩
def SEQ_RX_WP (q : Nat) : Fld := ⟨0xD0040 + 4 * q, 0, 3, 0⟩
def SEQ_RX_RP (q : Nat) : Fld := ⟨0xD0040 + 4 * q, 8, 3, 0⟩
def SEQ_TX_WP (q : Nat) : Fld := ⟨0xD0050 + 4 * q, 0, 3, 0⟩
def SEQ_TX_RP (q : Nat) : Fld := ⟨0xD0050 + 4 * q, 8, 3, 0⟩
def SEQ_CNT_LS : Fld := ⟨0xD0080, 0, 32, 0⟩
def SEQ_CNT_NMI : Fld := ⟨0xD0084, 0, 32, 0⟩
def SEQ_CNT_ILL : Fld := ⟨0xD0088, 0, 32, 0⟩
def SEQ_CNT_OVF : Fld := ⟨0xD008C, 0, 3, 0⟩
def SEQ_CNT_CLR : Fld := ⟨0xD0090, 0, 3, 0⟩
def MEM_CAVER_CFG_PERIOD : Fld := ⟨0xE0010, 0, 16, 0x16F8⟩
def MEM_CAVER_CFG_EN : Fld := ⟨0xE0010, 16, 1, 1⟩
def MEM_CAVER_STAT_POS : Fld := ⟨0xE0014, 0, 14, 0⟩
def MEM_CAVER_STAT_FAIL : Fld := ⟨0xE0014, 14, 1, 0⟩
def MEM_CAVER_STAT_BUSY : Fld := ⟨0xE0014, 15, 1, 0⟩
def MEM_CAVER_STAT_CYCLES : Fld := ⟨0xE0014, 16, 16, 0⟩
def MEM_CAVER_FADDR : Fld := ⟨0xE0018, 0, 32, 0⟩
def MEM_REGION_ADDR : Fld := ⟨0xE001C, 0, 32, 0⟩
def MEM_REGION_M_M : Fld := ⟨0xE0020, 0, 4, 0⟩
def MEM_REGION_M_WR : Fld := ⟨0xE0020, 4, 1, 0⟩
def MEM_CNT_CE : Fld := ⟨0xE0040, 0, 32, 0⟩
def MEM_CNT_UE : Fld := ⟨0xE0044, 0, 32, 0⟩
def MEM_CNT_REGION : Fld := ⟨0xE0048, 0, 32, 0⟩
def MEM_CNT_MBOX : Fld := ⟨0xE004C, 0, 32, 0⟩
def MEM_CNT_CAVER : Fld := ⟨0xE0050, 0, 32, 0⟩
def MEM_CNT_OVF : Fld := ⟨0xE005C, 0, 5, 0⟩
def MEM_CNT_CLR : Fld := ⟨0xE0060, 0, 5, 0⟩
def MEM_BASE_BASE (m r : Nat) : Fld := ⟨0xE1000 + 256 * m + 16 * r, 8, 24, (resetAt (0xE1000 + 256 * m + 16 * r) 8)⟩
def MEM_LIMIT_LIMIT (m r : Nat) : Fld := ⟨0xE1004 + 256 * m + 16 * r, 8, 24, (resetAt (0xE1004 + 256 * m + 16 * r) 8)⟩
def MEM_CFG_EN (m r : Nat) : Fld := ⟨0xE1008 + 256 * m + 16 * r, 0, 1, (resetAt (0xE1008 + 256 * m + 16 * r) 0)⟩
def MEM_CFG_R (m r : Nat) : Fld := ⟨0xE1008 + 256 * m + 16 * r, 1, 1, (resetAt (0xE1008 + 256 * m + 16 * r) 1)⟩
def MEM_CFG_W (m r : Nat) : Fld := ⟨0xE1008 + 256 * m + 16 * r, 2, 1, (resetAt (0xE1008 + 256 * m + 16 * r) 2)⟩
def MEM_CFG_X (m r : Nat) : Fld := ⟨0xE1008 + 256 * m + 16 * r, 3, 1, (resetAt (0xE1008 + 256 * m + 16 * r) 3)⟩
def HP_STAT_OPEN : Fld := ⟨0xF0000, 0, 1, 0⟩
def HP_STAT_HDR_UE : Fld := ⟨0xF0000, 1, 1, 0⟩
def HP_STAT_OVF : Fld := ⟨0xF0000, 2, 1, 0⟩
def HP_STAT_LEVEL : Fld := ⟨0xF0000, 3, 4, 0⟩
def DBG_SESS_LEVEL : Fld := ⟨0xF8000, 0, 2, 0⟩
def DBG_SESS_FAIL : Fld := ⟨0xF8000, 2, 1, 0⟩
def DBG_SESS_WAIT : Fld := ⟨0xF8000, 3, 1, 0⟩
def DBG_AUTH_LVL : Fld := ⟨0xF8004, 0, 2, 0⟩
def DBG_AUTH_GO : Fld := ⟨0xF8004, 2, 1, 0⟩
def DBG_CHAL (i : Nat) : Fld := ⟨0xF8010 + 4 * i, 0, 32, 0⟩
/-- `DBG_HALT_BLOCK` has the address of `DBG_CHAL4`: it is kept apart from it (DESIGN CHOICE, log entry 132). -/
def DBG_HALT_BLOCK_EN : Fld := ⟨0xF8021, 0, 1, 1⟩
def DBG_SEQ_HALT : Fld := ⟨0xF8030, 0, 1, 0⟩
def DBG_SEQ_RESUME : Fld := ⟨0xF8030, 1, 1, 0⟩
def DBG_SEQ_STEP : Fld := ⟨0xF8030, 2, 1, 0⟩
def DBG_SEQ_HALTED : Fld := ⟨0xF8030, 3, 1, 0⟩
def DBG_SEQ_BP_HIT : Fld := ⟨0xF8030, 4, 1, 0⟩
def DBG_SEQ_BP : Fld := ⟨0xF8030, 5, 2, 0⟩
def DBG_BP_EN (i : Nat) : Fld := ⟨0xF8040 + 4 * i, 0, 1, 0⟩
def DBG_BP_ADDR (i : Nat) : Fld := ⟨0xF8040 + 4 * i, 2, 30, 0⟩
def DBG_SEQ_S (i : Nat) : Fld := ⟨0xF8080 + 4 * i, 0, 32, 0⟩
def DBG_PIPE_HALT : Fld := ⟨0xF8100, 0, 1, 0⟩
def DBG_PIPE_RESUME : Fld := ⟨0xF8100, 1, 1, 0⟩
def DBG_PIPE_STEP : Fld := ⟨0xF8100, 2, 1, 0⟩
def DBG_PIPE_COUNT : Fld := ⟨0xF8100, 8, 8, 1⟩
def DBG_PIPE_HALTED : Fld := ⟨0xF8100, 16, 1, 0⟩
def DBG_PIPE_LEFT : Fld := ⟨0xF8100, 24, 8, 0⟩
def CL_CTRL_EN (n : Nat) : Fld := ⟨lineBase n + 0x0, 0, 1, 0⟩
def CL_CTRL_AUTO_REC (n : Nat) : Fld := ⟨lineBase n + 0x0, 1, 1, 1⟩
def CL_CTRL_LOS_PIN_EN (n : Nat) : Fld := ⟨lineBase n + 0x0, 2, 1, 1⟩
def CL_CTRL_LOS_PIN_POL (n : Nat) : Fld := ⟨lineBase n + 0x0, 3, 1, 0⟩
def CL_CTRL_LB (n : Nat) : Fld := ⟨lineBase n + 0x0, 8, 2, 0⟩
def CL_STAT_STATE (n : Nat) : Fld := ⟨lineBase n + 0x4, 0, 3, 0⟩
def CL_STAT_LOS (n : Nat) : Fld := ⟨lineBase n + 0x4, 3, 1, 0⟩
def CL_STAT_LOL (n : Nat) : Fld := ⟨lineBase n + 0x4, 4, 1, 0⟩
def CL_STAT_CDR_LOCK (n : Nat) : Fld := ⟨lineBase n + 0x4, 5, 1, 0⟩
def CL_STAT_MISS_RUN (n : Nat) : Fld := ⟨lineBase n + 0x4, 6, 2, 0⟩
def CL_STAT_PORT_SILENT (n : Nat) : Fld := ⟨lineBase n + 0x4, 8, 1, 0⟩
def CL_STAT_PORT_ID (n : Nat) : Fld := ⟨lineBase n + 0x4, 9, 1, 0⟩
def CL_STAT_LB_ENDED (n : Nat) : Fld := ⟨lineBase n + 0x4, 10, 1, 0⟩
def CL_STAT_LB_ACTIVE (n : Nat) : Fld := ⟨lineBase n + 0x4, 11, 1, 0⟩
def CL_STAT_ALERT_SEEN (n : Nat) : Fld := ⟨lineBase n + 0x4, 12, 1, 0⟩
def CL_LOS_CFG_AMP (n : Nat) : Fld := ⟨lineBase n + 0x8, 0, 4, 3⟩
def CL_SILENT_TO_MS (n : Nat) : Fld := ⟨lineBase n + 0xC, 0, 16, 0x64⟩
def CL_CNT_LOS (n : Nat) : Fld := ⟨lineBase n + 0x40, 0, 32, 0⟩
def CL_CNT_LOL (n : Nat) : Fld := ⟨lineBase n + 0x44, 0, 32, 0⟩
def CL_CNT_MISS (n : Nat) : Fld := ⟨lineBase n + 0x48, 0, 32, 0⟩
def CL_CNT_STUFF (n : Nat) : Fld := ⟨lineBase n + 0x4C, 0, 32, 0⟩
def CL_CNT_MFIX (n : Nat) : Fld := ⟨lineBase n + 0x50, 0, 32, 0⟩
def CL_CNT_MBAD (n : Nat) : Fld := ⟨lineBase n + 0x54, 0, 32, 0⟩
def CL_CNT_DEFER (n : Nat) : Fld := ⟨lineBase n + 0x58, 0, 32, 0⟩
def CL_CNT_LB (n : Nat) : Fld := ⟨lineBase n + 0x5C, 0, 32, 0⟩
def CL_CNT_RXFRM_LO (n : Nat) : Fld := ⟨lineBase n + 0x60, 0, 32, 0⟩
def CL_CNT_RXFRM_HI (n : Nat) : Fld := ⟨lineBase n + 0x64, 0, 32, 0⟩
def CL_CNT_OVF (n : Nat) : Fld := ⟨lineBase n + 0x7C, 0, 9, 0⟩
def CL_CNT_CLR (n : Nat) : Fld := ⟨lineBase n + 0x80, 0, 9, 0⟩
def CL_FCNT_CRC (n : Nat) : Fld := ⟨0x1000C0 + 4096 * n, 0, 32, 0⟩
def CL_FCNT_HFIX (n : Nat) : Fld := ⟨0x1000C4 + 4096 * n, 0, 32, 0⟩
def CL_FCNT_HUE (n : Nat) : Fld := ⟨0x1000C8 + 4096 * n, 0, 32, 0⟩
def CL_FCNT_WFIX (n : Nat) : Fld := ⟨0x1000CC + 4096 * n, 0, 32, 0⟩
def CL_FCNT_WUE (n : Nat) : Fld := ⟨0x1000D0 + 4096 * n, 0, 32, 0⟩
def CL_FCNT_IDX (n : Nat) : Fld := ⟨0x1000D4 + 4096 * n, 0, 32, 0⟩
def CL_FCNT_LATE (n : Nat) : Fld := ⟨0x1000D8 + 4096 * n, 0, 32, 0⟩
def CL_FCNT_SEQ (n : Nat) : Fld := ⟨0x1000DC + 4096 * n, 0, 32, 0⟩
def CL_FCNT_NOREP (n : Nat) : Fld := ⟨0x1000E0 + 4096 * n, 0, 32, 0⟩
def CL_FCNT_OVF (n : Nat) : Fld := ⟨0x1000F0 + 4096 * n, 0, 9, 0⟩
def CL_FCNT_CLR (n : Nat) : Fld := ⟨0x1000F4 + 4096 * n, 0, 9, 0⟩
def CL_HUB_ID (n : Nat) : Fld := ⟨0x100100 + 4096 * n, 0, 8, 0⟩
def CL_HUB_TLAG (n : Nat) : Fld := ⟨0x100100 + 4096 * n, 8, 1, 0⟩
def CL_HUB_STAT_EPOCH (n : Nat) : Fld := ⟨0x100104 + 4096 * n, 0, 24, 0⟩
def CL_HUB_STAT_TOKEN (n : Nat) : Fld := ⟨0x100104 + 4096 * n, 24, 1, 0⟩
def CL_HUB_STAT_OTHER_UP (n : Nat) : Fld := ⟨0x100104 + 4096 * n, 25, 1, 0⟩
def CL_HUB_STAT_HUB_FLT (n : Nat) : Fld := ⟨0x100104 + 4096 * n, 26, 1, 0⟩
def CL_HUB_STAT_HOLDING (n : Nat) : Fld := ⟨0x100104 + 4096 * n, 27, 1, 0⟩
def CL_HUB_INFO_NCELL (n : Nat) : Fld := ⟨0x100108 + 4096 * n, 0, 8, 0⟩
def CL_HUB_INFO_HFCODE (n : Nat) : Fld := ⟨0x100108 + 4096 * n, 8, 8, 0⟩
def CL_HUB_INFO_HTEMP (n : Nat) : Fld := ⟨0x100108 + 4096 * n, 16, 8, 0⟩
def CL_PDLY_DPORT (n : Nat) : Fld := ⟨0x10010C + 4096 * n, 0, 16, 0⟩
def CL_PDLY_LH (n : Nat) : Fld := ⟨0x10010C + 4096 * n, 16, 16, 0⟩
def CL_HUB_MW_LO (n : Nat) : Fld := ⟨0x100110 + 4096 * n, 0, 32, 0⟩
def CL_HUB_MW_HI (n : Nat) : Fld := ⟨0x100114 + 4096 * n, 0, 32, 0⟩
def SNS_CFG_ADV : Fld := ⟨0x120000, 0, 10, 0xC8⟩
def SNS_CFG_SLAG : Fld := ⟨0x120000, 10, 1, 0⟩
def SNS_P_CFG_ID (m : Nat) : Fld := ⟨0x120100 + 64 * m, 0, 8, 0⟩
def SNS_P_CFG_RATE (m : Nat) : Fld := ⟨0x120100 + 64 * m, 8, 3, 0⟩
def SNS_P_CFG_HSEN (m : Nat) : Fld := ⟨0x120100 + 64 * m, 11, 1, 0⟩
def SNS_P_CFG_HSLOT (m : Nat) : Fld := ⟨0x120100 + 64 * m, 12, 8, 0⟩
def SNS_P_STAT_DCOMP (m : Nat) : Fld := ⟨0x120104 + 64 * m, 0, 15, 0⟩
def SNS_P_STAT_TBIN (m : Nat) : Fld := ⟨0x120104 + 64 * m, 15, 1, 0⟩
def SNS_P_STAT_SYNC (m : Nat) : Fld := ⟨0x120104 + 64 * m, 16, 1, 0⟩
def SNS_P_STAT_CFCODE (m : Nat) : Fld := ⟨0x120104 + 64 * m, 24, 8, 0⟩
def SNS_P_HLTH (m : Nat) : Fld := ⟨0x120108 + 64 * m, 0, 32, 0⟩
def SNS_P_CNT_CRC (m : Nat) : Fld := ⟨0x120110 + 64 * m, 0, 32, 0⟩
def SNS_P_CNT_MISS (m : Nat) : Fld := ⟨0x120114 + 64 * m, 0, 32, 0⟩
def SNS_P_CNT_LATE (m : Nat) : Fld := ⟨0x120118 + 64 * m, 0, 32, 0⟩
def SNS_P_CNT_OVF (m : Nat) : Fld := ⟨0x12011C + 64 * m, 0, 3, 0⟩
def SNS_P_CNT_CLR (m : Nat) : Fld := ⟨0x120120 + 64 * m, 0, 3, 0⟩
def SNS_CH_CFG_MEAN (n : Nat) : Fld := ⟨0x121000 + 16 * n, 0, 8, 0⟩
def SNS_CH_CFG_MIN (n : Nat) : Fld := ⟨0x121000 + 16 * n, 8, 8, 0⟩
def SNS_CH_CFG_MAX (n : Nat) : Fld := ⟨0x121000 + 16 * n, 16, 8, 0⟩
def SNS_CH_CFG_EN (n : Nat) : Fld := ⟨0x121000 + 16 * n, 24, 1, 0⟩
def SNS_CH_CFG_MMEN (n : Nat) : Fld := ⟨0x121000 + 16 * n, 25, 1, 0⟩
def SNS_CH_CFG_GSH (n : Nat) : Fld := ⟨0x121000 + 16 * n, 27, 5, 0⟩
def SNS_CH_GAIN (n : Nat) : Fld := ⟨0x121004 + 16 * n, 0, 32, 1⟩
def SNS_CH_OFS (n : Nat) : Fld := ⟨0x121008 + 16 * n, 0, 32, 0⟩
def SNS_CH_STAT_NOW (n : Nat) : Fld := ⟨0x12100C + 16 * n, 0, 4, 0⟩
def SNS_CH_STAT_SEEN (n : Nat) : Fld := ⟨0x12100C + 16 * n, 4, 4, 0⟩
def SNS_CH_STAT_CNT (n : Nat) : Fld := ⟨0x12100C + 16 * n, 8, 6, 0⟩
def STN_CTRL_EN (p : Nat) : Fld := ⟨0x140000 + 16384 * p, 0, 1, 0⟩
def STN_CTRL_UDP (p : Nat) : Fld := ⟨0x140000 + 16384 * p, 1, 1, 0⟩
def STN_CTRL_PTP_EN (p : Nat) : Fld := ⟨0x140000 + 16384 * p, 2, 1, 0⟩
def STN_STAT_LINK (p : Nat) : Fld := ⟨0x140004 + 16384 * p, 0, 1, 0⟩
def STN_STAT_HIBER (p : Nat) : Fld := ⟨0x140004 + 16384 * p, 1, 1, 0⟩
def STN_STAT_DOWN_SEEN (p : Nat) : Fld := ⟨0x140004 + 16384 * p, 2, 1, 0⟩
def STN_MAC_LO (p : Nat) : Fld := ⟨0x140008 + 16384 * p, 0, 32, 0⟩
def STN_MAC_HI_MAC (p : Nat) : Fld := ⟨0x14000C + 16384 * p, 0, 16, 0⟩
def STN_ADDR_ETYPE (p : Nat) : Fld := ⟨0x140010 + 16384 * p, 0, 16, 0x88B5⟩
def STN_ADDR_UPORT (p : Nat) : Fld := ⟨0x140010 + 16384 * p, 16, 16, 0xC0B5⟩
def STN_IP (p : Nat) : Fld := ⟨0x140014 + 16384 * p, 0, 32, 0⟩
def STN_VLAN_VID (p : Nat) : Fld := ⟨0x140018 + 16384 * p, 0, 12, 0⟩
def STN_VLAN_TX_PCP (p : Nat) : Fld := ⟨0x140018 + 16384 * p, 12, 3, 5⟩
def STN_VLAN_RSP_PCP (p : Nat) : Fld := ⟨0x140018 + 16384 * p, 15, 3, 4⟩
def STN_CLSMAP_MAP (p : Nat) : Fld := ⟨0x14001C + 16384 * p, 0, 16, 0x1AFF⟩
def STN_CLSMAP_UNTAG (p : Nat) : Fld := ⟨0x14001C + 16384 * p, 16, 2, 3⟩
def STN_CLSMAP_UNTAG_EN (p : Nat) : Fld := ⟨0x14001C + 16384 * p, 18, 1, 0⟩
def STN_RATE_RATE (p c : Nat) : Fld := ⟨0x140020 + 16384 * p + 4 * c, 0, 16, 1⟩
def STN_RATE_BURST (p c : Nat) : Fld := ⟨0x140020 + 16384 * p + 4 * c, 16, 8, (resetAt (0x140020 + 16384 * p + 4 * c) 16)⟩
def STN_C0_TMO (p : Nat) : Fld := ⟨0x140034 + 16384 * p, 0, 16, 0⟩
def STN_C0_LAT_LAST (p : Nat) : Fld := ⟨0x140038 + 16384 * p, 0, 11, 0⟩
def STN_C0_LAT_MAX (p : Nat) : Fld := ⟨0x140038 + 16384 * p, 16, 11, 0⟩
def STN_C0_LAT_CLR (p : Nat) : Fld := ⟨0x140038 + 16384 * p, 31, 1, 0⟩
def STN_TX_PER (p : Nat) : Fld := ⟨0x14003C + 16384 * p, 0, 16, 0⟩
def STN_TX_NSEL (p : Nat) : Fld := ⟨0x14003C + 16384 * p, 16, 5, 0⟩
def STN_TXSEL_SLOT_A (p i : Nat) : Fld := ⟨0x140040 + 16384 * p + 4 * i, 0, 10, 0⟩
def STN_TXSEL_SLOT_B (p i : Nat) : Fld := ⟨0x140040 + 16384 * p + 4 * i, 16, 10, 0⟩
def STN_OWN (p c i : Nat) : Fld := ⟨0x140080 + 16384 * p + 16 * c + 4 * i, 0, 32, 0⟩
def STN_ALLOW_LO (p j : Nat) : Fld := ⟨0x140100 + 16384 * p + 16 * j, 0, 32, 0⟩
def STN_ALLOW_HI_MAC (p j : Nat) : Fld := ⟨0x140104 + 16384 * p + 16 * j, 0, 16, 0⟩
def STN_ALLOW_HI_CLS (p j : Nat) : Fld := ⟨0x140104 + 16384 * p + 16 * j, 16, 4, 0⟩
def STN_ALLOW_HI_VALID (p j : Nat) : Fld := ⟨0x140104 + 16384 * p + 16 * j, 20, 1, 0⟩
def STN_ALLOW_HI_IPEN (p j : Nat) : Fld := ⟨0x140104 + 16384 * p + 16 * j, 21, 1, 0⟩
def STN_ALLOW_IP (p j : Nat) : Fld := ⟨0x140108 + 16384 * p + 16 * j, 0, 32, 0⟩
def STN_CNT (p i : Nat) : Fld := ⟨0x140200 + 16384 * p + 4 * i, 0, 32, 0⟩
def STN_CNT_OVF (p : Nat) : Fld := ⟨0x140240 + 16384 * p, 0, 10, 0⟩
def STN_CNT_CLR (p : Nat) : Fld := ⟨0x140244 + 16384 * p, 0, 10, 0⟩

end Sys2Proof.Machine
end

