-- ==== Sys2Proof/Machine/RegMap.lean ====
section
/-! DEFINITION. The register map: for every register its addresses, its fields with their access codes, reset
values and legal encodings; and the generic read and write of a register under R7 to R10. -/
namespace Sys2Proof.Machine
open Sys2Proof

/-- The access codes of R7. -/
inductive Acc where
  | rw | ro | w1c | w1s | wo | rwl
deriving DecidableEq, Repr

/-- A field of a register: lowest bit, width, access, reset value (none: `resetAt`), and the legal values as
ranges (empty: every value). -/
structure FldDef where
  lo  : Nat
  w   : Nat
  acc : Acc
  rst : Option Nat
  ok  : List (Nat × Nat)
deriving DecidableEq, Repr

/-- A register, or an array of them with its strides and counts. -/
structure RegDef where
  base : Nat
  idx  : List (Nat × Nat)
  flds : List FldDef
deriving DecidableEq, Repr

/-- Registers of block window CLK_. -/
def clkRegs : List RegDef :=
  [
   -- CLK_CHIP_ID
   ⟨0x0, [], [⟨16, 16, .ro, some 38400, []⟩, ⟨12, 4, .ro, some 11, []⟩, ⟨8, 4, .ro, some 0, []⟩, ⟨0, 8, .ro, some 1, []⟩]⟩,
   -- CLK_STATE
   ⟨0x10, [], [⟨0, 4, .ro, some 0, []⟩, ⟨4, 4, .ro, some 0, []⟩, ⟨8, 1, .w1c, some 0, []⟩, ⟨9, 1, .ro, some 0, []⟩, ⟨16, 8, .ro, some 0, []⟩]⟩,
   -- CLK_STATE_REQ
   ⟨0x14, [], [⟨0, 4, .wo, some 0, []⟩, ⟨16, 16, .wo, some 0, []⟩]⟩,
   -- CLK_TICK_LO
   ⟨0x20, [], [⟨0, 32, .ro, some 0, []⟩]⟩,
   -- CLK_TICK_HI
   ⟨0x24, [], [⟨0, 32, .ro, some 0, []⟩]⟩,
   -- CLK_TICK_LEN
   ⟨0x28, [], [⟨0, 11, .ro, some 0, []⟩, ⟨16, 1, .w1c, some 0, []⟩, ⟨17, 1, .w1c, some 0, []⟩, ⟨18, 1, .w1c, some 0, []⟩, ⟨19, 1, .w1c, some 0, []⟩]⟩,
   -- CLK_MON
   ⟨0x30, [], [⟨0, 1, .ro, some 0, []⟩, ⟨1, 1, .ro, some 0, []⟩, ⟨2, 1, .ro, some 0, []⟩, ⟨3, 1, .ro, some 0, []⟩, ⟨8, 1, .w1c, some 0, []⟩, ⟨9, 1, .w1c, some 0, []⟩, ⟨10, 1, .w1c, some 0, []⟩, ⟨11, 1, .w1c, some 0, []⟩, ⟨12, 1, .w1c, some 0, []⟩, ⟨13, 1, .w1c, some 0, []⟩, ⟨14, 1, .w1c, some 0, []⟩, ⟨15, 1, .w1c, some 0, []⟩, ⟨16, 1, .ro, some 0, []⟩]⟩,
   -- CLK_PWR
   ⟨0x40, [], [⟨0, 12, .ro, some 0, []⟩, ⟨16, 12, .w1c, some 0, []⟩]⟩,
   -- CLK_TEMP
   ⟨0x44, [], [⟨0, 8, .ro, some 0, []⟩, ⟨8, 8, .ro, some 0, []⟩, ⟨16, 8, .rw, some 145, []⟩, ⟨24, 1, .w1c, some 0, []⟩, ⟨25, 1, .w1c, some 0, []⟩, ⟨26, 1, .wo, some 0, []⟩]⟩]

/-- Registers of block window FLT_. -/
def fltRegs : List RegDef :=
  [
   -- FLT_CTRL
   ⟨0x10000, [], [⟨0, 1, .rw, some 0, []⟩]⟩,
   -- FLT_STAT
   ⟨0x10004, [], [⟨0, 1, .w1c, some 0, []⟩, ⟨1, 1, .ro, some 0, []⟩, ⟨2, 1, .w1c, some 0, []⟩, ⟨3, 1, .ro, some 1, []⟩]⟩,
   -- FLT_INJ_COUNT
   ⟨0x10008, [], [⟨0, 1, .rwl, some 0, []⟩]⟩,
   -- FLT_NMI_SRC
   ⟨0x1000C, [], [⟨0, 10, .ro, some 0, []⟩, ⟨10, 6, .ro, some 0, []⟩]⟩,
   -- FLT_CRESET_CAUSE
   ⟨0x10010, [], [⟨0, 10, .ro, some 0, []⟩, ⟨10, 6, .ro, some 0, []⟩, ⟨16, 1, .w1c, some 0, []⟩]⟩,
   -- FLT_ERR_CLR
   ⟨0x10014, [], [⟨0, 1, .wo, some 0, []⟩]⟩,
   -- FLT_LOG_CFG
   ⟨0x10020, [], [⟨0, 1, .rwl, some 0, []⟩]⟩,
   -- FLT_LOG_WP
   ⟨0x10024, [], [⟨0, 14, .ro, some 0, []⟩]⟩,
   -- FLT_LOG_RP
   ⟨0x10028, [], [⟨0, 14, .rw, some 0, []⟩]⟩,
   -- FLT_CNT_EVT
   ⟨0x10040, [], [⟨0, 32, .ro, some 0, []⟩]⟩,
   -- FLT_CNT_MERGED
   ⟨0x10044, [], [⟨0, 32, .ro, some 0, []⟩]⟩,
   -- FLT_CNT_LOGLOST
   ⟨0x10048, [], [⟨0, 32, .ro, some 0, []⟩]⟩] ++
  [
   -- FLT_CNT_OVF
   ⟨0x1004C, [], [⟨0, 3, .w1c, some 0, []⟩]⟩,
   -- FLT_CNT_CLR
   ⟨0x10050, [], [⟨0, 3, .wo, some 0, []⟩]⟩,
   -- FLT_PEND
   ⟨0x10080, [(4, 32)], [⟨0, 32, .w1c, some 0, []⟩]⟩,
   -- FLT_INJ
   ⟨0x11000, [(4, 112)], [⟨0, 8, .rw, some 0, []⟩, ⟨8, 1, .rw, some 0, []⟩, ⟨9, 1, .rw, some 0, []⟩]⟩,
   -- FLT_SRC_CFG0
   ⟨0x14000, [(16, 1024)], [⟨0, 8, .rwl, none, [(1, 255)]⟩, ⟨8, 16, .rwl, none, [(1, 65535)]⟩, ⟨24, 1, .rwl, none, []⟩, ⟨25, 1, .rwl, none, []⟩]⟩,
   -- FLT_SRC_CFG1
   ⟨0x14004, [(16, 1024)], [⟨0, 7, .rwl, none, []⟩, ⟨8, 7, .rwl, none, []⟩, ⟨16, 16, .rwl, none, [(1, 65535)]⟩]⟩,
   -- FLT_SRC_STAT
   ⟨0x14008, [(16, 1024)], [⟨0, 2, .ro, some 0, []⟩, ⟨2, 9, .ro, some 0, []⟩, ⟨11, 6, .ro, some 0, []⟩, ⟨17, 1, .w1c, some 0, []⟩, ⟨18, 1, .w1c, some 0, []⟩]⟩,
   -- FLT_SRC_REC
   ⟨0x1400C, [(16, 1024)], [⟨0, 16, .ro, some 0, []⟩, ⟨31, 1, .wo, some 0, []⟩]⟩]

/-- Registers of block window TIM_. -/
def timRegs : List RegDef :=
  [
   -- TIM_CTRL
   ⟨0x20000, [], [⟨0, 1, .rwl, some 0, []⟩, ⟨1, 1, .rwl, some 1, []⟩, ⟨2, 1, .rwl, some 1, []⟩, ⟨3, 1, .rw, some 0, []⟩, ⟨4, 1, .rw, some 1, []⟩]⟩,
   -- TIM_STAT
   ⟨0x20004, [], [⟨0, 1, .ro, some 0, []⟩, ⟨1, 1, .w1c, some 0, []⟩, ⟨2, 1, .w1c, some 0, []⟩, ⟨3, 1, .w1c, some 0, []⟩, ⟨4, 1, .w1c, some 0, []⟩]⟩,
   -- TIM_TQ
   ⟨0x20008, [], [⟨0, 32, .ro, some 4294901760, []⟩]⟩,
   -- TIM_NOW_LO
   ⟨0x20010, [], [⟨0, 32, .ro, some 0, []⟩]⟩,
   -- TIM_NOW_HI
   ⟨0x20014, [], [⟨0, 32, .ro, some 0, []⟩]⟩,
   -- TIM_NOW_FR
   ⟨0x20018, [], [⟨0, 32, .ro, some 0, []⟩]⟩,
   -- TIM_INC_NOM_LO
   ⟨0x20020, [], [⟨0, 32, .rwl, some 0, []⟩]⟩,
   -- TIM_INC_NOM_HI
   ⟨0x20024, [], [⟨0, 32, .rwl, some 4, [(3, 4)]⟩]⟩,
   -- TIM_INC_LO
   ⟨0x20028, [], [⟨0, 32, .ro, some 0, []⟩]⟩,
   -- TIM_INC_HI
   ⟨0x2002C, [], [⟨0, 32, .ro, some 4, []⟩]⟩,
   -- TIM_SLEW
   ⟨0x20030, [], [⟨0, 16, .rwl, some 10, [(1, 65535)]⟩, ⟨16, 8, .rwl, some 200, [(1, 200)]⟩]⟩,
   -- TIM_HO
   ⟨0x20034, [], [⟨0, 16, .rwl, some 20, []⟩, ⟨16, 16, .rwl, some 3600, [(1, 65535)]⟩]⟩] ++
  [
   -- TIM_DIFF
   ⟨0x20038, [], [⟨0, 24, .rwl, some 10000, []⟩]⟩,
   -- TIM_UTC
   ⟨0x2003C, [], [⟨0, 16, .rw, some 0, []⟩, ⟨16, 1, .rw, some 0, []⟩]⟩,
   -- TIM_TP0
   ⟨0x20040, [], [⟨0, 1, .rwl, some 0, []⟩]⟩,
   -- TIM_TP0_SEC_LO
   ⟨0x20044, [], [⟨0, 32, .rw, some 0, []⟩]⟩,
   -- TIM_TP0_SEC_HI
   ⟨0x20048, [], [⟨0, 32, .rw, some 0, []⟩]⟩,
   -- TIM_D_CFG
   ⟨0x20100, [(64, 2)], [⟨0, 3, .rwl, some 0, [(0, 4)]⟩, ⟨3, 2, .rwl, some 0, []⟩, ⟨8, 8, .rwl, some 0, []⟩, ⟨16, 16, .rwl, some 100, []⟩]⟩,
   -- TIM_D_QUAL
   ⟨0x20104, [(64, 2)], [⟨0, 12, .rwl, some 60, [(60, 4095)]⟩, ⟨16, 10, .rwl, some 250, [(1, 999)]⟩, ⟨28, 4, .rwl, some 3, [(2, 15)]⟩]⟩,
   -- TIM_D_GAIN
   ⟨0x20108, [(64, 2)], [⟨0, 5, .rwl, some 2, []⟩, ⟨8, 5, .rwl, some 5, []⟩]⟩,
   -- TIM_D_STAT
   ⟨0x2010C, [(64, 2)], [⟨0, 2, .ro, some 0, []⟩, ⟨2, 12, .ro, some 0, []⟩]⟩,
   -- TIM_D_OFS
   ⟨0x20110, [(64, 2)], [⟨0, 32, .ro, some 0, []⟩]⟩,
   -- TIM_D_FREQ
   ⟨0x20114, [(64, 2)], [⟨0, 32, .ro, some 0, []⟩]⟩,
   -- TIM_ASYM_ING
   ⟨0x20200, [(8, 8)], [⟨0, 32, .rw, some 0, []⟩]⟩] ++
  [
   -- TIM_ASYM_EGR
   ⟨0x20204, [(8, 8)], [⟨0, 32, .rw, some 0, []⟩]⟩,
   -- TIM_CNT_STEP
   ⟨0x20300, [], [⟨0, 32, .ro, some 0, []⟩]⟩,
   -- TIM_CNT_SWITCH
   ⟨0x20304, [], [⟨0, 32, .ro, some 0, []⟩]⟩,
   -- TIM_CNT_HO
   ⟨0x20308, [], [⟨0, 32, .ro, some 0, []⟩]⟩,
   -- TIM_CNT_OVF
   ⟨0x2030C, [], [⟨0, 3, .w1c, some 0, []⟩]⟩,
   -- TIM_CNT_CLR
   ⟨0x20310, [], [⟨0, 3, .wo, some 0, []⟩]⟩]

/-- Registers of block window PRT_. -/
def prtRegs : List RegDef :=
  [
   -- PRT_CTRL
   ⟨0x30000, [], [⟨0, 1, .rwl, some 0, []⟩, ⟨1, 1, .rwl, some 0, []⟩, ⟨2, 1, .rwl, some 1, []⟩, ⟨3, 1, .rwl, some 0, []⟩, ⟨4, 1, .rwl, some 1, []⟩, ⟨5, 1, .rwl, some 0, []⟩]⟩,
   -- PRT_STAT
   ⟨0x30004, [], [⟨0, 1, .ro, some 0, []⟩, ⟨1, 1, .ro, some 1, []⟩, ⟨2, 1, .ro, some 0, []⟩, ⟨3, 1, .w1c, some 0, []⟩, ⟨4, 1, .ro, some 0, []⟩, ⟨5, 8, .ro, some 0, []⟩]⟩,
   -- PRT_CAUSE
   ⟨0x30008, [], [⟨0, 8, .ro, some 0, []⟩, ⟨12, 4, .ro, some 0, []⟩, ⟨16, 16, .ro, some 0, []⟩]⟩,
   -- PRT_PIN_CFG
   ⟨0x30010, [], [⟨0, 16, .rwl, some 0, []⟩, ⟨16, 16, .rwl, some 0, []⟩]⟩,
   -- PRT_PIN_STAT
   ⟨0x30014, [], [⟨0, 16, .ro, some 0, []⟩, ⟨16, 16, .w1c, some 0, []⟩]⟩,
   -- PRT_REL_CFG
   ⟨0x30018, [], [⟨0, 16, .rwl, some 1000, [(1, 65535)]⟩, ⟨16, 1, .rwl, some 0, []⟩, ⟨24, 8, .rwl, some 0, []⟩]⟩,
   -- PRT_REL
   ⟨0x3001C, [], [⟨0, 1, .wo, some 0, []⟩, ⟨16, 16, .wo, some 0, []⟩]⟩,
   -- PRT_FORCE
   ⟨0x30020, [], [⟨0, 1, .wo, some 0, []⟩, ⟨16, 16, .wo, some 0, []⟩]⟩,
   -- PRT_CELL_ESC
   ⟨0x30024, [], [⟨0, 5, .rwl, some 3, []⟩, ⟨8, 8, .rwl, some 3, []⟩, ⟨16, 16, .rwl, some 1000, [(1, 65535)]⟩]⟩,
   -- PRT_CNT_SET
   ⟨0x30030, [], [⟨0, 32, .ro, some 0, []⟩]⟩,
   -- PRT_CNT_RELREJ
   ⟨0x30034, [], [⟨0, 32, .ro, some 0, []⟩]⟩,
   -- PRT_CNT_OVF
   ⟨0x30038, [], [⟨0, 2, .w1c, some 0, []⟩]⟩] ++
  [
   -- PRT_CNT_CLR
   ⟨0x3003C, [], [⟨0, 2, .wo, some 0, []⟩]⟩,
   -- PRT_CMP_SEEN
   ⟨0x30040, [], [⟨0, 32, .w1c, some 0, []⟩]⟩,
   -- PRT_CMP_CFG
   ⟨0x30100, [(16, 32)], [⟨0, 1, .rwl, some 0, []⟩, ⟨1, 1, .rwl, some 0, []⟩, ⟨2, 1, .rwl, some 0, []⟩, ⟨3, 1, .rwl, some 1, []⟩, ⟨4, 4, .rwl, some 1, [(1, 15)]⟩, ⟨8, 5, .rwl, some 0, []⟩]⟩,
   -- PRT_CMP_HL
   ⟨0x30104, [(16, 32)], [⟨0, 16, .rwl, some 32768, []⟩, ⟨16, 16, .rwl, some 32767, []⟩]⟩,
   -- PRT_CMP_RATE
   ⟨0x30108, [(16, 32)], [⟨0, 16, .rwl, some 65535, []⟩]⟩,
   -- PRT_CMP_STAT
   ⟨0x3010C, [(16, 32)], [⟨0, 1, .ro, some 0, []⟩, ⟨1, 4, .ro, some 0, []⟩, ⟨5, 1, .w1c, some 0, []⟩, ⟨6, 1, .w1c, some 0, []⟩, ⟨7, 1, .w1c, some 0, []⟩, ⟨8, 1, .w1c, some 0, []⟩]⟩]

/-- Registers of block window CE_. -/
def ceRegs : List RegDef :=
  [
   -- CE_STAT
   ⟨0x40000, [], [⟨0, 1, .ro, some 0, []⟩, ⟨1, 1, .w1c, some 0, []⟩, ⟨2, 1, .w1c, some 0, []⟩, ⟨3, 1, .w1c, some 0, []⟩, ⟨4, 1, .w1c, some 0, []⟩]⟩,
   -- CE_SLACK
   ⟨0x40004, [], [⟨0, 11, .ro, some 0, []⟩, ⟨16, 10, .ro, some 768, []⟩]⟩,
   -- CE_BANK_ACT
   ⟨0x40010, [(4, 6)], [⟨0, 32, .ro, some 0, []⟩]⟩,
   -- CE_CNT_STALL
   ⟨0x40040, [], [⟨0, 32, .ro, some 0, []⟩]⟩,
   -- CE_CNT_UE
   ⟨0x40044, [], [⟨0, 32, .ro, some 0, []⟩]⟩,
   -- CE_CNT_OVF
   ⟨0x40050, [], [⟨0, 2, .w1c, some 0, []⟩]⟩,
   -- CE_CNT_CLR
   ⟨0x40054, [], [⟨0, 2, .wo, some 0, []⟩, ⟨2, 1, .wo, some 0, []⟩]⟩,
   -- CE_SWAP_SEL
   ⟨0x40060, [(4, 6)], [⟨0, 32, .rw, some 0, []⟩]⟩,
   -- CE_SWAP_CTRL
   ⟨0x40080, [], [⟨0, 1, .wo, some 0, []⟩, ⟨1, 1, .rw, some 0, []⟩, ⟨8, 1, .ro, some 0, []⟩, ⟨9, 1, .w1c, some 0, []⟩, ⟨10, 1, .w1c, some 0, []⟩]⟩,
   -- CE_SWAP_TICK
   ⟨0x40084, [], [⟨0, 32, .rw, some 0, []⟩]⟩,
   -- CE_OVR
   ⟨0x400A0, [(4, 6)], [⟨0, 32, .w1c, some 0, []⟩]⟩,
   -- CE_CLAMP_ON_SWAP
   ⟨0x400C0, [(4, 6)], [⟨0, 32, .w1c, some 0, []⟩]⟩] ++
  [
   -- CE_FE
   ⟨0x400E0, [(4, 6)], [⟨0, 32, .w1c, some 0, []⟩]⟩,
   -- CE_TURN
   ⟨0x40400, [(4, 192)], [⟨0, 8, .rwl, some 0, [(0, 191)]⟩, ⟨8, 1, .rwl, some 0, []⟩]⟩,
   -- CE_CH_CFG
   ⟨0x41000, [(16, 192)], [⟨0, 1, .rwl, some 0, []⟩, ⟨1, 2, .rwl, some 0, [(0, 2)]⟩, ⟨3, 1, .rwl, some 0, []⟩, ⟨4, 1, .rwl, some 0, []⟩, ⟨5, 3, .rwl, some 0, [(0, 6)]⟩, ⟨8, 6, .rwl, some 0, []⟩, ⟨14, 2, .rwl, some 0, [(0, 2)]⟩, ⟨16, 2, .rwl, some 0, []⟩, ⟨18, 7, .rwl, some 0, [(0, 111)]⟩]⟩,
   -- CE_CH_IN
   ⟨0x41004, [(16, 192)], [⟨0, 10, .rwl, some 0, []⟩, ⟨10, 10, .rwl, some 0, []⟩, ⟨20, 10, .rwl, some 0, []⟩, ⟨30, 1, .rwl, some 0, []⟩, ⟨31, 1, .rwl, some 0, []⟩]⟩,
   -- CE_CH_SUP
   ⟨0x41008, [(16, 192)], [⟨0, 1, .rwl, some 1, []⟩, ⟨1, 1, .rwl, some 0, []⟩, ⟨2, 1, .rwl, some 1, []⟩, ⟨3, 1, .rwl, some 0, []⟩, ⟨4, 10, .rwl, some 0, []⟩, ⟨14, 1, .w1s, some 1, []⟩]⟩,
   -- CE_CH_STAT
   ⟨0x4100C, [(16, 192)], [⟨0, 16, .ro, some 0, []⟩, ⟨16, 1, .ro, some 0, []⟩, ⟨17, 1, .ro, some 0, []⟩, ⟨18, 1, .ro, some 0, []⟩, ⟨19, 1, .ro, some 0, []⟩, ⟨20, 1, .ro, some 1, []⟩, ⟨21, 1, .ro, some 0, []⟩]⟩]

/-- Registers of block window PLN_. -/
def plnRegs : List RegDef :=
  [
   -- PLN_CTRL
   ⟨0x50000, [], [⟨0, 1, .rw, some 0, []⟩]⟩,
   -- PLN_STAT
   ⟨0x50004, [], [⟨0, 1, .w1c, some 0, []⟩, ⟨1, 1, .w1c, some 0, []⟩, ⟨2, 1, .w1c, some 0, []⟩, ⟨3, 1, .ro, some 0, []⟩]⟩,
   -- PLN_PIP_CFG
   ⟨0x50008, [], [⟨0, 1, .rwl, some 0, []⟩, ⟨1, 1, .rwl, some 1, []⟩, ⟨2, 10, .rwl, some 0, []⟩, ⟨16, 16, .rwl, some 64, []⟩]⟩,
   -- PLN_STG
   ⟨0x5000C, [], [⟨0, 10, .rwl, some 0, [(0, 999)]⟩, ⟨10, 8, .rwl, some 20, []⟩, ⟨18, 2, .rwl, some 0, []⟩, ⟨20, 2, .rwl, some 0, []⟩, ⟨22, 2, .rwl, some 0, []⟩]⟩,
   -- PLN_PAT_PER
   ⟨0x50020, [], [⟨0, 16, .rw, some 2, [(2, 65535)]⟩]⟩,
   -- PLN_PAT_DUTY
   ⟨0x50024, [], [⟨0, 16, .rw, some 0, []⟩]⟩,
   -- PLN_PAT_LO
   ⟨0x50028, [], [⟨0, 20, .rw, some 0, []⟩]⟩,
   -- PLN_PAT_HI
   ⟨0x5002C, [], [⟨0, 20, .rw, some 0, []⟩]⟩,
   -- PLN_COMMIT
   ⟨0x50030, [], [⟨0, 1, .wo, some 0, []⟩]⟩,
   -- PLN_PAT_ACT
   ⟨0x50034, [], [⟨0, 16, .ro, some 2, []⟩, ⟨16, 16, .ro, some 0, []⟩]⟩,
   -- PLN_CNT_OVF
   ⟨0x50050, [], [⟨0, 30, .w1c, some 0, []⟩]⟩,
   -- PLN_CNT_CLR
   ⟨0x50054, [], [⟨0, 30, .wo, some 0, []⟩]⟩] ++
  [
   -- PLN_ARM_REF
   ⟨0x50100, [(64, 6)], [⟨0, 10, .rwl, some 0, []⟩, ⟨10, 1, .rwl, some 0, []⟩]⟩,
   -- PLN_ARM_LIM
   ⟨0x50104, [(64, 6)], [⟨0, 8, .rwl, some 8, [(1, 255)]⟩, ⟨16, 10, .rwl, some 20, [(1, 1023)]⟩]⟩,
   -- PLN_ARM_PIP
   ⟨0x50108, [(64, 6)], [⟨0, 12, .ro, some 0, []⟩, ⟨12, 1, .ro, some 0, []⟩, ⟨13, 1, .ro, some 0, []⟩, ⟨16, 16, .ro, some 65535, []⟩]⟩,
   -- PLN_ARM_BAL
   ⟨0x5010C, [(64, 6)], [⟨0, 32, .ro, some 0, []⟩]⟩,
   -- PLN_ARM_OUT
   ⟨0x50110, [(64, 6)], [⟨0, 12, .ro, some 0, []⟩, ⟨12, 10, .ro, some 0, []⟩, ⟨22, 1, .ro, some 0, []⟩, ⟨23, 1, .ro, some 0, []⟩, ⟨24, 1, .ro, some 0, []⟩, ⟨25, 1, .ro, some 0, []⟩]⟩,
   -- PLN_ARM_STAT
   ⟨0x50114, [(64, 6)], [⟨0, 1, .w1c, some 0, []⟩, ⟨1, 1, .w1c, some 0, []⟩, ⟨2, 1, .w1c, some 0, []⟩, ⟨3, 1, .w1c, some 0, []⟩, ⟨4, 1, .w1c, some 0, []⟩]⟩,
   -- PLN_ARM_CNT_LIM
   ⟨0x50118, [(64, 6)], [⟨0, 32, .ro, some 0, []⟩]⟩,
   -- PLN_ARM_CNT_DVLIM
   ⟨0x5011C, [(64, 6)], [⟨0, 32, .ro, some 0, []⟩]⟩,
   -- PLN_ARM_CNT_EDGE
   ⟨0x50120, [(64, 6)], [⟨0, 32, .ro, some 0, []⟩]⟩,
   -- PLN_ARM_CNT_HELD
   ⟨0x50124, [(64, 6)], [⟨0, 32, .ro, some 0, []⟩]⟩,
   -- PLN_ARM_CNT_ROT
   ⟨0x50128, [(64, 6)], [⟨0, 32, .ro, some 0, []⟩]⟩]

/-- Registers of block window SEL_. -/
def selRegs : List RegDef :=
  [
   -- SEL_CFG
   ⟨0x60000, [], [⟨0, 4, .rwl, some 3, []⟩]⟩,
   -- SEL_DWELL
   ⟨0x60010, [(4, 8)], [⟨0, 8, .rwl, some 21, [(1, 255)]⟩, ⟨8, 8, .rwl, some 21, [(1, 255)]⟩]⟩,
   -- SEL_EXCL_REQ
   ⟨0x60040, [], [⟨0, 12, .wo, some 0, []⟩, ⟨12, 2, .wo, some 0, []⟩]⟩,
   -- SEL_EXCL_STAT
   ⟨0x60044, [], [⟨0, 13, .ro, some 0, []⟩, ⟨13, 1, .w1c, some 0, []⟩, ⟨14, 1, .w1c, some 0, []⟩, ⟨16, 12, .ro, some 0, []⟩]⟩,
   -- SEL_CNT_OVF
   ⟨0x60050, [], [⟨0, 18, .w1c, some 0, []⟩]⟩,
   -- SEL_CNT_CLR
   ⟨0x60054, [], [⟨0, 18, .wo, some 0, []⟩]⟩,
   -- SEL_ARM_BIN
   ⟨0x60100, [(64, 6)], [⟨0, 14, .rwl, some 0, []⟩, ⟨16, 3, .rwl, some 4, [(0, 4)]⟩]⟩,
   -- SEL_ARM_BAND
   ⟨0x60104, [(64, 6)], [⟨0, 10, .rwl, some 8, []⟩, ⟨16, 10, .rwl, some 16, []⟩]⟩,
   -- SEL_ARM_IPRED
   ⟨0x60108, [(64, 6)], [⟨0, 10, .rwl, some 0, []⟩, ⟨10, 1, .rwl, some 0, []⟩, ⟨16, 16, .rwl, some 0, []⟩]⟩,
   -- SEL_ARM_MIN
   ⟨0x6010C, [(64, 6)], [⟨0, 11, .rwl, some 0, [(0, 1024)]⟩]⟩,
   -- SEL_ARM_PTR
   ⟨0x60110, [(64, 6)], [⟨0, 10, .ro, some 0, []⟩, ⟨16, 11, .ro, some 0, []⟩]⟩,
   -- SEL_ARM_STAT
   ⟨0x60114, [(64, 6)], [⟨0, 1, .ro, some 1, []⟩, ⟨1, 1, .ro, some 0, []⟩, ⟨2, 1, .ro, some 0, []⟩, ⟨3, 1, .ro, some 0, []⟩, ⟨8, 1, .w1c, some 0, []⟩, ⟨9, 1, .w1c, some 0, []⟩, ⟨12, 11, .ro, some 0, []⟩]⟩] ++
  [
   -- SEL_ARM_CNT_SWAPS
   ⟨0x60118, [(64, 6)], [⟨0, 32, .ro, some 0, []⟩]⟩,
   -- SEL_ARM_CNT_QLIM
   ⟨0x6011C, [(64, 6)], [⟨0, 32, .ro, some 0, []⟩]⟩,
   -- SEL_ARM_CNT_SHORT
   ⟨0x60120, [(64, 6)], [⟨0, 32, .ro, some 0, []⟩]⟩]

/-- Registers of block window CMP_. -/
def cmpRegs : List RegDef :=
  [
   -- CMP_CTRL
   ⟨0x70000, [], [⟨0, 1, .rwl, some 1, []⟩, ⟨4, 4, .rwl, some 4, [(2, 8)]⟩]⟩,
   -- CMP_EXEC
   ⟨0x70010, [], [⟨0, 10, .rwl, some 400, [(200, 900)]⟩]⟩,
   -- CMP_AUX_REQ
   ⟨0x70020, [], [⟨0, 12, .wo, some 0, []⟩, ⟨12, 3, .wo, some 0, []⟩, ⟨16, 16, .wo, some 0, []⟩]⟩,
   -- CMP_AUX_STAT
   ⟨0x70024, [], [⟨0, 6, .ro, some 0, []⟩, ⟨6, 1, .ro, some 0, []⟩, ⟨7, 1, .w1c, some 0, []⟩, ⟨8, 1, .w1c, some 0, []⟩]⟩,
   -- CMP_DLY_CFG
   ⟨0x70028, [], [⟨0, 1, .rw, some 1, []⟩, ⟨4, 4, .rw, some 2, []⟩, ⟨8, 8, .rw, some 4, [(1, 255)]⟩]⟩,
   -- CMP_STEST_CFG
   ⟨0x70030, [], [⟨0, 1, .rw, some 1, []⟩, ⟨4, 12, .rw, some 10, [(1, 4095)]⟩, ⟨16, 10, .rw, some 1023, []⟩]⟩,
   -- CMP_STEST_STAT
   ⟨0x70034, [], [⟨0, 6, .ro, some 0, []⟩, ⟨8, 1, .w1c, some 0, []⟩, ⟨9, 1, .w1c, some 0, []⟩, ⟨10, 1, .w1c, some 0, []⟩, ⟨11, 1, .w1c, some 0, []⟩, ⟨12, 12, .ro, some 0, []⟩]⟩,
   -- CMP_PROF_STAT
   ⟨0x70038, [], [⟨0, 13, .ro, some 0, []⟩, ⟨13, 1, .w1c, some 0, []⟩]⟩,
   -- CMP_STEST_CNT
   ⟨0x7003C, [], [⟨0, 16, .ro, some 0, []⟩, ⟨16, 16, .ro, some 0, []⟩]⟩,
   -- CMP_STEST_CLR
   ⟨0x70040, [], [⟨0, 1, .wo, some 0, []⟩]⟩]

/-- Registers of block window RED_. -/
def redRegs : List RegDef :=
  [
   -- RED_ID
   ⟨0x80000, [], [⟨0, 1, .ro, some 0, []⟩]⟩,
   -- RED_CFG
   ⟨0x80004, [], [⟨0, 1, .rwl, some 0, []⟩, ⟨1, 1, .rwl, some 0, []⟩, ⟨2, 8, .rwl, some 0, []⟩, ⟨10, 3, .rwl, some 2, [(1, 6)]⟩, ⟨13, 1, .rwl, some 1, []⟩, ⟨14, 4, .rwl, some 12, [(1, 15)]⟩, ⟨18, 8, .rwl, some 20, [(1, 255)]⟩]⟩,
   -- RED_STAT
   ⟨0x80008, [], [⟨0, 2, .ro, some 0, []⟩, ⟨2, 2, .ro, some 0, []⟩, ⟨4, 1, .ro, some 0, []⟩, ⟨5, 1, .ro, some 0, []⟩, ⟨6, 1, .w1c, some 0, []⟩, ⟨7, 1, .w1c, some 0, []⟩, ⟨8, 1, .w1c, some 0, []⟩, ⟨9, 1, .w1c, some 0, []⟩, ⟨10, 1, .ro, some 0, []⟩, ⟨11, 1, .w1c, some 0, []⟩, ⟨12, 1, .w1c, some 0, []⟩, ⟨13, 1, .w1c, some 0, []⟩, ⟨14, 1, .ro, some 0, []⟩]⟩,
   -- RED_EPOCH
   ⟨0x8000C, [], [⟨0, 24, .ro, some 0, []⟩, ⟨24, 1, .wo, some 0, []⟩]⟩,
   -- RED_PAIR_DLY
   ⟨0x80010, [], [⟨0, 16, .ro, some 0, []⟩, ⟨16, 16, .ro, some 0, []⟩]⟩,
   -- RED_DBL
   ⟨0x80014, [], [⟨0, 14, .rwl, some 480, [(0, 10080)]⟩]⟩,
   -- RED_DBL_NEXT
   ⟨0x80018, [], [⟨0, 32, .ro, some 0, []⟩]⟩,
   -- RED_DBL_REQ
   ⟨0x8001C, [], [⟨0, 1, .wo, some 0, []⟩, ⟨16, 16, .wo, some 0, []⟩]⟩,
   -- RED_CKPT
   ⟨0x80020, [], [⟨0, 16, .ro, some 0, []⟩, ⟨16, 6, .ro, some 0, []⟩, ⟨22, 1, .ro, some 0, []⟩]⟩,
   -- RED_CNT_DMIS
   ⟨0x80040, [], [⟨0, 32, .ro, some 0, []⟩]⟩,
   -- RED_CNT_DMISS
   ⟨0x80044, [], [⟨0, 32, .ro, some 0, []⟩]⟩,
   -- RED_CNT_GAPP
   ⟨0x80048, [], [⟨0, 32, .ro, some 0, []⟩]⟩] ++
  [
   -- RED_CNT_TAKE
   ⟨0x8004C, [], [⟨0, 32, .ro, some 0, []⟩]⟩,
   -- RED_CNT_DBL
   ⟨0x80050, [], [⟨0, 32, .ro, some 0, []⟩]⟩,
   -- RED_CNT_OVF
   ⟨0x8005C, [], [⟨0, 5, .w1c, some 0, []⟩]⟩,
   -- RED_CNT_CLR
   ⟨0x80060, [], [⟨0, 5, .wo, some 0, []⟩]⟩]

/-- Registers of block window ACQ_. -/
def acqRegs : List RegDef :=
  [
   -- ACQ_CTRL
   ⟨0x90000, [], [⟨0, 1, .rw, some 0, []⟩]⟩,
   -- ACQ_STAT
   ⟨0x90004, [], [⟨0, 1, .ro, some 0, []⟩, ⟨1, 1, .ro, some 1, []⟩]⟩,
   -- ACQ_SOFT
   ⟨0x90008, [], [⟨0, 4, .wo, some 0, []⟩]⟩,
   -- ACQ_BUS_CFG
   ⟨0x90080, [], [⟨0, 8, .rwl, some 0, []⟩, ⟨8, 2, .rwl, some 0, []⟩, ⟨10, 2, .rwl, some 0, []⟩, ⟨12, 1, .rwl, some 0, []⟩, ⟨16, 4, .rwl, some 0, []⟩]⟩,
   -- ACQ_BUS_PEER
   ⟨0x90084, [], [⟨0, 8, .rwl, some 0, []⟩, ⟨8, 8, .rwl, some 0, []⟩]⟩,
   -- ACQ_BUS_DLY
   ⟨0x90088, [], [⟨0, 16, .ro, some 0, []⟩, ⟨16, 16, .ro, some 0, []⟩]⟩,
   -- ACQ_DCH
   ⟨0x90100, [(4, 64)], [⟨0, 10, .rwl, some 0, []⟩]⟩,
   -- ACQ_EVT
   ⟨0x90200, [(4, 8)], [⟨0, 3, .rwl, some 0, []⟩, ⟨3, 10, .rwl, some 0, []⟩, ⟨13, 6, .rwl, some 0, []⟩, ⟨19, 1, .rwl, some 0, []⟩]⟩,
   -- ACQ_TRG_CFG
   ⟨0x90300, [(16, 8)], [⟨0, 2, .rwl, some 0, []⟩, ⟨2, 2, .rwl, some 0, [(0, 2)]⟩, ⟨4, 6, .rwl, some 0, []⟩]⟩,
   -- ACQ_TRG_LVL
   ⟨0x90304, [(16, 8)], [⟨0, 32, .rwl, some 0, []⟩]⟩,
   -- ACQ_TRG_HYST
   ⟨0x90308, [(16, 8)], [⟨0, 32, .rwl, some 0, []⟩]⟩,
   -- ACQ_R_CFG
   ⟨0x91000, [(256, 4)], [⟨0, 1, .rw, some 0, []⟩, ⟨1, 3, .rw, some 0, [(0, 5)]⟩, ⟨4, 3, .rw, some 0, [(0, 6)]⟩, ⟨7, 3, .rw, some 0, []⟩, ⟨10, 1, .rw, some 0, []⟩, ⟨11, 1, .rw, some 1, []⟩, ⟨12, 1, .rw, some 0, []⟩, ⟨13, 2, .rw, some 0, [(0, 2)]⟩, ⟨15, 4, .rw, some 1, [(1, 15)]⟩]⟩] ++
  [
   -- ACQ_R_RAW
   ⟨0x91004, [(256, 4)], [⟨0, 32, .rw, some 0, []⟩]⟩,
   -- ACQ_R_DLO
   ⟨0x91008, [(256, 4)], [⟨0, 32, .rw, some 0, []⟩]⟩,
   -- ACQ_R_DHI
   ⟨0x9100C, [(256, 4)], [⟨0, 32, .rw, some 0, []⟩]⟩,
   -- ACQ_R_MEM
   ⟨0x91010, [(256, 4)], [⟨0, 13, .rw, some 0, [(0, 6143)]⟩, ⟨16, 13, .rw, some 0, [(0, 6144)]⟩]⟩,
   -- ACQ_R_PRE
   ⟨0x91014, [(256, 4)], [⟨0, 22, .rw, some 0, []⟩]⟩,
   -- ACQ_R_POST
   ⟨0x91018, [(256, 4)], [⟨0, 22, .rw, some 0, []⟩]⟩,
   -- ACQ_R_TMASK
   ⟨0x9101C, [(256, 4)], [⟨0, 8, .rw, some 0, []⟩, ⟨8, 1, .rw, some 0, []⟩]⟩,
   -- ACQ_R_HOLD
   ⟨0x91020, [(256, 4)], [⟨0, 32, .rw, some 0, []⟩]⟩,
   -- ACQ_R_CTRL
   ⟨0x91024, [(256, 4)], [⟨0, 1, .wo, some 0, []⟩, ⟨1, 1, .wo, some 0, []⟩, ⟨2, 1, .wo, some 0, []⟩]⟩,
   -- ACQ_R_STAT
   ⟨0x91028, [(256, 4)], [⟨0, 3, .ro, some 0, []⟩, ⟨3, 4, .ro, some 0, []⟩, ⟨7, 1, .w1c, some 0, []⟩, ⟨8, 1, .w1c, some 0, []⟩, ⟨9, 15, .ro, some 0, []⟩]⟩,
   -- ACQ_R_FREE
   ⟨0x9102C, [(256, 4)], [⟨0, 4, .wo, some 0, []⟩]⟩,
   -- ACQ_R_MISSED
   ⟨0x91030, [(256, 4)], [⟨0, 32, .ro, some 0, []⟩]⟩] ++
  [
   -- ACQ_R_FMISS_LO
   ⟨0x91034, [(256, 4)], [⟨0, 32, .ro, some 0, []⟩]⟩,
   -- ACQ_R_FMISS_HI
   ⟨0x91038, [(256, 4)], [⟨0, 32, .ro, some 0, []⟩]⟩]

/-- Registers of block window NRG_. -/
def nrgRegs : List RegDef :=
  [
   -- NRG_CFG
   ⟨0xA0000, [], [⟨0, 1, .rwl, some 0, []⟩, ⟨1, 1, .rwl, some 0, []⟩, ⟨2, 1, .rwl, some 1, []⟩, ⟨3, 1, .rwl, some 1, []⟩, ⟨4, 5, .rwl, some 0, []⟩, ⟨9, 5, .rwl, some 0, []⟩, ⟨14, 5, .rwl, some 0, []⟩, ⟨19, 8, .rwl, some 30, [(1, 255)]⟩]⟩,
   -- NRG_INT
   ⟨0xA0004, [], [⟨0, 12, .rwl, some 900, [(60, 60), (64, 64), (72, 72), (75, 75), (80, 80), (90, 90), (96, 96), (100, 100), (108, 108), (120, 120), (128, 128), (135, 135),
      (144, 144), (150, 150), (160, 160), (180, 180), (192, 192), (200, 200), (216, 216), (225, 225), (240, 240), (270, 270), (288, 288), (300, 300),
      (320, 320), (360, 360), (384, 384), (400, 400), (432, 432), (450, 450), (480, 480), (540, 540), (576, 576), (600, 600), (640, 640), (675, 675),
      (720, 720), (800, 800), (864, 864), (900, 900), (960, 960), (1080, 1080), (1152, 1152), (1200, 1200), (1350, 1350), (1440, 1440), (1600, 1600), (1728, 1728),
      (1800, 1800), (1920, 1920), (2160, 2160), (2400, 2400), (2700, 2700), (2880, 2880), (3200, 3200), (3456, 3456), (3600, 3600)]⟩, ⟨16, 16, .rwl, some 1000, []⟩]⟩,
   -- NRG_STAT
   ⟨0xA0008, [], [⟨0, 1, .ro, some 0, []⟩, ⟨1, 1, .ro, some 0, []⟩, ⟨2, 1, .w1c, some 0, []⟩, ⟨3, 1, .ro, some 0, []⟩, ⟨4, 1, .ro, some 0, []⟩, ⟨5, 5, .ro, some 0, []⟩]⟩,
   -- NRG_CAL_GAIN
   ⟨0xA0010, [(16, 3)], [⟨0, 32, .rwl, some 1, []⟩]⟩,
   -- NRG_CAL_OFS
   ⟨0xA0014, [(16, 3)], [⟨0, 32, .rwl, some 0, []⟩]⟩,
   -- NRG_CAL_SH
   ⟨0xA0018, [(16, 3)], [⟨0, 5, .rwl, some 0, []⟩]⟩,
   -- NRG_IMP
   ⟨0xA0040, [(4, 4)], [⟨0, 32, .ro, some 0, []⟩]⟩,
   -- NRG_EXP
   ⟨0xA0050, [(4, 4)], [⟨0, 32, .ro, some 0, []⟩]⟩,
   -- NRG_JSEQ
   ⟨0xA0060, [], [⟨0, 32, .ro, some 0, []⟩]⟩,
   -- NRG_RSEQ
   ⟨0xA0064, [], [⟨0, 32, .ro, some 0, []⟩]⟩,
   -- NRG_ACK
   ⟨0xA0068, [], [⟨0, 32, .ro, some 0, []⟩]⟩,
   -- NRG_CLR
   ⟨0xA006C, [], [⟨0, 1, .wo, some 0, []⟩, ⟨16, 16, .wo, some 0, []⟩]⟩] ++
  [
   -- NRG_CNT_SUBST
   ⟨0xA0080, [], [⟨0, 32, .ro, some 0, []⟩]⟩,
   -- NRG_CNT_GAP
   ⟨0xA0084, [], [⟨0, 32, .ro, some 0, []⟩]⟩,
   -- NRG_CNT_JBAD
   ⟨0xA0088, [], [⟨0, 32, .ro, some 0, []⟩]⟩,
   -- NRG_CNT_OVF
   ⟨0xA008C, [], [⟨0, 3, .w1c, some 0, []⟩]⟩,
   -- NRG_CNT_CLR
   ⟨0xA0090, [], [⟨0, 3, .wo, some 0, []⟩]⟩]

/-- Registers of block window SEC_. -/
def secRegs : List RegDef :=
  [
   -- SEC_STAT
   ⟨0xB0000, [], [⟨0, 1, .ro, some 0, []⟩, ⟨1, 1, .ro, some 1, []⟩, ⟨2, 2, .ro, some 0, []⟩, ⟨4, 2, .ro, some 0, []⟩, ⟨6, 1, .ro, some 0, []⟩, ⟨7, 1, .ro, some 0, []⟩, ⟨8, 8, .ro, some 0, []⟩, ⟨16, 8, .ro, some 0, []⟩, ⟨24, 2, .ro, some 0, []⟩]⟩,
   -- SEC_SN_LO
   ⟨0xB0004, [], [⟨0, 32, .ro, none, []⟩]⟩,
   -- SEC_SN_HI
   ⟨0xB0008, [], [⟨0, 32, .ro, none, []⟩]⟩,
   -- SEC_OWN
   ⟨0xB000C, [], [⟨0, 4, .ro, none, []⟩, ⟨4, 4, .ro, none, []⟩, ⟨8, 12, .ro, none, []⟩]⟩,
   -- SEC_CMD
   ⟨0xB0010, [], [⟨0, 16, .rw, some 0, []⟩, ⟨16, 1, .wo, some 0, []⟩]⟩,
   -- SEC_CMD_STAT
   ⟨0xB0014, [], [⟨0, 1, .ro, some 0, []⟩, ⟨1, 1, .w1c, some 0, []⟩, ⟨2, 4, .ro, some 0, []⟩, ⟨6, 8, .ro, some 0, []⟩]⟩,
   -- SEC_NONCE
   ⟨0xB0020, [(4, 8)], [⟨0, 32, .ro, some 0, []⟩]⟩,
   -- SEC_IDH
   ⟨0xB0040, [(4, 8)], [⟨0, 32, .ro, some 0, []⟩]⟩,
   -- SEC_PKEY
   ⟨0xB0060, [], [⟨0, 4, .rw, some 0, []⟩, ⟨4, 8, .ro, some 0, []⟩]⟩,
   -- SEC_DBG
   ⟨0xB0064, [], [⟨0, 8, .rwl, some 30, [(1, 255)]⟩]⟩,
   -- SEC_PKID
   ⟨0xB0070, [(4, 4)], [⟨0, 16, .ro, some 0, []⟩, ⟨16, 16, .ro, some 0, []⟩]⟩,
   -- SEC_CNT_SIGN
   ⟨0xB0080, [], [⟨0, 32, .ro, some 0, []⟩]⟩] ++
  [
   -- SEC_CNT_VERIFY
   ⟨0xB0084, [], [⟨0, 32, .ro, some 0, []⟩]⟩,
   -- SEC_CNT_DENIED
   ⟨0xB0088, [], [⟨0, 32, .ro, some 0, []⟩]⟩,
   -- SEC_CNT_OVF
   ⟨0xB008C, [], [⟨0, 3, .w1c, some 0, []⟩]⟩,
   -- SEC_CNT_CLR
   ⟨0xB0090, [], [⟨0, 3, .wo, some 0, []⟩]⟩]

/-- Registers of block window CFG_. -/
def cfgRegs : List RegDef :=
  [
   -- CFG_STAT
   ⟨0xC0000, [], [⟨0, 2, .ro, some 0, []⟩, ⟨2, 1, .w1c, some 0, []⟩, ⟨3, 1, .ro, some 0, []⟩]⟩,
   -- CFG_CTRL
   ⟨0xC0004, [], [⟨0, 1, .rwl, some 0, []⟩, ⟨1, 2, .rw, some 0, [(0, 2)]⟩]⟩,
   -- CFG_GEN
   ⟨0xC0008, [], [⟨0, 32, .ro, some 0, []⟩]⟩,
   -- CFG_HASH
   ⟨0xC0010, [(4, 8)], [⟨0, 32, .ro, some 0, []⟩]⟩,
   -- CFG_SLOT_STAT
   ⟨0xC0040, [(8, 2)], [⟨0, 2, .ro, some 0, []⟩, ⟨2, 1, .ro, some 0, []⟩, ⟨8, 8, .ro, some 0, []⟩]⟩,
   -- CFG_SLOT_GEN
   ⟨0xC0044, [(8, 2)], [⟨0, 32, .ro, some 0, []⟩]⟩,
   -- CFG_LOAD
   ⟨0xC0050, [], [⟨0, 1, .wo, some 0, []⟩, ⟨16, 16, .wo, some 0, []⟩]⟩,
   -- CFG_FL_CMD
   ⟨0xC0060, [], [⟨0, 2, .wo, some 0, []⟩, ⟨4, 16, .wo, some 0, []⟩]⟩,
   -- CFG_FL_ADDR
   ⟨0xC0064, [], [⟨0, 32, .rw, some 0, []⟩]⟩,
   -- CFG_FL_LEN
   ⟨0xC0068, [], [⟨0, 32, .rw, some 0, []⟩]⟩,
   -- CFG_FL_STAT
   ⟨0xC006C, [], [⟨0, 1, .ro, some 0, []⟩, ⟨1, 1, .w1c, some 0, []⟩, ⟨2, 1, .w1c, some 0, []⟩, ⟨3, 1, .w1c, some 0, []⟩]⟩,
   -- CFG_FRESET
   ⟨0xC0070, [], [⟨0, 5, .wo, some 0, []⟩, ⟨5, 5, .wo, some 0, []⟩, ⟨16, 16, .wo, some 0, []⟩]⟩] ++
  [
   -- CFG_OFFLINE
   ⟨0xC0078, [], [⟨0, 5, .wo, some 0, []⟩, ⟨5, 1, .wo, some 0, []⟩]⟩,
   -- CFG_OFF_STAT
   ⟨0xC007C, [], [⟨0, 32, .ro, some 0, []⟩]⟩,
   -- CFG_OFF_PEND
   ⟨0xC0080, [], [⟨0, 32, .ro, some 0, []⟩]⟩]

/-- Registers of block window SEQ_. -/
def seqRegs : List RegDef :=
  [
   -- SEQ_CTRL
   ⟨0xD0000, [], [⟨0, 1, .rwl, some 1, []⟩, ⟨1, 1, .rwl, some 1, []⟩]⟩,
   -- SEQ_STAT
   ⟨0xD0004, [], [⟨0, 3, .ro, some 0, []⟩, ⟨3, 1, .ro, some 0, []⟩, ⟨4, 12, .ro, some 0, []⟩, ⟨16, 1, .w1c, some 0, []⟩, ⟨17, 1, .w1c, some 0, []⟩]⟩,
   -- SEQ_EPC
   ⟨0xD0008, [], [⟨0, 32, .ro, some 0, []⟩]⟩,
   -- SEQ_EVT
   ⟨0xD0010, [], [⟨0, 32, .w1c, some 0, []⟩]⟩,
   -- SEQ_EVT_SET
   ⟨0xD0014, [], [⟨16, 16, .w1s, some 0, []⟩]⟩,
   -- SEQ_REQ_STAT
   ⟨0xD0018, [], [⟨0, 4, .ro, some 0, []⟩, ⟨4, 1, .ro, some 0, []⟩, ⟨5, 1, .ro, some 0, []⟩, ⟨6, 3, .ro, some 0, []⟩]⟩,
   -- SEQ_SIGN_STAT
   ⟨0xD001C, [], [⟨0, 2, .ro, some 0, []⟩, ⟨2, 4, .ro, some 0, []⟩]⟩,
   -- SEQ_WDOG
   ⟨0xD0020, [], [⟨0, 16, .rwl, some 0, []⟩]⟩,
   -- SEQ_SLOT_OWN0
   ⟨0xD0028, [], [⟨0, 32, .rwl, some 4294967295, []⟩]⟩,
   -- SEQ_SLOT_OWN1
   ⟨0xD002C, [], [⟨0, 32, .rwl, some 4294967295, []⟩]⟩,
   -- SEQ_RX
   ⟨0xD0040, [(4, 3)], [⟨0, 3, .ro, some 0, []⟩, ⟨8, 3, .rw, some 0, []⟩]⟩,
   -- SEQ_TX
   ⟨0xD0050, [(4, 3)], [⟨0, 3, .ro, some 0, []⟩, ⟨8, 3, .ro, some 0, []⟩]⟩] ++
  [
   -- SEQ_CNT_LS
   ⟨0xD0080, [], [⟨0, 32, .ro, some 0, []⟩]⟩,
   -- SEQ_CNT_NMI
   ⟨0xD0084, [], [⟨0, 32, .ro, some 0, []⟩]⟩,
   -- SEQ_CNT_ILL
   ⟨0xD0088, [], [⟨0, 32, .ro, some 0, []⟩]⟩,
   -- SEQ_CNT_OVF
   ⟨0xD008C, [], [⟨0, 3, .w1c, some 0, []⟩]⟩,
   -- SEQ_CNT_CLR
   ⟨0xD0090, [], [⟨0, 3, .wo, some 0, []⟩]⟩]

/-- Registers of block window MEM_. -/
def memRegs : List RegDef :=
  [
   -- MEM_CAVER_CFG
   ⟨0xE0010, [], [⟨0, 16, .rw, some 5880, [(100, 65535)]⟩, ⟨16, 1, .rw, some 1, []⟩]⟩,
   -- MEM_CAVER_STAT
   ⟨0xE0014, [], [⟨0, 14, .ro, some 0, []⟩, ⟨14, 1, .w1c, some 0, []⟩, ⟨15, 1, .ro, some 0, []⟩, ⟨16, 16, .ro, some 0, []⟩]⟩,
   -- MEM_CAVER_FADDR
   ⟨0xE0018, [], [⟨0, 32, .ro, some 0, []⟩]⟩,
   -- MEM_REGION_ADDR
   ⟨0xE001C, [], [⟨0, 32, .ro, some 0, []⟩]⟩,
   -- MEM_REGION_M
   ⟨0xE0020, [], [⟨0, 4, .ro, some 0, []⟩, ⟨4, 1, .ro, some 0, []⟩]⟩,
   -- MEM_CNT_CE
   ⟨0xE0040, [], [⟨0, 32, .ro, some 0, []⟩]⟩,
   -- MEM_CNT_UE
   ⟨0xE0044, [], [⟨0, 32, .ro, some 0, []⟩]⟩,
   -- MEM_CNT_REGION
   ⟨0xE0048, [], [⟨0, 32, .ro, some 0, []⟩]⟩,
   -- MEM_CNT_MBOX
   ⟨0xE004C, [], [⟨0, 32, .ro, some 0, []⟩]⟩,
   -- MEM_CNT_CAVER
   ⟨0xE0050, [], [⟨0, 32, .ro, some 0, []⟩]⟩,
   -- MEM_CNT_OVF
   ⟨0xE005C, [], [⟨0, 5, .w1c, some 0, []⟩]⟩,
   -- MEM_CNT_CLR
   ⟨0xE0060, [], [⟨0, 5, .wo, some 0, []⟩]⟩] ++
  [
   -- MEM_BASE
   ⟨0xE1000, [(256, 3), (16, 16)], [⟨8, 24, .rwl, some 0, []⟩]⟩,
   -- MEM_BASE
   ⟨0xE1300, [(256, 6), (16, 16)], [⟨8, 24, .ro, none, []⟩]⟩,
   -- MEM_LIMIT
   ⟨0xE1004, [(256, 3), (16, 16)], [⟨8, 24, .rwl, none, []⟩]⟩,
   -- MEM_LIMIT
   ⟨0xE1304, [(256, 6), (16, 16)], [⟨8, 24, .ro, none, []⟩]⟩,
   -- MEM_CFG
   ⟨0xE1008, [(256, 3), (16, 16)], [⟨0, 1, .rwl, none, []⟩, ⟨1, 1, .rwl, none, []⟩, ⟨2, 1, .rwl, none, []⟩, ⟨3, 1, .rwl, none, []⟩]⟩,
   -- MEM_CFG
   ⟨0xE1308, [(256, 6), (16, 16)], [⟨0, 1, .ro, none, []⟩, ⟨1, 1, .ro, none, []⟩, ⟨2, 1, .ro, none, []⟩, ⟨3, 1, .ro, none, []⟩]⟩]

/-- Registers of block window HP_. -/
def hpRegs : List RegDef :=
  [
   -- HP_STAT
   ⟨0xF0000, [], [⟨0, 1, .ro, some 0, []⟩, ⟨1, 1, .w1c, some 0, []⟩, ⟨2, 1, .w1c, some 0, []⟩, ⟨3, 4, .ro, some 0, []⟩]⟩,
   -- DBG_SESS
   ⟨0xF8000, [], [⟨0, 2, .ro, some 0, []⟩, ⟨2, 1, .w1c, some 0, []⟩, ⟨3, 1, .ro, some 0, []⟩]⟩,
   -- DBG_AUTH
   ⟨0xF8004, [], [⟨0, 2, .wo, some 0, []⟩, ⟨2, 1, .wo, some 0, []⟩]⟩,
   -- DBG_CHAL
   ⟨0xF8010, [(4, 8)], [⟨0, 32, .ro, some 0, []⟩]⟩,
   -- DBG_HALT_BLOCK
   ⟨0xF8021, [], [⟨0, 1, .rwl, some 1, []⟩]⟩,
   -- DBG_SEQ
   ⟨0xF8030, [], [⟨0, 1, .wo, some 0, []⟩, ⟨1, 1, .wo, some 0, []⟩, ⟨2, 1, .wo, some 0, []⟩, ⟨3, 1, .ro, some 0, []⟩, ⟨4, 1, .w1c, some 0, []⟩, ⟨5, 2, .ro, some 0, []⟩]⟩,
   -- DBG_BP
   ⟨0xF8040, [(4, 4)], [⟨0, 1, .rw, some 0, []⟩, ⟨2, 30, .rw, some 0, []⟩]⟩,
   -- DBG_SEQ_S
   ⟨0xF8084, [(4, 15)], [⟨0, 32, .rw, some 0, []⟩]⟩,
   -- DBG_PIPE
   ⟨0xF8100, [], [⟨0, 1, .wo, some 0, []⟩, ⟨1, 1, .wo, some 0, []⟩, ⟨2, 1, .wo, some 0, []⟩, ⟨8, 8, .rw, some 1, [(1, 255)]⟩, ⟨16, 1, .ro, some 0, []⟩, ⟨24, 8, .ro, some 0, []⟩]⟩]

/-- Registers of block window CL_. -/
def clRegs : List RegDef :=
  [
   -- CL_CTRL
   ⟨0x100000, [(4096, 32)], [⟨0, 1, .rw, some 0, []⟩, ⟨1, 1, .rw, some 1, []⟩, ⟨2, 1, .rw, some 1, []⟩, ⟨3, 1, .rw, some 0, []⟩, ⟨8, 2, .rw, some 0, []⟩]⟩,
   -- CL_STAT
   ⟨0x100004, [(4096, 32)], [⟨0, 3, .ro, some 0, []⟩, ⟨3, 1, .ro, some 0, []⟩, ⟨4, 1, .ro, some 0, []⟩, ⟨5, 1, .ro, some 0, []⟩, ⟨6, 2, .ro, some 0, []⟩, ⟨8, 1, .w1c, some 0, []⟩, ⟨9, 1, .w1c, some 0, []⟩, ⟨10, 1, .w1c, some 0, []⟩, ⟨11, 1, .ro, some 0, []⟩, ⟨12, 1, .w1c, some 0, []⟩]⟩,
   -- CL_LOS_CFG
   ⟨0x100008, [(4096, 32)], [⟨0, 4, .rw, some 3, []⟩]⟩,
   -- CL_SILENT_TO
   ⟨0x10000C, [(4096, 32)], [⟨0, 16, .rw, some 100, [(1, 65535)]⟩]⟩,
   -- CL_CNT_LOS
   ⟨0x100040, [(4096, 32)], [⟨0, 32, .ro, some 0, []⟩]⟩,
   -- CL_CNT_LOL
   ⟨0x100044, [(4096, 32)], [⟨0, 32, .ro, some 0, []⟩]⟩,
   -- CL_CNT_MISS
   ⟨0x100048, [(4096, 32)], [⟨0, 32, .ro, some 0, []⟩]⟩,
   -- CL_CNT_STUFF
   ⟨0x10004C, [(4096, 32)], [⟨0, 32, .ro, some 0, []⟩]⟩,
   -- CL_CNT_MFIX
   ⟨0x100050, [(4096, 32)], [⟨0, 32, .ro, some 0, []⟩]⟩,
   -- CL_CNT_MBAD
   ⟨0x100054, [(4096, 32)], [⟨0, 32, .ro, some 0, []⟩]⟩,
   -- CL_CNT_DEFER
   ⟨0x100058, [(4096, 32)], [⟨0, 32, .ro, some 0, []⟩]⟩,
   -- CL_CNT_LB
   ⟨0x10005C, [(4096, 32)], [⟨0, 32, .ro, some 0, []⟩]⟩] ++
  [
   -- CL_CNT_RXFRM_LO
   ⟨0x100060, [(4096, 32)], [⟨0, 32, .ro, some 0, []⟩]⟩,
   -- CL_CNT_RXFRM_HI
   ⟨0x100064, [(4096, 32)], [⟨0, 32, .ro, some 0, []⟩]⟩,
   -- CL_CNT_OVF
   ⟨0x10007C, [(4096, 32)], [⟨0, 9, .w1c, some 0, []⟩]⟩,
   -- CL_CNT_CLR
   ⟨0x100080, [(4096, 32)], [⟨0, 9, .wo, some 0, []⟩]⟩,
   -- CL_FCNT_CRC
   ⟨0x1000C0, [(4096, 32)], [⟨0, 32, .ro, some 0, []⟩]⟩,
   -- CL_FCNT_HFIX
   ⟨0x1000C4, [(4096, 32)], [⟨0, 32, .ro, some 0, []⟩]⟩,
   -- CL_FCNT_HUE
   ⟨0x1000C8, [(4096, 32)], [⟨0, 32, .ro, some 0, []⟩]⟩,
   -- CL_FCNT_WFIX
   ⟨0x1000CC, [(4096, 32)], [⟨0, 32, .ro, some 0, []⟩]⟩,
   -- CL_FCNT_WUE
   ⟨0x1000D0, [(4096, 32)], [⟨0, 32, .ro, some 0, []⟩]⟩,
   -- CL_FCNT_IDX
   ⟨0x1000D4, [(4096, 32)], [⟨0, 32, .ro, some 0, []⟩]⟩,
   -- CL_FCNT_LATE
   ⟨0x1000D8, [(4096, 32)], [⟨0, 32, .ro, some 0, []⟩]⟩,
   -- CL_FCNT_SEQ
   ⟨0x1000DC, [(4096, 32)], [⟨0, 32, .ro, some 0, []⟩]⟩] ++
  [
   -- CL_FCNT_NOREP
   ⟨0x1000E0, [(4096, 32)], [⟨0, 32, .ro, some 0, []⟩]⟩,
   -- CL_FCNT_OVF
   ⟨0x1000F0, [(4096, 32)], [⟨0, 9, .w1c, some 0, []⟩]⟩,
   -- CL_FCNT_CLR
   ⟨0x1000F4, [(4096, 32)], [⟨0, 9, .wo, some 0, []⟩]⟩,
   -- CL_HUB
   ⟨0x100100, [(4096, 32)], [⟨0, 8, .rwl, some 0, []⟩, ⟨8, 1, .rwl, some 0, []⟩]⟩,
   -- CL_HUB_STAT
   ⟨0x100104, [(4096, 32)], [⟨0, 24, .ro, some 0, []⟩, ⟨24, 1, .ro, some 0, []⟩, ⟨25, 1, .ro, some 0, []⟩, ⟨26, 1, .ro, some 0, []⟩, ⟨27, 1, .ro, some 0, []⟩]⟩,
   -- CL_HUB_INFO
   ⟨0x100108, [(4096, 32)], [⟨0, 8, .ro, some 0, []⟩, ⟨8, 8, .ro, some 0, []⟩, ⟨16, 8, .ro, some 0, []⟩]⟩,
   -- CL_PDLY
   ⟨0x10010C, [(4096, 32)], [⟨0, 16, .ro, some 0, []⟩, ⟨16, 16, .ro, some 0, []⟩]⟩,
   -- CL_HUB_MW_LO
   ⟨0x100110, [(4096, 32)], [⟨0, 32, .rw, some 0, []⟩]⟩,
   -- CL_HUB_MW_HI
   ⟨0x100114, [(4096, 32)], [⟨0, 32, .rw, some 0, []⟩]⟩]

/-- Registers of block window SNS_. -/
def snsRegs : List RegDef :=
  [
   -- CL_CTRL
   ⟨0x128000, [(4096, 4)], [⟨0, 1, .rw, some 0, []⟩, ⟨1, 1, .rw, some 1, []⟩, ⟨2, 1, .rw, some 1, []⟩, ⟨3, 1, .rw, some 0, []⟩, ⟨8, 2, .rw, some 0, []⟩]⟩,
   -- CL_STAT
   ⟨0x128004, [(4096, 4)], [⟨0, 3, .ro, some 0, []⟩, ⟨3, 1, .ro, some 0, []⟩, ⟨4, 1, .ro, some 0, []⟩, ⟨5, 1, .ro, some 0, []⟩, ⟨6, 2, .ro, some 0, []⟩, ⟨8, 1, .w1c, some 0, []⟩, ⟨9, 1, .w1c, some 0, []⟩, ⟨10, 1, .w1c, some 0, []⟩, ⟨11, 1, .ro, some 0, []⟩, ⟨12, 1, .w1c, some 0, []⟩]⟩,
   -- CL_LOS_CFG
   ⟨0x128008, [(4096, 4)], [⟨0, 4, .rw, some 3, []⟩]⟩,
   -- CL_SILENT_TO
   ⟨0x12800C, [(4096, 4)], [⟨0, 16, .rw, some 100, [(1, 65535)]⟩]⟩,
   -- CL_CNT_LOS
   ⟨0x128040, [(4096, 4)], [⟨0, 32, .ro, some 0, []⟩]⟩,
   -- CL_CNT_LOL
   ⟨0x128044, [(4096, 4)], [⟨0, 32, .ro, some 0, []⟩]⟩,
   -- CL_CNT_MISS
   ⟨0x128048, [(4096, 4)], [⟨0, 32, .ro, some 0, []⟩]⟩,
   -- CL_CNT_STUFF
   ⟨0x12804C, [(4096, 4)], [⟨0, 32, .ro, some 0, []⟩]⟩,
   -- CL_CNT_MFIX
   ⟨0x128050, [(4096, 4)], [⟨0, 32, .ro, some 0, []⟩]⟩,
   -- CL_CNT_MBAD
   ⟨0x128054, [(4096, 4)], [⟨0, 32, .ro, some 0, []⟩]⟩,
   -- CL_CNT_DEFER
   ⟨0x128058, [(4096, 4)], [⟨0, 32, .ro, some 0, []⟩]⟩,
   -- CL_CNT_LB
   ⟨0x12805C, [(4096, 4)], [⟨0, 32, .ro, some 0, []⟩]⟩] ++
  [
   -- CL_CNT_RXFRM_LO
   ⟨0x128060, [(4096, 4)], [⟨0, 32, .ro, some 0, []⟩]⟩,
   -- CL_CNT_RXFRM_HI
   ⟨0x128064, [(4096, 4)], [⟨0, 32, .ro, some 0, []⟩]⟩,
   -- CL_CNT_OVF
   ⟨0x12807C, [(4096, 4)], [⟨0, 9, .w1c, some 0, []⟩]⟩,
   -- CL_CNT_CLR
   ⟨0x128080, [(4096, 4)], [⟨0, 9, .wo, some 0, []⟩]⟩,
   -- SNS_CFG
   ⟨0x120000, [], [⟨0, 10, .rwl, some 200, [(100, 900)]⟩, ⟨10, 1, .rwl, some 0, []⟩]⟩,
   -- SNS_P_CFG
   ⟨0x120100, [(64, 4)], [⟨0, 8, .rwl, some 0, []⟩, ⟨8, 3, .rwl, some 0, [(0, 5)]⟩, ⟨11, 1, .rwl, some 0, []⟩, ⟨12, 8, .rwl, some 0, []⟩]⟩,
   -- SNS_P_STAT
   ⟨0x120104, [(64, 4)], [⟨0, 15, .ro, some 0, []⟩, ⟨15, 1, .ro, some 0, []⟩, ⟨16, 1, .ro, some 0, []⟩, ⟨24, 8, .ro, some 0, []⟩]⟩,
   -- SNS_P_HLTH
   ⟨0x120108, [(64, 4)], [⟨0, 32, .ro, some 0, []⟩]⟩,
   -- SNS_P_CNT_CRC
   ⟨0x120110, [(64, 4)], [⟨0, 32, .ro, some 0, []⟩]⟩,
   -- SNS_P_CNT_MISS
   ⟨0x120114, [(64, 4)], [⟨0, 32, .ro, some 0, []⟩]⟩,
   -- SNS_P_CNT_LATE
   ⟨0x120118, [(64, 4)], [⟨0, 32, .ro, some 0, []⟩]⟩,
   -- SNS_P_CNT_OVF
   ⟨0x12011C, [(64, 4)], [⟨0, 3, .w1c, some 0, []⟩]⟩] ++
  [
   -- SNS_P_CNT_CLR
   ⟨0x120120, [(64, 4)], [⟨0, 3, .wo, some 0, []⟩]⟩,
   -- SNS_CH_CFG
   ⟨0x121000, [(16, 32)], [⟨0, 8, .rwl, some 0, []⟩, ⟨8, 8, .rwl, some 0, []⟩, ⟨16, 8, .rwl, some 0, []⟩, ⟨24, 1, .rwl, some 0, []⟩, ⟨25, 1, .rwl, some 0, []⟩, ⟨27, 5, .rwl, some 0, []⟩]⟩,
   -- SNS_CH_GAIN
   ⟨0x121004, [(16, 32)], [⟨0, 32, .rwl, some 1, []⟩]⟩,
   -- SNS_CH_OFS
   ⟨0x121008, [(16, 32)], [⟨0, 32, .rwl, some 0, []⟩]⟩,
   -- SNS_CH_STAT
   ⟨0x12100C, [(16, 32)], [⟨0, 4, .ro, some 0, []⟩, ⟨4, 4, .w1c, some 0, []⟩, ⟨8, 6, .ro, some 0, []⟩]⟩]

/-- Registers of block window MIR_. -/
def mirRegs : List RegDef :=
  [
   -- CL_CTRL
   ⟨0x138000, [(4096, 4)], [⟨0, 1, .rw, some 0, []⟩, ⟨1, 1, .rw, some 1, []⟩, ⟨2, 1, .rw, some 1, []⟩, ⟨3, 1, .rw, some 0, []⟩, ⟨8, 2, .rw, some 0, []⟩]⟩,
   -- CL_STAT
   ⟨0x138004, [(4096, 4)], [⟨0, 3, .ro, some 0, []⟩, ⟨3, 1, .ro, some 0, []⟩, ⟨4, 1, .ro, some 0, []⟩, ⟨5, 1, .ro, some 0, []⟩, ⟨6, 2, .ro, some 0, []⟩, ⟨8, 1, .w1c, some 0, []⟩, ⟨9, 1, .w1c, some 0, []⟩, ⟨10, 1, .w1c, some 0, []⟩, ⟨11, 1, .ro, some 0, []⟩, ⟨12, 1, .w1c, some 0, []⟩]⟩,
   -- CL_LOS_CFG
   ⟨0x138008, [(4096, 4)], [⟨0, 4, .rw, some 3, []⟩]⟩,
   -- CL_SILENT_TO
   ⟨0x13800C, [(4096, 4)], [⟨0, 16, .rw, some 100, [(1, 65535)]⟩]⟩,
   -- CL_CNT_LOS
   ⟨0x138040, [(4096, 4)], [⟨0, 32, .ro, some 0, []⟩]⟩,
   -- CL_CNT_LOL
   ⟨0x138044, [(4096, 4)], [⟨0, 32, .ro, some 0, []⟩]⟩,
   -- CL_CNT_MISS
   ⟨0x138048, [(4096, 4)], [⟨0, 32, .ro, some 0, []⟩]⟩,
   -- CL_CNT_STUFF
   ⟨0x13804C, [(4096, 4)], [⟨0, 32, .ro, some 0, []⟩]⟩,
   -- CL_CNT_MFIX
   ⟨0x138050, [(4096, 4)], [⟨0, 32, .ro, some 0, []⟩]⟩,
   -- CL_CNT_MBAD
   ⟨0x138054, [(4096, 4)], [⟨0, 32, .ro, some 0, []⟩]⟩,
   -- CL_CNT_DEFER
   ⟨0x138058, [(4096, 4)], [⟨0, 32, .ro, some 0, []⟩]⟩,
   -- CL_CNT_LB
   ⟨0x13805C, [(4096, 4)], [⟨0, 32, .ro, some 0, []⟩]⟩] ++
  [
   -- CL_CNT_RXFRM_LO
   ⟨0x138060, [(4096, 4)], [⟨0, 32, .ro, some 0, []⟩]⟩,
   -- CL_CNT_RXFRM_HI
   ⟨0x138064, [(4096, 4)], [⟨0, 32, .ro, some 0, []⟩]⟩,
   -- CL_CNT_OVF
   ⟨0x13807C, [(4096, 4)], [⟨0, 9, .w1c, some 0, []⟩]⟩,
   -- CL_CNT_CLR
   ⟨0x138080, [(4096, 4)], [⟨0, 9, .wo, some 0, []⟩]⟩]

/-- Registers of block window STN_. -/
def stnRegs : List RegDef :=
  [
   -- STN_CTRL
   ⟨0x140000, [(16384, 4)], [⟨0, 1, .rw, some 0, []⟩, ⟨1, 1, .rwl, some 0, []⟩, ⟨2, 1, .rwl, some 0, []⟩]⟩,
   -- STN_STAT
   ⟨0x140004, [(16384, 4)], [⟨0, 1, .ro, some 0, []⟩, ⟨1, 1, .ro, some 0, []⟩, ⟨2, 1, .w1c, some 0, []⟩]⟩,
   -- STN_MAC_LO
   ⟨0x140008, [(16384, 4)], [⟨0, 32, .rwl, some 0, []⟩]⟩,
   -- STN_MAC_HI
   ⟨0x14000C, [(16384, 4)], [⟨0, 16, .rwl, some 0, []⟩]⟩,
   -- STN_ADDR
   ⟨0x140010, [(16384, 4)], [⟨0, 16, .rwl, some 34997, []⟩, ⟨16, 16, .rwl, some 49333, []⟩]⟩,
   -- STN_IP
   ⟨0x140014, [(16384, 4)], [⟨0, 32, .rwl, some 0, []⟩]⟩,
   -- STN_VLAN
   ⟨0x140018, [(16384, 4)], [⟨0, 12, .rwl, some 0, []⟩, ⟨12, 3, .rwl, some 5, []⟩, ⟨15, 3, .rwl, some 4, []⟩]⟩,
   -- STN_CLSMAP
   ⟨0x14001C, [(16384, 4)], [⟨0, 16, .rwl, some 6911, []⟩, ⟨16, 2, .rwl, some 3, []⟩, ⟨18, 1, .rwl, some 0, []⟩]⟩,
   -- STN_RATE
   ⟨0x140020, [(16384, 4)], [⟨0, 16, .rwl, some 1, [(1, 65535)]⟩, ⟨16, 8, .rwl, none, [(1, 2)]⟩]⟩,
   ⟨0x140024, [(16384, 4), (4, 4)], [⟨0, 16, .rwl, some 1, [(1, 65535)]⟩, ⟨16, 8, .rwl, none, [(1, 255)]⟩]⟩,
   -- STN_C0
   ⟨0x140034, [(16384, 4)], [⟨0, 16, .rwl, some 0, []⟩]⟩,
   -- STN_C0_LAT
   ⟨0x140038, [(16384, 4)], [⟨0, 11, .ro, some 0, []⟩, ⟨16, 11, .ro, some 0, []⟩, ⟨31, 1, .wo, some 0, []⟩]⟩,
   -- STN_TX
   ⟨0x14003C, [(16384, 4)], [⟨0, 16, .rwl, some 0, []⟩, ⟨16, 5, .rwl, some 0, [(0, 16)]⟩]⟩] ++
  [
   -- STN_TXSEL
   ⟨0x140040, [(16384, 4), (4, 8)], [⟨0, 10, .rwl, some 0, []⟩, ⟨16, 10, .rwl, some 0, []⟩]⟩,
   -- STN_OWN
   ⟨0x140080, [(16384, 4), (16, 2), (4, 4)], [⟨0, 32, .rwl, some 0, []⟩]⟩,
   -- STN_ALLOW_LO
   ⟨0x140100, [(16384, 4), (16, 8)], [⟨0, 32, .rwl, some 0, []⟩]⟩,
   -- STN_ALLOW_HI
   ⟨0x140104, [(16384, 4), (16, 8)], [⟨0, 16, .rwl, some 0, []⟩, ⟨16, 4, .rwl, some 0, []⟩, ⟨20, 1, .rwl, some 0, []⟩, ⟨21, 1, .rwl, some 0, []⟩]⟩,
   -- STN_ALLOW_IP
   ⟨0x140108, [(16384, 4), (16, 8)], [⟨0, 32, .rwl, some 0, []⟩]⟩,
   -- STN_CNT
   ⟨0x140200, [(16384, 4), (4, 10)], [⟨0, 32, .ro, some 0, []⟩]⟩,
   -- STN_CNT_OVF
   ⟨0x140240, [(16384, 4)], [⟨0, 10, .w1c, some 0, []⟩]⟩,
   -- STN_CNT_CLR
   ⟨0x140244, [(16384, 4)], [⟨0, 10, .wo, some 0, []⟩]⟩]

/-- Whether an offset from the base falls on an element of an array with the given strides and counts. -/
def idxMatch : List (Nat × Nat) → Nat → Bool
  | [], o => o == 0
  | (st, c) :: t, o => decide (o / st < c) && idxMatch t (o % st)

/-- The registers of the block window an address lies in (R495). -/
def windowRegs (a : Nat) : List RegDef :=
  match a / 0x10000 with
  | 0 => clkRegs | 1 => fltRegs | 2 => timRegs | 3 => prtRegs | 4 => ceRegs | 5 => plnRegs | 6 => selRegs
  | 7 => cmpRegs | 8 => redRegs | 9 => acqRegs | 10 => nrgRegs | 11 => secRegs | 12 => cfgRegs | 13 => seqRegs
  | 14 => memRegs | 15 => hpRegs | 16 => clRegs | 17 => clRegs | 18 => snsRegs | 19 => mirRegs | 20 => stnRegs
  | _ => []

/-- The register at an address, none where the address is unassigned (R9). -/
def regAt (a : Nat) : Option RegDef :=
  (windowRegs a).find? fun r => decide (r.base ≤ a) && idxMatch r.idx (a - r.base)

/-- The handle of a field of the register at an address. -/
def fldAt (a : Nat) (f : FldDef) : Fld := ⟨a, f.lo, f.w, f.rst.getD (resetAt a f.lo)⟩

/-- Whether a value is a legal encoding of a field (R10). -/
def legalVal (f : FldDef) (v : Nat) : Bool :=
  f.ok.isEmpty || f.ok.any fun r => decide (r.1 ≤ v) && decide (v ≤ r.2)

/-- The stored content of a register as it reads: write-only fields read 0 (R7), reserved bits 0 (R9). -/
def State.regBits (s : State) (a : Nat) : Nat :=
  match regAt a with
  | none => 0
  | some r => r.flds.foldl (fun v f => if f.acc = .wo then v else v + s.fld (fldAt a f) * 2 ^ f.lo) 0

end Sys2Proof.Machine
end

