-- ==== Sys2Proof/Machine/Flags.lean ====
section
/-! DEFINITION. Counters with their sticky overflow flags (R12, R15, R498), sticky flags, fault messages into
Sump's source slots (R318, R324) with the class of every kind (R320), sequencer events (R434), and the setting of
the latched block (R228, R229). -/
namespace Sys2Proof.Machine
open Sys2Proof

/-! ### Counters and flags -/

/-- A counter with an increment of k: it stops at its largest value, and bit i of its overflow register is set
when the increment cannot be added in full (R12). -/
def State.count (s : State) (c ovf : Fld) (i k : Nat) : State :=
  let n := s.fld c + k
  if n < 2 ^ c.w then s.setFld c n
  else (s.setFld c (2 ^ c.w - 1)).setFld ovf (setBit (s.fld ovf) i)

/-- A one-bit flag set. -/
def State.flag (s : State) (f : Fld) : State := s.setFld f 1

/-- Bit i of a field set. -/
def State.flagBit (s : State) (f : Fld) (i : Nat) : State := s.setFld f (setBit (s.fld f) i)

/-- Bit i of a field cleared. -/
def State.unflagBit (s : State) (f : Fld) (i : Nat) : State := s.setFld f (clrBit (s.fld f) i)

/-- A state changed when a condition holds. -/
def State.when (s : State) (c : Bool) (f : State → State) : State := if c then f s else s

/-- Work of the phases at cycles 0 to 979, which a halted tick pipeline leaves out (R473). -/
def State.inPhase (s : State) (f : State → State) : State := if s.dbg.frozen then s else f s

/-- An OTP operation runs: OWN_PROG, OWN_REVOKE, ARB_ADV or DBG_RAISE is in progress. -/
def State.otpRuns (s : State) : Bool :=
  match s.sec.job with
  | some j => j.stage == 1 && (j.op == 1 || j.op == 2 || j.op == 3 || j.op == 7)
  | none => false

/-- No MRAM write starts while any monitor shows its rail below its low threshold (R481); VPP_OTP is monitored only while an OTP
operation runs (R478). -/
def State.mramHeld (s : State) : Bool := s.elec.low.any fun r => r != 11 || s.otpRuns

/-! ### Operating state, role -/

/-- The operating state code (R35). -/
def State.op (s : State) : Nat := s.fld CLK_STATE_STATE

/-- The latched block is set. -/
def State.latched (s : State) : Bool := s.bit PRT_STAT_LATCHED

/-- The tick counter (R46). -/
def State.now (s : State) : Nat := s.ctl.tick

/-- RWL fields are locked: ARMED, RUNNING and BLOCKED (R8). -/
def State.locked (s : State) : Bool := decide (5 ≤ s.op ∧ s.op ≤ 7)

/-- ROLE and SUB (R285). -/
def State.role (s : State) : Nat := s.fld RED_STAT_ROLE
def State.sub (s : State) : Nat := s.fld RED_STAT_SUB

/-! ### Fault messages -/

/-- The classes of R320: note, counted, direct. -/
inductive KClass where
  | n | c | d
deriving DecidableEq, Repr

/-- The class of a kind from a source (R320 and the chapters' source tables). INJECTED is counted here; R331
decides whether it counts. -/
def kindClass (src kind : Nat) : KClass :=
  if kind < 0x10 then .c
  else if src < 0x80 then
    (if kind ∈ [0x10, 0x11, 0x12, 0x13, 0x15, 0x16] then .d else if kind ∈ [0x18, 0x1A] then .n else .c)
  else if src < 0x100 then (if kind ∈ [0x11, 0x13] then .d else .c)
  else if src < 0x1C0 then .c
  else if src < 0x200 then (if kind = 0x15 then .d else .c)
  else if src < 0x280 then (if kind = 0x12 then .d else .c)
  else if src < 0x300 then (if kind = 0x14 then .d else .c)
  else if src < 0x340 then (if kind ≤ 0x16 then .d else if kind ∈ [0x18, 0x19] then .n else .c)
  else if src < 0x380 then (if kind ∈ [0x12, 0x13, 0x18] then .n else .c)
  else if src < 0x3C0 then
    (if kind ∈ [0x10, 0x12, 0x1B] then .d else if kind ∈ [0x1A, 0x1C] then .n else .c)
  else if src < 0x3C8 then (if kind = 0x16 then .n else .c)
  else if src < 0x3D0 then (if kind = 0x1F then .n else .c)
  else if src < 0x3D8 then (if kind = 0x25 then .d else .c)
  else if src < 0x3E0 then (if kind = 0x2E then .d else .c)
  else (if kind = 0x30 ∨ kind = 0x34 ∨ 0x3C ≤ kind then .d else .c)

/-- Class number as the log stores it (R327). -/
def KClass.code : KClass → Nat
  | .n => 0 | .c => 1 | .d => 2

/-- A message with a class of its own and an injection mark, sent into its source's slot (R318, R324): an
occupied slot merges it. -/
def State.sendAs (s : State) (src kind detail cls inj : Nat) : State :=
  let c : SumpSlot := { kind := kind, detail := detail % 2 ^ 32, tick := s.now % 65536, cls := cls, inj := inj,
                        m := 0, mKind := 0, mD := false }
  match s.sump.slots.find? (fun p => p.1 = src) with
  | none => { s with sump := { s.sump with slots := mput s.sump.slots src c } }
  | some (_, o) =>
    let counted := cls != 0 && inj != 1
    let o' : SumpSlot :=
      if counted then
        { o with m := min (o.m + 1) 255, mKind := if o.mKind = 0 then kind else o.mKind,
                 mD := o.mD || cls == 2,
                 cls := if cls = 2 ∧ o.cls = 1 then 2 else o.cls }
      else o
    ({ s with sump := { s.sump with slots := mput s.sump.slots src o' } }).count FLT_CNT_MERGED FLT_CNT_OVF 1 1

/-- A fault message of a kind with its fixed class. -/
def State.send (s : State) (src kind detail : Nat) : State :=
  s.sendAs src kind detail (kindClass src kind).code 0

/-- A message sent when a condition holds. -/
def State.sendIf (s : State) (c : Bool) (src kind detail : Nat) : State :=
  if c then s.send src kind detail else s

/-! ### Sequencer events (R434) -/

/-- Event i becomes pending in SEQ_EVT. -/
def State.seqEvent (s : State) (i : Nat) : State := s.flagBit SEQ_EVT i

/-! ### The latched block (R228, R229, R233, R239) -/

/-- The cause bits of R228. -/
inductive BlkCause where
  | pin | cmp | cell | mirror | sump | clock | debug | force
deriving DecidableEq, Repr

def BlkCause.idx : BlkCause → Nat
  | .pin => 0 | .cmp => 1 | .cell => 2 | .mirror => 3 | .sump => 4 | .clock => 5 | .debug => 6 | .force => 7

/-- The port state of a lane (R80): 0 OFF, 1 DARK and so on. -/
def State.portState (s : State) (lane : Nat) : Nat := s.fld (CL_STAT_STATE lane)

def laneReset : Lane := {}

/-- A lane's own state, and its update. -/
def State.lane (s : State) (l : Nat) : Lane := mget laneReset s.lanes l
def State.setLane (s : State) (l : Nat) (x : Lane) : State := { s with lanes := mset laneReset s.lanes l x }

/-- BLOCK marker requests at the inserters (R233): on every CL lane whose port is not OFF, and on every such ML
lane unless the cause is MIRROR; none while boundary scan holds the pins. -/
def State.commitBlockMarkers (s : State) (c : BlkCause) : State :=
  if s.dbg.scan then s
  else
    let lanes := (upto 32) ++ (if c = .mirror then [] else [36, 37, 38, 39])
    lanes.foldl (fun s l => if s.portState l = 0 then s else s.setLane l { s.lane l with blockReq := true }) s

/-- The level of BLOCK_OUT from its meaning and its holds (R239): active while the latched block is set or the
always-on domain holds it. -/
def State.driveBlockOut (s : State) : State :=
  if s.dbg.scan then s
  else
    let running := s.op == 6
    let act := s.prot.boHold || s.latched || s.ctl.stream || (s.bit PRT_CTRL_BO_MODE && !running)
    { s.setFld PRT_STAT_BO (b2n act) with
      prot := { s.prot with blockOut := act != s.bit PRT_CTRL_BO_POL } }

/-- A cause is noted: for the acquisition, for the minimum block time, and among those since the last boundary (R243). -/
def State.noteCause (s : State) (c : BlkCause) : State :=
  let x := s.prot.fresh
  { s with acq := { s.acq with blkSeen := true },
           prot := { s.prot with
             setTick := s.now, minDone := false,
             fresh := { x with all := setBit x.all c.idx, first := if x.all = 0 then c.idx else x.first } } }

/-- A cause arrives (R228, R229): the latched block is set or its bit is added, the minimum block time restarts,
BLOCK markers are committed, the set or added cause is counted (R247), and the sequencer's BLOCK event occurs. -/
def State.blockCause (s : State) (c : BlkCause) : State :=
  let was := s.latched
  let s := if was then s
    else
      { (((s.flag PRT_STAT_LATCHED).flag CLK_STATE_LATCHED_BLOCK).setFld PRT_CAUSE_FIRST c.idx).setFld
          PRT_CAUSE_FIRST_TICK (s.now % 65536) with prot := { s.prot with setMsg := true } }
  let s := (s.flagBit PRT_CAUSE_ALL c.idx).noteCause c
  let s := s.count (PRT_CNT_SET) PRT_CNT_OVF 0 1
  ((s.commitBlockMarkers c).seqEvent 2).driveBlockOut

/-- A list as a set, with one more element. -/
def joinN (l : List Nat) (x : Nat) : List Nat := if l.contains x then l else l ++ [x]

/-- A Sump source is among those whose CBLOCK set or joined the block (R242 condition 4). -/
def State.joinSump (s : State) (n : Nat) : State :=
  { s with prot := { s.prot with sumpSrc := joinN s.prot.sumpSrc n,
                                 fresh := { s.prot.fresh with sump := joinN s.prot.fresh.sump n } } }

/-- A clock monitor is among those whose loss set or joined the block (R242 condition 5). -/
def State.joinClk (s : State) (n : Nat) : State :=
  { s with prot := { s.prot with clkSrc := joinN s.prot.clkSrc n,
                                 fresh := { s.prot.fresh with clk := joinN s.prot.fresh.clk n } } }

/-- PLN_OFF is among the causes (R242 condition 7). -/
def State.joinPln (s : State) : State :=
  { s with prot := { s.prot with plnOff := true, fresh := { s.prot.fresh with pln := true } } }

end Sys2Proof.Machine
end

