-- ==== Sys2Proof/Machine/Sump.lean ====
section
/-! DEFINITION. The fault collector (chapter 14): service, classification, reactions, log and pins. -/
namespace Sys2Proof.Machine
open Sys2Proof

/-- Classification state of a source, and its update. -/
def sumpSrcReset : SumpSrc := {}
def State.sumpSrc (s : State) (n : Nat) : SumpSrc := mget sumpSrcReset s.sump.srcs n
def State.setSumpSrc (s : State) (n : Nat) (x : SumpSrc) : State :=
  { s with sump := { s.sump with srcs := mset sumpSrcReset s.sump.srcs n x } }

/-- Masks of a source; bit 0 of each reads 1 (R325). -/
def State.minorMask (s : State) (n : Nat) : Nat := setBit (s.fld (FLT_SRC_CFG1_MINOR n)) 0
def State.severeMask (s : State) (n : Nat) : Nat := setBit (s.fld (FLT_SRC_CFG1_SEVERE n)) 0

/-- W and Q of a source in ticks (R322). -/
def State.srcWindow (s : State) (n : Nat) : Nat :=
  s.fld (FLT_SRC_CFG0_W n) * (if s.bit (FLT_SRC_CFG0_WMS n) then 1000 else 1)
def State.srcQuiet (s : State) (n : Nat) : Nat :=
  s.fld (FLT_SRC_CFG1_Q n) * (if s.bit (FLT_SRC_CFG0_QMS n) then 1000 else 1)

/-- The full event tick (R319): the latest tick not after the present one with the given low 16 bits. -/
def fullTick (now low : Nat) : Nat := now - wrap ((now : Int) - low) 16

/-- The pins of R329 and R239 as the present holds drive them. -/
def State.driveErr (s : State) : State :=
  let hold := s.sump.errHold || s.sump.errState
  let a := hold || s.sump.aonA
  { s.setFld FLT_STAT_ERR (b2n a) with
    elec := { s.elec with errA := a, errB := hold || s.sump.aonB } }

/-- INT_N is asserted while INT_EN = 1 and any pending bit is set (R329). -/
def State.driveInt (s : State) : State :=
  let p := s.bit FLT_CTRL_INT_EN && (upto 32).any fun i => s.fld (FLT_PEND i) != 0
  { s with elec := { s.elec with intN := p } }

/-- An NMI request to the sequencer (R440): pending, or held while NMI is masked. -/
def State.nmiRequest (s : State) : State :=
  let s := s.flag SEQ_STAT_NMI_PEND
  if s.seq.masked then { s with seq := { s.seq with held := true } }
  else { s with seq := { s.seq with nmi := true } }

/-- A classified event of R322: the new state and whether it was entered. -/
def State.classify (s : State) (n cls t m kind : Nat) : State × Bool :=
  let x := s.sumpSrc n
  let cnt0 := s.fld (FLT_SRC_STAT_CNT n)
  let fresh := cnt0 = 0 ∨ s.srcWindow n ≤ t - x.ws
  let ws := if fresh then t else x.ws
  let cnt := min ((if fresh then 0 else cnt0) + 1 + m) 256
  let old := s.fld (FLT_SRC_STAT_ST n)
  let st := if cls = 2 ∨ s.fld (FLT_SRC_CFG0_N n) < cnt then 2 else if old = 0 then 1 else old
  let s := s.setSumpSrc n { x with used := true, ws := ws, tl := max x.tl t }
  let s := ((s.setFld (FLT_SRC_STAT_CNT n) cnt).setFld (FLT_SRC_STAT_ST n) st).setFld
    (FLT_SRC_STAT_LAST_KIND n) kind
  let s := s.when (st == 2) (·.flag (FLT_SRC_STAT_SEV_SEEN n))
  (s.count FLT_CNT_EVT FLT_CNT_OVF 0 (1 + m), st != old)

/-- The reactions of the mask in force (R325): level reactions always, edge reactions on entry. -/
def State.reactions (s : State) (n : Nat) (entered : Bool) : Nat :=
  let mask := if s.fld (FLT_SRC_STAT_ST n) = 2 then s.severeMask n else s.minorMask n
  (if tbit mask 0 then 1 else 0) + (if tbit mask 1 then 2 else 0) + (if tbit mask 2 && entered then 4 else 0)
    + (if tbit mask 3 && entered then 8 else 0) + (if tbit mask 4 then 16 else 0)
    + (if tbit mask 5 then 32 else 0) + (if tbit mask 6 && entered then 64 else 0)

/-- The ring holds no free entry, and `FLT_STAT.LOG_FULL`: it does and STOP = 1 (R327). -/
def State.logRingFull (s : State) : Bool := (s.fld FLT_LOG_WP_PTR + 1) % 16384 == s.fld FLT_LOG_RP_PTR
def State.logFull (s : State) : Bool := s.logRingFull && s.bit FLT_LOG_CFG_STOP

/-- One entry of the fault log (R327). -/
def State.logEntry (s : State) (n kind detail tick16 react : Nat) (sev : Bool) (cls m t : Nat) : State :=
  let wp := s.fld FLT_LOG_WP_PTR
  let rp := s.fld FLT_LOG_RP_PTR
  let full := s.logRingFull
  if full && s.bit FLT_LOG_CFG_STOP then
    let s := s.count FLT_CNT_LOGLOST FLT_CNT_OVF 2 1
    if s.sump.fullSent then s
    else ({ s with sump := { s.sump with fullSent := true } }).send 0x001 0x19 0
  else
    let s := if full then (s.setFld FLT_LOG_RP_PTR (rp + 1)).flag FLT_STAT_LOG_WRAP
             else { s with sump := { s.sump with fullSent := false } }
    let w0 := n * 2 ^ 54 + kind * 2 ^ 48 + detail * 2 ^ 16 + tick16
    let w1 := react + b2n sev * 2 ^ 7 + cls * 2 ^ 8 + min m 63 * 2 ^ 10 + t / 65536 % 2 ^ 48 * 65536
    ((s.wr (0x3D000000 + 16 * wp) 8 w0).wr (0x3D000000 + 16 * wp + 8) 8 w1).setFld FLT_LOG_WP_PTR
      ((wp + 1) % 16384)

/-- The owner of a source for a function reset: function number as in R425 (16: line part of an SL port), index,
and whether the reset is escalated (R328); none where no function is reset. -/
def fresetOwner (n : Nat) : Option (Nat × Nat × Bool) :=
  if n < 0x100 then none
  else if n < 0x180 then some (1, (n - 0x100) / 4, false)
  else if n < 0x1A0 then (if n % 8 = 0 then some (16, (n - 0x180) / 8, false) else some (2, 0, false))
  else if n < 0x1C0 then some (3, (n - 0x1A0) / 8, false)
  else if n < 0x200 then some (4, (n - 0x1C0) / 16, false)
  else if n ≤ 0x270 then some (11, 0, true)
  else if 0x280 ≤ n ∧ n ≤ 0x288 then some (12, 0, true)
  else if 0x2A0 ≤ n ∧ n ≤ 0x2A8 then some (13, 0, true)
  else if n = 0x2C0 then some (14, 0, true)
  else if 0x300 ≤ n ∧ n ≤ 0x333 then some (15, 0, true)
  else if n = 0x341 ∨ n = 0x342 then some (5, n - 0x341, false)
  else if 0x380 ≤ n ∧ n ≤ 0x385 then some (9, 0, false)
  else if 0x3C0 ≤ n ∧ n ≤ 0x3C7 then some (6, 0, false)
  else if 0x3C8 ≤ n ∧ n ≤ 0x3CF then some (7, 0, false)
  else if 0x3D0 ≤ n ∧ n ≤ 0x3D7 then some (8, 0, false)
  else if 0x3E0 ≤ n ∧ n ≤ 0x3E7 then some (10, 0, false)
  else none

/-- A CBLOCK reaction for a source sets or joins the latched block (R228 cause 4, R242 condition 4). -/
def State.sumpBlock (s : State) (n : Nat) : State :=
  (s.blockCause .sump).joinSump n

/-- A function reset is requested (R328): absorbed when one of that function is in progress, recorded with its
causing source otherwise; an escalated one sets the latched block first. -/
def State.fresetRequest (s : State) (fn idx src : Nat) (esc : Bool) : State :=
  let code := 64 * fn + idx
  if s.sump.fresets.any (fun p => p.1 == code) then s
  else
    let s := s.when esc (fun s => if src = 0 then s.blockCause .sump else s.sumpBlock src)
    { s with sump := { s.sump with fresets := s.sump.fresets ++ [(code, src)] } }

/-- The partner is a STANDBY, whatever its SUB (R223, R285). -/
def State.partnerShadow (s : State) : Bool :=
  s.bit RED_STAT_PARTNER && (match s.red.hdr with | some h => h.role == 2 | none => false)

/-- The partner is a STANDBY in CURRENT, as its usable header of the last tick shows. -/
def State.partnerCurrent (s : State) : Bool :=
  s.bit RED_STAT_PARTNER && match s.red.hdr with
  | some h => h.role == 2 && h.sub == 1
  | none => false

/-- The chip reset of a reaction comes d ticks from now; one that is owed already comes no later for it. -/
def State.cresetAt (s : State) (n d : Nat) : State :=
  let t := match s.sump.creset with | some (_, t) => min t (s.now + d) | none => s.now + d
  { s with sump := { s.sump with creset := some (n, t) } }

/-- A CRESET reaction (R333): the cause is recorded; with CBLOCK in the mask, or on a unit that is not ACTIVE
with a CURRENT partner, the latched block is set and the chip resets 10 us later; otherwise the unit hands over
(R306) and resets 4 ticks later. -/
def State.cresetReaction (s : State) (n kind mask : Nat) : State :=
  let s := ((s.setFld FLT_CRESET_CAUSE_SRC n).setFld FLT_CRESET_CAUSE_KIND kind).flag FLT_CRESET_CAUSE_VALID
  if tbit mask 4 || !(s.role == 1 && s.partnerCurrent) then
    let s := if tbit mask 4 then s else s.blockCause .sump
    s.cresetAt n 10
  else
    let s := ({ s with red := { s.red with handover := true } }).cresetAt n 4
    [36, 37].foldl (fun s l =>
      if s.portState l = 0 then s
      else s.setLane l { s.lane l with deferred := (s.lane l).deferred ++ [.alert] }) s

/-- The reactions of a set act (R325). -/
def State.applyReactions (s : State) (n kind react mask : Nat) : State :=
  let s := s.when (tbit react 1) (·.flagBit (FLT_PEND (n / 32)) (n % 32))
  let s := if tbit react 2 then
      ((s.setFld FLT_NMI_SRC_SRC n).setFld FLT_NMI_SRC_KIND kind).nmiRequest else s
  let s := if tbit react 4 then s.sumpBlock n else s
  let s := if tbit react 5 then
      { s.setSumpSrc n { s.sumpSrc n with err := true } with sump := { (s.setSumpSrc n
          { s.sumpSrc n with err := true }).sump with errHold := true } } else s
  let s := if tbit react 3 then
      match fresetOwner n with
      | some (fn, idx, esc) => s.fresetRequest fn idx n esc
      | none => s
    else s
  let s := if tbit react 6 then s.cresetReaction n kind mask else s
  s.driveErr.driveInt

/-- A counted event is classified, logged and reacted to. -/
def State.countedEvent (s : State) (n kind detail tick16 cls m : Nat) : State :=
  let t := fullTick s.now tick16
  let (s, entered) := s.classify n cls t m kind
  let sev := s.fld (FLT_SRC_STAT_ST n) == 2
  let react := s.reactions n entered
  let mask := if sev then s.severeMask n else s.minorMask n
  let s := s.logEntry n kind detail tick16 react sev cls m t
  s.applyReactions n kind react mask

/-- A message that is not counted: a note (R326), or an INJECTED one with counting off (R331). -/
def State.notedEvent (s : State) (n kind detail tick16 inj m : Nat) : State :=
  let react := 1 + (if tbit (s.minorMask n) 1 then 2 else 0)
  let cls := if inj = 1 then 3 else 0
  let s := s.logEntry n kind detail tick16 react false cls m (fullTick s.now tick16)
  (s.when (tbit react 1) (·.flagBit (FLT_PEND (n / 32)) (n % 32))).driveInt

/-- Service of one occupied slot. An uncounted occupant with merged events is followed by those events as one
counted event, with the kind the slot kept (R324; DEDUCED, log entry 7). -/
def State.serveSlot (s : State) (n : Nat) (x : SumpSlot) : State :=
  let s := { s with sump := { s.sump with slots := mdel s.sump.slots n, last := n,
                                          served := s.sump.served ++ [(n, x.kind)] } }
  if x.cls = 0 ∨ x.inj = 1 then
    let s := s.notedEvent n x.kind x.detail x.tick x.inj x.m
    if x.m = 0 then s
    else s.countedEvent n x.mKind 0 x.tick (if x.mD then 2 else 1) (x.m - 1)
  else s.countedEvent n x.kind x.detail x.tick (if x.mD then 2 else x.cls) x.m

/-- SUMP_SERVICE (R322 to R327): the next occupied slot in round-robin order is served. -/
def sumpService (s : State) : State :=
  match s.sump.slots.find? (fun p => s.sump.last < p.1) with
  | some (n, x) => s.serveSlot n x
  | none =>
    match s.sump.slots with
    | (n, x) :: _ => s.serveSlot n x
    | [] => s

def execSumpService (s : State) : Host.Outcome State Fault Refusal := .next (sumpService s)

/-- A source in its fault state whose quiet period has passed returns to CLEAR (R323). -/
def State.quietCheck (s : State) (n : Nat) : State :=
  let x := s.sumpSrc n
  if s.fld (FLT_SRC_STAT_ST n) != 0 && decide (x.tl + s.srcQuiet n ≤ s.now) then
    let s := s.setSumpSrc n { x with err := false }
    let s := (s.setFld (FLT_SRC_STAT_ST n) 0).setFld (FLT_SRC_STAT_CNT n) 0
    let r := s.fld (FLT_SRC_REC_REC n)
    let s := if r = 0xFFFF then s.flag (FLT_SRC_STAT_REC_OVF n) else s.setFld (FLT_SRC_REC_REC n) (r + 1)
    s.send 0x001 0x18 (n * 2 ^ 22)
  else s

/-- The quiet check of every source that has been classified (at each boundary, R323). -/
def State.quietAll (s : State) : State := s.sump.srcs.foldl (fun s p => s.quietCheck p.1) s

def execSrcClear (src : Fin 1024) (s : State) : Host.Outcome State Fault Refusal := .next (s.quietCheck src)

/-- ERR_CLEAR (R329): granted when no source whose applied reactions included ERRPIN is in its fault state and
no clock of an always-on assertion is absent; otherwise ERR_HELD. -/
def errClear (s : State) : State :=
  if s.ctl.lost.contains 0x011 then s
  else
    let held := s.sump.srcs.any (fun p => p.2.err && s.fld (FLT_SRC_STAT_ST p.1) != 0)
      || s.ctl.lost.any (fun c => c == 0x010 || c == 0x011 || c == 0x016)
    if held then s.flag FLT_STAT_ERR_HELD
    else ({ s with sump := { s.sump with errHold := false, aonA := false, aonB := false } }).driveErr

end Sys2Proof.Machine
end

