-- ==== Sys2Proof/Machine/Check.lean ====
section
/-! DEFINITION. The checkers of the Hsiao code: injection (R330 to R332) and a checked read of a memory word (R451,
R452). -/
namespace Sys2Proof.Machine
open Sys2Proof

/-- The outcome number of R331: 0 none, 1 corrected, 2 uncorrectable. -/
def eccOutcome (syn : BitVec 8) : Nat :=
  match eccOf syn with
  | .ok => 0
  | .data _ => 1
  | .check => 1
  | .ue => 2

/-- A word with real syndrome `syn` passes checker i (R331, R332): an armed injection sends INJECTED, or INJ_OVERLAP
in place of the real event. The second part says that the real event is replaced. An INJECTED event whose predicted
outcome is none is not counted (DEDUCED, log entry 9). -/
def State.inject (s : State) (i : Nat) (syn : BitVec 8) : State × Bool :=
  if !s.bit (FLT_INJ_ARM i) then (s, false)
  else
    let mask := s.fld (FLT_INJ_MASK i)
    let s := if s.bit (FLT_INJ_MODE i) then s else s.setFld (FLT_INJ_ARM i) 0
    let obs := syn ^^^ BitVec.ofNat 8 mask
    if syn = 0 then
      let out := eccOutcome (BitVec.ofNat 8 mask)
      let counted := s.bit FLT_INJ_COUNT_EN && out != 0
      (s.sendAs (0x080 + i) 0x05 (mask * 2 ^ 24 + obs.toNat * 2 ^ 16 + out * 2 ^ 14) (if counted then out else 0)
        (if counted then 2 else 1), false)
    else
      let out := eccOutcome syn
      (s.sendAs (0x080 + i) 0x06 (mask * 2 ^ 24 + syn.toNat * 2 ^ 16 + out * 2 ^ 14) out 0, true)

/-- Checker of a memory address (R330, R446). The key store, which no master can address (R455), stands above them all. -/
def checkerOf (a : Nat) : Nat :=
  if a < 0x20000000 then 0x20 + a / 64 % 16
  else if a < 0x30000000 then a / 8 % 32
  else if a < 0x38000000 then 0x30 + a / 64 % 8
  else if a < 0x3C000000 then 0x38 + a / 8 % 8
  else if a < 0x3D000000 then 0x40
  else if a < 0x40000000 then 0x41
  else if a < 0x50000000 then 0x43
  else 0x42

/-- Inverted bits of the stored word at a word address: check bits in 71 to 64, data bits below. -/
def State.errAt (s : State) (a : Nat) : ECWord := BitVec.ofNat 72 (mget 0 s.mem.err (a / 8 * 8))

/-- The syndrome of a stored word: the code is linear, so it is the syndrome of the inverted bits. -/
def State.synAt (s : State) (a : Nat) : BitVec 8 := syndrome (s.errAt a)

/-- The data a checked read delivers (R451), whatever its outcome. -/
def State.wordAt (s : State) (a : Nat) : BitVec 64 :=
  let e := s.errAt a
  let d := BitVec.ofNat 64 (s.rd (a / 8 * 8) 8) ^^^ e.extractLsb' 0 64
  match eccOf (syndrome e) with
  | .data i => d ^^^ (1#64 <<< i)
  | _ => d

/-- A checked read of the word that holds an address (R331, R332, R451, R452): its outcome, and the state with the
checker's messages, the memory's counters and a write-back owed. -/
def State.checkedRead (s : State) (a : Nat) : Ecc × State :=
  let i := checkerOf a
  let syn := s.synAt a
  let (s, rep) := s.inject i syn
  let w := a / 8 * 8
  match eccOf syn with
  | .ok => (.ok, s)
  | .ue => (.ue, (s.count MEM_CNT_UE MEM_CNT_OVF 1 1).sendIf (!rep) (0x080 + i) 0x11 a)
  | e =>
    let s := (s.count MEM_CNT_CE MEM_CNT_OVF 0 1).sendIf (!rep) (0x080 + i) 0x10 a
    (e, { s with mem := { s.mem with wback := if s.mem.wback.contains w then s.mem.wback else s.mem.wback ++ [w] } })

/-- A word at rest without inverted bits whose checker is not armed: reading it has no effect but the data. -/
def State.quiet (s : State) (a : Nat) : Bool := s.mem.err.isEmpty && !s.bit (FLT_INJ_ARM (checkerOf a))

/-- A read by the tick pipeline of the words of a list (R452): the checkers send their messages, and an uncorrectable word
delivers a free value (DESIGN CHOICE, log entry 130). -/
def State.pipeRead (s : State) (ws : List Nat) : State :=
  ws.foldl (fun s a =>
    if s.quiet a then s
    else
      let (e, s) := s.checkedRead a
      if e.good then s
      else
        let (v, s) := s.draw 64
        { s with mem := { s.mem with bytes := cwr memDefault s.mem.bytes (a / 8 * 8) 8 v } }) s

/-- The memory words that slots of the signal bus lie in. -/
def slotWords (l : List Nat) : List Nat := l.map fun i => 0x10000000 + 8 * (i % 1024 / 2)

/-- The two memory words of the entry of a cell (R122). -/
def entryWords (g : Nat) : List Nat := [0x10010000 + 16 * g, 0x10010008 + 16 * g]

/-- The entries of cells are read by the tick pipeline (R452). -/
def State.readEntries (s : State) (cells : List Nat) : State := s.pipeRead (cells.flatMap entryWords)

/-- Words pass a lane's checker (R330): the state after their injections, and for each word whether its real event
is replaced. -/
def State.injectWords (s : State) (i : Nat) : List (BitVec 8) → State × List Bool
  | [] => (s, [])
  | syn :: t =>
    let r := s.inject i syn
    let q := State.injectWords r.1 i t
    (q.1, r.2 :: q.2)

/-- The words of a frame pass the checker of their lane; on a port that is not RUNNING nothing is checked by an armed checker (R334). -/
def State.laneCheck (s : State) (l : Nat) (syns : List (BitVec 8)) : State × List Bool :=
  if s.portState l = 4 then s.injectWords (0x48 + l) syns else (s, syns.map fun _ => false)

/-! ### The two ports of the mailbox (R456) -/

/-- An address of the mailbox. -/
def inMbox (a : Nat) : Bool := decide (0x3C000000 ≤ a ∧ a < 0x3C010000)

/-- What the mailbox's ports keep, changed. -/
def State.setMbox (s : State) (x : MboxPort) : State := { s with mem := { s.mem with mbox := x } }

/-- An access that reaches the mailbox begins: in a CK_FAB cycle of its own unless it shares that of the last one. -/
def State.mboxBegin (s : State) (a : Nat) (sh : Share) : State :=
  if !inMbox a then s
  else if s.mem.mbox.shares || sh == .last then s.setMbox { s.mem.mbox with undef := false }
  else s.setMbox {}

/-- It is over, and the next one falls into its cycle where it says so. -/
def State.mboxOver (s : State) (a : Nat) (sh : Share) : State :=
  if inMbox a then s.setMbox { s.mem.mbox with shares := sh == .next, undef := false } else s

/-- The other port has written the word of an address in this cycle, or read it. -/
def MboxPort.wrote (x : MboxPort) (host : Bool) (a : Nat) : Bool := (if host then x.fw else x.hw).contains (a / 8 * 8)
def MboxPort.hasRead (x : MboxPort) (host : Bool) (a : Nat) : Bool := (if host then x.fr else x.hr).contains (a / 8 * 8)

/-- What the ports keep of an access. -/
def MboxPort.note (x : MboxPort) (host wr : Bool) (a : Nat) : MboxPort :=
  let w := a / 8 * 8
  match host, wr with
  | true, false => { x with hr := x.hr ++ [w] }
  | true, true => { x with hw := x.hw ++ [w] }
  | false, false => { x with fr := x.fr ++ [w] }
  | false, true => { x with fw := x.fw ++ [w] }

/-- A conflict: it is counted and sent. -/
def State.mboxConflict (s : State) (a : Nat) : State := (s.count MEM_CNT_MBOX MEM_CNT_OVF 3 1).send 0x0F0 0x14 a

/-- The words of a response, all open but its header, whose UNDEF bit is set (R465). -/
def State.openResp (s : State) : List ECWord → List ECWord × State
  | [] => ([], s)
  | _ :: t =>
    let (f, s) := s.draw 64
    let q := State.openResp s t
    (hsiaoEnc (BitVec.ofNat 64 f) :: q.1, q.2)

/-- The last response of port H has read a word in the cycle in which port F writes it: its data are undefined. -/
def State.hostUndone (s : State) : State :=
  match s.dbg.resp with
  | r :: t =>
    match r.words with
    | h :: l =>
      let (l, s) := s.openResp l
      { s with dbg := { s.dbg with resp := ⟨hsiaoEnc ((hsiaoDec h).2 ||| 0x1000000000) :: l, true⟩ :: t } }
    | [] => s
  | [] => s

/-- n bytes of a memory word through its checker; none where the word is uncorrectable. -/
def State.memRead (s : State) (a n : Nat) : Option Nat × State :=
  let (e, s) := s.checkedRead a
  let v := (s.wordAt a).toNat / 256 ^ (a % 8) % 256 ^ n
  (if e.good then some v else none, s)

/-- n bytes written; a write narrower than a word reads it first and is refused when it is uncorrectable. -/
def State.memWrite (s : State) (a n v : Nat) : Bool × State :=
  if n = 8 then (true, s.wr a 8 v)
  else
    let (e, s) := s.checkedRead a
    if e.good then (true, s.wr a n v) else (false, s)

/-- A read of the mailbox through port H or F. In a conflict port H gets an undefined value, port F an error response. -/
def State.mboxRead (s : State) (host : Bool) (a n : Nat) : Option Nat × State :=
  let x := s.mem.mbox
  let s := s.setMbox (x.note host false a)
  if !x.wrote host a then s.memRead a n
  else
    let s := s.mboxConflict a
    if host then
      let (v, s) := s.draw (8 * n)
      (some v, s.setMbox { s.mem.mbox with undef := true })
    else (none, s)

/-- A write to the mailbox through port H or F: of two writes to one word in one cycle, port F's stays; a word that the other
port has read in the cycle is a conflict (log entry 131). -/
def State.mboxWrite (s : State) (host : Bool) (a n v : Nat) : Bool × State :=
  let x := s.mem.mbox
  let s := s.setMbox (x.note host true a)
  let s := if x.hasRead host a then (if host then s.mboxConflict a else (s.mboxConflict a).hostUndone) else s
  if host && x.wrote true a then (true, s) else s.memWrite a n v

/-! ### Accesses of the units' own masters (R449, R452, R456) -/

/-- The words that n bytes from an address on lie in. -/
def spanWords (a n : Nat) : List Nat :=
  if n = 0 then [] else (upto ((a + n - 1) / 8 - a / 8 + 1)).map fun i => 8 * (a / 8 + i)

/-- Words read through their checkers, those of the mailbox through port F; false where one gets an error response. -/
def State.readEach (s : State) : List Nat → Bool × State
  | [] => (true, s)
  | a :: t =>
    let r := if s.quiet a ∧ !inMbox a then (true, s)
      else if inMbox a ∧ s.mem.mbox.hw.contains a then (false, (s.setMbox (s.mem.mbox.note false false a)).mboxConflict a)
      else
        let s := if inMbox a then s.setMbox (s.mem.mbox.note false false a) else s
        if s.quiet a then (true, s)
        else
          let (e, s) := s.checkedRead a
          (e.good, s)
    let q := State.readEach r.2 t
    (r.1 && q.1, q.2)

/-- One byte as a checked read of its word delivers it. -/
def State.seenByte (s : State) (a : Nat) : Byte :=
  if s.mem.err.isEmpty then s.byteAt a else BitVec.ofNat 8 ((s.wordAt a).toNat / 256 ^ (a % 8))

/-- n bytes read by a unit; none where it gets an error response. -/
def State.readBytes (s : State) (a n : Nat) : Option (List Byte) × State :=
  let (ok, s) := (s.mboxBegin a .no).readEach (spanWords a n)
  (if ok then some ((upto n).map fun i => s.seenByte (a + i)) else none, s.mboxOver a .no)

/-- Bytes written by a unit: a word that is not written whole is read first, and stays as it is where it is uncorrectable. -/
def State.writeBytes (s : State) (a : Nat) (l : List Byte) : State :=
  let ws := spanWords a l.length
  let part := ws.filter fun w => decide (w < a ∨ a + l.length < w + 8)
  let bad := if s.mem.err.isEmpty then [] else part.filter fun w => !(eccOf (s.synAt w)).good
  let s := s.mboxBegin a .no
  let s := part.foldl (fun s w => if s.quiet w then s else (s.checkedRead w).2) s
  let s := if !inMbox a then s
    else
      let x := s.mem.mbox
      let s := (ws.filter x.hr.contains).foldl (fun s w => (s.mboxConflict w).hostUndone) s
      s.setMbox { x with fw := x.fw ++ ws }
  let s := if bad.isEmpty then s.wrBytes a l
    else l.zipIdx.foldl (fun s p => if bad.contains ((a + p.2) / 8 * 8) then s else s.wr (a + p.2) 1 p.1.toNat) s
  s.mboxOver a .no

end Sys2Proof.Machine
end

