-- ==== Sys2Proof/Machine/Table.lean ====
section
/-! DEFINITION. The cell state table (R34, R123), the image's cell map as the parts read it (R409), and the queue of
mirrored requests (R295). -/
namespace Sys2Proof.Machine
open Sys2Proof

/-- A field of a cell state table entry: lowest bit (64 and above lie in word 1) and width. -/
structure CeFld where
  lo : Nat
  w  : Nat
deriving DecidableEq, Repr

def ceVcap  : CeFld := ⟨0, 14⟩
def ceTemp  : CeFld := ⟨14, 8⟩
def ceFcode : CeFld := ⟨22, 6⟩
def ceGsup  : CeFld := ⟨28, 5⟩
def ceState : CeFld := ⟨33, 4⟩
def ceFlags : CeFld := ⟨37, 4⟩
def ceSeqe  : CeFld := ⟨41, 8⟩
def ceSeqErr : CeFld := ⟨49, 1⟩
def ceAvail : CeFld := ⟨50, 1⟩
def ceExcl  : CeFld := ⟨51, 1⟩
def ceStest : CeFld := ⟨52, 1⟩
def ceLate  : CeFld := ⟨53, 1⟩
def ceFb    : CeFld := ⟨54, 1⟩
def ceConf  : CeFld := ⟨55, 1⟩
def ceAge   : CeFld := ⟨56, 8⟩
def ceDcomp : CeFld := ⟨64, 16⟩
def ceDmeas : CeFld := ⟨80, 16⟩
def ceDwell : CeFld := ⟨96, 16⟩
def ceCmdst : CeFld := ⟨112, 3⟩
def ceDlyOk : CeFld := ⟨115, 1⟩
def ceDmv   : CeFld := ⟨116, 1⟩

/-- Address of the entry of cell g. -/
def ceAddr (g : Nat) : Nat := 0x10010000 + 16 * g

/-- A field of a cell's entry. -/
def State.ce (s : State) (g : Nat) (f : CeFld) : Nat := s.rd (ceAddr g) 16 / 2 ^ f.lo % 2 ^ f.w

/-- A field of a cell's entry written. -/
def State.setCe (s : State) (g : Nat) (f : CeFld) (v : Nat) : State :=
  let x := s.rd (ceAddr g) 16
  s.wr (ceAddr g) 16 (x - x / 2 ^ f.lo % 2 ^ f.w * 2 ^ f.lo + v % 2 ^ f.w * 2 ^ f.lo)

/-- A one-bit field of a cell's entry. -/
def State.ceBit (s : State) (g : Nat) (f : CeFld) : Bool := s.ce g f == 1

/-- The configured cells, in increasing g. -/
def State.confCells (s : State) : List Nat := s.ld.img.cells.map (·.1)
def State.isConf (s : State) (g : Nat) : Bool := s.ld.img.cells.any (fun p => p.1 == g)
def State.portCells (s : State) (n : Nat) : List Nat := s.confCells.filter fun g => g / 128 == n

/-- The configuration of a configured cell. -/
def State.cellCfg (s : State) (g : Nat) : CellCfg := mget ⟨0, false, 0⟩ s.ld.img.cells g

/-- The arm of a CL port, none when the image assigns it to no arm (R19). -/
def State.armOfPort (s : State) (n : Nat) : Option Nat :=
  match mget 0 s.ld.img.arms n with
  | 0 => none
  | a + 1 => some a

/-- The arm of a cell. -/
def State.armOf (s : State) (g : Nat) : Option Nat := s.armOfPort (g / 128)

/-- The configured cells of an arm, in increasing g. -/
def State.armCells (s : State) (a : Nat) : List Nat := s.confCells.filter fun g => s.armOf g == some a

/-- The configured arms. -/
def State.arms (s : State) : List Nat := (upto 6).filter fun a => !(s.armCells a).isEmpty

/-- What the composer keeps for a cell. -/
def ccReset : CmpCell := {}
def State.cc (s : State) (g : Nat) : CmpCell := mget ccReset s.ccell g
def State.setCc (s : State) (g : Nat) (x : CmpCell) : State := { s with ccell := mset ccReset s.ccell g x }

/-- A state folded over a list of indices. -/
def State.each (s : State) (l : List Nat) (f : State → Nat → State) : State := l.foldl f s

/-- `CMP_PROF_STAT.PENDING`: configured cells whose download is not confirmed. -/
def State.profPending (s : State) : State :=
  s.setFld CMP_PROF_STAT_PENDING ((s.confCells.filter fun g => !(s.cc g).profOk).length)

/-- A CL port leaves RUNNING, or is reset: delays of its cells are no longer valid and downloads are abandoned
(R116, R118, R138). -/
def State.portLeft (s : State) (n : Nat) : State :=
  let s := { s with pdly := mdel s.pdly n }
  s.each (s.portCells n) fun s g =>
    let x := s.cc g
    let s := s.setCc g { x with rtts := [], prof := none, probe := none,
                                cur := match x.cur with
                                  | some i => if i.src == .prof then none else some i
                                  | none => none }
    (s.setCe g ceDmv 0).setCe g ceDlyOk 0

/-! ### Mirrored requests (R295) -/

/-- The master is the host port or the sequencer. -/
def Master.pairs : Master → Bool
  | .host => true
  | .sequencer => true
  | _ => false

/-- A refused service request (R417, R421, R423, R425). -/
def State.svcDenied (s : State) : State := s.send 0x3DB 0x2F 0

/-- A request that HOLD_FOR_HOST refuses (R417; which requests are meant and how they are refused: DESIGN CHOICE, log entry 134). -/
def State.unlessHold (s : State) (f : State → State) : State := if s.op = 3 then s.svcDenied else f s

/-- A write to a mirrored target: on a paired ACTIVE unit it enters the queue, on a paired STANDBY it is ignored
with NOT_ACTIVE, and otherwise it is written at once. -/
def State.mirrored (s : State) (m : Master) (kind body : Nat) (apply : State → State) : State :=
  if !s.bit RED_CFG_PAIR || !Master.pairs m then apply s
  else if s.role = 1 then
    if s.red.queue.length ≥ 64 then (s.flag RED_STAT_MIRQ_FULL).send 0x380 0x14 0
    else { s with red := { s.red with queue := s.red.queue ++ [⟨kind, body⟩] } }
  else if s.role = 2 then (s.flag RED_STAT_NOT_ACTIVE).send 0x380 0x13 0
  else apply s

end Sys2Proof.Machine
end

