-- ==== Sys2Proof/Machine/Line.lean ====
section
/-! DEFINITION. The forty lanes (chapter 3): port states, loss detectors, markers in both directions, port enables
and loopbacks. -/
namespace Sys2Proof.Machine
open Sys2Proof

/-- Line fault source of a lane (R88). -/
def lineSrc (l : Nat) : Nat :=
  if l < 32 then 0x100 + 4 * l else if l < 36 then 0x180 + 8 * (l - 32) else 0x1A0 + 8 * (l - 36)

/-- The lane is an ML lane. -/
def isMl (l : Nat) : Bool := 36 ≤ l

/-- A CL port is offline (R423). -/
def State.portOffline (s : State) (n : Nat) : Bool := tbit (s.fld CFG_OFF_STAT) n

/-- A CL port that is offline or assigned to no arm. -/
def State.portFree (s : State) (n : Nat) : Bool := s.portOffline n || (s.armOfPort n).isNone

/-- The port enters a state (R80); a CL port that leaves RUNNING loses its delays (R116, R118, R138). -/
def State.setPort (s : State) (l st : Nat) : State :=
  let was := s.portState l
  let s := s.setFld (CL_STAT_STATE l) st
  if l < 32 ∧ was = 4 ∧ st ≠ 4 then s.portLeft l else s

/-- A line counter i of a lane incremented (R89). -/
def State.lineCount (s : State) (l : Nat) (c : Fld) (i : Nat) : State := s.count c (CL_CNT_OVF l) i 1

/-- Entry to FAULTED (R81). -/
def State.portFault (s : State) (l : Nat) (why : FaultedBy) : State :=
  (s.setPort l 5).setLane l { s.lane l with faultedBy := why, faultedAt := s.now }

/-- The TXDIS pin of a port is asserted in OFF (R80, R485). -/
def State.txDis (s : State) (l : Nat) : Bool := s.portState l == 0

/-- A receiver has frame alignment: LOCKED, RUNNING, or FAULTED with the signal and the lock present. -/
def State.aligned (s : State) (l : Nat) : Bool :=
  let st := s.portState l
  st == 3 || st == 4 || (st == 5 && !s.bit (CL_STAT_LOS l) && !s.bit (CL_STAT_LOL l))

/-- The LANE_LOS pin shows a loss that CL_CTRL includes (R78). -/
def State.pinLoss (s : State) (l : Nat) : Bool :=
  s.bit (CL_CTRL_LOS_PIN_EN l) && ((s.lane l).losPin != s.bit (CL_CTRL_LOS_PIN_POL l))

/-- The port enters SEEKING (R81): with LOL clear it goes on to LOCKED, and with LOS present on to DARK, which sends LOS. -/
def State.seek (s : State) (l : Nat) : State :=
  if s.bit (CL_STAT_LOS l) then (s.setPort l 1).send (lineSrc l) 0x10 0
  else if s.bit (CL_STAT_LOL l) then s.setPort l 2
  else (s.setPort l 3).setLane l { (s.setPort l 3).lane l with wrongRun := 0 }

/-- LOS is asserted (R78, R81): the window of missing markers restarts; a LOCKED or SEEKING port drops to DARK, a
RUNNING port becomes FAULTED, each with a LOS message. -/
def losAssert (s : State) (l : Nat) : State :=
  let st := s.portState l
  if st = 0 ∨ s.bit (CL_STAT_LOS l) then s
  else
    let s := ((s.flag (CL_STAT_LOS l)).setFld (CL_STAT_MISS_RUN l) 0).lineCount l (CL_CNT_LOS l) 0
    let s := s.setLane l { s.lane l with seen := false, spaced := false }
    if st = 2 ∨ st = 3 then (s.setPort l 1).send (lineSrc l) 0x10 0
    else if st = 4 then (s.portFault l .loss).send (lineSrc l) 0x10 0
    else s

/-- LOS (R78): a loss condition arises. An amplitude counts when it lies below the threshold of `CL_LOS_CFG.AMP`, the pin
when `CL_CTRL` includes it at its level. -/
def losFound (s : State) (l : Nat) : LosCause → State
  | .still => losAssert s l
  | .amp mv => if mv < 20 + 10 * s.fld (CL_LOS_CFG_AMP l) then losAssert s l else s
  | .pin high =>
    let s := s.setLane l { s.lane l with losPin := high }
    if s.pinLoss l then losAssert s l else s

/-- LOS clears (R78), unless the pin still shows a loss: a DARK port starts seeking. -/
def losClear (s : State) (l : Nat) (pin : Bool) : State :=
  let s := s.setLane l { s.lane l with losPin := pin }
  if s.portState l = 0 ∨ s.pinLoss l then s
  else
    let s := s.setFld (CL_STAT_LOS l) 0
    if s.portState l = 1 then s.seek l else s

/-- LOL is asserted (R79, R81). -/
def lolAssert (s : State) (l : Nat) : State :=
  let st := s.portState l
  if st = 0 ∨ s.bit (CL_STAT_LOL l) then s
  else
    let s := (s.flag (CL_STAT_LOL l)).lineCount l (CL_CNT_LOL l) 1
    if st = 3 then (s.setPort l 2).send (lineSrc l) 0x11 0
    else if st = 4 then (s.portFault l .loss).send (lineSrc l) 0x11 0
    else s

/-- LOL clears (R79): the CDR is locked and two FRAME markers have been recognised at their distance. -/
def lolClear (s : State) (l : Nat) : State :=
  if s.portState l = 0 ∨ !s.bit (CL_STAT_LOL l) ∨ !s.bit (CL_STAT_CDR_LOCK l) ∨ !(s.lane l).spaced then s
  else
    let s := s.setFld (CL_STAT_LOL l) 0
    let s := s.setLane l { s.lane l with wrongRun := 0 }
    if s.portState l = 2 then s.setPort l 3 else s

/-- A missing FRAME marker is counted (R79); the third in a row asserts LOL. -/
def frameMiss (s : State) (l : Nat) : State :=
  if s.portState l = 0 ∨ s.bit (CL_STAT_LOS l) then s
  else
    let n := min (s.fld (CL_STAT_MISS_RUN l) + 1) 3
    let s := (s.setFld (CL_STAT_MISS_RUN l) n).lineCount l (CL_CNT_MISS l) 2
    let s := s.setLane l { s.lane l with spaced := false }
    if n = 3 then lolAssert s l else s

/-- A marker's line events at a receiver (R70): a corrected marker is counted; a bad one is counted and sends
MARKER_BAD. -/
def markerEvents (s : State) (l : Nat) : MarkRx → State
  | .ok _ => s
  | .fixed _ => s.lineCount l (CL_CNT_MFIX l) 4
  | .bad _ => (s.lineCount l (CL_CNT_MBAD l) 5).send (lineSrc l) 0x15 0

/-- The marker a receiver acts on (R70): a bad one with a ones-then-zeros preamble acts as BLOCK. -/
def markerActs : MarkRx → Option Marker
  | .ok k => some k
  | .fixed k => some k
  | .bad true => some .block
  | .bad false => none

/-- A receiver acts on a BLOCK (R238): with its enable on an ML lane the block is set. On a CL or SL lane it has no effect
and counts as bad traffic; the spec names no counter for it, and CL_CNT_MBAD takes it (DESIGN CHOICE, log entry 118), once for a
marker that R70 has counted there as bad. -/
def State.blockRx (s : State) (l : Nat) (r : MarkRx) : State :=
  if l < 36 then (match r with
    | .bad _ => s
    | _ => s.lineCount l (CL_CNT_MBAD l) 5)
  else if (l < 38 && s.bit PRT_CTRL_RX01) || (38 ≤ l && s.bit PRT_CTRL_RX23) then
    (s.blockCause .mirror).send 0x331 0x17 ((l - 36) * 2 ^ 30)
  else s

/-- A receiver acts on an ALERT (R72, R241, R306). -/
def State.alertMark (s : State) (l : Nat) : State :=
  if l < 32 then
    let s := (s.flag (CL_STAT_ALERT_SEEN l)).send (0x101 + 4 * l) 0x30 0
    if s.bit PRT_CTRL_ALERT_BLK && s.portState l == 4 && (s.armOfPort l).isSome then s.blockCause .cell else s
  else if l < 36 then (s.flag (CL_STAT_ALERT_SEEN l)).send (0x181 + 8 * (l - 32)) 0x30 0
  else if l < 38 then { s with red := { s.red with alertAt := some s.now } }
  else s

/-- What a receiver makes of a marker word (R70): its events, and the effect of one that acts as BLOCK or ALERT, whichever
marker was sent. The kind it acts on, and the state. -/
def State.markerRx (s : State) (l : Nat) (word : Word) : Option Marker × State :=
  if s.portState l = 0 then (none, s)
  else match markerOf word with
  | none => (none, s)
  | some r =>
    let s := markerEvents s l r
    (markerActs r, match markerActs r with
      | some .block => s.blockRx l r
      | some .alert => s.alertMark l
      | _ => s)

/-- A FRAME marker is counted (R79, R89): `ui` received unit intervals after the last one. A receiver that recognises a marker
has its CDR locked (DEDUCED, log entry 94). -/
def State.frameMark (s : State) (l ui : Nat) : State :=
  let s := s.setFld (CL_STAT_MISS_RUN l) 0
  let lo := s.fld (CL_CNT_RXFRM_LO l)
  let hi := s.fld (CL_CNT_RXFRM_HI l)
  let s := if lo + 1 < 2 ^ 32 then s.setFld (CL_CNT_RXFRM_LO l) (lo + 1)
    else if hi + 1 < 2 ^ 32 then (s.setFld (CL_CNT_RXFRM_LO l) 0).setFld (CL_CNT_RXFRM_HI l) (hi + 1)
    else s.flagBit (CL_CNT_OVF l) 8
  (s.flag (CL_STAT_CDR_LOCK l)).setLane l
    { s.lane l with seen := true, spaced := (s.lane l).seen && decide (12400 ≤ ui ∧ ui ≤ 12600) }

/-- FRAME_MARKER_RX (R70, R79, R89). -/
def frameMarkerRx (s : State) (l : Nat) (word : Word) (ui : Nat) : State :=
  let (k, t) := s.markerRx l word
  if k = some .frame then t.frameMark l ui else t

/-- FAULTED_RECOVERY (R81, R83). -/
def faultedRecovery (s : State) (l : Nat) : State :=
  let x := s.lane l
  if s.portState l = 5 ∧ x.faultedBy = .loss ∧ x.faultedAt + 1000 ≤ s.now ∧ !s.bit (CL_STAT_LOS l)
      ∧ s.bit (CL_CTRL_AUTO_REC l) then
    (s.setLane l { x with faultedBy := .none, silentFrom := some s.now }).seek l
  else s

/-- PORT_SILENT (R83). -/
def portSilent (s : State) (l : Nat) : State :=
  match (s.lane l).silentFrom with
  | some t =>
    if t + s.fld (CL_SILENT_TO_MS l) * 1000 ≤ s.now then
      ((s.flag (CL_STAT_PORT_SILENT l)).setLane l { s.lane l with silentFrom := none }).send (lineSrc l) 0x13 0
    else s
  | none => s

/-- A port is enabled: OFF to DARK, with LOS and LOL present (its CDR is not locked yet) and the silent timer from 0
(R79, R81, R83). A port that is still to stop goes OFF at the boundary first and comes up there (DEDUCED, log entry 119). -/
def portUp (s : State) (l : Nat) : State :=
  let s := s.flag (CL_CTRL_EN l)
  if s.portState l = 0 then
    (((s.setPort l 1).flag (CL_STAT_LOS l)).flag (CL_STAT_LOL l)).setLane l
      { s.lane l with stopping := false, silentFrom := some s.now, wrongRun := 0, faultedBy := .none, rx := [], seen := false,
                      spaced := false }
  else s

/-- A write of EN = 1 (R501). -/
def portEnable (s : State) (l : Nat) : State :=
  if s.op < 4 then s else if s.bit (CL_CTRL_EN l) then s else portUp s l

/-- EN = 0 is allowed (R501). -/
def State.disableOk (s : State) (l : Nat) : Bool :=
  if s.op < 4 then false
  else if s.op = 4 ∨ s.op = 8 then true
  else if l < 32 then s.portFree l
  else decide (38 ≤ l)

/-- A port begins to stop: no further FRAME marker, OFF at the next boundary (R82). -/
def portDown (s : State) (l : Nat) : State :=
  (s.setFld (CL_CTRL_EN l) 0).setLane l { s.lane l with stopping := true }

/-- A write of EN = 0 (R84, R501). -/
def portDisable (s : State) (l : Nat) : State :=
  if s.op < 4 then s
  else if !s.disableOk l then s.send (lineSrc l) 0x16 0
  else if s.bit (CL_CTRL_EN l) then portDown s l else s

/-- The port goes OFF at the boundary (R81, R82). -/
def portOff (s : State) (l : Nat) : State :=
  let s := ((((s.setPort l 0).setFld (CL_STAT_LOS l) 0).setFld (CL_STAT_LOL l) 0).setFld
    (CL_STAT_CDR_LOCK l) 0).setFld (CL_STAT_MISS_RUN l) 0
  s.setLane l { laneReset with feWords := (s.lane l).feWords, losPin := (s.lane l).losPin }

/-- Ports that were told to stop go OFF (at each boundary); one whose EN is set again comes up from there. -/
def portsStop (s : State) : State :=
  (upto 40).foldl (fun s l =>
    if (s.lane l).stopping then (if s.bit (CL_CTRL_EN l) then portUp (portOff s l) l else portOff s l) else s) s

/-- A loopback is allowed on a lane in an operating state (R85). -/
def State.loopOk (s : State) (op l lb : Nat) : Bool :=
  let pb := op == 4 || op == 8
  if lb = 0 then true
  else if l < 32 then
    (if lb = 3 then pb || (s.armOfPort l).isNone else pb || s.portFree l)
  else if l = 36 ∨ l = 37 then op == 8
  else pb

/-- A write of LB (R85). -/
def loopbackSelect (s : State) (l lb : Nat) : State :=
  if s.loopOk s.op l lb then (s.setFld (CL_CTRL_LB l) lb).setFld (CL_STAT_LB_ACTIVE l) (b2n (lb != 0))
  else s.send (lineSrc l) 0x17 0

/-- A port whose loopback has ended re-enters SEEKING (R86). A DARK port has no signal to seek, and a port that is FAULTED for
a wrong partner leaves only through OFF (R81); from FAULTED the silent timer starts from 0 (R83). Every entry to SEEKING from
LOCKED sends a message (R81); the kind table gives that entry the kind LOL alone, and LOL is sent (DESIGN CHOICE, log entry
120). -/
def State.reseek (s : State) (l : Nat) : State :=
  let x := s.lane l
  let st := s.portState l
  if st = 0 ∨ st = 1 ∨ (st = 5 ∧ x.faultedBy = .partner) then s
  else if st = 5 then (s.setLane l { x with faultedBy := .none, silentFrom := some s.now }).seek l
  else if st = 3 then (s.send (lineSrc l) 0x11 0).seek l
  else s.seek l

/-- Loopbacks that the operating state no longer allows end (R86). A loopback that stops being allowed without a transition,
as when its CL port is brought online (R424), ends at the next boundary (DESIGN CHOICE, log entry 95). -/
def loopbackEnd (s : State) : State :=
  (upto 40).foldl (fun s l =>
    if s.loopOk s.op l (s.fld (CL_CTRL_LB l)) then s
    else (((s.setFld (CL_CTRL_LB l) 0).setFld (CL_STAT_LB_ACTIVE l) 0).flag (CL_STAT_LB_ENDED l)).reseek l) s

/-- A LOCKED port meets a frame that identifies a partner (R81): the expected one makes it RUNNING, unless a
loopback returns its own frames; a third consecutive other one faults it. -/
def portIdentify (s : State) (l : Nat) (expected : Bool) : State :=
  let lb := s.fld (CL_CTRL_LB l)
  if s.portState l = 3 ∧ lb ≠ 1 ∧ lb ≠ 2 then
    if expected then
      (s.setPort l 4).setLane l { s.lane l with silentFrom := none, wrongRun := 0 }
    else
      let n := (s.lane l).wrongRun + 1
      let s := s.setLane l { s.lane l with wrongRun := n }
      if n = 3 then (((s.portFault l .partner).flag (CL_STAT_PORT_ID l))).send (lineSrc l) 0x12 0 else s
  else s

/-- A frame at a LOCKED port that names no partner ends its run of wrong ones (R81). -/
def State.noIdent (s : State) (l : Nat) : State :=
  if s.portState l = 3 then s.setLane l { s.lane l with wrongRun := 0 } else s

/-- Received contents of a lane are delivered: RUNNING, and not in far-end loopback (R84, R87). -/
def State.delivers (s : State) (l : Nat) : Bool := s.portState l == 4 && s.fld (CL_CTRL_LB l) != 3

/-- Number of 32-UI data line words that differ between two lines, over n words from boundary b on; the words of markers
are none (R87). -/
def lineMismatch (marks : List (Nat × Marker)) : Nat → Nat → List Bool → List Bool → Nat
  | 0, _, _, _ => 0
  | n + 1, b, x, y =>
    if x.isEmpty || y.isEmpty then 0
    else b2n (x.take 32 != y.take 32 && !marks.any fun m => m.1 == b)
      + lineMismatch marks n (b + 1) (x.drop 32) (y.drop 32)

/-- The line words of the present frame, its FRAME marker included: up to the first word boundary at or after 24 ns past the
next tick boundary (R53, R76), `cmp.lph` unit intervals after which this frame began. -/
def State.frameWords (s : State) : Nat := (25 * (s.ctl.nextB - s.time.ct0) + 63 - 2 * s.cmp.lph) / 64

/-- The line bits that the port sends after its FRAME marker, up to the next one: header, payload, trailer and fill, with
the priority markers, and the guard before the next FRAME marker (R71, R76). -/
def State.sentLine (s : State) (l : Nat) : List Bool :=
  let x := s.lane l
  let fw := s.frameWords
  (txLine (x.marks ++ [(fw, .frame)]) (32 * fw) 32 0 false none
    (scramble scrSeed (frameData (x.txWords.headD 0) (x.txWords.drop 1) (32 * fw)))).take (32 * (fw - 1))

/-- A frame begins on a lane (R76): its words, and the markers carried over, which take the first admissible boundaries
after its FRAME marker (R74, R75). At most 3 of them are ALERT or TRIG; each one beyond is deferred, and counted, again. -/
def State.newFrame (s : State) (l : Nat) (ws : List (BitVec 64)) (block : Bool) : State :=
  let x := s.lane l
  let left := x.carry ++ (x.marks.foldl (fun c m => c.eraseP fun y => y.2 == m.2) x.commits).map (·.2)
  let low := left.filter fun k => k != .block
  let commits := ((if block || left.contains .block then [Marker.block] else []) ++ low.take 3).map fun k => (0, k)
  let s := (low.drop 3).foldl (fun s _ => s.lineCount l (CL_CNT_DEFER l) 6) s
  s.setLane l { x with txWords := ws, commits := commits, carry := low.drop 3,
                       marks := frameMarks s.frameWords commits, blockReq := x.blockReq && !block }

/-- From boundary b on, the command words of configured cells that the port has not begun to send take the form of
R100 (R235). -/
def State.blockUnsent (s : State) (l b : Nat) : State :=
  let x := s.lane l
  if s.fld (CL_CTRL_LB l) = 3 then s
  else
  let ds := scramble scrSeed (frameData (x.txWords.headD 0) (x.txWords.drop 1) 0)
  let sent := ds.length - txRest x.marks (32 * b) 14000 32 0 false none ds
  let begun := (sent + 71) / 72
  let rest (i : Nat) : Bool := decide (begun ≤ i ∧ 1 ≤ i ∧ i ≤ 128) && s.isConf (128 * l + i - 1)
  let ws := x.txWords.zipIdx.map fun p => if rest p.2 then blockForm (s.fld PLN_STG_GP_BLK) p.1 else p.1
  let s := s.setLane l { x with txWords := ws }
  s.each ((upto x.txWords.length).filter rest) fun s i => s.setCe (128 * l + i - 1) ceCmdst 0

/-- In NES and NEP the receiver compares the received line words with those sent and counts mismatches (R87); in
FE it keeps the received words for retransmission. -/
def loopCompare (s : State) (l : Nat) (line : List Bool) (ws : List (BitVec 64)) : State :=
  let lb := s.fld (CL_CTRL_LB l)
  if lb = 1 ∨ lb = 2 then
    s.count (CL_CNT_LB l) (CL_CNT_OVF l) 7 (lineMismatch (s.lane l).marks s.frameWords 1 line (s.sentLine l))
  else if lb = 3 then s.setLane l { s.lane l with feWords := ws }
  else s

/-- Stuffing violations of a received frame: counted, with one STUFF_ERR for the frame (R66). -/
def stuffEvents (s : State) (l v : Nat) : State :=
  if v = 0 then s else (s.count (CL_CNT_STUFF l) (CL_CNT_OVF l) 3 v).send (lineSrc l) 0x14 0

/-- A marker request committed for boundary b of the present frame (R73 to R75): it is sent at the first admissible boundary,
in the next frame where b or every later boundary belongs to it. An ALERT or TRIG beyond three in a frame is deferred to
the next frame and counted; a second BLOCK is absorbed. -/
def markerPlace (s : State) (l : Nat) (k : Marker) (b : Nat) : State :=
  let x := s.lane l
  let fw := s.frameWords
  let x := if k = .block then { x with blockReq := false } else { x with deferred := x.deferred.erase k }
  let commits := x.commits ++ [(b, k)]
  if fw ≤ b then s.setLane l { x with carry := if k = .block ∧ x.carry.contains .block then x.carry else x.carry ++ [k] }
  else if k = .block then
    if x.commits.any fun m => m.2 == .block then s.setLane l x
    else
      let s := s.setLane l { x with commits := commits, marks := frameMarks fw commits }
      if l < 32 then s.blockUnsent l b else s
  else if 3 ≤ (x.commits.filter fun m => m.2 != .block).length then
    (s.setLane l { x with carry := x.carry ++ [k] }).lineCount l (CL_CNT_DEFER l) 6
  else s.setLane l { x with commits := commits, marks := frameMarks fw commits }

/-- One more BLOCK marker of the block stream (R58), at the line word boundary w. -/
def State.streamBlock (s : State) (l w : Nat) : State :=
  s.setLane l { s.lane l with marks := (s.lane l).marks ++ [(w, .block)] }

/-- PRIORITY_MARKER_SEND: a request that the lane holds is sent, committed for line word boundary w. In the block stream
every word boundary of a CL or ML lane carries a BLOCK marker (R58); none is sent while boundary scan holds the pins
(R233). -/
def priorityMarkerSend (s : State) (l : Nat) (k : Marker) (w : Nat) : State :=
  let x := s.lane l
  if s.portState l = 0 ∨ s.dbg.scan then s
  else match k with
    | .frame => s
    | .block =>
      if !x.blockReq then s
      else if s.ctl.stream && (decide (l < 32) || isMl l) then s.streamBlock l w else markerPlace s l .block w
    | k => if x.deferred.contains k then markerPlace s l k w else s

def execPriorityMarkerSend (lane : Fin 40) (k : Marker) (w : Nat) (s : State) :
    Host.Outcome State Fault Refusal := .next (priorityMarkerSend s lane k w)
def execFrameMarkerRx (lane : Fin 40) (word : Word) (ui : Nat) (s : State) :
    Host.Outcome State Fault Refusal := .next (frameMarkerRx s lane word ui)
def execFrameMiss (lane : Fin 40) (s : State) : Host.Outcome State Fault Refusal := .next (frameMiss s lane)
def execLos (lane : Fin 40) (cause : LosCause) (s : State) : Host.Outcome State Fault Refusal :=
  .next (losFound s lane cause)
def execLosClear (lane : Fin 40) (pin : Bool) (s : State) : Host.Outcome State Fault Refusal :=
  .next (losClear s lane pin)
/-- LOL for one of its two conditions (R79): the CDR unlocks, or three missing FRAME markers are counted in a row. -/
def lolFound (s : State) (l : Nat) (cdrUnlock : Bool) : State :=
  if cdrUnlock then lolAssert ((s.setFld (CL_STAT_CDR_LOCK l) 0).setLane l { s.lane l with seen := false, spaced := false }) l
  else if s.fld (CL_STAT_MISS_RUN l) = 3 then lolAssert s l else s

def execLol (lane : Fin 40) (cdrUnlock : Bool) (s : State) : Host.Outcome State Fault Refusal :=
  .next (lolFound s lane cdrUnlock)
def execLolClear (lane : Fin 40) (s : State) : Host.Outcome State Fault Refusal := .next (lolClear s lane)
def execFaultedRecovery (lane : Fin 40) (s : State) : Host.Outcome State Fault Refusal :=
  .next (faultedRecovery s lane)
def execPortSilent (lane : Fin 40) (s : State) : Host.Outcome State Fault Refusal := .next (portSilent s lane)

/-- A function reset of a lane's port (chapter 3 end, R83): CL_STAT and the line counters return to reset; an
enabled port passes through DARK again without a message. -/
def lineReset (s : State) (l : Nat) : State :=
  let s := if l < 32 then s.portLeft l else s
  let s := [CL_STAT_STATE l, CL_STAT_LOS l, CL_STAT_LOL l, CL_STAT_CDR_LOCK l, CL_STAT_MISS_RUN l,
    CL_STAT_PORT_SILENT l, CL_STAT_PORT_ID l, CL_STAT_LB_ENDED l, CL_STAT_ALERT_SEEN l,
    CL_CNT_LOS l, CL_CNT_LOL l, CL_CNT_MISS l, CL_CNT_STUFF l, CL_CNT_MFIX l, CL_CNT_MBAD l, CL_CNT_DEFER l,
    CL_CNT_LB l, CL_CNT_RXFRM_LO l, CL_CNT_RXFRM_HI l, CL_CNT_OVF l].foldl (fun s f => s.setFld f 0) s
  let s := s.setFld (CL_STAT_LB_ACTIVE l) (b2n (s.fld (CL_CTRL_LB l) != 0))
  let x := s.lane l
  let s := s.setLane l { x with faultedBy := .none, faultedAt := 0, wrongRun := 0, rx := [], seen := false, spaced := false }
  if s.bit (CL_CTRL_EN l) then portUp s l else s

end Sys2Proof.Machine
end

