-- ==== Sys2Proof/Machine/Cell.lean ====
section
/-! DEFINITION. The cell controller contract (chapter 5) and the cell's part of chapter 4: accepting and checking a
word, edges and dead time, settings, enable, self-test, protection and bypass. Instants are in ps on the cell
timebase. -/
namespace Sys2Proof.Machine
open Sys2Proof

def cellReset : Cell := {}
def State.cell (s : State) (g : Nat) : Cell := mget cellReset s.cells g
def State.setCell (s : State) (g : Nat) (c : Cell) : State := { s with cells := mset cellReset s.cells g c }
/-- One cell controller changed. -/
def State.onCell (s : State) (g : Nat) (f : Cell → Cell) : State := s.setCell g (f (s.cell g))

/-! ### Command words (R97 to R99) -/

/-- The fields of a command word (R97). -/
structure CmdWord where
  cell : Nat
  stA  : Nat
  eA   : Nat
  stB  : Nat
  eB   : Nat
  seq  : Nat
  gp   : Nat
  holdOk : Bool
  test : Bool
  code : Nat
  data : Nat
deriving DecidableEq, Repr

def cmdDecode (w : BitVec 64) : CmdWord :=
  let n := w.toNat
  { cell := bitsOf n 63 57, stA := bitsOf n 56 54, eA := bitsOf n 53 44, stB := bitsOf n 43 41,
    eB := bitsOf n 40 31, seq := bitsOf n 30 23, gp := bitsOf n 22 21, holdOk := tbit n 20, test := tbit n 19,
    code := bitsOf n 18 16, data := bitsOf n 15 0 }

def cmdEncode (c : CmdWord) : BitVec 64 :=
  BitVec.ofNat 64 (c.cell % 128 * 2 ^ 57 + c.stA % 8 * 2 ^ 54 + c.eA % 1024 * 2 ^ 44 + c.stB % 8 * 2 ^ 41
    + c.eB % 1024 * 2 ^ 31 + c.seq % 256 * 2 ^ 23 + c.gp % 4 * 2 ^ 21 + b2n c.holdOk * 2 ^ 20
    + b2n c.test * 2 ^ 19 + c.code % 8 * 2 ^ 16 + c.data % 65536)

/-- The present edges of a word, in order: offset and state (R99). -/
def CmdWord.present (w : CmdWord) : List (Nat × Nat) :=
  (if w.eA ≤ 999 then [(w.eA, w.stA)] else []) ++ (if w.eB ≤ 999 then [(w.eB, w.stB)] else [])

/-- A malformed word (R99). -/
def CmdWord.malformed (w : CmdWord) : Bool :=
  let badE := fun e => decide (1000 ≤ e ∧ e ≤ 1022)
  let badS := fun st => st == 5 || st == 6
  badE w.eA || badE w.eB || badS w.stA || badS w.stB
    || (decide (w.eB ≤ 999) && !decide (w.eA ≤ 999))
    || (decide (w.eB ≤ 999) && decide (w.eA ≤ 999) && decide (w.eB ≤ w.eA))
    || (w.test && w.present.any fun p => p.2 != 0 && p.2 != 7)

/-- Some present edge carries a state other than BLOCK or KEEP (R132). -/
def CmdWord.driven (w : CmdWord) : Bool := w.present.any fun p => p.2 != 0 && p.2 != 7

/-! ### Switches (R127, R128) -/

/-- The switches on in a state: bit i for S(i+1) (R127). -/
def switchesOf (fb : Bool) (st : Nat) : BitVec 4 :=
  if fb then
    match st with
    | 1 => 0b1010 | 2 => 0b1001 | 3 => 0b0110 | 4 => 0b0101 | _ => 0
  else
    match st with
    | 1 => 0b0010 | 2 => 0b0001 | _ => 0

/-- The other switch of a switch's leg. -/
def legMate (i : Nat) : Nat := if i % 2 = 0 then i + 1 else i - 1

/-- A settings word in force; none active reads 0. -/
def Cell.setting (c : Cell) (a : Nat) : Nat := mget 0 c.activeSet a

/-- T_DEAD, T_MINP and T_BLANK in ps. -/
def Cell.tDead (c : Cell) : Int := c.setting 2 * 10000
def Cell.tMinp (c : Cell) : Int := c.setting 3 * 10000
def Cell.tBlank (c : Cell) : Int := c.setting 4 * 10000

/-- The current of a gate current code in 0.1 A (R135). -/
def gateCurrent (k : Nat) : Nat := 5 * (k + 1)

/-- The source current of a gate profile, for turn-on, and its sink current, for turn-off (R134, R135). -/
def Cell.source (c : Cell) (gp : Nat) : Nat := gateCurrent (bitsOf (c.setting (0x10 + gp)) 3 0)
def Cell.sink (c : Cell) (gp : Nat) : Nat := gateCurrent (bitsOf (c.setting (0x10 + gp)) 7 4)
/-- The sink current of a fault turn-off (R134, R144). -/
def Cell.softoff (c : Cell) : Nat := gateCurrent (bitsOf (c.setting 10) 3 0)

/-- One switch turned on at an instant, with the source current of the profile of its edge (R128). -/
def Cell.gateOn (c : Cell) (i : Nat) (t : Int) : Cell :=
  { c with on := c.on ||| BitVec.ofNat 4 (2 ^ i), onAt := mset none c.onAt i (some t), srcI := c.source c.gp }

/-- A gate-on command is given (R128); an enable level of 0 holds the gate off (R147), and a supply under lock-out until it
recovers (R143). -/
def Cell.give (c : Cell) (p : Nat × Int) : Cell :=
  if !c.enable then c
  else if c.gsup.getLsbD p.1 then { c with held := c.held ||| BitVec.ofNat 4 (2 ^ p.1) }
  else c.gateOn p.1 p.2

/-- Gate-on commands whose dead time has run by an instant are given (R128). -/
def Cell.settle (c : Cell) (t : Int) : Cell :=
  let due := c.waitOn.filter fun p => decide (p.2 ≤ t)
  let c := { c with waitOn := c.waitOn.filter fun p => !decide (p.2 ≤ t) }
  due.foldl Cell.give c

/-- Every switch that is on commanded off at an instant with a sink current. -/
def Cell.allOff (c : Cell) (t : Int) (sink : Nat) : Cell :=
  let offs := (upto 4).filter fun i => c.on.getLsbD i
  { c with on := 0, waitOn := [], held := 0, sinkI := if offs.isEmpty then c.sinkI else sink,
           offAt := offs.foldl (fun m i => mset none m i (some t)) c.offAt }

/-- The cell goes to BLOCK on its own, at an instant, with a sink current, discarding scheduled edges; t_last is that
instant (R133, R144, R237). -/
def Cell.blockNow (c : Cell) (t : Int) (sink : Nat) : Cell :=
  { (c.settle t).allOff t sink with edges := [], sched := 0, state := 0, tLast := some t }

/-- The run of ENABLE 0 words is broken; once it has reached two ticks it counts until an ENABLE 1 (R147). -/
def Cell.breakRun (c : Cell) : Cell := { c with zeroRun := if 2 ≤ c.zeroRun then c.zeroRun else 0 }

/-- A fault is latched unless one already is (R146). -/
def Cell.latchCode (c : Cell) (code : Nat) : Cell := if c.latch = 0 then { c with latch := code } else c

/-- A fault turn-off (R144): SOFTOFF, BLOCK, the code latched; a running self-test ends (R150). A run of ENABLE 0 words
goes on when the cell was in BLOCK (R147). -/
def Cell.fault (c : Cell) (code : Nat) (t : Int) : Cell :=
  { (c.blockNow t c.softoff).latchCode code with stest := none, zeroRun := if c.state = 0 then c.zeroRun else 0 }

/-- A self-test runs: its first origin has passed and its 32 ticks are not over (R150). -/
def Cell.testing (c : Cell) : Bool :=
  match c.stest with
  | some (_, n) => decide (1 ≤ n ∧ n ≤ 32)
  | none => false

/-- A self-test is accepted and its 32 ticks are not over (R132). -/
def Cell.stestBusy (c : Cell) : Bool :=
  match c.stest with
  | some (_, n) => decide (1 ≤ n)
  | none => false

/-- The code of R98 that the cell reports (R129): the state being entered while a dead time runs, otherwise the code whose
switches are on. DESIGN CHOICE (log 122): where a held-off switch leaves a pattern that no code of R127 has, the state being
entered stands. -/
def Cell.actual (c : Cell) : Nat :=
  if c.waitOn.isEmpty then ((upto 5).find? fun st => switchesOf c.fb st == c.on).getD c.state else c.state

/-- The STATE code of R114 the cell reports. DESIGN CHOICE (log 96): where several codes apply, BYPASSED comes before
STARTING and STARTING before SELFTEST. -/
def Cell.stateCode (c : Cell) : Nat :=
  if c.bypassed then 8 else if !c.committed then 0xA else if c.testing then 9 else c.actual

/-- The cell is in BLOCK for the items that need it. -/
def Cell.inBlock (c : Cell) : Bool := c.stateCode == 0

/-! ### Settings (R134, R136) -/

/-- The range of a settings word; none for an address not in the table. -/
def settingRange (a : Nat) : Option (Nat × Nat) :=
  match a with
  | 1 => some (0, 1) | 2 => some (10, 1000) | 3 => some (20, 2000) | 4 => some (50, 800) | 5 => some (30, 150)
  | 6 => some (50, 1000) | 7 => some (100, 200) | 8 => some (500, 4000) | 9 => some (500, 4095)
  | 10 => some (0, 15) | 16 => some (0, 255) | 17 => some (0, 255) | 18 => some (0, 255) | 19 => some (0, 255)
  | _ => none

/-- The addresses that a commit needs written (R136). -/
def settingAddrs : List Nat := [1, 2, 3, 4, 5, 6, 7, 8, 9, 10, 16, 17, 18, 19]

def Cell.staged (c : Cell) (a : Nat) : Option Nat := mget none c.stagedSet a

/-- A commit (R136): the cell and the refusal code, 0 for none. The values become active at the next tick origin. -/
def Cell.commit (c : Cell) (data : Nat) : Cell × Nat :=
  if data ≠ 0xA5 then (c, 0x33)
  else if !(c.stateCode == 0 || c.stateCode == 0xA) then (c, 0x34)
  else
    let all := settingAddrs.all fun a => (c.staged a).isSome
    let v := fun a => (c.staged a).getD 0
    let vals := all && decide (v 2 + 10 ≤ v 3) && decide (v 8 < v 9)
    let typeOk := v 1 == b2n c.fb
    if vals && typeOk then
      let act := settingAddrs.foldl (fun m a => mset 0 m a (v a)) ([] : NMap Nat)
      ({ c with setNext := some act, committed := true, latch := if c.latch = 0x0D then 0 else c.latch }, 0)
    else if vals then (c.latchCode 0x0D, 0x35)
    else (c, 0x35)

/-- Settings of an accepted commit become active, between two ticks (R136). -/
def Cell.takeSet (c : Cell) : Cell := { c with activeSet := c.setNext.getD c.activeSet, setNext := none }

/-- VCAP_OV and VCAP_BYP in 0.25 V; none while no settings are active. DESIGN CHOICE (log 97): a cell without active
settings trips on neither. -/
def Cell.vcapOv (c : Cell) : Option Nat := if c.activeSet.isEmpty then none else some (4 * c.setting 8)
def Cell.vcapByp (c : Cell) : Option Nat := if c.activeSet.isEmpty then none else some (4 * c.setting 9)

/-- A voltage reaches a limit that is set. -/
def reaches (lim : Option Nat) (v : Nat) : Bool :=
  match lim with
  | some l => decide (l ≤ v)
  | none => false

/-- A WRITE item (R134). -/
def Cell.writeSetting (c : Cell) (data : Nat) : Cell × Nat :=
  if c.selAddr = 0xFF then c.commit data
  else match settingRange c.selAddr with
  | some (lo, hi) =>
    if lo ≤ data ∧ data ≤ hi then ({ c with stagedSet := mset none c.stagedSet c.selAddr (some data) }, 0)
    else (c, 0x33)
  | none => (c, 0x33)

/-! ### Enable, self-test, bypass (R147 to R152) -/

/-- A fault condition that is present when the enable rises (R147). -/
def Cell.present (c : Cell) : Nat :=
  if c.gsup.toNat % 16 ≠ 0 then 0x0A else if c.gsup.getLsbD 4 then 0x0B
  else if reaches c.vcapOv c.vcap then 0x0C else 0

/-- An ENABLE item (R147, R148). -/
def Cell.enableItem (c : Cell) (data : Nat) : Cell × Nat :=
  if !c.inBlock then (c, 0x34)
  else if data % 2 = 0 then ({ c with enable := false, zeroRun := c.zeroRun + 1 }, 0)
  else
    let clr := decide (2 ≤ c.zeroRun) && !(c.latch == 0x0C && c.bypDrive.isSome) &&
      (decide (1 ≤ c.latch ∧ c.latch ≤ 0x0C) || decide (0x10 ≤ c.latch ∧ c.latch ≤ 0x19))
    let c := { c with latch := if clr then 0 else c.latch, enable := true, zeroRun := 0, desat := none }
    (if c.present ≠ 0 then c.latchCode c.present else c, 0)

/-- A SELFTEST item of a word with its TEST flag (R149). DESIGN CHOICE (log 98): bits [15:10] of the mask, which R149
gives as 0, are dropped. -/
def Cell.selftestItem (c : Cell) (test : Bool) (mask : Nat) : Cell × Nat :=
  if !c.inBlock then (c, 0x34)
  else if test && c.enable && c.latch == 0 then ({ c with stest := some (mask % 1024, 33) }, 0)
  else (c, 0x32)

/-- The bypass switch is driven closed (R152). -/
def Cell.driveBypass (c : Cell) (t : Int) : Cell :=
  { c.blockNow t c.softoff with stest := none, bypDrive := if c.bypDrive.isSome then c.bypDrive else some t }

/-- The action of a management item (R110): the cell and the refusal code. -/
def Cell.item (c : Cell) (test : Bool) (code data : Nat) (t : Int) : Cell × Nat :=
  match code with
  | 0 => (c, 0)
  | 1 => ({ c with selAddr := data }, 0)
  | 2 => c.writeSetting data
  | 3 => c.enableItem data
  | 4 => ({ c with dcompNext := some data }, 0)
  | 5 => (c, 0)
  | 6 => c.selftestItem test data
  | _ => if data = 0x5A5A then (c.driveBypass t, 0) else (c, 0x33)

/-! ### Accepting a word (R106, R132) -/

/-- The edges of a word that pass the minimum pulse (R132): the state and instant after them, none when one
fails. -/
def Cell.checkEdges (c : Cell) (ref : Int) (w : CmdWord) : Option (Nat × Option Int) :=
  w.present.foldl (fun a p =>
    match a with
    | none => none
    | some (st, tp) =>
      if p.2 = 7 ∨ p.2 = st then some (st, tp)
      else
        let tx := ref + p.1 * 1000
        let short := match tp with
          | some t => p.2 != 0 && decide (tx - t < c.tMinp)
          | none => false
        if short then none else some (p.2, some tx))
    (some (c.sched, c.tLast))

/-- The result of the word for an execution tick, kept for its report. -/
def Cell.keepRes (c : Cell) (r : WordRes) : Cell := { c with res := (r :: c.res).take 4 }

/-- The checks of an accepted word, with its execution reference and the instant of its acceptance, at which the cell's
own turn-offs happen (R132, R152): the cell and the refusal code. -/
def Cell.run (c : Cell) (w : CmdWord) (ref inst : Int) : Cell × Nat :=
  if w.malformed then (c, 0x30)
  else if !c.fb && w.present.any (fun p => p.2 == 3 || p.2 == 4) then (c.fault 0x09 inst, 0x09)
  else if w.driven && (!c.enable || c.latch != 0 || !c.committed || c.bypassed || c.bypDrive.isSome || c.markBlk) then
    (c, 0x32)
  else if w.driven && c.stestBusy then (c, 0x36)
  else match c.checkEdges ref w with
  | none => (c, 0x31)
  | some (st, tp) =>
    let new := (w.present.filter fun p => p.2 != 7).map fun p => (⟨ref + p.1 * 1000, p.2, w.gp⟩ : Edge)
    let clr := w.eA == 0 && w.stA == 0
    let c := if c.bypassed then c
      else { c with edges := c.edges ++ new, sched := st, tLast := tp, markBlk := c.markBlk && !clr }
    c.item w.test w.code w.data inst

/-- The tick is closed for the cell (R106), as are those it closed before, as far as an XTICK can name them. -/
def Cell.close (c : Cell) (t : Int) : Cell := { c with closed := t :: nearTicks t c.closed }

/-- The next origin (R107, R119): from the timing mark, where the hub has relayed one since the last origin, with the
compensation in force from there, or 1,000 ns after the previous one where none arrives. -/
def Cell.nextOrigin (c : Cell) (marks : Nat) (mark : Int) (lph : Nat) : Cell :=
  if marks = c.marks then { c with origin := c.origin + 1000000 }
  else
    let dc := c.dcompNext.getD c.dcomp
    { c with dcomp := dc, dcompNext := none, origin := mark - dc * 250 - (24000 + lph * 80), marks := marks, lph := lph }

/-- A word of a cell index that the hub has forwarded, with the header fields of its frame, the timing marks relayed by the
hub, the arrival of the last and the instant of acceptance: accepted when it passes its check bits, names the cell, carries the SEQ of the XTICK, and
its execution tick is not closed (R101, R106); the origin is set from the mark (R119). -/
def Cell.accept (c : Cell) (idx : Nat) (word : ECWord) (f : HubHdr) (marks : Nat) (mark inst : Int) : Cell :=
  let (e, d) := hsiaoDec word
  let w := cmdDecode d
  if !e.good || w.cell ≠ idx || (w.seq : Int) ≠ f.tick % 256 || c.closed.contains f.tick then c
  else
    let c := (c.nextOrigin marks mark f.lph).close f.tick
    let c := { c with seq := w.seq, accAt := inst, holdOk := w.holdOk, missing := 0, ended := false, holdExp := false }
    let (c, rej) := c.run w (c.origin + 1000000 + f.ofs * 1000) inst
    let c := if w.code = 3 ∧ rej = 0 then c else c.breakRun
    c.keepRes ⟨f.tick, rej, w.code == 5 && rej == 0, w.test⟩

/-! ### Edges (R128, R133) -/

/-- The earliest scheduled edge, and the rest. -/
def popEdge (l : List Edge) : Option (Edge × List Edge) :=
  match l with
  | [] => none
  | e :: t =>
    let m := t.foldl (fun a x => if x.at_ < a.at_ then x else a) e
    some (m, l.erase m)

/-- An edge executes (R128): leaving switches off at its instant, new ones on at the later of that instant and the
dead time of their leg; an edge to BLOCK cancels waiting gate-ons (R133); with a fault latched only edges to BLOCK
act (R144); with the enable low every gate is held off and the state stays BLOCK (R129, R147). A switch whose supply is under
lock-out waits for its recovery (R143). -/
def Cell.edge (c : Cell) : Cell :=
  match popEdge c.edges with
  | none => c
  | some (e, rest) =>
    let c := { c.settle e.at_ with edges := rest }
    if e.st ≠ 0 ∧ (c.latch ≠ 0 ∨ c.bypassed ∨ !c.enable) then c
    else if e.st = c.state then c
    else
      let tgt := switchesOf c.fb e.st
      let leave := (upto 4).filter fun i => c.on.getLsbD i && !tgt.getLsbD i
      let offAt := leave.foldl (fun m i => mset none m i (some e.at_)) c.offAt
      let news := (upto 4).filter fun i => tgt.getLsbD i && !c.on.getLsbD i
      let waits := news.map fun i =>
        let off := mget none offAt (legMate i)
        (i, match off with | some t => max e.at_ (t + c.tDead) | none => e.at_)
      { ({ c with on := c.on &&& tgt, offAt := offAt, state := e.st, gp := e.gp, waitOn := waits, held := 0,
                  sinkI := if leave.isEmpty then c.sinkI else c.sink e.gp }).settle e.at_
        with tLast := c.tLast, zeroRun := if e.st = 0 then c.zeroRun else 0 }

/-! ### Missing ticks and reports (R107, R113, R131, R154) -/

/-- A tick without a word by its execution reference (R106, R107): the tick is closed, the origin follows the timing mark, or
moves on by 1,000 ns where none has arrived, and a cell whose hold has run out, or that has none, goes to BLOCK once. DESIGN
CHOICE (log 99): the turn-off uses the sink current of gate profile 0. DESIGN CHOICE (log 116): no LPH comes with the mark of
a frame without a word; the one of the last origin serves. -/
def Cell.missTick (c : Cell) (tick : Int) (hold marks : Nat) (mark t : Int) : Cell :=
  if c.closed.contains tick then c
  else
    let c := { ((c.nextOrigin marks mark c.lph).close tick) with missing := c.missing + 1 }.breakRun
    if (c.holdOk ∧ c.missing ≤ hold) ∨ c.bypassed ∨ c.ended then c
    else { c.blockNow t (c.sink 0) with ended := true, holdExp := c.holdOk }

/-- FCODE of a report (R154). -/
def Cell.fcode (c : Cell) (rej : Nat) : Nat :=
  if c.latch ≠ 0 then c.latch else if rej ≠ 0 then rej else if c.holdExp then 0x20 else 0

/-- The origin of tick j: gate-ons due by then are given, settings of a commit become active, VCAP is latched, the self-test
counts down, and the telemetry word is launched (R113, R131, R136, R150, R154). The hub writes RXT and FLAGS.PROBE (R115).
DESIGN CHOICE (log 99): switches that are still on when a self-test starts are turned off with the SOFTOFF sink current. -/
def Cell.reportAt (c : Cell) (idx : Nat) (j : Int) (vcap temp : Nat) : Cell :=
  let c : Cell := { (c.settle (c.origin + 1000000)).takeSet with vcap := vcap, stest := c.stest.map fun (p : Nat × Nat) => (p.1, p.2 - 1) }
  let c : Cell := if (c.stest.map Prod.snd) = some 32 then
    { c.blockNow (c.origin + 1000000) c.softoff with stest := c.stest } else c
  let r := c.res.find? fun (r : WordRes) => r.xtick == j - 1
  let rej := (r.map WordRes.rej).getD 0
  let flags := b2n r.isNone + 2 * b2n (rej != 0)
  let seq := (r.map fun (w : WordRes) => (w.xtick % 256).toNat).getD c.seq
  { c with report := BitVec.ofNat 64 (idx * 2 ^ 57 + vcap % 2 ^ 14 * 2 ^ 43 + temp % 256 * 2 ^ 35
      + seq * 2 ^ 27 + c.fcode rej * 2 ^ 21 + c.gsup.toNat * 2 ^ 16 + c.stateCode * 2 ^ 4 + flags) }

/-! ### Protection (R139 to R145) -/

/-- Blanking of a switch runs at an instant (R140). -/
def Cell.blanking (c : Cell) (i : Nat) (t : Int) : Bool :=
  match mget none c.onAt i with
  | some a => decide (t < a + c.tBlank)
  | none => false

/-- DESAT (R140, R142). -/
def Cell.desatTrip (c : Cell) (sw : Nat) (t : Int) : Cell :=
  let c := c.settle t
  let leg := sw / 2
  match c.desat with
  | some (l, t0) =>
    if c.fb && l != leg && decide (1 ≤ c.latch ∧ c.latch ≤ 4) && decide (t - t0 ≤ 1000000) && !c.blanking sw t then
      { c.blockNow t c.softoff with latch := 0x07, stest := none }
    else if c.on.getLsbD sw && !c.blanking sw t then { c.fault (1 + sw) t with desat := some (leg, t) } else c
  | none =>
    if c.on.getLsbD sw && !c.blanking sw t then { c.fault (1 + sw) t with desat := some (leg, t) } else c

/-- OC (R141). -/
def Cell.ocTrip (c : Cell) (t : Int) : Cell :=
  let c := c.settle t
  let blank := (upto 4).any fun i => c.on.getLsbD i && c.blanking i t
  c.fault (if blank then 0x06 else 0x05) t

/-- SHOOT_THROUGH_ATTEMPT (R139): the gate-on of a switch is suppressed. -/
def Cell.shoot (c : Cell) (sw : Nat) (t : Int) : Cell :=
  { c with waitOn := c.waitOn.filter fun p => p.1 != sw }.fault 0x08 t

/-- UVLO_GATE and UVLO_AUX (R143). -/
def Cell.uvloTrip (c : Cell) (supply : Nat) (t : Int) : Cell :=
  if supply < 4 ∧ !c.fb ∧ 2 ≤ supply then c
  else { c.settle t with gsup := c.gsup ||| BitVec.ofNat 5 (2 ^ supply) }.fault (if supply = 4 then 0x0B else 0x0A) t

/-- CAP_OV (R145), while settings are active. -/
def Cell.capOv (c : Cell) (v : Nat) (t : Int) : Cell :=
  if reaches c.vcapOv v then { c with vcap := v }.fault 0x0C t else c

/-- The end of a self-test, 32 ticks after its first origin and so before the report of the origin it falls on (R150):
the first failing selected comparator the cell has is latched. -/
def Cell.selftestEnd (c : Cell) (fails : Nat) : Cell :=
  match c.stest with
  | some (mask, n) =>
    if 1 < n then c else
    let has := fun i => c.fb || !(i == 2 || i == 3 || i == 7 || i == 8)
    let f := (upto 10).find? fun i => tbit mask i && tbit fails i && has i
    let c := { c with stest := none }
    match f with
    | some i => c.latchCode (0x10 + i)
    | none => c
  | none => c

/-! ### The commands -/

/-- The item of the word last accepted, performed at its acceptance with the word's TEST flag (R149): a refusal marks that
word (R132). -/
def cellItemCmd (s : State) (g code data : Nat) : State :=
  s.onCell g fun c =>
    let (c, rej) := c.item ((c.res.head?.map WordRes.test).getD false) code data c.accAt
    match c.res with
    | r :: t => { c with res := { r with rej := if rej ≠ 0 then rej else r.rej, probe := r.probe || code == 5 } :: t }
    | [] => c

def execNop (g : Fin 4096) (data : BitVec 16) (s : State) : Host.Outcome State Fault Refusal :=
  .next (cellItemCmd s g 0 data.toNat)
def execSetAddr (g : Fin 4096) (data : BitVec 16) (s : State) : Host.Outcome State Fault Refusal :=
  .next (cellItemCmd s g 1 data.toNat)
def execWrite (g : Fin 4096) (data : BitVec 16) (s : State) : Host.Outcome State Fault Refusal :=
  .next (cellItemCmd s g 2 data.toNat)
/-- COMMIT: a WRITE to the COMMIT address (R136). -/
def execCommit (g : Fin 4096) (data : BitVec 16) (s : State) : Host.Outcome State Fault Refusal :=
  .next (cellItemCmd (s.onCell g fun c => { c with selAddr := 0xFF }) g 2 data.toNat)
def execEnable (g : Fin 4096) (data : BitVec 16) (s : State) : Host.Outcome State Fault Refusal :=
  .next (cellItemCmd s g 3 data.toNat)
def execDcomp (g : Fin 4096) (data : BitVec 16) (s : State) : Host.Outcome State Fault Refusal :=
  .next (cellItemCmd s g 4 data.toNat)
def execProbe (g : Fin 4096) (data : BitVec 16) (s : State) : Host.Outcome State Fault Refusal :=
  .next (cellItemCmd s g 5 data.toNat)
def execSelftest (g : Fin 4096) (data : BitVec 16) (s : State) : Host.Outcome State Fault Refusal :=
  .next (cellItemCmd s g 6 data.toNat)
def execCloseBypass (g : Fin 4096) (data : BitVec 16) (s : State) : Host.Outcome State Fault Refusal :=
  .next (cellItemCmd s g 7 data.toNat)

def hubReset : Hub := {}
def State.hub (s : State) (n : Nat) : Hub := mget hubReset s.hubs n
def State.setHub (s : State) (n : Nat) (h : Hub) : State := { s with hubs := mset hubReset s.hubs n h }

/-- CELL_WORD_ACCEPT: a word that its hub has forwarded, with the header fields relayed with it (R104, R106); the execution
tick of one forwarded more than 256 ticks ago has long passed. -/
def execCellWordAccept (g : Fin 4096) (word : ECWord) (mark inst : Int) (s : State) :
    Host.Outcome State Fault Refusal :=
  .next (match mget none (s.hub (g / 128)).words (g % 128) with
    | some (_, f) => if 256 < (f.tick - s.now).natAbs then s
        else s.onCell g fun c => c.accept (g % 128) word f (s.hub (g / 128)).marks mark inst
    | none => s)

/-- CELL_MISSING_TICK: `mark` is the arrival of the hub's last timing mark, with or without a word behind it (R104). -/
def execCellMissingTick (g : Fin 4096) (xtick : Fin 512) (mark inst : Int) (s : State) :
    Host.Outcome State Fault Refusal :=
  .next (s.onCell g fun c => c.missTick (nearTick s.now xtick) (s.hub (g / 128)).hold (s.hub (g / 128)).marks mark inst)
def execCellEdge (g : Fin 4096) (s : State) : Host.Outcome State Fault Refusal := .next (s.onCell g Cell.edge)
def execCellReport (g : Fin 4096) (j : Fin 512) (vcap : BitVec 14) (temp : BitVec 8) (s : State) :
    Host.Outcome State Fault Refusal :=
  .next (s.onCell g fun c => c.reportAt (g % 128) (nearTick s.now j) vcap.toNat temp.toNat)

/-- CELL_BLOCK_MARKER (R237): a word decoded as BLOCK, a bad marker acted on as BLOCK included. -/
def execCellBlockMarker (g : Fin 4096) (word : Word) (inst : Int) (s : State) :
    Host.Outcome State Fault Refusal :=
  .next (match markerOf word with
    | some r => if markerActs r = some .block then
        s.onCell g fun c => { c.blockNow inst (c.sink 0) with markBlk := true } else s
    | none => s)

def execShootThroughAttempt (g : Fin 4096) (sw : Fin 4) (inst : Int) (s : State) :
    Host.Outcome State Fault Refusal := .next (s.onCell g fun c => c.shoot sw inst)
def execDesat (g : Fin 4096) (sw : Fin 4) (inst : Int) (s : State) : Host.Outcome State Fault Refusal :=
  .next (s.onCell g fun c => c.desatTrip sw inst)
def execOc (g : Fin 4096) (inst : Int) (s : State) : Host.Outcome State Fault Refusal :=
  .next (s.onCell g fun c => c.ocTrip inst)
def execUvloGate (g : Fin 4096) (sw : Fin 4) (inst : Int) (s : State) : Host.Outcome State Fault Refusal :=
  .next (s.onCell g fun c => c.uvloTrip sw inst)
def execUvloAux (g : Fin 4096) (inst : Int) (s : State) : Host.Outcome State Fault Refusal :=
  .next (s.onCell g fun c => c.uvloTrip 4 inst)
def execCapOv (g : Fin 4096) (vcap : BitVec 14) (inst : Int) (s : State) : Host.Outcome State Fault Refusal :=
  .next (s.onCell g fun c => c.capOv vcap.toNat inst)

/-- AUTONOMOUS_BYPASS (R145): VCAP at or above VCAP_BYP, or the auxiliary supply under lock-out for 2 ms. -/
def execAutonomousBypass (g : Fin 4096) (cause : BypassCause) (inst : Int) (s : State) :
    Host.Outcome State Fault Refusal :=
  .next (s.onCell g fun c =>
    match cause with
    | .vcap v => if reaches c.vcapByp v.toNat then c.driveBypass inst else c
    | .aux2ms => if c.gsup.getLsbD 4 then c.driveBypass inst else c)

def execBypassConfirm (g : Fin 4096) (s : State) : Host.Outcome State Fault Refusal :=
  .next (s.onCell g fun c => if c.bypDrive.isSome then { c with bypassed := true } else c)
def execBypassFail (g : Fin 4096) (s : State) : Host.Outcome State Fault Refusal :=
  .next (s.onCell g fun c => if c.bypDrive.isSome && !c.bypassed then c.latchCode 0x0E else c)
def execSelftestEnd (g : Fin 4096) (fails : BitVec 10) (s : State) : Host.Outcome State Fault Refusal :=
  .next (s.onCell g fun c => c.selftestEnd fails.toNat)

/-- CELL_POWER_UP (R137, R147): STARTING, nothing committed; only the hardware type stays. -/
def execCellPowerUp (g : Fin 4096) (s : State) : Host.Outcome State Fault Refusal :=
  .next (s.onCell g fun c => { cellReset with fb := c.fb, marks := (s.hub (g / 128)).marks })

/-- A supply recovers at an instant (R143): its GSUP bit clears, and its switch, if it is held off, comes on. -/
def Cell.recover (c : Cell) (supply : Nat) (t : Int) : Cell :=
  let c := c.settle t
  let d := { c with gsup := c.gsup &&& ~~~(BitVec.ofNat 5 (2 ^ supply)), held := c.held &&& ~~~(BitVec.ofNat 4 (2 ^ supply)) }
  if c.held.getLsbD supply then d.give (supply, t) else d

def execGateSupplyRecovery (g : Fin 4096) (supply : Fin 5) (inst : Int) (s : State) : Host.Outcome State Fault Refusal :=
  .next (s.onCell g fun c => c.recover supply inst)

end Sys2Proof.Machine
end

