-- ==== Sys2Proof/Machine/Link.lean ====
section
/-! DEFINITION. Cell link frames (chapter 4): the downstream frame as a CL port sends it, reception of upstream
frames with the port's delay measurement, lateness, and the hubs. -/
namespace Sys2Proof.Machine
open Sys2Proof

/-! ### Delay and lateness (R54, R116, R296) -/

/-- rttp_q, thub_q, lh_q and dport_q of a port (R116). -/
def PortDly.rttpQ (x : PortDly) : Int := ((2 * x.rttp.foldl (· + ·) 0 + 50) / 100 : Nat)
def PortDly.thubQ (x : PortDly) : Int := roundShift (x.thub.foldl (· + ·) 0) 4
def PortDly.lhQ (x : PortDly) : Int := roundShift ((x.lh.foldl (· + ·) 0 : Nat) : Int) 4
def PortDly.dportQ (x : PortDly) : Int := swrap (roundShift (x.rttpQ - x.thubQ) 1) 32

/-- dport_q used for port n (R116, R296): in a pair the value the active unit reported four ticks or more ago. -/
def State.dportOf (s : State) (n : Nat) : Option Int :=
  if s.bit RED_CFG_PAIR then
    ((mget [] s.red.dports n).find? fun p => p.1 + 4 ≤ s.now).map fun p => p.2.1
  else if (mget {} s.pdly n).rttp.length ≥ 16 then some (mget {} s.pdly n).dportQ
  else none

/-- The shortfall of R54 in 0.01 ns, positive when the cell is late. -/
def State.shortfall (s : State) (g : Nat) : Int :=
  (4000 + 664 * (g % 128 + 2) + 25 * s.ce g ceDmeas + 2000 : Nat) - (100000 + 100 * s.fld CMP_EXEC_OFS : Nat)

/-- Re-evaluation of the late condition of a cell (R54). -/
def State.lateEval (s : State) (g : Nat) : State :=
  let d := s.shortfall g
  let late := decide (0 < d)
  let was := (s.cc g).late
  let s := (s.setCc g { s.cc g with late := some late }).setCe g ceLate (b2n late)
  s.sendIf (late && was != some true) (0x102 + 4 * (g / 128)) 0x21 (g * 2 ^ 20 + usat (d / 100) 16)

/-- OFS has changed: every cell whose delay is measured is evaluated again (R54). -/
def State.lateAll (s : State) : State :=
  s.each s.confCells fun s g => if s.ceBit g ceDmv then s.lateEval g else s

/-- dmeas_own of a cell on a unit whose uplink is not the token holder (R296). -/
def State.ownDelay (s : State) (g : Nat) (dcell : Int) : State :=
  let n := g / 128
  let x := mget ({} : PortDly) s.pdly n
  if !s.bit RED_CFG_PAIR || s.bit (CL_HUB_STAT_TOKEN n) || x.rttp.length < 16 then s
  else match mget [] s.red.dports n with
  | (_, dp, clph) :: _ =>
    let dl := (80 * ((clph : Int) - s.cmp.lph) - s.red.dlt + 125) / 250
    let own := x.rttpQ - x.thubQ - dp - dl
    { s with red := { s.red with own := mput s.red.own g (usat (own + s.fld (CL_PDLY_LH n) + dcell) 16),
                                 ownPort := mput s.red.ownPort n (usat own 16) } }
  | [] => s

/-- One probe answer of a cell (R116): its resolved round trip, and over the last 16 the delay of the cell. -/
def State.probeAnswer (s : State) (g rxt : Nat) : State :=
  let nom := (s.cellCfg g).nomRt
  let r := sext (wrap ((rxt : Int) - nom) 8) 8
  let l : List Int := (((nom : Int) + r) :: (s.cc g).rtts).take 16
  let s := s.setCc g { s.cc g with rtts := l }
  let src := 0x102 + 4 * (g / 128)
  if l.length < 16 then s
  else
    let sum : Int := l.foldl (· + ·) 0
    let mx := l.foldl max (l.headD 0)
    let mn := l.foldl min (l.headD 0)
    if 8 < mx - mn then s.send src 0x22 (g * 2 ^ 20)
    else if 1600 < sum - 16 * (nom : Int) ∨ sum - 16 * (nom : Int) < -1600 then s.send src 0x23 (g * 2 ^ 20)
    else
      let dcell := roundShift (sum - 256) 3
      let s := s.ownDelay g dcell
      match s.dportOf (g / 128) with
      | none => s
      | some dp =>
      if (mget {} s.pdly (g / 128)).lh.length < 16 then s
      else
        let d := usat (dp + s.fld (CL_PDLY_LH (g / 128)) + dcell) 16
        ((s.setCe g ceDmeas d).setCe g ceDmv 1).lateEval g

/-- The port part of R116 with one more round trip in UI and the T_HUB and L_H of the same tick. DESIGN CHOICE (log 123): a
signed dport_q outside the unsigned 16 bits of CL_PDLY.DPORT shows there at the nearer limit. -/
def State.portDelay (s : State) (n rtt : Nat) (thub : Int) (lh : Nat) : State :=
  let x := mget ({} : PortDly) s.pdly n
  let x : PortDly := { rttp := (rtt :: x.rttp).take 16, thub := (thub :: x.thub).take 16, lh := (lh :: x.lh).take 16 }
  let s := { s with pdly := mput s.pdly n x }
  if x.rttp.length < 16 then s
  else (s.setFld (CL_PDLY_DPORT n) (usat x.dportQ 16)).setFld (CL_PDLY_LH n) (usat x.lhQ 16)

/-! ### The downstream frame (R90, R93, R235) -/

/-- The unit holds the active token (R289). -/
def State.token (s : State) : Bool := s.role == 1

/-- The header of a downstream frame of this tick (R93). -/
def State.cellHeader (s : State) (n lph : Nat) : BitVec 64 :=
  BitVec.ofNat 64 (1 * 2 ^ 60 + 1 * 2 ^ 58 + s.fld (CL_HUB_ID n) * 2 ^ 50 + s.fld RED_ID_UNIT * 2 ^ 49
    + b2n s.token * 2 ^ 48 + s.fld RED_EPOCH_EPOCH * 2 ^ 24 + s.cmp.ofs * 2 ^ 14 + lph % 32 * 2 ^ 9
    + (s.now + 1) % 512)

/-! ### Upstream frames (R94 to R96, R121) -/

/-- The full tick, not after the present one, with the given low 9 bits. -/
def State.fullJ (s : State) (x : Nat) : Nat := s.now - wrap ((s.now : Int) - x) 9

/-- The frame kept is that of tick j: the tick its XTICK named when it arrived (R121, R255). -/
def RxFrame.isFor (f : RxFrame) (j : Nat) : Bool := f.tick - wrap ((f.tick : Int) - bitsOf f.hdr.toNat 8 0) 9 == j

/-- The header of an upstream frame identifies the expected hub (R95). -/
def State.expectHub (s : State) (n : Nat) (hdr : BitVec 64) : Bool :=
  let h := hdr.toNat
  bitsOf h 63 60 == 2 && bitsOf h 59 58 == 1 && bitsOf h 57 50 == s.fld (CL_HUB_ID n)
    && bitsOf h 49 49 == s.fld RED_ID_UNIT

/-- A CL port enters RUNNING: its cells' downloads start afresh (R138). -/
def State.startProf (s : State) (g : Nat) : State :=
  let x := s.cc g
  let cur := match x.cur with
    | some i => if i.src == .prof then none else some i
    | none => none
  (s.setCc g { x with prof := some 0, tries := 0, profOk := false, cur := cur }).profPending

/-- The hub's view from a usable header (R124); headers in a row that show HOLDING are counted (R306). -/
def State.hubView (s : State) (n : Nat) (hdr : BitVec 64) : State :=
  let h := hdr.toNat
  let hold := if tbit h 15 then min 2 (mget 0 s.red.hold n + 1) else 0
  let s := { s with red := { s.red with hold := mset 0 s.red.hold n hold } }
  (((((s.setFld (CL_HUB_STAT_EPOCH n) (bitsOf h 47 24)).setFld (CL_HUB_STAT_TOKEN n) (bitsOf h 48 48)).setFld
    (CL_HUB_STAT_OTHER_UP n) (bitsOf h 14 14)).setFld (CL_HUB_STAT_HUB_FLT n) (bitsOf h 13 13)).setFld
    (CL_HUB_STAT_HOLDING n) (bitsOf h 15 15)).setFld (CL_HUB_INFO_NCELL n) (bitsOf h 23 16)

/-- Status word S0 (R109, R124): hub details, HUB_FLT, and the port's delay. -/
def State.statusS0 (s : State) (n rtt : Nat) (w : BitVec 64) : State :=
  let v := w.toNat
  let old := s.fld (CL_HUB_INFO_HFCODE n)
  let code := bitsOf v 7 0
  let s := (s.setFld (CL_HUB_INFO_HFCODE n) code).setFld (CL_HUB_INFO_HTEMP n) (bitsOf v 15 8)
  let s := s.sendIf (code != 0 && code != old) (0x103 + 4 * n) 0x26 (code * 2 ^ 24)
  if s.portState n = 4 then s.portDelay n rtt (sext (bitsOf v 63 48) 16) (bitsOf v 47 32) else s

/-- An event of a CL frame counter (R125). -/
def State.fcnt (s : State) (n : Nat) (c : Fld) (i k : Nat) : State := s.count c (CL_FCNT_OVF n) i k

/-- CELL_FRAME_RX (R66, R81, R95, R96, R121): an upstream frame whose trailer is received in cycle `cyc`; `rtt` is
the port's round trip in UI (R116). A receiver aligned to its line destuffs and compares in a loopback (R66, R87); its
contents count while the port is LOCKED or RUNNING, and show in the hub's registers when the frame is not late.
DEDUCED (log 104): the sample tick in HDR_UE's detail, which an unreadable header does not give, is the one whose frame
the cycle of reception is in time for. -/
def cellFrameRx (s : State) (n : Nat) (line : List Bool) (cyc rtt : Nat) : State :=
  if !s.aligned n then s
  else
    let f := frameIn 132 line
    let s := stuffEvents s n f.stuffV
    let s := loopCompare s n (if s.fld (CL_CTRL_LB n) = 3 then [] else line) (f.hdr :: f.words.map (·.2))
    if s.portState n ≠ 3 ∧ s.portState n ≠ 4 then s else
    let (s, rep) := s.laneCheck n f.syns
    let lag := s.fld (CL_HUB_TLAG n)
    if !f.hdrEcc.good then
      let j := (if cyc ≤ 80 then s.now + 511 - lag else s.now + 512 - lag) % 512
      ((s.noIdent n).fcnt n (CL_FCNT_HUE n) 2 1).sendIf (!rep.headD false) (0x101 + 4 * n) 0x18 (j * 2 ^ 23)
    else
      let x := bitsOf f.hdr.toNat 8 0
      let s := s.fcnt n (CL_FCNT_HFIX n) 1 (b2n f.hdrEcc.fixed)
      let s := s.fcnt n (CL_FCNT_WFIX n) 3 (f.words.filter fun p => p.1.fixed).length
      let s := s.fcnt n (CL_FCNT_WUE n) 4 (f.words.filter fun p => !p.1.good).length
      if !f.crcOk then ((s.noIdent n).fcnt n (CL_FCNT_CRC n) 0 1).send (0x101 + 4 * n) 0x19 (x * 2 ^ 23)
      else
        let ok := s.expectHub n f.hdr
        let was := s.portState n
        let s := portIdentify s n ok
        let s := if was = 3 ∧ s.portState n = 4 then
            ({ s with red := { s.red with hold := mset 0 s.red.hold n 0 } }).each (s.portCells n) State.startProf else s
        if !ok || !s.delivers n then s
        else
          let ws := f.words.map fun p => if p.1.good then some p.2 else none
          let t := s.fullJ x + 1 + lag
          if t < s.now ∨ (t = s.now ∧ 80 < cyc) then
            (s.fcnt n (CL_FCNT_LATE n) 6 1).send (0x101 + 4 * n) 0x1B (x * 2 ^ 23)
          else
            let s := s.hubView n f.hdr
            let s := match ws.getD 128 none with
              | some w => s.statusS0 n rtt w
              | none => s
            s.setLane n { s.lane n with rx := (⟨s.now, cyc, f.hdr, ws, rep⟩ :: (s.lane n).rx).take 4 }

def execCellFrameRx (port : Fin 32) (line : List Bool) (cyc rtt : Nat) (s : State) :
    Host.Outcome State Fault Refusal := .next (cellFrameRx s port line cyc rtt)

/-! ### Hubs (R102 to R109, R236) -/

/-- What a hub forwards from an uplink. -/
def Hub.fwd (h : Hub) (u : Nat) : Option HubHdr := if u = 0 then h.fwd0 else h.fwd1
def Hub.setFwd (h : Hub) (u : Nat) (f : Option HubHdr) : Hub := if u = 0 then { h with fwd0 := f } else { h with fwd1 := f }

/-- A frame of tick t whose header is acceptable on uplink u, its FRAME marker having arrived in UI `ui`, has its words
forwarded (R103): it is the first for t, or the earlier of two that arrive together, with uplink 0 before uplink 1 in the
same UI. -/
def Hub.first (h : Hub) (t : Int) (u ui : Nat) : Bool :=
  match h.ticks.find? fun k => k.tick == t with
  | none => true
  | some k => !k.sent && k.u != u && (decide (ui < k.ui) || (ui == k.ui && u == 0))

/-- The words of a frame of tick f.tick on uplink u are forwarded from here on, those of another frame of that tick no
longer. -/
def Hub.take (h : Hub) (u ui : Nat) (f : HubHdr) : Hub :=
  let h := if (h.fwd (1 - u)).map HubHdr.tick = some f.tick then h.setFwd (1 - u) none else h
  { h.setFwd u (some f) with ticks := ⟨f.tick, u, ui, false⟩ ::
      (h.ticks.filter fun k => k.tick != f.tick && decide ((k.tick - f.tick).natAbs < 512)) }

/-- HUB_HEADER_ACCEPT (R102 to R105): the FRAME marker before the header is relayed as the timing mark where its uplink is
U_acc, before any check; a new frame on an uplink ends the forwarding of the one before it.
DEDUCED (log 105): S3 shows EPOCH and TOKEN of every downstream header the hub can read, also one with another HUB_ID. -/
def Hub.header (h : Hub) (now u ui : Nat) (w : ECWord) : Hub :=
  let (e, d) := hsiaoDec w
  let v := d.toNat
  let ep := bitsOf v 47 24
  let tk := tbit v 48
  let h := { h.setFwd u none with marks := h.marks + b2n (h.uAcc == u) }
  if !e.good || bitsOf v 63 60 != 1 || bitsOf v 59 58 != 1 then h
  else
    let h := if u = 0 then { h with ep0 := ep, tk0 := tk } else { h with ep1 := ep, tk1 := tk }
    if bitsOf v 57 50 ≠ h.ident then h
    else if tk ∧ 1 ≤ ep ∧ (h.eAcc < ep ∨ (ep = h.eAcc ∧ u = h.uAcc)) then
      let f : HubHdr := { tick := nearTick now (bitsOf v 8 0), ofs := bitsOf v 23 14, lph := bitsOf v 13 9 }
      let h := if h.eAcc < ep then { h with eAcc := ep, uAcc := u } else h
      if h.first f.tick u ui then h.take u ui f else h
    else if u = 0 then { h with refused0 := (h.refused0 + 1) % 256 }
    else { h with refused1 := (h.refused1 + 1) % 256 }

/-- HUB_WORD_FORWARD (R104, R108): a command word of a frame being forwarded goes to its cell as soon as it passes
its check bits; the hub words count only when the frame's CRC passes. -/
def Hub.word (h : Hub) (u pos : Nat) (w : ECWord) (crcOk : Bool) : Hub :=
  let (e, d) := hsiaoDec w
  match h.fwd u with
  | some f =>
    if !e.good then h
    else if 1 ≤ pos ∧ pos ≤ 128 then
      { h with words := mset none h.words (pos - 1) (some (d, f)),
               ticks := h.ticks.map fun k => if k.tick = f.tick then { k with sent := true } else k }
    else if !crcOk then h
    else if pos = 129 then
      let v := bitsOf d.toNat 63 60
      if 2 ≤ v ∧ v ≤ 8 then { h with hold := v } else h
    else if pos = 130 then { h with h1 := d }
    else if pos = 131 then { h with h2 := d }
    else h
  | none => h

/-- The hub forwarded a command word for the tick (R94). -/
def Hub.sentFor (h : Hub) (t : Int) : Bool := h.ticks.any fun k => k.tick == t && k.sent

/-- The upstream header of a hub (R94). -/
def Hub.upHeader (h : Hub) (now u j : Nat) (d : HubData) : BitVec 64 :=
  BitVec.ofNat 64 (2 * 2 ^ 60 + 1 * 2 ^ 58 + h.ident % 256 * 2 ^ 50 + u * 2 ^ 49 + b2n (h.uAcc == u) * 2 ^ 48
    + h.eAcc % 2 ^ 24 * 2 ^ 24 + ((upto 128).filter fun i => d.up.getLsbD i).length * 2 ^ 16
    + b2n (!h.sentFor (nearTick now j)) * 2 ^ 15 + b2n d.otherUp * 2 ^ 14 + b2n (h.flt != 0) * 2 ^ 13 + j % 512)

/-- The status words S0 to S3 (R109). -/
def Hub.status (h : Hub) (u : Nat) (d : HubData) : List (BitVec 64) :=
  [BitVec.ofNat 64 (d.thub.toNat * 2 ^ 48 + d.lh.toNat * 2 ^ 32 + h.refused0 % 256 * 2 ^ 24
      + h.refused1 % 256 * 2 ^ 16 + d.temp.toNat * 2 ^ 8 + h.flt % 256),
   d.up.extractLsb' 0 64, d.up.extractLsb' 64 64,
   BitVec.ofNat 64 (if u = 0 then h.ep1 % 2 ^ 24 * 2 ^ 40 + b2n h.tk1 * 2 ^ 39
     else h.ep0 % 2 ^ 24 * 2 ^ 40 + b2n h.tk0 * 2 ^ 39)]

/-- The telemetry word of position c (R91, R113, R115): NR where the cell's link is down; RXT and FLAGS.PROBE where
the cell answered a PROBE. -/
def State.telemetry (s : State) (n c : Nat) (d : HubData) : BitVec 64 :=
  if d.up.getLsbD c then
    let w := (s.cell (128 * n + c)).report
    match d.rtts.find? (fun p => p.1.val == c) with
    | some p => w ||| BitVec.ofNat 64 (p.2 % 256 * 2 ^ 8 + 4)
    | none => w
  else BitVec.ofNat 64 (c * 2 ^ 57 + 8)

/-- HUB_FRAME_LAUNCH (R94, R109). -/
def hubFrameLaunch (s : State) (n u j : Nat) (d : HubData) : State :=
  let h := s.hub n
  let f := h.upHeader s.now u j d :: ((upto 128).map fun c => s.telemetry n c d) ++ h.status u d
  s.setHub n (if u = 0 then { h with up0 := f } else { h with up1 := f })

/-- HUB_ALERT (R72): a latched code of a cell that differs from its previous report, or the hub's own fault code
becoming another nonzero value. -/
def Hub.alert (h : Hub) : HubAlertCause → Hub
  | .cell c f =>
    let f := f.toNat
    let old := mget 0 h.fcodes c.val
    let h := { h with fcodes := mset 0 h.fcodes c.val f }
    if 1 ≤ f ∧ f ≤ 0x0E ∧ f ≠ old then { h with alerts := h.alerts + 1 } else h
  | .own f =>
    let f := f.toNat
    if f ≠ 0 ∧ f ≠ h.flt then { h with flt := f, alerts := h.alerts + 1 } else { h with flt := f }

def execHubHeaderAccept (hub : Fin 32) (u : Fin 2) (hdr : ECWord) (ui : Nat) (s : State) :
    Host.Outcome State Fault Refusal := .next (s.setHub hub ((s.hub hub).header s.now u ui hdr))
def execHubWordForward (hub : Fin 32) (u : Fin 2) (pos : Fin 133) (word : ECWord) (crcOk : Bool) (s : State) :
    Host.Outcome State Fault Refusal := .next (s.setHub hub ((s.hub hub).word u pos word crcOk))

/-- HUB_BLOCK_RELAY (R236): a BLOCK marker on either uplink, a bad one acted on as BLOCK included, goes to every
cell link. -/
def execHubBlockRelay (hub : Fin 32) (_u : Fin 2) (word : Word) (s : State) : Host.Outcome State Fault Refusal :=
  .next (match markerOf word with
    | some r => if markerActs r = some .block then
        s.setHub hub { s.hub hub with blocks := (s.hub hub).blocks + 1 } else s
    | none => s)

def execHubAlert (hub : Fin 32) (cause : HubAlertCause) (s : State) : Host.Outcome State Fault Refusal :=
  .next (s.setHub hub ((s.hub hub).alert cause))
def execHubFrameLaunch (hub : Fin 32) (u : Fin 2) (j : Fin 512) (d : HubData) (s : State) :
    Host.Outcome State Fault Refusal := .next (hubFrameLaunch s hub u j d)

/-- HUB_POWER_UP (R102, R288): E_acc and U_acc cleared; the hub keeps its identity only. The count of its timing marks goes
on, by which its cells tell a new one. -/
def execHubPowerUp (hub : Fin 32) (s : State) : Host.Outcome State Fault Refusal :=
  .next (s.setHub hub { hubReset with ident := (s.hub hub).ident, marks := (s.hub hub).marks })

end Sys2Proof.Machine
end

