-- ==== Sys2Proof/Machine/Selection.lean ====
section
/-! DEFINITION. Cell selection (chapter 6): availability, aggregates, exclusion, histograms, thresholds and targets. -/
namespace Sys2Proof.Machine
open Sys2Proof

def selReset : SelRec := {}
def State.selRec (s : State) (g : Nat) : SelRec := mget selReset s.sel g
def State.setSel (s : State) (g : Nat) (x : SelRec) : State := { s with sel := mset selReset s.sel g x }
def selArmReset : SelArm := {}
def State.selA (s : State) (a : Nat) : SelArm := mget selArmReset s.selArm a
def State.setSelA (s : State) (a : Nat) (x : SelArm) : State := { s with selArm := mset selArmReset s.selArm a x }
def plnArmReset : PlnArm := { first := true, tl := 65535 }
def State.plnA (s : State) (a : Nat) : PlnArm := mget plnArmReset s.pln a
def State.setPlnA (s : State) (a : Nat) (x : PlnArm) : State := { s with pln := mset plnArmReset s.pln a x }

/-- NAVAIL of an arm as its slot holds it (R33). -/
def State.navail (s : State) (a : Nat) : Int := s.slot (0x180 + 8 * a + 1)

/-- Draining cells of an arm, D_a. -/
def State.draining (s : State) (a : Nat) : Nat := ((s.armCells a).filter fun g => (s.selRec g).drain).length

/-! ### Availability (R156) and the unpacker's updates (R160, R161, R163) -/

/-- A code that leaves a cell available. -/
def okCode (f : Nat) : Bool := f == 0 || f == 0x20 || decide (0x30 ≤ f ∧ f ≤ 0x36)

/-- AVAIL of a configured entry (R156). -/
def State.availOf (s : State) (g : Nat) : Bool :=
  s.delivers (g / 128) && decide (s.ce g ceAge ≤ s.fld SEL_CFG_AGE_MAX) && decide (s.ce g ceState ≤ 4)
    && okCode (s.ce g ceFcode) && !s.ceBit g ceLate && s.ceBit g ceDlyOk && (s.cc g).profOk
    && !s.ceBit g ceExcl && !s.ceBit g ceStest

/-- What the unpacker applies to an entry on selection's request (R160, R161, R163). -/
def State.selUpdate (s : State) (g : Nat) : State :=
  let r := s.selRec g
  let s := if r.drain && (r.tgt == .out || r.tgt == .blk) then
      let s := ((s.setCe g ceExcl 1).setFld SEL_EXCL_STAT_LAST g).setSel g { r with drain := false, forTest := false }
      if r.forTest then s.setCe g ceStest 1 else s
    else s
  let s := if r.readmit then
      ((s.setCe g ceExcl 0).setCe g ceStest 0).setSel g { s.selRec g with readmit := false }
    else s
  (s.setCe g ceDwell r.dwell).setCe g ceAvail (b2n (s.availOf g))

/-- The eight aggregate slots of an arm (R33). -/
def State.aggregates (s : State) (a : Nat) : State :=
  let l := s.armCells a
  let av := l.filter fun g => s.ceBit g ceAvail
  let v := av.map fun g => s.ce g ceVcap
  let sum : Nat := v.foldl (· + ·) 0
  let nav : Nat := av.length
  let nins : Int := l.foldl (fun n g =>
    let st := s.ce g ceState
    if st = 2 then n + 1 else if st = 3 then n - 1 else n) 0
  let b := 0x180 + 8 * a
  let w : List Int := [(sum : Int), (nav : Int), nins, (v.foldl max 0 : Nat), (v.foldl min (v.headD 0) : Nat),
    ((if nav = 0 then 0 else (sum + nav / 2) / nav : Nat) : Int),
    ((l.map fun g => s.ce g ceTemp).foldl max 0 : Nat) - 40,
    ((l.filter fun g => s.ce g ceFcode != 0).length : Nat)]
  w.zipIdx.foldl (fun s p => s.setSlot (b + p.2) p.1) s

/-! ### Exclusion and readmission (R158 to R161) -/

/-- The cells with a pending exclusion: one each, whatever its window (R158). -/
def State.exclCells (s : State) : List Nat := ((s.excl.filter fun r => r.act != 1).map fun r => r.cell).eraseDups

/-- `SEL_EXCL_STAT.PENDING`. -/
def State.exclPending (s : State) : State := s.setFld SEL_EXCL_STAT_PENDING s.exclCells.length

/-- A write to `SEL_EXCL_REQ` with ACT 0, 1 or 2 (R158): it replaces an earlier write of the same window. -/
def exclRequest (s : State) (g act : Nat) : State :=
  if act = 3 then s.send 0x2A0 0x03 0
  else if !s.isConf g then (s.flag SEL_EXCL_STAT_BAD).send 0x2A8 0x18 (g * 2 ^ 20)
  else
    let keep := s.excl.filter fun r => !(r.cell == g && r.fresh)
    let r : ExclReq := ⟨g, act, s.now, true⟩
    ({ s with excl := keep ++ [r] }).exclPending

/-- The requests of the window that has ended are taken against the state of their cells (R158, R161). -/
def State.exclTake (s : State) : State :=
  let fresh := s.excl.filter fun r => r.fresh
  fresh.foldl (fun s r =>
    let old := s.excl.filter fun q => !(q.cell == r.cell && q.fresh)
    let x := s.selRec r.cell
    let busy := x.drain || s.ceBit r.cell ceExcl
    if r.act = 1 then
      let s := { s with excl := old.filter fun q => q.cell != r.cell }
      if busy then s.setSel r.cell { x with drain := false, forTest := false, readmit := true } else s
    else if busy || old.any (fun q => q.cell == r.cell) then { s with excl := old }
    else { s with excl := old ++ [{ r with fresh := false }] }) s

/-- The spare-cell rule for m more cells of an arm (R159, R162). -/
def State.spare (s : State) (a m : Nat) : Bool :=
  decide ((s.fld (SEL_ARM_MIN_MIN_AVAIL a) : Int) ≤ s.navail a - s.draining a - m)

/-- A granted offline request none of whose port's cells drains any more: the port is offline (R423). -/
def State.offDone (s : State) : State :=
  s.ld.offs.foldl (fun s o =>
    if o.grant && (s.portCells o.port).all (fun g => !(s.selRec g).drain) then
      let s := (s.flagBit CFG_OFF_STAT o.port).unflagBit CFG_OFF_PEND o.port
      { s with ld := { s.ld with offs := s.ld.offs.filter fun q => q.port != o.port } }
    else s) s

/-- An offline request is granted: every configured cell of the port that is not yet excluded drains (R423). -/
def State.offGrant (s : State) (n : Nat) : State :=
  let l := (s.portCells n).filter fun g => !s.ceBit g ceExcl && !(s.selRec g).drain
  let s := l.foldl (fun s g => s.setSel g { s.selRec g with drain := true, forTest := false }) s
  let offs := s.ld.offs.map fun o => if o.port = n then { o with grant := true, cells := l } else o
  let ld := { s.ld with offs := offs, offCells := mput s.ld.offCells n l }
  ({ s with ld := ld }).offDone

/-- The spare-cell rule lets a port go offline (R162); a port without an arm is not under it. -/
def State.offSpare (s : State) (n : Nat) : Bool :=
  match s.armOfPort n with
  | some a => s.spare a ((s.portCells n).filter fun g => s.ceBit g ceAvail && !(s.selRec g).drain).length
  | none => true

/-- One pending exclusion is evaluated (R159). -/
def State.exclCell (s : State) (g : Nat) : State :=
  match s.excl.find? fun r => r.cell == g with
  | none => s
  | some r =>
    if s.op != 6 || (match s.armOf g with | some a => s.spare a 1 | none => true) then
      { s.setSel g { s.selRec g with drain := true, forTest := r.act == 2 } with
        excl := s.excl.filter fun q => q.cell != g }
    else s

/-- Evaluation of the pending exclusions and offline requests at cycle 100, in increasing g; a port stands before its
first cell (R159, R423, R426). -/
def State.exclEval (s : State) : State :=
  let s := s.exclTake
  (s.each (upto 32) fun s n =>
    let s := if (s.ld.offs.any fun o => o.port == n && !o.grant) && (s.op != 6 || s.offSpare n) then s.offGrant n else s
    s.each ((s.portCells n).filter fun g => s.excl.any fun r => r.cell == g) State.exclCell).exclPending

/-- EXCL_DENIED (R159): a request still ungranted 1,000 ticks after it was written is withdrawn; a scheduled
self-test waiting on it passes the cell over (R151). -/
def exclDenied (s : State) (g : Nat) : State :=
  if s.excl.any fun r => r.cell == g && !r.fresh && r.act != 1 && decide (r.tick + 1000 ≤ s.now) then
    let s := ({ s with excl := s.excl.filter fun q => q.cell != g }).exclPending
    let s := (s.flag SEL_EXCL_STAT_DENIED).send 0x2A8 0x19 (g * 2 ^ 20)
    if (s.cc g).stest = 1 then
      let s := s.setCc g { s.cc g with stest := 0 }
      match s.armOf g with
      | some a => s.unflagBit CMP_STEST_STAT_ACTIVE a
      | none => s
    else s
  else s

/-! ### Pass 1 (R168) -/

/-- A target inserts the cell. -/
def Tgt.ins : Tgt → Bool
  | .pos => true
  | .neg => true
  | _ => false

/-- The net contribution of a target to the count. -/
def Tgt.num : Tgt → Int
  | .pos => 1
  | .neg => -1
  | _ => 0

/-- The command code of a target (R163). -/
def Tgt.code : Tgt → Nat
  | .blk => 0 | .out => 1 | .pos => 2 | .neg => 3

/-- The bin of a capacitor voltage (R168). -/
def State.binOf (s : State) (a g : Nat) : Nat :=
  (clampI (floorShift ((s.ce g ceVcap : Int) - s.fld (SEL_ARM_BIN_BASE a)) (s.fld (SEL_ARM_BIN_SHIFT a))) 0 1023).toNat

/-- One cell of pass 1. -/
def State.classCell (s : State) (a g : Nat) : State :=
  let r := s.selRec g
  let x := s.selA a
  let prof := (s.cellCfg g).prof
  let dwell := min (r.dwell + 1) 65535
  let r := { r with dwell := dwell, bin := s.binOf a g }
  let fb := s.ceBit g ceFb
  if !s.ceBit g ceAvail then s.setSel g { r with cls := .none }
  else
    let x := { x with nfbx := x.nfbx + b2n (fb && !r.drain) }
    let low := if r.prev.ins then decide (dwell < s.fld (SEL_DWELL_ON_MIN prof))
      else decide (dwell < s.fld (SEL_DWELL_OFF_MIN prof))
    if low then
      let x := if r.prev = .pos then { x with fipos := x.fipos + 1 }
        else if r.prev = .neg then { x with fineg := x.fineg + 1 } else x
      (s.setSel g { r with cls := .locked }).setSelA a x
    else if r.drain then (s.setSel g { r with cls := .drain }).setSelA a x
    else
      let inc := fun m => mupd 0 m r.bin (· + 1)
      let x := if r.prev = .pos then { x with hpos := inc x.hpos } else { x with spos := inc x.spos }
      let x := if fb then
          (if r.prev = .neg then { x with hneg := inc x.hneg } else { x with sneg := inc x.sneg })
        else x
      (s.setSel g { r with cls := .free }).setSelA a x

/-- SELECTION_PASS_1 (R159, R168). -/
def selectionPass1 (s : State) : State :=
  let s := s.exclEval
  s.each s.arms fun s a =>
    let s := s.setFld (SEL_ARM_STAT_DRAIN a) (s.draining a)
    let x := s.selA a
    let s := s.setSelA a { x with hpos := [], spos := [], hneg := [], sneg := [], fipos := 0, fineg := 0, nfbx := 0 }
    let s := s.readEntries (s.armCells a)
    (s.armCells a).foldl (fun s g => s.classCell a g) s

/-! ### Threshold phase (R166, R167, R169) -/

/-- The predicted arm current (R166). -/
def State.ipred (s : State) (a : Nat) : Int :=
  let v := s.slot (s.fld (SEL_ARM_IPRED_SLOT a))
  if s.bit (SEL_ARM_IPRED_IPOL a) then -v else v

/-- Its sign outside the deadband (R167, R181). -/
def State.idir (s : State) (a : Nat) : Int :=
  let i := s.ipred a
  let db : Int := s.fld (SEL_ARM_IPRED_DB a)
  if db < i then 1 else if i < -db then -1 else 0

/-- The key of a bin: low voltages first or high voltages first. -/
def selKey (low : Bool) (b : Nat) : Nat := if low then b else 1023 - b

/-- Cells of a histogram with a key up to x. -/
def cumHist (low : Bool) (h : NMap Nat) (x : Int) : Nat :=
  h.foldl (fun n p => if (selKey low p.1 : Int) ≤ x then n + p.2 else n) 0

/-- The biased threshold: the smallest y, from a start, at which enough cells are reached (R169). -/
def biased (cs ch : Int → Nat) (band n : Nat) : Nat → Int → Int
  | 0, y => y
  | f + 1, y => if cs y + ch (y + band) < n then biased cs ch band n f (y + 1) else y

/-- `thr(H, k)` (R169). -/
def thrOf (c : Int → Nat) (k : Nat) : Int × Nat :=
  if k = 0 then (-1, 0)
  else
    let t := biased c (fun _ => 0) 0 k 1024 0
    (t, k - c (t - 1))

/-- The choice of an arm (R169): n_req, whether low voltages come first, the histograms and the locked cells. -/
def SelArm.threshold (x : SelArm) (nreq : Int) (low : Bool) (band quota : Nat) : SelArm :=
  let neg := decide (nreq < 0)
  let hh := if neg then x.hneg else x.hpos
  let hs := if neg then x.sneg else x.spos
  let n0 : Int := if neg then -nreq + x.fipos - x.fineg else nreq + x.fineg - x.fipos
  let ch := cumHist low hh
  let cs := cumHist low hs
  let h := ch 1023
  let sf := cs 1023
  let why := if n0 < 0 then 1 else if ((h + sf : Nat) : Int) < n0 then 2 else 0
  let n := min n0.toNat (h + sf)
  let x := { x with neg := neg, low := low, n := nreq, why := why }
  if n = 0 then { x with s := 0, sw := 0, thH := -1, rH := 0, thS := -1, rS := 0 }
  else
    let y := biased cs ch band n 2100 (-(band : Int))
    let r := n - cs (y - 1) - ch (y + band - 1)
    let th := ch (y + band) - ch (y + band - 1)
    let kb := ch (y + band - 1) + min r th
    let sv := min n h - kb
    let sw := min sv quota
    let kh := min n h - sw
    let (thH, rH) := thrOf ch kh
    let (thS, rS) := thrOf cs (n - kh)
    { x with s := sv, sw := sw, thH := thH, rH := rH, thS := thS, rS := rS }

/-- The pip cell leaves the histograms and counts (R169). -/
def State.dropPip (s : State) (a g : Nat) : State :=
  let r := s.selRec g
  let x := s.selA a
  let dec := fun m => mupd 0 m r.bin (· - 1)
  let x := match r.cls with
    | .free =>
      let x := if r.prev = .pos then { x with hpos := dec x.hpos } else { x with spos := dec x.spos }
      if s.ceBit g ceFb then
        (if r.prev = .neg then { x with hneg := dec x.hneg } else { x with sneg := dec x.sneg })
      else x
    | .locked => if r.prev = .pos then { x with fipos := x.fipos - 1 }
        else if r.prev = .neg then { x with fineg := x.fineg - 1 } else x
    | _ => x
  (s.setSel g { r with cls := .pip }).setSelA a x

/-- The arm is selected in this tick: RUNNING, and out of the planner's safe state (R171). -/
def State.selOn (s : State) (a : Nat) : Bool := s.op == 6 && (s.plnA a).act

/-- SELECTION_THRESHOLD (R166, R167, R169, R171). -/
def selectionThreshold (s : State) : State :=
  s.each s.arms fun s a =>
    if !s.selOn a then s
    else
      let p := s.plnA a
      let s := match p.pip with
        | some g => s.dropPip a g
        | none => s
      let s := s.pipeRead (slotWords [s.fld (SEL_ARM_IPRED_SLOT a)])
      let d := s.idir a
      let s := if d > 0 then s.setFld (SEL_ARM_STAT_CHARGE a) 1
        else if d < 0 then s.setFld (SEL_ARM_STAT_CHARGE a) 0 else s
      let n := clampI p.n (-1024) 1024
      let low := s.bit (SEL_ARM_STAT_CHARGE a) != decide (n < 0)
      s.setSelA a ((s.selA a).threshold n low (s.fld (SEL_ARM_BAND_BAND a)) (s.fld (SEL_ARM_BAND_QUOTA a)))

/-! ### Pass 2 (R170 to R174, R185) -/

/-- The state of a visit: holders and seekers taken at the threshold, last tie cell, ranks of up and down changes. -/
structure Visit where
  chN  : Nat := 0
  csN  : Nat := 0
  last : Option Nat := none
  up   : Nat := 0
  down : Nat := 0
deriving DecidableEq, Repr

/-- The target of one cell (R170). -/
def State.target (s : State) (a i g : Nat) (v : Visit) : Tgt × Visit :=
  let r := s.selRec g
  let x := s.selA a
  match r.cls with
  | .none => (.blk, v)
  | .pip => (match ((s.plnA a).edges.getLast?).map (·.2) with | some t => t | none => r.prev, v)
  | .locked => (r.prev, v)
  | .drain => (.out, v)
  | .free =>
    if x.neg && !s.ceBit g ceFb then (.out, v)
    else
      let p : Tgt := if x.neg then .neg else .pos
      let k : Int := selKey x.low r.bin
      if r.prev = p then
        if k < x.thH then (p, v)
        else if k = x.thH ∧ v.chN < x.rH then (p, { v with chN := v.chN + 1, last := some i })
        else (.out, v)
      else if k < x.thS then (p, v)
      else if k = x.thS ∧ v.csN < x.rS then (p, { v with csN := v.csN + 1, last := some i })
      else (.out, v)

/-- A target is given: dwell, the former target, and the rank of the change (R170, R185). -/
def State.giveTarget (s : State) (g : Nat) (t : Tgt) (pipEdge : Bool) (v : Visit) : State × Visit :=
  let r := s.selRec g
  let d := t.num - r.prev.num
  let quiet := r.cls == .pip || t == .blk
  let (rank, v) :=
    if quiet then (0, v)
    else if 0 < d then (v.up, { v with up := v.up + 1 })
    else if d < 0 then (v.down, { v with down := v.down + 1 })
    else (0, v)
  (s.setSel g { r with was := r.prev, prev := t, tgt := t, rank := rank,
                       dwell := if t != r.prev || pipEdge then 0 else r.dwell }, v)

/-- One arm of pass 2 with the planner enabled. -/
def State.pass2Arm (s : State) (a : Nat) : State :=
  let l := s.armCells a
  let nc := l.length
  let ptr := s.fld (SEL_ARM_PTR_PTR a)
  let p := s.plnA a
  let (s, v) := (upto nc).foldl (fun (q : State × Visit) j =>
    let i := (ptr + j) % nc
    let g := l.getD i 0
    let (t, v) := q.1.target a i g q.2
    q.1.giveTarget g t (p.pip == some g && !p.edges.isEmpty) v) (s, {})
  let s := match v.last with
    | some i => s.setFld (SEL_ARM_PTR_PTR a) ((i + 1) % nc)
    | none => s
  let x := s.selA a
  let nach : Int := l.foldl (fun n g => if p.pip = some g then n else n + (s.selRec g).tgt.num) 0
  let short := nach != x.n
  let qlim := decide (x.sw < x.s)
  let s := (((s.setFld (SEL_ARM_STAT_NEG a) (b2n x.neg)).setFld (SEL_ARM_STAT_QLIM a) (b2n qlim)).setFld
    (SEL_ARM_STAT_SHORT a) (b2n short)).setSelA a { x with shortRun := short }
  let s := s.count (SEL_ARM_CNT_SWAPS a) SEL_CNT_OVF (3 * a) x.sw
  let s := if qlim then (s.count (SEL_ARM_CNT_QLIM a) SEL_CNT_OVF (3 * a + 1) 1).flag (SEL_ARM_STAT_QLIM_SEEN a) else s
  let s := if short then (s.count (SEL_ARM_CNT_SHORT a) SEL_CNT_OVF (3 * a + 2) 1).flag (SEL_ARM_STAT_SHORT_SEEN a)
    else s
  let s := s.sendIf (short && !x.shortRun) (0x2A0 + a) (if x.why = 1 then 0x16 else 0x17)
    (wrap x.n 12 * 2 ^ 20 + wrap nach 12 * 2 ^ 8 + x.why * 2 ^ 6)
  let fl := b2n x.low + 2 * b2n x.neg + 4 * b2n qlim + 8 * b2n (x.why == 1) + 16 * b2n (x.why == 2)
    + 32 * s.fld (SEL_ARM_STAT_CHARGE a)
  let b := 0x1E0 + 4 * a
  (((s.setSlot b nach).setSlot (b + 1) (x.n - nach)).setSlot (b + 2) x.sw).setSlot (b + 3) fl

/-- One arm of pass 2 outside RUNNING or with the planner disabled (R171, R174). -/
def State.pass2Block (s : State) (a : Nat) : State :=
  let s := (s.armCells a).foldl (fun s g => (s.giveTarget g .blk false {}).1) s
  let s := s.setSelA a { s.selA a with shortRun := false }
  let s := ((s.setFld (SEL_ARM_STAT_QLIM a) 0).setFld (SEL_ARM_STAT_SHORT a) 0).setFld (SEL_ARM_STAT_NEG a)
    (b2n (decide ((s.plnA a).n < 0)))
  let b := 0x1E0 + 4 * a
  (((s.setSlot b 0).setSlot (b + 1) 0).setSlot (b + 2) 0).setSlot (b + 3)
    (2 * s.fld (SEL_ARM_STAT_NEG a) + 32 * s.fld (SEL_ARM_STAT_CHARGE a) : Nat)

/-- SELECTION_PASS_2: from the engine's own record, which pass 1 read (R155). -/
def selectionPass2 (s : State) : State := s.each s.arms fun s a => if s.selOn a then s.pass2Arm a else s.pass2Block a

/-! ### Set-up and function reset (R164, R175) -/

/-- The pointer seed of R164 and R180. -/
def State.seed (s : State) (k a : Nat) : Nat :=
  let sn := s.fld SEC_SN_HI * 2 ^ 32 + s.fld SEC_SN_LO
  let x := BitVec.ofNat 16 (sn / 2 ^ 48) ^^^ BitVec.ofNat 16 (sn / 2 ^ 32) ^^^ BitVec.ofNat 16 (sn / 2 ^ 16)
    ^^^ BitVec.ofNat 16 sn ^^^ BitVec.ofNat 16 (k * (a + 1))
  x.toNat * (s.armCells a).length / 65536

/-- The tie pointers are seeded and CHARGE set (R164, R175). -/
def State.selSeed (s : State) : State :=
  s.each (upto 6) fun s a =>
    ((s.setFld (SEL_ARM_PTR_PTR a) (s.seed 0x9E37 a)).setFld (SEL_ARM_PTR_NCONF a) (s.armCells a).length).setFld
      (SEL_ARM_STAT_CHARGE a) 1

/-- Entry to PARKED from VERIFY (R164). -/
def State.selSetup (s : State) : State :=
  ({ s with sel := s.confCells.foldl (fun m g => mset selReset m g { dwell := 65535 }) [],
            selArm := [], excl := [] }).selSeed.exclPending

/-- Function reset of the selection engine (R175). -/
def State.selFreset (s : State) : State :=
  ({ s with sel := [], selArm := [], excl := [] }).selSeed.exclPending

def execSelectionPass1 (s : State) : Host.Outcome State Fault Refusal := .next (s.inPhase selectionPass1)
def execSelectionThreshold (s : State) : Host.Outcome State Fault Refusal := .next (s.inPhase selectionThreshold)
def execSelectionPass2 (s : State) : Host.Outcome State Fault Refusal := .next (s.inPhase selectionPass2)
def execExclDenied (g : Fin 4096) (s : State) : Host.Outcome State Fault Refusal := .next (exclDenied s g)

/-- A write of `SEL_EXCL_REQ` by a master: a mirrored request (R295). -/
def exclWrite (s : State) (m : Master) (g act : Nat) : State :=
  s.unlessHold fun s => s.mirrored m 3 (g + act * 2 ^ 12) fun s => exclRequest s g act

def execExclude (m : Master) (g : Fin 4096) (s : State) : Host.Outcome State Fault Refusal :=
  .next (exclWrite s m g 0)
def execReadmit (m : Master) (g : Fin 4096) (s : State) : Host.Outcome State Fault Refusal :=
  .next (exclWrite s m g 1)
def execExcludeForSelftest (m : Master) (g : Fin 4096) (s : State) : Host.Outcome State Fault Refusal :=
  .next (exclWrite s m g 2)

end Sys2Proof.Machine
end

