-- ==== Sys2Proof/Machine/Planner.lean ====
section
/-! DEFINITION. The level and edge planner (chapter 7). -/
namespace Sys2Proof.Machine
open Sys2Proof

/-- T_MINP and T_DEAD of a cell's profile in ns (R181). -/
def State.profWord (s : State) (g a : Nat) : Nat := mget 0 s.ld.img.profs (256 * (s.cellCfg g).prof + a)
def State.tmin (s : State) (g : Nat) : Int := 10 * s.profWord g 3
def State.tdead (s : State) (g : Nat) : Int := 10 * s.profWord g 2

/-- The registers that show an arm's pip state and balance. -/
def State.showArm (s : State) (a : Nat) : State :=
  let p := s.plnA a
  ((((s.setFld (PLN_ARM_PIP_PIPG a) (p.pip.getD 0)).setFld (PLN_ARM_PIP_VALID a) (b2n p.pip.isSome)).setFld
    (PLN_ARM_PIP_PS a) (b2n p.ps)).setFld (PLN_ARM_PIP_TL a) p.tl).setFld (PLN_ARM_BAL a) (wrap p.bal 32)

/-- The safe state of an arm (R177). -/
def PlnArm.safe (p : PlnArm) : PlnArm :=
  { plnArmReset with pptr := p.pptr, nprev := p.nprev }

/-- The status slots of an arm in the safe state (R187). -/
def State.planSafe (s : State) (a : Nat) : State :=
  let s := (s.setPlnA a (s.plnA a).safe).showArm a
  let s := [PLN_ARM_OUT_N a, PLN_ARM_OUT_WNS a, PLN_ARM_OUT_LIM a, PLN_ARM_OUT_DVLIM a, PLN_ARM_OUT_NOPIP a,
    PLN_ARM_OUT_BSAT a].foldl (fun s f => s.setFld f 0) s
  let b := 0x1B0 + 8 * a
  (((((((s.setSlot b 0).setSlot (b + 1) 0).setSlot (b + 2) 0).setSlot (b + 3) (-1)).setSlot (b + 4) 0).setSlot
    (b + 5) 0).setSlot (b + 6) (s.selA a).nfbx).setSlot (b + 7) 0

/-- The pip cell that R180 steps 3 and 4 choose, visiting from the pip pointer: its local index, the cell, and whether
it stands in the other state. -/
def State.pipPick (s : State) (a : Nat) : Option (Nat × Nat × Bool) :=
  let l := s.armCells a
  let nc := l.length
  let p := s.plnA a
  let order := (upto nc).map fun j => let i := (p.pptr + j) % nc; (i, l.getD i 0)
  let free := order.filter fun q => p.pip != some q.2 && (s.selRec q.2).cls == .free
  let fits := fun (t : Tgt) => if p.ps then t == .pos else t == .out || t == .blk
  match free.find? fun q => fits (s.selRec q.2).prev with
  | some q => some (q.1, q.2, false)
  | none => (free.find? fun q => (s.selRec q.2).prev != .neg).map fun q => (q.1, q.2, true)

/-- The role decision of R180: the state, and whether the role moved. -/
def State.pipDecide (s : State) (a : Nat) : State × Bool :=
  let p := s.plnA a
  let forced := match p.pip with
    | none => true
    | some g => !s.ceBit g ceAvail || (s.selRec g).drain
  let rot := s.fld PLN_PIP_CFG_ROT
  let rotate := decide (rot ≠ 0 ∧ rot ≤ p.rc)
  if !(forced || rotate) then (s, false)
  else match s.pipPick a with
  | some (i, g, miss) =>
    let p := { p with pip := some g, pptr := (i + 1) % (s.armCells a).length, rc := 0,
                      ps := (s.selRec g).prev == .pos, tl := (s.tmin g).toNat }
    let s := (s.setPlnA a p).count (PLN_ARM_CNT_ROT a) PLN_CNT_OVF (5 * a + 4) 1
    (if miss then s.flag (PLN_ARM_STAT_ROT_MISS a) else s, true)
  | none => (if forced then s.setPlnA a { p with pip := none } else s, false)

/-- What R179 computes for an arm. -/
structure Level where
  n     : Int
  nreq  : Int
  wq    : Int
  lim   : Bool
  dvlim : Bool
  novm  : Bool
deriving DecidableEq, Repr

/-- Count and pip demand (R179): `mq` from the pattern generator, or the reference with VMEAN and the pip's VCAP. -/
def planLevel (src : Bool) (mq vref vm vp nav nfbx dn nprev : Int) (first pip : Bool) : Level :=
  let novm := !src && vm == 0
  let n := if src then floorShift mq 8 else if vm = 0 then 0 else vref / vm
  let wq := if src then (mq - 256 * n) * 1000
    else if vm = 0 then 0 else min ((vref - n * vm) * 256000 / max vp 1) 256000
  let nreq := n
  let up := !first && decide (nprev + dn < n)
  let down := !first && decide (n < nprev - dn)
  let (n, wq) := if up then (nprev + dn, 256000) else if down then (nprev - dn, 0) else (n, wq)
  let nhi := if pip then nav - 1 else nav
  let hi := decide (nhi < n)
  let (n, wq) := if hi then (nhi, 256000) else (n, wq)
  let lo := decide (n < -nfbx)
  let (n, wq) := if lo then (-nfbx, 0) else (n, wq)
  { n := n, nreq := nreq, wq := if pip then wq else 0, lim := hi || lo, dvlim := up || down, novm := novm }

/-- The pip computation of R181 in progress. -/
structure Pip where
  o    : Int
  last : Int
  x    : Int
  ps   : Bool
  held : Bool
  edges : List (Nat × Tgt)
deriving DecidableEq, Repr

/-- `cdiv(p, q)`, q > 0. -/
def cdiv (p q : Int) : Int := -((-p) / q)

/-- The parameters of R181. -/
structure PipPar where
  tmin : Int
  td   : Int
  hq   : Int
  wq   : Int
  ext  : Bool
  dtc  : Bool
  idir : Int
deriving DecidableEq, Repr

/-- The loop of R181. -/
def pipLoop (c : PipPar) : Nat → Pip → Pip
  | 0, p => p
  | f + 1, p =>
    let thon := if c.ext then c.hq else max c.hq (cdiv (c.tmin * (256000 - c.wq)) 1000 - c.hq)
    let thoff := if c.ext then c.hq else max c.hq (cdiv (c.tmin * c.wq) 1000 - c.hq)
    let d : Option Int :=
      if !p.ps then
        if thon ≤ p.o then some 0 else if c.wq = 0 then none else some (cdiv ((thon - p.o) * 1000) c.wq)
      else if p.o ≤ -thoff then some 0
      else if c.wq = 256000 then none else some (cdiv ((p.o + thoff) * 1000) (256000 - c.wq))
    match d with
    | none => p
    | some d =>
      let p := { p with held := p.held || decide (p.x + d < p.last + c.tmin) }
      let e := max (p.x + d) (p.last + c.tmin)
      if 999 < e then p
      else
        let k : Int := if p.ps then 256000 else 0
        let o := p.o + (c.wq - k) * (e - p.x) / 1000
        let o := if c.dtc && !p.ps && decide (c.idir < 0) then o + 256 * c.td else o
        let o := if c.dtc && p.ps && decide (0 < c.idir) then o - 256 * c.td else o
        pipLoop c f { p with o := o, last := e, x := e, ps := !p.ps,
                             edges := p.edges ++ [(e.toNat, if p.ps then .out else .pos)] }

/-- The pip edges of a tick (R181): the arm's state after it, whether an edge was held, and the clamps of the
balance: 0 none, 1 upward, -1 downward. DESIGN CHOICE (log 126): BAL_SAT has one sign (R187); where the shortfall and the final
balance are both clamped in a tick it is the final one's. -/
def PlnArm.pipEdges (p : PlnArm) (c : PipPar) (ndiff emax : Int) (blk : Bool) : PlnArm × Bool × Int :=
  let o0 := p.bal + ndiff * 256000
  let o := clampI o0 (-emax) emax
  let q : Pip := { o := o, last := -(p.tl : Int), x := 0, ps := p.ps, held := false, edges := [] }
  let q := if blk then { q with ps := false, last := 0, edges := [(0, .out)] } else q
  let q := pipLoop c (if blk then 1 else 2) q
  let k : Int := if q.ps then 256000 else 0
  let o1 := q.o + (c.wq - k) * (1000 - q.x) / 1000
  let b := clampI o1 (-emax) emax
  let cl : Int := if o1 < b then -1 else if b < o1 then 1 else if o0 < o then -1 else if o < o0 then 1 else 0
  ({ p with bal := b, ps := q.ps, tl := usat (1000 - q.last) 16, edges := q.edges }, q.held, cl)

/-- A flagged condition of an arm: its sticky flag, its counter where it has one. -/
def State.planFlag (s : State) (on : Bool) (f : Fld) : State := if on then s.flag f else s

/-- One arm out of the safe state (R178 to R187). -/
def State.planArm (s : State) (a : Nat) : State :=
  let was := s.plnA a
  let s := s.setPlnA a { was with act := true, edges := [] }
  let (s, moved) := s.pipDecide a
  let p := s.plnA a
  let s := s.pipeRead (slotWords [s.fld (PLN_ARM_REF_SLOT a), 0x181 + 8 * a, 0x185 + 8 * a, 0x1E1 + 4 * a,
    s.fld (SEL_ARM_IPRED_SLOT a)])
  let s := match p.pip with | some g => s.readEntries [g] | none => s
  let src := s.bit (PLN_ARM_REF_SRC a)
  let mq := if p.pc < s.fld PLN_PAT_ACT_DUTY then s.pat.hi else s.pat.lo
  let nav := s.navail a
  let vp : Int := match p.pip with | some g => s.ce g ceVcap | none => 0
  let nfbx := (s.selA a).nfbx - (match p.pip with
    | some g => b2n (s.ceBit g ceFb && s.ceBit g ceAvail && !(s.selRec g).drain) | none => 0)
  let r := planLevel src mq (s.slot (s.fld (PLN_ARM_REF_SLOT a))) (s.slot (0x180 + 8 * a + 5)) vp nav nfbx
    (s.fld (PLN_ARM_LIM_DN_MAX a)) p.nprev p.first p.pip.isSome
  let p := { p with nprev := r.n, first := false, n := r.n, wq := r.wq, rc := min (p.rc + 1) 65535,
                    pc := (p.pc + 1) % max (s.fld PLN_PAT_ACT_PER) 1 }
  let (p, held, cl) := match p.pip with
    | some g =>
      p.pipEdges { tmin := s.tmin g, td := s.tdead g, hq := 2560 * s.fld PLN_PIP_CFG_BAND, wq := r.wq,
                   ext := s.bit PLN_PIP_CFG_MODE, dtc := s.bit PLN_PIP_CFG_DTC, idir := s.idir a }
        (s.slot (0x1E0 + 4 * a + 1)) (256000 * s.fld (PLN_ARM_LIM_EMAX a)) ((s.selRec g).prev == Tgt.blk)
    | none => (p, false, 0)
  let nopip := p.pip.isNone
  let bsat := cl != 0
  let p := { p with limRun := r.lim, noPipRun := nopip, bsatRun := bsat, noVmRun := r.novm }
  let s := (s.setPlnA a p).showArm a
  let c := fun (s : State) (on : Bool) (f : Fld) (i k : Nat) => if on then s.count f PLN_CNT_OVF (5 * a + i) k else s
  let s := c s r.lim (PLN_ARM_CNT_LIM a) 0 1
  let s := c s r.dvlim (PLN_ARM_CNT_DVLIM a) 1 1
  let s := c s (!p.edges.isEmpty) (PLN_ARM_CNT_EDGE a) 2 p.edges.length
  let s := c s held (PLN_ARM_CNT_HELD a) 3 1
  let s := (((s.planFlag r.lim (PLN_ARM_STAT_LIM_SEEN a)).planFlag r.dvlim (PLN_ARM_STAT_DVLIM_SEEN a)).planFlag nopip
    (PLN_ARM_STAT_NOPIP_SEEN a)).planFlag bsat (PLN_ARM_STAT_BSAT_SEEN a)
  let s := (((((s.setFld (PLN_ARM_OUT_N a) (wrap r.n 12)).setFld (PLN_ARM_OUT_WNS a)
    (roundShift r.wq 8).toNat).setFld (PLN_ARM_OUT_LIM a) (b2n r.lim)).setFld (PLN_ARM_OUT_DVLIM a)
    (b2n r.dvlim)).setFld (PLN_ARM_OUT_NOPIP a) (b2n nopip)).setFld (PLN_ARM_OUT_BSAT a) (b2n bsat)
  let src0 := 0x280 + a
  let s := s.sendIf (r.lim && !was.limRun) src0 0x10 (wrap r.nreq 12 * 2 ^ 20 + wrap r.n 12 * 2 ^ 8)
  let s := s.sendIf (nopip && !was.noPipRun) src0 0x11 (wrap nav 11 * 2 ^ 21)
  let s := s.sendIf (bsat && !was.bsatRun) src0 0x12 (if cl < 0 then 2 ^ 31 else 0)
  let s := s.sendIf (r.novm && !was.noVmRun) src0 0x13 0
  let fl := b2n r.lim + 2 * b2n r.dvlim + 4 * b2n nopip + 8 * b2n bsat + 16 * b2n r.novm + 32 * b2n p.ps
    + 64 * b2n (!p.edges.isEmpty) + 128 * b2n moved
  let b := 0x1B0 + 8 * a
  let pg : Int := match p.pip with | some g => g | none => -1
  (((((((s.setSlot b r.n).setSlot (b + 1) r.wq).setSlot (b + 2) p.bal).setSlot (b + 3) pg).setSlot (b + 4) fl).setSlot
    (b + 5) r.nreq).setSlot (b + 6) nfbx).setSlot (b + 7) 0

/-- PLANNER_PHASE (R177, R190). -/
def plannerPhase (s : State) : State :=
  if s.op = 6 ∧ s.bit PLN_CTRL_EN then s.each s.arms State.planArm
  else
    let s := s.each s.arms State.planSafe
    if s.op = 6 then
      let s := (s.flag PLN_STAT_OFF_SEEN).send 0x288 0x14 0
      (s.sumpBlock 0x288).joinPln
    else s

/-- A request for a pattern commit (R188). -/
def patternRequest (s : State) : State := s.unlessHold (·.flag PLN_STAT_COMMIT_PEND)

/-- The commit at cycle 0 (R188, R189). -/
def patternCommit (s : State) : State :=
  if !s.bit PLN_STAT_COMMIT_PEND then s
  else
    let per := s.fld PLN_PAT_PER_PER
    let duty := s.fld PLN_PAT_DUTY_DUTY
    let pw := s.pat.perW
    let dw := s.pat.dutyW
    let half := pw != dw
    let per' := if half && dw then s.fld PLN_PAT_ACT_PER else per
    let duty' := if half then min (if pw then s.fld PLN_PAT_ACT_DUTY else duty) per'
      else if pw then min duty per' else duty
    let s := (s.setFld PLN_PAT_ACT_PER per').setFld PLN_PAT_ACT_DUTY duty'
    let s := if half then (s.flag PLN_STAT_PAIR_WARN).send 0x288 0x15 0 else s
    let s := if pw && dw && decide (per' < duty) then s.flag PLN_STAT_DUTY_CLAMP else s
    let s := s.setFld PLN_STAT_COMMIT_PEND 0
    let s := { s with pat := { perW := false, dutyW := false,
                               lo := sext (s.fld PLN_PAT_LO_LVL) 20, hi := sext (s.fld PLN_PAT_HI_LVL) 20 } }
    { s with pln := s.pln.map fun q => (q.1, { q.2 with pc := 0 }) }

/-- The pip pointers are seeded (R180). -/
def State.pipSeed (s : State) : State :=
  s.each (upto 6) fun s a => s.setPlnA a { s.plnA a with pptr := s.seed 0x7F4A a }

/-- Function reset of the planner (R191). -/
def State.plnFreset (s : State) : State :=
  let s := { s with pln := [], pat := { s.pat with perW := false, dutyW := false } }
  (s.setFld PLN_STAT_COMMIT_PEND 0).pipSeed.each (upto 6) State.showArm

/-- A record for the 6-tick log (R302), kept on a paired unit. -/
def State.logInputs (s : State) : State :=
  if !s.bit RED_CFG_PAIR then s
  else
    let l := (⟨s.now, s.mem.bytes, s.regs, s.eng.reads, s.red.applied⟩ :: s.red.log).take 6
    { s with red := { s.red with log := l, applied := [] } }

def execPlannerPhase (s : State) : Host.Outcome State Fault Refusal :=
  .next (s.inPhase fun s => plannerPhase s.logInputs)

/-- PATTERN_COMMIT_REQUEST: a write of GO = 1 to `PLN_COMMIT`, a mirrored request (R188, R295). -/
def execPatternCommitRequest (m : Master) (s : State) : Host.Outcome State Fault Refusal :=
  .next (s.mirrored m 5 (4 * 2 ^ 32 + 1) patternRequest)

end Sys2Proof.Machine
end

