-- ==== Sys2Proof/Machine/Composer.lean ====
section
/-! DEFINITION. The command composer and the telemetry unpacker (chapters 4 and 5): management items, profile
downloads, self-test scheduling, command words, frames and the command digest. -/
namespace Sys2Proof.Machine
open Sys2Proof

/-! ### The queue of requested items (R110 to R112, R124, R125) -/

/-- `CMP_AUX_STAT.LEVEL` and FULL. -/
def State.auxLevel (s : State) : State :=
  let n := s.cmp.queue.length
  (s.setFld CMP_AUX_STAT_LEVEL n).setFld CMP_AUX_STAT_FULL (b2n (n ≥ 32))

/-- WRITE and ENABLE requests need an excluded cell whose last report shows BLOCK (R112). -/
def State.itemOk (s : State) (g code : Nat) : Bool :=
  !(code == 2 || code == 3) || (s.ceBit g ceExcl && s.ce g ceState == 0)

/-- A write to `CMP_AUX_REQ` (R110, R112, R124). DESIGN CHOICE (log 103): a request that finds the queue full sets DROP
and sends AUX_FULL, whatever the check of R112 would say. -/
def auxRequest (s : State) (g code data : Nat) : State :=
  if !s.isConf g || !(code == 1 || code == 2 || code == 3 || code == 7) then
    (s.flag CMP_AUX_STAT_REJ).send 0x2C0 0x1A 0
  else if s.cmp.queue.length ≥ 32 then (s.flag CMP_AUX_STAT_DROP).send 0x2C0 0x1B 0
  else if !s.itemOk g code then s.flag CMP_AUX_STAT_REJ
  else
    let q : QItem := ⟨s.cmp.nextId, g, code, data⟩
    ({ s with cmp := { s.cmp with queue := s.cmp.queue ++ [q], nextId := s.cmp.nextId + 1 } }).auxLevel

/-- A write of `CMP_AUX_REQ` by a master: a mirrored request (R295). -/
def auxWrite (s : State) (m : Master) (g code data : Nat) : State :=
  s.unlessHold fun s => s.mirrored m 2 (g + code * 2 ^ 12 + data * 2 ^ 16) fun s => auxRequest s g code data

def execAuxReqSetAddr (m : Master) (g : Fin 4096) (data : BitVec 16) (s : State) :
    Host.Outcome State Fault Refusal := .next (auxWrite s m g 1 data.toNat)
def execAuxReqWrite (m : Master) (g : Fin 4096) (data : BitVec 16) (s : State) :
    Host.Outcome State Fault Refusal := .next (auxWrite s m g 2 data.toNat)
def execAuxReqEnable (m : Master) (g : Fin 4096) (data : BitVec 16) (s : State) :
    Host.Outcome State Fault Refusal := .next (auxWrite s m g 3 data.toNat)
def execAuxReqCloseBypass (m : Master) (g : Fin 4096) (data : BitVec 16) (s : State) :
    Host.Outcome State Fault Refusal := .next (auxWrite s m g 7 data.toNat)

/-- A queued item leaves the queue. -/
def State.unqueue (s : State) (id : Nat) : State :=
  ({ s with cmp := { s.cmp with queue := s.cmp.queue.filter fun q => q.id != id } }).auxLevel

/-! ### Self-test scheduling (R151) -/

/-- The test of a cell ends, with a result: 0 none, 1 pass, 2 fail, 3 timed out. DESIGN CHOICE (log 124): a test that timed
out counts as completed for CMP_STEST_STAT.LAST. -/
def State.stestDone (s : State) (g res : Nat) : State :=
  let s := s.setCc g { s.cc g with stest := 0 }
  let s := match s.armOf g with
    | some a => s.unflagBit CMP_STEST_STAT_ACTIVE a
    | none => s
  let s := if res = 0 then s else s.setFld CMP_STEST_STAT_LAST g
  let cnt := fun (s : State) (c f : Fld) =>
    if s.fld c = 65535 then s.flag f else s.setFld c (s.fld c + 1)
  if res = 1 then exclRequest (cnt s CMP_STEST_CNT_PASS CMP_STEST_STAT_PASS_OVF) g 1
  else if res = 2 then (cnt s CMP_STEST_CNT_FAIL CMP_STEST_STAT_FAIL_OVF).flag CMP_STEST_STAT_FAIL
  else if res = 3 then
    ((cnt s CMP_STEST_CNT_FAIL CMP_STEST_STAT_FAIL_OVF).flag CMP_STEST_STAT_TIMEOUT).send 0x2C0 0x1D (g * 2 ^ 20)
  else s

/-- The progress of a cell's test with a new report (R151, steps 3 to 5). -/
def State.stestReport (s : State) (g : Nat) : State :=
  let x := s.cc g
  let st := s.ce g ceState
  let fc := s.ce g ceFcode
  if x.stest = 1 then
    if s.ceBit g ceExcl && s.ceBit g ceStest then
      (if st = 0 then s.setCc g { x with stest := 2 } else s)
    else if !(s.selRec g).drain && !(s.excl.any fun r => r.cell == g) then s.stestDone g 0
    else s
  else if x.stest = 3 ∧ st = 9 then s.setCc g { x with stest := 4 }
  else if (x.stest = 3 ∨ x.stest = 4) ∧ st ≠ 9 ∧ 1 ≤ fc ∧ fc ≤ 0x19 then s.stestDone g 2
  else if x.stest = 4 ∧ st = 0 ∧ fc = 0 then s.stestDone g 1
  else s

/-- SELFTEST_PERIOD (R151): the next available cell of the arm after the last one tested. -/
def selftestPeriod (s : State) (a : Nat) : State :=
  let last := mget 0 s.cmp.stestNext a
  if !(s.op == 4 || s.op == 5 || s.op == 6) || !s.bit CMP_STEST_CFG_EN
      || s.now < last + s.fld CMP_STEST_CFG_PERIOD * 1000000 then s
  else
    let s := { s with cmp := { s.cmp with stestNext := mput s.cmp.stestNext a s.now } }
    if tbit (s.fld CMP_STEST_STAT_ACTIVE) a then s
    else
      let l := s.armCells a
      let lastG := mget 0 s.cmp.stestLast a
      let order := (l.filter fun g => lastG ≤ g) ++ l.filter fun g => g < lastG
      match order.find? fun g => s.ceBit g ceAvail with
      | none => s
      | some g =>
        let s := { s with cmp := { s.cmp with stestLast := mput s.cmp.stestLast a (g + 1) } }
        let s := s.setCc g { s.cc g with stest := 1, stestAt := s.now }
        exclRequest (s.flagBit CMP_STEST_STAT_ACTIVE a) g 2

/-- STEST_TIMEOUT (R151): no end of the test within 48 ticks of the confirmation of its item. -/
def stestTimeout (s : State) (g : Nat) : State :=
  let x := s.cc g
  if (x.stest = 3 ∨ x.stest = 4) ∧ x.stestAt + 48 ≤ s.now then s.stestDone g 3 else s

def execSelftestPeriod (arm : Fin 6) (s : State) : Host.Outcome State Fault Refusal := .next (selftestPeriod s arm)
def execStestTimeout (g : Fin 4096) (s : State) : Host.Outcome State Fault Refusal := .next (stestTimeout s g)

/-! ### Confirmation, rejection and time-out of items (R111, R112, R118, R138) -/

/-- The addresses of a profile download in order (R138). -/
def profAddrs : List Nat := settingAddrs

/-- Item k of a profile download of a cell: code, data, and whether it carries a valid DMEAS (R138). -/
def State.profItem (s : State) (g k : Nat) : Nat × Nat × Bool :=
  if k < 28 then
    let a := profAddrs.getD (k / 2) 0
    if k % 2 = 0 then (1, a, false) else (2, s.profWord g a, false)
  else if k = 28 then (1, 0xFF, false)
  else if k = 29 then (2, 0xA5, false)
  else if k = 30 then
    if s.ceBit g ceDmv then (4, s.ce g ceDmeas, true) else (4, 0, false)
  else (3, 1, false)

/-- A profile download attempt has failed (R138). -/
def State.profFailed (s : State) (g : Nat) : State :=
  let x := s.cc g
  if x.tries + 1 ≥ 3 then
    ((s.setCc g { x with prof := none, tries := 0 }).flag CMP_PROF_STAT_FAIL).send 0x2C0 0x1C
      (g * 2 ^ 20)
  else s.setCc g { x with prof := some 0, tries := x.tries + 1 }

/-- An item is confirmed. -/
def State.itemDone (s : State) (g : Nat) (i : ItemRun) : State :=
  let s := s.setCc g { s.cc g with cur := none }
  let s := if i.code = 4 then
      let s := s.setCe g ceDcomp i.data
      if i.dmv then s.setCe g ceDlyOk 1 else s
    else s
  match i.src with
  | .host => s.unqueue i.id
  | .prof =>
    let x := s.cc g
    match x.prof with
    | some k =>
      if k + 1 < 32 then s.setCc g { x with prof := some (k + 1) }
      else (s.setCc g { x with prof := none, profOk := true, tries := 0 }).profPending
    | none => s
  | .own => if i.code = 6 then s.setCc g { s.cc g with stest := 3, stestAt := s.now } else s

/-- An item is dropped, rejected or timed out. -/
def State.itemDrop (s : State) (g : Nat) (i : ItemRun) (rej : Bool) : State :=
  let s := s.setCc g { s.cc g with cur := none }
  let s := if rej then s.flag CMP_AUX_STAT_REJ else s
  let s := s.send (0x102 + 4 * (g / 128)) (if rej then 0x24 else 0x25) (g * 2 ^ 20)
  match i.src with
  | .host => s.unqueue i.id
  | .prof => s.profFailed g
  | .own => if i.code = 6 then s.stestDone g 0 else s

/-- Confirmation of a word of the clear sequence (R112): DATA = 0 until two consecutive execution ticks are
confirmed, then DATA = 1. -/
def State.clearStep (s : State) (g : Nat) (i : ItemRun) (x : Nat) : State :=
  if i.phase = 1 then
    let z := x :: i.zeros
    if i.zeros.contains (x - 1) || i.zeros.contains (x + 1) then
      s.setCc g { s.cc g with cur := some { i with phase := 2, data := 1, sent := [], zeros := [] } }
    else s.setCc g { s.cc g with cur := some { i with zeros := z } }
  else s.itemDone g i

/-- A cell rejected the word that carried an item (R111). -/
def State.itemRejected (s : State) (g : Nat) : State :=
  (s.flag CMP_AUX_STAT_REJ).send (0x102 + 4 * (g / 128)) 0x24 (g * 2 ^ 20)

/-- A report of a cell is held against the PROBE sent last and the compensation of R308, which are not repeated, and
against the item in progress (R111). -/
def State.itemReport (s : State) (g seqe flags : Nat) : State :=
  let clean := flags % 4 == 0
  let s := match (s.cc g).probe with
    | some x =>
      if x % 256 = seqe then
        let s := s.setCc g { s.cc g with probe := none }
        if tbit flags 1 then s.itemRejected g else s
      else s
    | none => s
  let s := match (s.cc g).adopt with
    | some (v, some x) =>
      if x % 256 = seqe then
        let s := s.setCc g { s.cc g with adopt := none }
        if tbit flags 1 then s.itemRejected g
        else if clean then (s.setCe g ceDcomp v).setCe g ceDlyOk 1 else s
      else if x + 8 < s.now then s.setCc g { s.cc g with adopt := none }
      else s
    | _ => s
  match (s.cc g).cur with
  | none => s
  | some i =>
    match i.sent.find? fun x => x % 256 == seqe with
    | none => s
    | some x =>
      if tbit flags 1 then s.itemDrop g i true
      else if !clean then s
      else if i.code = 3 ∧ i.src = .host then s.clearStep g i x
      else s.itemDone g i

/-- A PROBE that is unconfirmed 64 ticks after its word is dropped (R111). -/
def State.probeTimeout (s : State) (g : Nat) : State :=
  match (s.cc g).probe with
  | some x =>
    if x + 62 ≤ s.now then (s.setCc g { s.cc g with probe := none }).send (0x102 + 4 * (g / 128)) 0x25 (g * 2 ^ 20) else s
  | none => s

/-- AUX_TIMEOUT (R111, R112): an item is unconfirmed 64 ticks after its first word. -/
def auxTimeout (s : State) (g : Nat) : State :=
  let s := s.probeTimeout g
  match (s.cc g).cur with
  | some i =>
    match i.sent.getLast? with
    | some x => if x + 62 ≤ s.now then s.itemDrop g i false else s
    | none => s
  | none => s

def execAuxTimeout (g : Fin 4096) (s : State) : Host.Outcome State Fault Refusal := .next (auxTimeout s g)

/-! ### Unpacking (R121 to R123) -/

/-- A STATE code that a cell may send (R114). -/
def stateCodeOk (st : Nat) : Bool := decide (st ≤ 4) || (decide (8 ≤ st ∧ st ≤ 0xA))

/-- Ages an entry by a tick. -/
def State.ageCell (s : State) (g : Nat) : State := s.setCe g ceAge (min (s.ce g ceAge + 1) 255)

/-- The accepted report of a cell (the last case of R122). -/
def State.unpackWord (s : State) (g j : Nat) (w : Nat) : State :=
  let src := 0x102 + 4 * (g / 128)
  let fc := bitsOf w 26 21
  let st := bitsOf w 7 4
  let flags := bitsOf w 3 0
  let seqe := bitsOf w 34 27
  let oldF := s.ce g ceFcode
  let oldS := s.ce g ceState
  let err := !tbit flags 0 && seqe != (j + 255) % 256
  let s := (((((((s.setCe g ceVcap (bitsOf w 56 43)).setCe g ceTemp (bitsOf w 42 35)).setCe g ceFcode fc).setCe g
    ceGsup (bitsOf w 20 16)).setCe g ceState st).setCe g ceFlags flags).setCe g ceSeqe seqe)
  let s := (s.setCe g ceAge 0).setCe g ceSeqErr (b2n err)
  let s := s.sendIf (fc != oldF && fc != 0) src 0x1C (g * 2 ^ 20 + fc * 2 ^ 14 + st * 2 ^ 10)
  let s := if err then (s.fcnt (g / 128) (CL_FCNT_SEQ (g / 128)) 7 1).send src 0x1F (g * 2 ^ 20) else s
  let s := s.sendIf (!stateCodeOk st) src 0x20 (g * 2 ^ 20)
  let s := if fc != oldF then
      { s with prot := { s.prot with changes := s.prot.changes ++ [⟨g, (s.armOf g).getD 6, fc⟩] } } else s
  let s := if tbit flags 2 then s.probeAnswer g (bitsOf w 15 8) else s
  let s := if st = 0xA ∧ oldS ≠ 0xA ∧ oldS ≠ 0xF then s.startProf g else s
  (s.itemReport g seqe flags).stestReport g

/-- One configured cell of the unpacker (R122), from the frame of its port for sample tick j. -/
def State.unpackCell (s : State) (g j : Nat) (f : Option RxFrame) : State :=
  let n := g / 128
  let s := s.readEntries [g]
  match f with
  | none => s.ageCell g
  | some f =>
    match f.words.getD (g % 128) none with
    | none => (s.ageCell g).sendIf (!f.rep.getD (g % 128 + 1) false) (0x102 + 4 * n) 0x1D (g * 2 ^ 20)
    | some w =>
      if bitsOf w.toNat 63 57 ≠ g % 128 then
        ((s.ageCell g).fcnt n (CL_FCNT_IDX n) 5 1).send (0x102 + 4 * n) 0x1E (g * 2 ^ 20)
      else if tbit w.toNat 3 then (s.ageCell g).fcnt n (CL_FCNT_NOREP n) 8 1
      else s.unpackWord g j w.toNat

/-- One port of the unpacker (R121, R122). -/
def State.unpackPort (s : State) (n : Nat) : State :=
  let cells := s.portCells n
  if cells.isEmpty then s
  else
    let lag := 1 + s.fld (CL_HUB_TLAG n)
    let j := s.now - lag
    let f := if s.delivers n && decide (lag ≤ s.now) then
        (s.lane n).rx.find? fun f => f.isFor j else none
    let s := if f.isNone && s.portState n == 4 then
        (s.fcnt n (CL_FCNT_LATE n) 6 1).send (0x101 + 4 * n) 0x1A (j % 512 * 2 ^ 23) else s
    s.each cells fun s g => s.unpackCell g j f

/-- The unpacker's part of the input phase: reports, selection's requests and availability, aggregates. -/
def unpack (s : State) : State :=
  let s := { s with prot := { s.prot with changes := [] } }
  let s := s.each (upto 32) State.unpackPort
  let s := (s.each s.confCells State.selUpdate).offDone
  s.each s.arms State.aggregates

/-- The entries as entry to PARKED from VERIFY sets them up (R122). -/
def State.tableSetup (s : State) : State :=
  s.each s.confCells fun s g =>
    s.wr (ceAddr g) 16 (0xF * 2 ^ 33 + b2n (s.cellCfg g).fb * 2 ^ 54 + 2 ^ 55 + 255 * 2 ^ 56)

/-! ### Composition (R91, R97 to R101, R108, R111, R116, R118, R185, R186, R297) -/

/-- The word to a cell drives it (its target is not BLK) in this tick. -/
def State.drivenNow (s : State) (g : Nat) : Bool := s.op == 6 && (s.selRec g).tgt != .blk

/-- The next item for a cell without one in progress (R111). DESIGN CHOICE (log 106): R110 names protection as an issuer
of CLOSE_BYPASS and no rule gives the condition, so that only queued requests issue it. -/
def State.nextItem (s : State) (g : Nat) : Option ItemRun :=
  let q := s.cmp.queue.filter fun i => i.cell == g
  let x := s.cc g
  let item := fun (src : ItemSrc) (id code data phase : Nat) (dmv : Bool) =>
    some ({ src := src, id := id, code := code, data := data, phase := phase, sent := [], zeros := [], dmv := dmv } :
      ItemRun)
  match q.find? fun i => i.code == 7 with
  | some i => item .host i.id 7 i.data 0 false
  | none =>
  match q.find? fun i => i.code == 3 with
  | some i => item .host i.id 3 0 1 false
  | none =>
    let dm := s.ce g ceDmeas
    let dc := s.ce g ceDcomp
    let far := decide (s.fld CMP_DLY_CFG_HYST < (((dm : Int) - dc).natAbs))
    if s.portState (g / 128) == 4 && s.ceBit g ceDmv && (far || !s.ceBit g ceDlyOk) then
      let st : Int := s.fld CMP_DLY_CFG_STEP
      let v := if s.drivenNow g then ((dc : Int) + clampI ((dm : Int) - dc) (-st) st).toNat else dm
      item .own 0 4 v 0 true
    else if x.stest = 2 then item .own 0 6 (s.fld CMP_STEST_CFG_MASK) 0 false
    else match x.prof with
    | some k => let p := s.profItem g k; item .prof 0 p.1 p.2.1 0 p.2.2
    | none =>
      match q with
      | i :: _ => item .host i.id i.code i.data 0 false
      | [] => none

/-- Host items at the head of a cell's items that fail the check of R112 are dropped. -/
def State.dropBad (s : State) (g : Nat) : Nat → State
  | 0 => s
  | f + 1 =>
    match s.nextItem g with
    | some i =>
      if i.src == .host && !s.itemOk g i.code then ((s.unqueue i.id).flag CMP_AUX_STAT_REJ).dropBad g f else s
    | none => s

/-- The management item of a cell's word for execution tick x (R111, R116): code and data. -/
def State.auxItem (s : State) (g x : Nat) : State × Nat × Nat :=
  let s := if (s.cc g).cur.isNone then s.dropBad g 33 else s
  let cur := match (s.cc g).cur with
    | some i => some i
    | none => s.nextItem g
  match cur with
  | some i => (s.setCc g { s.cc g with cur := some { i with sent := x :: i.sent } }, i.code, i.data)
  | none =>
    if s.portState (g / 128) = 4 ∧ x % 128 = g % 128 ∧ (s.bit CMP_DLY_CFG_BG_EN ∨ !s.ceBit g ceDlyOk) then
      (s.setCc g { s.cc g with probe := some x }, 5, 0)
    else (s, 0, 0)

/-- The offset of a change of an ordinary cell (R185). -/
def State.changeOfs (s : State) (r : SelRec) : Nat :=
  if r.tgt = .blk ∨ r.tgt.num = r.was.num then 0
  else
    let b := s.fld PLN_STG_BASE
    b + r.rank * s.fld PLN_STG_STEP % (1000 - b)

/-- Edges of a configured cell's word: ST_A, EDGE_A, ST_B, EDGE_B (R100, R183, R185). -/
def State.edgesOf (s : State) (g : Nat) : Nat × Nat × Nat × Nat :=
  if s.op ≠ 6 then (0, 0, 7, 1023)
  else
    let r := s.selRec g
    let pip := match s.armOf g with
      | some a => if (s.plnA a).pip == some g && (s.plnA a).act then some (s.plnA a).edges else none
      | none => none
    match pip with
    | some [] => (7, 1023, 7, 1023)
    | some [a] => (a.2.code, a.1, 7, 1023)
    | some (a :: b :: _) => (a.2.code, a.1, b.2.code, b.1)
    | none => if r.tgt = r.was then (7, 1023, 7, 1023) else (r.tgt.code, s.changeOfs r, 7, 1023)

/-- GP of a configured cell's word (R186). -/
def State.gpOf (s : State) (g : Nat) : Nat :=
  if s.op ≠ 6 ∨ (s.selRec g).tgt = .blk then s.fld PLN_STG_GP_BLK
  else
    let pip := match s.armOf g with
      | some a => (s.plnA a).pip == some g
      | none => false
    if pip then s.fld PLN_STG_GP_PIP else s.fld PLN_STG_GP_ORD

/-- The command word of a position for execution tick x (R91, R97, R100, R101). -/
def State.composeWord (s : State) (g x : Nat) : State × BitVec 64 :=
  if !s.isConf g then
    (s, cmdEncode { cell := g % 128, stA := 7, eA := 1023, stB := 7, eB := 1023, seq := x, gp := 0, holdOk := false,
                    test := false, code := 0, data := 0 })
  else
    let (s, code, data) := s.auxItem g x
    let (sa, ea, sb, eb) := s.edgesOf g
    (s, cmdEncode { cell := g % 128, stA := sa, eA := ea, stB := sb, eB := eb, seq := x, gp := s.gpOf g,
                    holdOk := !s.drivenNow g || s.bit CMP_CTRL_HOLD_EN,
                    test := s.ceBit g ceExcl && s.ceBit g ceStest, code := code, data := data })

/-- The payload of a port's frame for execution tick x, whose boundary is predicted at control time h2 (R90, R108). -/
def State.composePort (s : State) (n x h2 : Nat) : State :=
  let s := s.readEntries (s.portCells n)
  let (s, ws) := (upto 128).foldl (fun (q : State × List (BitVec 64)) c =>
    let r := q.1.composeWord (128 * n + c) x
    (r.1, q.2 ++ [r.2])) (s, [])
  let hub := [BitVec.ofNat 64 (s.fld CMP_CTRL_HOLD * 2 ^ 60),
    BitVec.ofNat 64 (s.fld (CL_HUB_MW_HI n) * 2 ^ 32 + s.fld (CL_HUB_MW_LO n)),
    BitVec.ofNat 64 h2, 0]
  { s with cmp := { s.cmp with frames := mput s.cmp.frames n (ws ++ hub) } }

/-- The command digest of the frames built in the tick (R297). -/
def State.commandDigest (s : State) : BitVec 64 :=
  (upto 32).foldl (fun c n =>
    if s.bit (CL_CTRL_EN n) && (s.armOfPort n).isSome then
      (mget [] s.cmp.frames n).foldl crc64Word c
    else c) (crc64Word 0 (BitVec.ofNat 64 (s.now + 2)))

/-- COMPOSER_PHASE from cycle 980 (R52): OFS is sampled, the frames of every port that is not OFF are built. -/
def composerPhase (s : State) : State :=
  let s := { s with cmp := { s.cmp with ofs := s.fld CMP_EXEC_OFS, frames := [] } }
  let s := s.each ((upto 32).filter fun n => s.portState n != 0) fun s n => s.composePort n (s.now + 2) (s.ctl.btime + 2000)
  let d := s.commandDigest.toNat
  { s with cmp := { s.cmp with digest := d },
           red := { s.red with digs := ((s.now, d) :: s.red.digs).take 8 } }

/-! ### The frame leaves (R82, R93, R123, R234, R235, R308) -/

/-- The item that a takeover puts into the cell's word for execution tick x (R308): it overrides the word's own item, which
resumes in the next word. -/
def State.adoptWord (s : State) (g x : Nat) (w : BitVec 64) : State × BitVec 64 :=
  match (s.cc g).adopt with
  | some (v, none) =>
    let c := s.cc g
    (s.setCc g { c with adopt := some (v, some x), cur := c.cur.map fun i => { i with sent := i.sent.filter fun y => y != x },
                        probe := c.probe.filter fun y => y != x },
     cmdEncode { cmdDecode w with code := 4, data := v })
  | _ => (s, w)

/-- The word of a configured cell as its port sends it, for execution tick x: with the item of a takeover, in BLOCK form
while the latched block is set, and CMDST showing the last state it commands (R123). -/
def State.sendWord (s : State) (g x : Nat) (w : BitVec 64) : State × BitVec 64 :=
  let (s, w) := s.adoptWord g x w
  let w := if s.latched then blockForm (s.fld PLN_STG_GP_BLK) w else w
  match (((cmdDecode w).present.map (·.2)).filter fun st => st != 7).getLast? with
  | some st => (s.setCe g ceCmdst st, w)
  | none => (s, w)

/-- The words of port n as it sends them. -/
def State.sendWords (s : State) (n : Nat) : State × List (BitVec 64) :=
  ((mget [] s.cmp.frames n).zipIdx).foldl (fun (q : State × List (BitVec 64)) p =>
    if p.2 < 128 ∧ s.isConf (128 * n + p.2) then
      let r := q.1.sendWord (128 * n + p.2) (s.now + 1) p.1
      (r.1, q.2 ++ [r.2])
    else (q.1, q.2 ++ [p.1])) (s, [])

/-- A CL port starts its frame (R82, R234, R235): in FE loopback it sends what it received. A port that left OFF after the
composer phase has its frame composed now (R90, R91). -/
def State.launchCl (s : State) (lph n : Nat) : State :=
  let block := s.latched && s.bit PRT_CTRL_REPEAT
  if s.fld (CL_CTRL_LB n) = 3 then s.newFrame n (s.lane n).feWords block
  else
    let s := if s.cmp.frames.any fun p => p.1 == n then s else s.composePort n (s.now + 1) (s.ctl.btime + 1000)
    let (s, ws) := s.sendWords n
    s.newFrame n (s.cellHeader n lph :: ws) block

/-! ### Set-up and function reset (R118, R122, R125, R138) -/

/-- Composer state on entry to PARKED from VERIFY. -/
def State.cmpSetup (s : State) : State :=
  ({ s with ccell := [], pdly := [], cmp := { queue := [], nextId := s.cmp.nextId, lph := s.cmp.lph } }).auxLevel.profPending

/-- Function reset of the composer (R125, end of chapters 4 and 5): queue and items dropped, DLY_OK and DMEAS of every
cell cleared, scheduled tests ended, every profile downloaded again. -/
def State.cmpFreset (s : State) : State :=
  let s := { s with pdly := [], cmp := { s.cmp with queue := [] } }
  let s := s.each s.confCells fun s g =>
    let s := (s.setCe g ceDlyOk 0).setCe g ceDmv 0
    s.setCc g { ccReset with late := (s.cc g).late, prof := if s.portState (g / 128) = 4 then some 0 else none }
  ((s.setFld CMP_STEST_STAT_ACTIVE 0).auxLevel).profPending

end Sys2Proof.Machine
end

