-- ==== Sys2Proof/Machine/Access.lean ====
section
/-! DEFINITION. The generic rules of register access (R6 to R10, R321, R419, R497), before any behaviour that a
register has of its own. -/
namespace Sys2Proof.Machine
open Sys2Proof

/-- The source of the common kinds for a register block: the lowest source of its function (R321). The host and
debug port have no source of their own and use the memory system's (DESIGN CHOICE, log entry 8). -/
def blockSrc (a : Nat) : Nat :=
  match a / 0x10000 with
  | 0 => 0x000 | 1 => 0x001 | 2 => 0x340 | 3 => 0x300 | 4 => 0x200 | 5 => 0x280 | 6 => 0x2A0 | 7 => 0x2C0
  | 8 => 0x380 | 9 => 0x3C0 | 10 => 0x3C8 | 11 => 0x3D0 | 12 => 0x3D8 | 13 => 0x3E0 | 14 => 0x0F0 | 15 => 0x0F0
  | 16 => 0x100 + 4 * (a / 4096 % 16) | 17 => 0x100 + 4 * (16 + a / 4096 % 16)
  | 18 => if a < 0x128000 then 0x180 else 0x180 + 8 * ((a - 0x128000) / 4096 % 4)
  | 19 => if a < 0x138000 then 0x1A0 else 0x1A0 + 8 * ((a - 0x138000) / 4096 % 4)
  | 20 => 0x1C0 + 16 * (a / 16384 % 4)
  | _ => 0x0F0

/-- A message of the block that an address lies in. -/
def State.blockSend (s : State) (a kind : Nat) : State := s.send (blockSrc a) kind 0

/-- Function numbers of R425 whose registers hold an address; 64 × number + index as in `sump.fresets`. -/
def addrFunctions (a : Nat) : List Nat :=
  match a / 0x10000 with
  | 2 => if 0x20100 ≤ a ∧ a < 0x20180 then [64 * 5 + (a - 0x20100) / 64] else []
  | 3 => [64 * 15] | 4 => [64 * 11] | 5 => [64 * 12] | 6 => [64 * 13] | 7 => [64 * 14] | 8 => [64 * 9]
  | 9 => [64 * 6] | 10 => [64 * 7] | 11 => [64 * 8] | 13 => [64 * 10]
  | 16 => [64 + a / 4096 % 16] | 17 => [64 + 16 + a / 4096 % 16]
  | 18 => if a < 0x128000 then [64 * 2] else [64 * 16 + (a - 0x128000) / 4096 % 4]
  | 19 => if a < 0x138000 then [] else [64 * 3 + (a - 0x138000) / 4096 % 4]
  | 20 => [64 * 4 + a / 16384 % 4]
  | _ => []

/-- A function reset of the block that an address lies in has not completed (R497). -/
def State.inFreset (s : State) (a : Nat) : Bool :=
  !s.sump.fresets.isEmpty && (addrFunctions a).any fun c => s.sump.fresets.any fun p => p.1 == c

/-- Masters whose writes of RWL fields set MODIFIED (R419). -/
def Master.modifies : Master → Bool
  | .host => true
  | .debug => true
  | .sequencer => true
  | _ => false

/-- What a plain write has met so far: a locked field, a reserved encoding, an RWL field that was reached. -/
structure Wr where
  s    : State
  lock : Bool := false
  bad  : Bool := false
  hit  : Bool := false

/-- What a written field takes: the LOG bits of `FLT_SRCn_CFG1` read 1 and ignore a write of 0 (R325). -/
def heldOnes (a lo v : Nat) : Nat :=
  if 0x14000 ≤ a ∧ a < 0x18000 ∧ a % 16 = 4 ∧ lo < 16 then setBit v 0 else v

/-- A write of one field (R7 to R10). -/
def Wr.field (w : Wr) (a val : Nat) (frst : Bool) (f : FldDef) : Wr :=
  let h := fldAt a f
  let v := heldOnes a f.lo (val / 2 ^ f.lo % 2 ^ f.w)
  match f.acc with
  | .rw => if legalVal f v then { w with s := w.s.setFld h v } else { w with bad := true }
  | .rwl =>
    if w.s.locked then { w with lock := true }
    else if legalVal f v then { w with s := w.s.setFld h v, hit := true } else { w with bad := true }
  | .w1c =>
    if frst then w else { w with s := w.s.setFld h ((upto f.w).foldl (fun x i => if tbit v i then clrBit x i else x) (w.s.fld h)) }
  | .w1s =>
    if frst then w else { w with s := w.s.setFld h ((upto f.w).foldl (fun x i => if tbit v i then setBit x i else x) (w.s.fld h)) }
  | .ro => w
  | .wo => w

/-- A write of a register without behaviour of its own (R7 to R10, R419): every writable field in turn, then the
messages. -/
def State.regWrite (s : State) (m : Master) (a val : Nat) : State :=
  match regAt a with
  | none => s
  | some r =>
    let w := r.flds.foldl (fun w f => Wr.field w a val (s.inFreset a) f) { s := s }
    let s := w.s
    let s := if w.hit && Master.modifies m && (s.op == 4 || s.op == 8) then s.flag CFG_STAT_MODIFIED else s
    let s := if w.lock then s.blockSend a 0x02 else s
    if w.bad then s.blockSend a 0x03 else s

/-- A field of the value of a register write. -/
def wbits (val : Nat) (f : Fld) : Nat := val / 2 ^ f.lo % 2 ^ f.w

/-- The stored content of a register as a master reads it (R7, R9, R497). -/
def State.regRead (s : State) (a : Nat) : Nat :=
  match regAt a with
  | none => 0
  | some r =>
    let fr := s.inFreset a
    r.flds.foldl (fun v f =>
      let h := fldAt a f
      match f.acc with
      | .wo => v
      | .rw => v + s.fld h * 2 ^ f.lo
      | .rwl => v + s.fld h * 2 ^ f.lo
      | _ => v + (if fr then h.rst else s.fld h) * 2 ^ f.lo) 0

end Sys2Proof.Machine
end

