-- ==== Sys2Proof/Machine/Protection.lean ====
section
/-! DEFINITION. Fast protection (chapter 10): trip pins, comparators, received markers, cell escalation, release. -/
namespace Sys2Proof.Machine
open Sys2Proof

/-! ### Trip inputs (R230) -/

/-- Pin p stands at the level that makes it active; without VDD_IO33 it reads inactive (R494). -/
def State.pinActive (s : State) (p : Nat) : Bool := !s.elec.below.contains 10 && s.prot.pins.getLsbD p != tbit (s.fld PRT_PIN_CFG_POL) p

/-- PRT_PIN_STAT.ACTIVE from the levels and polarities; SEEN for every pin that has become active. -/
def State.pinStat (s : State) : State :=
  let act := (upto 16).foldl (fun n p => n + b2n (s.pinActive p) * 2 ^ p) 0
  let s := { s with acq := { s.acq with
    pinsSeen := (upto 16).foldl (fun x p => if tbit act p then setBit x p else x) s.acq.pinsSeen } }
  (s.setFld PRT_PIN_STAT_ACTIVE act).setFld PRT_PIN_STAT_SEEN
    ((upto 16).foldl (fun x p => if tbit act p && !tbit (s.fld PRT_PIN_STAT_ACTIVE) p then setBit x p else x)
      (s.fld PRT_PIN_STAT_SEEN))

/-- Level of a pin. -/
def State.setPin (s : State) (p : Nat) (hi : Bool) : State :=
  let b := BitVec.ofNat 16 (2 ^ p)
  { s with prot := { s.prot with pins := if hi then s.prot.pins ||| b else s.prot.pins &&& ~~~b } }

/-- An enabled pin enters its active level. -/
def State.pinTrip (s : State) (p : Nat) (sampled : Bool) : State :=
  let s := s.blockCause .pin
  if sampled then s.send (0x300 + p) 0x10 0 else s.send 0x333 0x10 (2 ^ 31)

/-- TRIP_PIN (R230): a pin enters its active level; a pulse that the sampler misses leaves the level as it was. -/
def tripPin (s : State) (p : Nat) (sampled : Bool) : State :=
  if s.pinActive p then s
  else if s.elec.below.contains 10 then
    (if sampled then s.setPin p (!tbit (s.fld PRT_PIN_CFG_POL) p) else s)
  else
    let en := tbit (s.fld PRT_PIN_CFG_EN) p
    let s := if sampled then (s.setPin p (!tbit (s.fld PRT_PIN_CFG_POL) p)).pinStat else s
    if en then s.pinTrip p sampled else s

/-- A write of `PRT_PIN_CFG` (R230): a pin that the new setting makes active enters its active level. -/
def pinCfgWrite (s : State) (m : Master) (val : Nat) : State :=
  let en0 := s.fld PRT_PIN_CFG_EN
  let pol0 := s.fld PRT_PIN_CFG_POL
  let s := (s.regWrite m 0x30010 val).pinStat
  let en1 := s.fld PRT_PIN_CFG_EN
  let pol1 := s.fld PRT_PIN_CFG_POL
  s.each (upto 16) fun s p =>
    if tbit en1 p && s.pinActive p && (!tbit en0 p || tbit pol0 p != tbit pol1 p) then s.pinTrip p true else s

def execTripPin (p : Fin 16) (sampled : Bool) (s : State) : Host.Outcome State Fault Refusal :=
  .next (tripPin s p sampled)
def execTripPinInactive (p : Fin 16) (s : State) : Host.Outcome State Fault Refusal :=
  .next ((s.setPin p (tbit (s.fld PRT_PIN_CFG_POL) p)).pinStat)
def execTripPinCfgWrite (m : Master) (val : Word) (s : State) : Host.Outcome State Fault Refusal :=
  .next (pinCfgWrite s m val.toNat)

/-! ### Comparators (R231) -/

/-- A comparator with an enable set. -/
def State.cmpUsed (s : State) (n : Nat) : Bool :=
  s.bit (PRT_CMP_CFG_EN_HI n) || s.bit (PRT_CMP_CFG_EN_LO n) || s.bit (PRT_CMP_CFG_EN_RATE n)

def cmpReset : Cmp := {}

/-- A write of `PRT_CMPn_CFG`: a comparator that it leaves unused has trip and run 0 (R231). -/
def State.cmpCfgWrite (s : State) (m : Master) (a val : Nat) : State :=
  let n := (a - 0x30100) / 16
  let s := s.regWrite m a val
  if s.cmpUsed n then s else (s.setFld (PRT_CMP_STAT_TRIP n) 0).setFld (PRT_CMP_STAT_RUN n) 0

/-- A sample at a comparator (R231): code and validity. -/
def comparatorSample (s : State) (n : Nat) (x : Int) (ok : Bool) : State :=
  if !s.cmpUsed n || !s.prot.cmpOn then s
  else
    let c := mget cmpReset s.prot.cmps n
    let c : Cmp := if ok then { h := (x :: c.h).take 5, nv := min (c.nv + 1) 5 } else { c with nv := 0 }
    let s := { s with prot := { s.prot with cmps := mset cmpReset s.prot.cmps n c } }
    if !ok && !s.bit (PRT_CMP_CFG_BADTRIP n) then s
    else
      let hi := ok && s.bit (PRT_CMP_CFG_EN_HI n) && decide (sext (s.fld (PRT_CMP_HL_HI n)) 16 < x)
      let lo := ok && s.bit (PRT_CMP_CFG_EN_LO n) && decide (x < sext (s.fld (PRT_CMP_HL_LO n)) 16)
      let rt := ok && s.bit (PRT_CMP_CFG_EN_RATE n) && c.nv == 5 &&
        decide (s.fld (PRT_CMP_RATE_RATE n) < (c.h.getD 0 0 - c.h.getD 4 0).natAbs)
      let run := if !ok || hi || lo || rt then min (s.fld (PRT_CMP_STAT_RUN n) + 1) 15 else 0
      let was := s.bit (PRT_CMP_STAT_TRIP n)
      let trip := decide (s.fld (PRT_CMP_CFG_PERSIST n) ≤ run)
      let s := (s.setFld (PRT_CMP_STAT_RUN n) run).setFld (PRT_CMP_STAT_TRIP n) (b2n trip)
      let s := if trip then { s with acq := { s.acq with cmpSeen := setBit s.acq.cmpSeen n } } else s
      if trip && !was then
        let k := if hi then 0x11 else if lo then 0x12 else if rt then 0x13 else 0x14
        let seen := if hi then PRT_CMP_STAT_HI_SEEN n else if lo then PRT_CMP_STAT_LO_SEEN n
          else if rt then PRT_CMP_STAT_RATE_SEEN n else PRT_CMP_STAT_BAD_SEEN n
        (((s.flag seen).flagBit PRT_CMP_SEEN n).blockCause .cmp).send (0x310 + n) k (wrap x 16 * 2 ^ 16)
      else s

/-- A sample of a sensor channel as the link delivers it, given to every comparator that watches the channel. -/
def State.watchSample (s : State) (ch : Nat) (x : Int) (ok : Bool) : State :=
  s.each (upto 32) fun s n => if s.fld (PRT_CMP_CFG_SRC n) = ch then comparatorSample s n x ok else s

/-- SL port m has been RUNNING (R231). -/
def State.slRuns (s : State) (m : Nat) : State :=
  if s.prot.slRan.contains m then s else { s with prot := { s.prot with slRan := s.prot.slRan ++ [m] } }

/-- A tick in which an SL port is not RUNNING counts as invalid for its comparators (R231). -/
def State.portInvalid (s : State) (m : Nat) : State :=
  if s.portState (32 + m) = 4 then s.slRuns m
  else if s.prot.cmpOn && (s.prot.slRan.contains m || s.op == 5 || s.op == 6 || s.op == 7) then
    s.each (upto 32) fun s n =>
      if s.fld (PRT_CMP_CFG_SRC n) / 8 = m then comparatorSample s n (-32768) false else s
  else s

/-- COMPARATOR_SAMPLE: a sample of the channel of comparator n, which sees none while its port is not RUNNING. -/
def execComparatorSample (n : Fin 32) (code : BitVec 16) (valid : Bool) (s : State) :
    Host.Outcome State Fault Refusal :=
  .next (if s.portState (32 + s.fld (PRT_CMP_CFG_SRC n) / 8) = 4 then comparatorSample s n (sext code.toNat 16) valid
    else s)

/-! ### Received markers (R72, R238, R241) -/

/-- BLOCK_MARKER_RX (R70, R238): acted on only on an enabled ML lane. -/
def blockMarkerRx (s : State) (l : Nat) (word : Word) : State :=
  (s.markerRx l word).2

/-- ALERT_RX (R72, R241, R306). -/
def alertRx (s : State) (l : Nat) (word : Word) : State :=
  (s.markerRx l word).2

def execBlockMarkerRx (lane : Fin 40) (word : Word) (s : State) : Host.Outcome State Fault Refusal :=
  .next (blockMarkerRx s lane word)
def execAlertRx (lane : Fin 40) (word : Word) (s : State) : Host.Outcome State Fault Refusal :=
  .next (alertRx s lane word)

/-! ### Escalation from cell reports (R240) -/

/-- The bit of `PRT_CELL_ESC.CODES` of a fault code. -/
def escBit (f : Nat) : Option Nat :=
  match f with
  | 7 => some 0 | 8 => some 1 | 6 => some 2 | 5 => some 3 | 0x0E => some 4 | _ => none

/-- A change to a latched code. -/
def FChange.latched (c : FChange) : Bool := decide (1 ≤ c.code ∧ c.code ≤ 0x0E)

/-- A change to a latched code enters the window, which holds (cell, arm, tick of the change that counts). -/
def State.escCount (s : State) (c : FChange) : State :=
  if c.latched then
    { s with prot := { s.prot with window := (s.prot.window.filter fun p => p.1 != c.cell) ++ [(c.cell, c.arm, s.now)] } }
  else s

/-- One FCODE change at cycle 100, the tick's changes being counted; `joins` when it brought its cell into the count. -/
def State.escalate (s : State) (c : FChange) (joins : Bool) : State :=
  let first := match escBit c.code with
    | some b => tbit (s.fld PRT_CELL_ESC_CODES) b
    | none => false
  let k := (s.prot.window.filter fun p => p.2.1 == c.arm).length
  let mc := s.fld PRT_CELL_ESC_MCOUNT
  if first then (s.blockCause .cell).send 0x330 0x15 (c.cell * 2 ^ 20 + c.code * 2 ^ 14)
  else if joins && decide (c.arm < 6) && mc != 0 && decide (mc ≤ k) then
    (s.blockCause .cell).send 0x330 0x16 (c.cell * 2 ^ 20 + c.arm * 2 ^ 17)
  else s

/-- CELL_ESCALATION: changes older than MWIN ticks leave the window, the tick's changes are counted, and then each is
examined. -/
def cellEscalation (s : State) : State :=
  let w := s.prot.window.filter fun p => decide (s.now < p.2.2 + s.fld PRT_CELL_ESC_MWIN)
  let ch := s.prot.changes
  let s := ch.foldl State.escCount { s with prot := { s.prot with window := w, changes := [] } }
  ch.foldl (fun s c => s.escalate c (c.latched && !w.any fun p => p.1 == c.cell)) s

def execCellEscalation (s : State) : Host.Outcome State Fault Refusal := .next (s.inPhase cellEscalation)

/-! ### Release (R242, R243) -/

/-- Condition 8: the partner's last STAT shows no latched block with a cause other than MIRROR. -/
def State.partnerBlk (s : State) : Bool :=
  match s.red.stat with
  | some p => s.bit RED_STAT_PARTNER && p.latched && p.cause % 256 != 8
  | none => false

/-- The unmet conditions of R242, bit i − 1 for condition i. The set lies within the tick `setTick`: the minimum block
time has passed at every boundary after tick setTick + 10 MINBLK, and at that tick's own once it has run out there. -/
def State.unmet (s : State) : Nat :=
  let en := s.fld PRT_PIN_CFG_EN
  let minEnd := s.prot.setTick + s.fld PRT_REL_CFG_MINBLK * 10
  let c1 := !(decide (minEnd < s.now) || (s.prot.minDone && decide (minEnd ≤ s.now)))
  let c2 := (upto 16).any fun p => tbit en p && s.pinActive p
  let c3 := (upto 32).any fun n => s.bit (PRT_CMP_STAT_TRIP n)
  let c4 := s.prot.sumpSrc.any fun n => s.fld (FLT_SRC_STAT_ST n) != 0
  let locked := fun c => if c = 0x010 ∨ c = 0x011 then s.bit CLK_MON_SYS_LOCK else if c = 0x012 then
      s.bit CLK_MON_LANE_LOCK else if c = 0x013 then s.bit CLK_MON_TIME_LOCK else if c = 0x014 then
      s.bit CLK_MON_STN_LOCK else true
  let c5 := s.prot.clkSrc.any fun c => s.ctl.lost.contains c || !locked c
  let c6 := s.bit DBG_PIPE_HALTED || (s.bit DBG_SEQ_HALTED && s.bit DBG_HALT_BLOCK_EN)
  let c7 := s.prot.plnOff && !s.bit PLN_CTRL_EN
  b2n c1 + 2 * b2n c2 + 4 * b2n c3 + 8 * b2n c4 + 16 * b2n c5 + 32 * b2n c6 + 64 * b2n c7
    + 128 * b2n s.partnerBlk

/-- A release request (R243). -/
def releaseRequest (s : State) : State :=
  if !s.latched then s
  else if s.bit PRT_STAT_REL_READY then { s with prot := { s.prot with relReq := true } }
  else ((s.flag PRT_STAT_REL_REJ).count PRT_CNT_RELREJ PRT_CNT_OVF 1 1).send 0x332 0x1A (s.unmet * 2 ^ 24)

/-- The release takes effect (R239, R242, R243). -/
def State.release (s : State) : State :=
  let s := (((s.setFld PRT_STAT_LATCHED 0).setFld CLK_STATE_LATCHED_BLOCK 0).setFld PRT_CAUSE_ALL 0).send 0x332 0x19 0
  let s := (s.setFld PRT_STAT_UNMET 0).setFld PRT_STAT_REL_READY 0
  ({ s with prot := { s.prot with relReq := false, sumpSrc := [], clkSrc := [], plnOff := false,
                                  setMsg := false } }).seqEvent 3 |>.driveBlockOut

/-- The block as it stood at the last boundary is released within the tick (R243): what has come since then remains, as a
new set. -/
def State.releaseOld (s : State) : State :=
  let x := s.prot.fresh
  let s := s.release
  if x.all = 0 then s
  else
    let s := ((((s.flag PRT_STAT_LATCHED).flag CLK_STATE_LATCHED_BLOCK).setFld PRT_CAUSE_FIRST x.first).setFld
      PRT_CAUSE_FIRST_TICK (s.now % 65536)).setFld PRT_CAUSE_ALL x.all
    { s with prot := { s.prot with setMsg := true, sumpSrc := x.sump, clkSrc := x.clk, plnOff := x.pln } }.driveBlockOut

/-- A release request or the automatic release takes effect at this boundary (R243). -/
def State.releaseNow (s : State) : Bool :=
  let all := s.fld PRT_CAUSE_ALL
  let auto := s.bit PRT_REL_CFG_AUTO && (upto 8).all fun i => !tbit all i || tbit (s.fld PRT_REL_CFG_AUTO_MASK) i
  s.bit PRT_STAT_REL_READY && s.unmet == 0 && (s.prot.relReq || auto)

/-- Protection at a boundary (R229, R242, R243, R245): BLOCK_SET, release, REL_READY. A request that was accepted but
whose conditions have failed since is rejected. -/
def State.protBoundary (s : State) : State :=
  let s := if s.prot.setMsg then
      { s.send 0x332 0x18 (s.fld PRT_CAUSE_ALL * 2 ^ 24) with prot := { s.prot with setMsg := false } } else s
  let s := if !s.latched then s
    else if s.releaseNow then s.release
    else if s.prot.relReq then
      { ((s.flag PRT_STAT_REL_REJ).count PRT_CNT_RELREJ PRT_CNT_OVF 1 1).send 0x332 0x1A (s.unmet * 2 ^ 24) with
        prot := { s.prot with relReq := false } }
    else s
  let u := if s.latched then s.unmet else 0
  let s := ((s.setFld PRT_STAT_UNMET u).setFld PRT_STAT_REL_READY (b2n (s.latched && u == 0))).setFld
    PRT_STAT_PARTNER_BLK (b2n s.partnerBlk)
  { s with prot := { s.prot with fresh := { old := s.latched } } }.driveBlockOut

/-- MINBLK_EXPIRY (R242): the minimum block time runs out within the tick that its count names; REL_READY shows it from
the next boundary on. -/
def execMinblkExpiry (s : State) : Host.Outcome State Fault Refusal :=
  .next (if s.latched && decide (s.prot.setTick + s.fld PRT_REL_CFG_MINBLK * 10 ≤ s.now) then
    { s with prot := { s.prot with minDone := true } } else s)

/-- RELEASE_REQUEST: a write of `PRT_REL` (R243, R10). -/
def relWrite (s : State) (val : Nat) : State :=
  if wbits val PRT_REL_KEY ≠ 0x5AC3 then s.blockSend 0x3001C 0x03
  else if tbit val 0 then releaseRequest s else s

/-- FORCE_BLOCK: a write of `PRT_FORCE` (R244, R10). -/
def forceWrite (s : State) (val : Nat) : State :=
  if wbits val PRT_FORCE_KEY ≠ 0x5AC3 then s.blockSend 0x30020 0x03
  else if tbit val 0 then s.blockCause .force else s

def execReleaseRequest (_m : Master) (val : Word) (s : State) : Host.Outcome State Fault Refusal :=
  .next (relWrite s val.toNat)
def execForceBlock (_m : Master) (val : Word) (s : State) : Host.Outcome State Fault Refusal :=
  .next (forceWrite s val.toNat)

/-- Function reset of the protection unit (R246, R11). -/
def State.protFreset (s : State) : State :=
  let s := s.each (upto 32) fun s n =>
    [PRT_CMP_STAT_TRIP n, PRT_CMP_STAT_RUN n, PRT_CMP_STAT_HI_SEEN n, PRT_CMP_STAT_LO_SEEN n,
      PRT_CMP_STAT_RATE_SEEN n, PRT_CMP_STAT_BAD_SEEN n].foldl (fun s f => s.setFld f 0) s
  let s := [PRT_STAT_REL_REJ, PRT_PIN_STAT_SEEN, PRT_CNT_SET, PRT_CNT_RELREJ, PRT_CNT_OVF, PRT_CMP_SEEN].foldl
    (fun s f => s.setFld f 0) s
  { s with prot := { s.prot with cmps := [], changes := [], window := [] } }

end Sys2Proof.Machine
end

