-- ==== Sys2Proof/Machine/Sensor.lean ====
section
/-! DEFINITION. Sensor ports, alignment and the concentrators (chapter 11). -/
namespace Sys2Proof.Machine
open Sys2Proof

def snsReset : SnsPort := {}
def State.snsP (s : State) (m : Nat) : SnsPort := mget snsReset s.sns m
def State.setSns (s : State) (m : Nat) (x : SnsPort) : State := { s with sns := mset snsReset s.sns m x }
def concReset : Conc := {}
def State.conc (s : State) (m : Nat) : Conc := mget concReset s.concs m
def State.setConc (s : State) (m : Nat) (x : Conc) : State := { s with concs := mset concReset s.concs m x }

/-- Samples per channel and tick of a RATE code (R248). -/
def rateOf (r : Nat) : Nat :=
  match r with
  | 0 => 50 | 1 => 25 | 2 => 10 | 3 => 5 | 4 => 2 | _ => 1

/-- A kind of 0x181 + 8m whose condition is a run of ticks: sent in the first tick of each run (R258). -/
def State.snsNote (s : State) (m kind det : Nat) : State :=
  let x := s.snsP m
  if x.evNow.contains kind then s
  else
    let s := s.setSns m { x with evNow := x.evNow ++ [kind] }
    s.sendIf (!x.evLast.contains kind) (0x181 + 8 * m) kind det

/-- The runs of R258 move on by a tick (at each boundary). -/
def State.snsTick (s : State) : State :=
  s.each (upto 4) fun s m => let x := s.snsP m; s.setSns m { x with evLast := x.evNow, evNow := [] }

/-- A sample of a frame's words (R252, R254): words `none` read as 0x8000. -/
def sampleAt (ws : List (Option (BitVec 64))) (s c : Nat) : Int :=
  let i := 8 * s + c
  match ws.getD (i / 4) none with
  | some w => sext (w.toNat / 2 ^ (48 - 16 * (i % 4))) 16
  | none => -32768

/-- The header names the configured concentrator: TYPE, VER and CONC_ID, and then RATE (R254). -/
def State.expectConc (s : State) (m : Nat) (hdr : BitVec 64) : Bool × Bool :=
  let h := hdr.toNat
  (bitsOf h 63 60 == 3 && bitsOf h 59 58 == 1 && bitsOf h 57 50 == s.fld (SNS_P_CFG_ID m),
   bitsOf h 49 47 == s.fld (SNS_P_CFG_RATE m))

/-- Delay of an SL port with one more round trip in UI and the T_CONC of this unit's input (R253). -/
def State.snsDelay (s : State) (m rtt : Nat) (tc : Int) : State :=
  let x := s.snsP m
  let x : SnsPort := { x with rttp := (rtt :: x.rttp).take 16, tc := (tc :: x.tc).take 16 }
  let s := s.setSns m x
  if x.rttp.length < 16 then s
  else
    let rq : Nat := (2 * x.rttp.foldl (· + ·) 0 + 50) / 100
    let tq := roundShift (x.tc.foldl (· + ·) 0) 4
    s.setFld (SNS_P_STAT_DCOMP m) (usat (roundShift ((rq : Int) - tq) 1) 15)

/-- An upstream line as a port cuts it into words: by the RATE of a readable header of the configured concentrator, else by
the configured one (R251, R254). -/
def State.sensorWords (s : State) (m : Nat) (line : List Bool) : FrameIn :=
  let f := frameIn (2 * rateOf (s.fld (SNS_P_CFG_RATE m)) + 2) line
  let r := bitsOf f.hdr.toNat 49 47
  if f.hdrEcc.good && (s.expectConc m f.hdr).1 && decide (r ≤ 5) then frameIn (2 * rateOf r + 2) line else f

/-- SENSOR_FRAME_RX (R66, R87, R231, R254, R255). -/
def sensorFrameRx (s : State) (m : Nat) (line : List Bool) (cyc rtt : Nat) : State :=
  let l := 32 + m
  if !s.aligned l then s
  else
    let sn := rateOf (s.fld (SNS_P_CFG_RATE m))
    let f := s.sensorWords m line
    let s := stuffEvents s l f.stuffV
    let s := loopCompare s l line (f.hdr :: f.words.map (·.2))
    if s.portState l ≠ 3 ∧ s.portState l ≠ 4 then s else
    let (s, rep) := s.laneCheck l f.syns
    let x := bitsOf f.hdr.toNat 8 0
    let (idOk, rateOk) := s.expectConc m f.hdr
    let ws := f.words.map fun p => if p.1.good then some p.2 else none
    if !f.hdrEcc.good then if rep.headD false then s.noIdent l else (s.noIdent l).snsNote m 0x18 ((s.now + 511) % 512 * 2 ^ 23)
    else
      let s := if s.delivers l && idOk && rateOk then
          (upto sn).foldl (fun s k => (upto 8).foldl (fun s c =>
            let v := sampleAt ws k c
            s.watchSample (8 * m + c) v (v != -32768)) s) s
        else s
      if !f.crcOk then ((s.noIdent l).count (SNS_P_CNT_CRC m) (SNS_P_CNT_OVF m) 0 1).snsNote m 0x19 (x * 2 ^ 23)
      else if idOk && !rateOk then (s.noIdent l).snsNote m 0x29 (x * 2 ^ 23)
      else
        let was := s.portState l
        let s := portIdentify s l (idOk && rateOk)
        let s := if was = 3 ∧ s.portState l = 4 then (s.setSns m { s.snsP m with rttp := [], tc := [] }).slRuns m else s
        if !idOk || !s.delivers l then s
        else
          let t : Nat := s.fullJ x + 2 + s.fld SNS_CFG_SLAG
          if t < s.now ∨ (t = s.now ∧ 80 < cyc) then
            (s.count (SNS_P_CNT_LATE m) (SNS_P_CNT_OVF m) 2 1).snsNote m 0x28 (x * 2 ^ 23)
          else
            let s := match ws.getD (2 * sn + 1) none with
              | some w =>
                let t := if s.bit RED_ID_UNIT then bitsOf w.toNat 47 32 else bitsOf w.toNat 63 48
                s.snsDelay m rtt (sext t 16)
              | none => s
            s.setLane l { s.lane l with rx := (⟨s.now, cyc, f.hdr, ws, rep⟩ :: (s.lane l).rx).take 4 }

def execSensorFrameRx (port : Fin 4) (line : List Bool) (cyc rtt : Nat) (s : State) :
    Host.Outcome State Fault Refusal := .next (sensorFrameRx s port line cyc rtt)

/-! ### Alignment (R255 to R257) -/

/-- The frame of port m that the aligner uses in this tick (R255). -/
def State.snsFrame (s : State) (m : Nat) : Option RxFrame :=
  let lag := 2 + s.fld SNS_CFG_SLAG
  if s.delivers (32 + m) && decide (lag ≤ s.now) then
    (s.lane (32 + m)).rx.find? fun f => f.isFor (s.now - lag)
  else none

/-- A calibrated sample (R256). -/
def State.calibrate (s : State) (n : Nat) (x : Int) : Int :=
  sat (roundShift (x * sext (s.fld (SNS_CH_GAIN n)) 32) (s.fld (SNS_CH_CFG_GSH n)) + sext (s.fld (SNS_CH_OFS n)) 32) 32

/-- The calibrated valid samples of a channel in a frame. -/
def State.calSamples (s : State) (n : Nat) (f : RxFrame) : List Int :=
  let sn := rateOf (s.fld (SNS_P_CFG_RATE (n / 8)))
  ((upto sn).map fun k => sampleAt f.words k (n % 8)).filter (fun v => v != -32768) |>.map (s.calibrate n)

/-- One channel (R256 to R258): its CSTAT, its slots, its health bits. -/
def State.alignChannel (s : State) (m c : Nat) (f : Option RxFrame) (st : Option Nat) : State :=
  let n := 8 * m + c
  let x := s.snsP m
  let cs := match st with | some v => v / 2 ^ (8 * c) % 256 | none => 0
  let s := match st with
    | some _ =>
      let old := x.cstat.getD c 0
      let s := s.sendIf (cs != 0 && cs != old) (0x182 + 8 * m) 0x2B (c * 2 ^ 29 + cs * 2 ^ 21)
      s.setSns m { x with cstat := ((upto 8).map fun i => if i = c then cs else x.cstat.getD i 0) }
    | none => s
  let en := s.bit (SNS_CH_CFG_EN n)
  let sn := rateOf (s.fld (SNS_P_CFG_RATE m))
  let v := if en then (match f with | some f => s.calSamples n f | none => []) else []
  let cnt := v.length
  let held := en && v.isEmpty
  let s := if v.isEmpty then s
    else
      let sum : Int := v.foldl (· + ·) 0
      let s := s.setSlot (s.fld (SNS_CH_CFG_MEAN n)) ((2 * sum + cnt) / ((2 * cnt : Nat) : Int))
      if s.bit (SNS_CH_CFG_MMEN n) then
        (s.setSlot (s.fld (SNS_CH_CFG_MIN n)) (v.foldl min (v.headD 0))).setSlot (s.fld (SNS_CH_CFG_MAX n))
          (v.foldl max (v.headD 0))
      else s
  let x := s.snsP m
  let s := s.sendIf (held && !x.held.contains c) (0x182 + 8 * m) 0x2A (c * 2 ^ 29 + cs * 2 ^ 21)
  let s := s.setSns m { x with held := (x.held.filter fun i => i != c) ++ (if held then [c] else []) }
  let h := b2n held + 2 * b2n (!v.isEmpty && cnt != sn) + 4 * b2n (tbit cs 0) + 8 * b2n (cs / 2 % 16 != 0)
  let seen := (upto 4).foldl (fun y i => if tbit h i then setBit y i else y) (s.fld (SNS_CH_STAT_SEEN n))
  ((s.setFld (SNS_CH_STAT_NOW n) h).setFld (SNS_CH_STAT_SEEN n) seen).setFld (SNS_CH_STAT_CNT n) cnt

/-- One port (R255, R257, R258). A port that is OFF has no usable frame either. DEDUCED (log 107): the aligner works from
PARKED on, when a configuration is loaded. -/
def State.alignPort (s : State) (m : Nat) : State :=
  if s.op < 4 then s
  else
    let f := s.snsFrame m
    let sn := rateOf (s.fld (SNS_P_CFG_RATE m))
    let j := (s.now + 510 - s.fld SNS_CFG_SLAG) % 512
    let s := if f.isNone then (s.count (SNS_P_CNT_MISS m) (SNS_P_CNT_OVF m) 1 1).snsNote m 0x27 (j * 2 ^ 23) else s
    let tm := f.bind fun f => f.words.getD (2 * sn + 1) none
    let s := match tm with
      | some w =>
        let v := w.toNat
        let x := s.snsP m
        let cf := bitsOf v 7 0
        let sync := tbit v 30
        let s := ((s.setFld (SNS_P_STAT_TBIN m) (bitsOf v 31 31)).setFld (SNS_P_STAT_SYNC m) (b2n sync)).setFld
          (SNS_P_STAT_CFCODE m) cf
        let s := s.sendIf (!x.noSync && !sync) (0x183 + 8 * m) 0x2C (cf * 2 ^ 24)
        let s := s.sendIf (cf != 0 && cf != x.cf) (0x183 + 8 * m) 0x2D (cf * 2 ^ 24)
        s.setSns m { x with noSync := !sync, cf := cf }
      | none => s
    let st := (f.bind fun f => f.words.getD (2 * sn) none).map BitVec.toNat
    let s := s.each (upto 8) fun s c => s.alignChannel m c f st
    let h := (upto 8).foldl (fun y c => y + s.fld (SNS_CH_STAT_NOW (8 * m + c)) * 2 ^ (4 * c)) 0
    let s := s.setFld (SNS_P_HLTH m) h
    if s.bit (SNS_P_CFG_HSEN m) then s.setSlotBits (s.fld (SNS_P_CFG_HSLOT m)) h else s

/-- The aligner's part of the input phase. -/
def align (s : State) : State := s.each (upto 4) State.alignPort

/-- The idle frame of an SL port (R250). -/
def State.launchSl (s : State) (lph m : Nat) : State :=
  let l := 32 + m
  let hdr := BitVec.ofNat 64 (4 * 2 ^ 60 + 1 * 2 ^ 58 + s.fld (SNS_P_CFG_ID m) * 2 ^ 50 + b2n s.token * 2 ^ 49
    + s.fld RED_EPOCH_EPOCH * 2 ^ 25 + lph % 32 * 2 ^ 20 + s.fld (SNS_P_STAT_DCOMP m) * 2 ^ 5)
  let d1 := BitVec.ofNat 64 (s.fld (SNS_P_CFG_RATE m) * 2 ^ 61 + s.fld SNS_CFG_ADV * 2 ^ 51)
  let x := s.lane l
  let tx := if s.fld (CL_CTRL_LB l) = 3 then x.feWords else [hdr, BitVec.ofNat 64 s.ctl.btime, d1]
  s.newFrame l tx false

/-- Function reset of the sensor ports (R259, R11). -/
def State.snsFreset (s : State) : State :=
  let s := s.each (upto 4) fun s m =>
    [SNS_P_STAT_DCOMP m, SNS_P_STAT_TBIN m, SNS_P_STAT_SYNC m, SNS_P_STAT_CFCODE m, SNS_P_HLTH m, SNS_P_CNT_CRC m,
      SNS_P_CNT_MISS m, SNS_P_CNT_LATE m, SNS_P_CNT_OVF m].foldl (fun s f => s.setFld f 0) s
  let s := s.each (upto 32) fun s n =>
    [SNS_CH_STAT_NOW n, SNS_CH_STAT_SEEN n, SNS_CH_STAT_CNT n].foldl (fun s f => s.setFld f 0) s
  { s with sns := [] }

/-! ### Concentrators (R249, R251, R252, R72) -/

/-- A frame accepted on input `u` with its FRAME marker at `mark` ps goes before the one already accepted in this tick: none
is, or its marker is earlier, or both lie in the same UI of 80 ps and it is on input 0 (R103, R249). -/
def Conc.before (c : Conc) (u : Nat) (mark : Int) : Bool :=
  match c.fwd with
  | none => true
  | some v => v != u && (decide (mark / 80 < c.mark / 80) || (mark / 80 == c.mark / 80 && u == 0))

/-- CONC_HEADER_ACCEPT (R249, R250): acceptance as in R102 with TYPE 0x4; the FRAME marker of the accepted input at
`mark` ps sets the origin as in R119, and its words D0 and D1, where they pass their check bits, the time, RATE and ADV.
DEDUCED (log 108): RATE and ADV are in force from the next sample tick, the present one having begun. -/
def Conc.header (c : Conc) (u : Nat) (w d0 d1 : ECWord) (mark : Int) : Conc :=
  let (e, d) := hsiaoDec w
  let v := d.toNat
  let ep := bitsOf v 48 25
  if !e.good || bitsOf v 63 60 != 4 || bitsOf v 59 58 != 1 || bitsOf v 57 50 != c.ident then c
  else if tbit v 49 ∧ 1 ≤ ep ∧ (c.eAcc < ep ∨ (ep = c.eAcc ∧ u = c.uAcc)) then
    let c := if c.eAcc < ep then { c with eAcc := ep, uAcc := u } else c
    if !c.before u mark then c
    else
      let (e0, t) := hsiaoDec d0
      let (e1, r) := hsiaoDec d1
      { c with fwd := some u, mark := mark, tbin := u, dcomp := bitsOf v 19 5,
               origin := mark - 250 * (bitsOf v 19 5 : Nat) - (24000 + 80 * (bitsOf v 24 20 : Nat)),
               time := if e0.good then t.toNat else c.time,
               rateNext := if e1.good then bitsOf r.toNat 63 61 else c.rateNext,
               advNext := if e1.good then bitsOf r.toNat 60 51 else c.advNext }
  else { c with refused := (c.refused + 1) % 256 }

/-- Four samples as one word (R252). -/
def packSamples (l : List (BitVec 16)) (k : Nat) : BitVec 64 :=
  l.getD (4 * k) 0x8000#16 ++ l.getD (4 * k + 1) 0x8000#16 ++ l.getD (4 * k + 2) 0x8000#16 ++ l.getD (4 * k + 3) 0x8000#16

/-- A result as the concentrator codes it: an invalid one as 0x8000, a valid one clipped to ±32,767 (R252). -/
def sampleCode (x : Option Int) : BitVec 16 :=
  match x with
  | some v => BitVec.ofInt 16 (clampI v (-32767) 32767)
  | none => 0x8000#16

/-- CSTAT of a channel (R251, R252): its fault bits, and OVR when a valid result of it is clipped. -/
def concStatus (d : ConcData) (c : Nat) : Nat :=
  let clipped := d.samples.zipIdx.any fun p => p.2 % 8 == c && p.1.any fun v => decide (v < -32767 ∨ 32767 < v)
  b2n clipped + 2 * (d.faults.getD c 0).toNat

/-- CONC_FRAME_LAUNCH (R249, R251, R252): the frame of sample tick j at the origin of tick j + 1 plus 24 ns, with S samples
of each channel by the rate in force for j. Without an accepted header since the last launch the origin advances by
1,000 ns and SYNC is clear. -/
def Conc.launch (c : Conc) (now : Nat) (d : ConcData) : Conc :=
  let sync := c.fwd.isSome
  let hdr := BitVec.ofNat 64 (3 * 2 ^ 60 + 1 * 2 ^ 58 + c.ident % 256 * 2 ^ 50 + c.rate % 8 * 2 ^ 47 + (now + 511) % 512)
  let cs := (upto 8).map (concStatus d)
  let st := BitVec.ofNat 64 (cs.zipIdx.foldl (fun a p => a + p.1 * 2 ^ (8 * p.2)) 0)
  let tm := BitVec.ofNat 64 (d.rxt.toNat * 2 ^ 48 + d.txt.toNat * 2 ^ 32 + c.tbin % 2 * 2 ^ 31 + b2n sync * 2 ^ 30
    + d.temp.toNat * 2 ^ 8 + d.fcode.toNat)
  let org := if sync then c.origin else c.origin + 1000000
  { c with sync := sync, fwd := none, origin := org, sentAt := org + 1000000 + 24000, cstat := cs,
           rate := c.rateNext, adv := c.advNext,
           up := hdr :: ((upto (2 * rateOf c.rate)).map fun k => packSamples (d.samples.map sampleCode) k) ++ [st, tm] }

/-- CONC_ALERT (R72): CSTAT bits 1 to 4, all 0 for the previous sample tick, become nonzero. -/
def Conc.alert (c : Conc) (ch cs : Nat) : Conc :=
  let old := c.cstat.getD ch 0
  let c' := { c with cstat := (upto 8).map fun i => if i = ch then cs else c.cstat.getD i 0 }
  if old / 2 % 16 = 0 ∧ cs / 2 % 16 ≠ 0 then { c' with alerts := c.alerts + 1 } else c'

def execConcHeaderAccept (conc : Fin 4) (u : Fin 2) (hdr d0 d1 : ECWord) (mark : Int) (s : State) :
    Host.Outcome State Fault Refusal := .next (s.setConc conc ((s.conc conc).header u hdr d0 d1 mark))
def execConcFrameLaunch (conc : Fin 4) (d : ConcData) (s : State) : Host.Outcome State Fault Refusal :=
  .next (s.setConc conc ((s.conc conc).launch s.now d))
def execConcAlert (conc : Fin 4) (ch : Fin 8) (cstat : BitVec 8) (s : State) : Host.Outcome State Fault Refusal :=
  .next (s.setConc conc ((s.conc conc).alert ch cstat.toNat))

end Sys2Proof.Machine
end

