-- ==== Sys2Proof/Machine/Engine.lean ====
section
/-! DEFINITION. The arm control engine and the loop supervisor (chapters 8 and 9): Turn Order, the channel step with
its supervision points, the fence, and bank swaps. -/
namespace Sys2Proof.Machine
open Sys2Proof

/-! ### Coefficients (R203, R204, R214) -/

/-- A coefficient: its s32 value and its right shift (R203). -/
structure Coef where
  v : Int
  sh : Nat
deriving DecidableEq, Repr

/-- A coefficient word as a coefficient. -/
def coefOf (w : Nat) : Coef := ⟨sext w 32, bitsOf w 36 32⟩

/-- Address of a coefficient word of a channel in bank 0 (A) or 1 (B). -/
def coefAddr (bank c k : Nat) : Nat := 0x30000000 + 0x80000 * bank + 256 * c + 8 * k

/-- The active bank of a channel (R205). -/
def State.bankOf (s : State) (c : Nat) : Nat := s.fld (CE_BANK_ACT (c / 32)) / 2 ^ (c % 32) % 2

/-- A coefficient of a bank. -/
def State.coef (s : State) (bank c k : Nat) : Coef := coefOf (s.wordAt (coefAddr bank c k)).toNat

/-- A supervision parameter of a bank (R214). -/
def State.param (s : State) (bank c k : Nat) : Int := sext (s.wordAt (coefAddr bank c k)).toNat 32

/-- The parameter set of a bank is valid (R215). -/
def State.paramOk (s : State) (bank c : Nat) : Bool :=
  let p := s.param bank c
  decide (p 17 ≤ p 16) && decide (p 19 ≤ p 18) && decide (0 ≤ p 20) && decide (1 ≤ p 21 ∧ p 21 ≤ 65535)

/-! ### Channel state (R207, R217) -/

/-- A channel's state block. -/
structure Chan where
  x1 : Int
  x2 : Int
  x3 : Int
  w1 : Int
  w2 : Int
  w3 : Int
  e1 : Int
  e2 : Int
  en1 : Int
  en2 : Int
  ig : Int
  d1 : Int
  dres : Int
  nres : Int
  lres : Int
  feRuns : Nat
  feAct : Bool
  satHi : Bool
  satLo : Bool
  iclamp : Bool
  prime : Bool
  bump : Bool
  clampOnSwap : Bool
  pval : Int
deriving DecidableEq, Repr

/-- Address of a word of a channel's state block. -/
def chanAddr (c k : Nat) : Nat := 0x10020000 + 128 * c + 8 * k

/-- A channel's state block as a checked read delivers it. -/
def State.chan (s : State) (c : Nat) : Chan :=
  let w k := (s.wordAt (chanAddr c k)).toNat
  let lo k := sext (w k) 32
  let hi k := sext (w k / 2 ^ 32) 32
  let f := w 10
  { x1 := lo 0, x2 := hi 0, x3 := lo 1, w1 := hi 1, w2 := lo 2, w3 := hi 2, e1 := lo 3, e2 := hi 3,
    en1 := lo 4, en2 := hi 4, ig := sext (w 5) 48, d1 := lo 6, dres := sext (bitsOf (w 6) 47 32) 16,
    nres := sext (bitsOf (w 6) 63 48) 16, lres := sext (w 7) 16, feRuns := f % 65536, feAct := tbit f 16,
    satHi := tbit f 17, satLo := tbit f 18, iclamp := tbit f 19, prime := tbit f 20, bump := tbit f 21,
    clampOnSwap := tbit f 22, pval := lo 11 }

/-- Two 32-bit fields as a word. -/
def pair32 (lo hi : Int) : Nat := wrap lo 32 + wrap hi 32 * 2 ^ 32

/-- Word 10 of a state block. -/
def Chan.word10 (x : Chan) : Nat :=
  x.feRuns % 65536 + b2n x.feAct * 2 ^ 16 + b2n x.satHi * 2 ^ 17 + b2n x.satLo * 2 ^ 18 + b2n x.iclamp * 2 ^ 19
    + b2n x.prime * 2 ^ 20 + b2n x.bump * 2 ^ 21 + b2n x.clampOnSwap * 2 ^ 22

/-- Word k, 0 to 11, of a state block with the outputs of the run. -/
def Chan.word (x : Chan) (u ur e : Int) (k : Nat) : Nat :=
  match k with
  | 0 => pair32 x.x1 x.x2 | 1 => pair32 x.x3 x.w1 | 2 => pair32 x.w2 x.w3 | 3 => pair32 x.e1 x.e2 | 4 => pair32 x.en1 x.en2
  | 5 => wrap x.ig 48 | 6 => wrap x.d1 32 + wrap x.dres 16 * 2 ^ 32 + wrap x.nres 16 * 2 ^ 48 | 7 => wrap x.lres 16
  | 8 => pair32 u ur | 9 => wrap e 32 | 10 => x.word10 | _ => wrap x.pval 32

/-- The words of the state block that a law and the notch use (R202). -/
def lawWords (pid nen : Bool) : List Nat :=
  (if pid then [0, 5, 6] else [0, 1, 2, 7]) ++ (if nen then [3, 4] ++ (if pid then [] else [6]) else [])

/-- Words of a channel's state block stored with the outputs of the run (R202, R216). -/
def State.setChan (s : State) (c : Nat) (x : Chan) (u ur e : Int) (ks : List Nat) : State :=
  s.each ks fun s k => s.wr (chanAddr c k) 8 (x.word u ur e k)

/-- The supervisor word of a channel: word 10 of its state block (R217). -/
def State.supWord (s : State) (c : Nat) : Nat := s.rd (chanAddr c 10) 8

/-- PRIME_PEND set (R219). -/
def State.primeChan (s : State) (c : Nat) : State := s.wr (chanAddr c 10) 8 (setBit (s.supWord c) 20)

/-! ### Arithmetic (R201) -/

/-- `mul`. -/
def Coef.mul (k : Coef) (x : Int) : Int := floorShift (k.v * x * 65536) k.sh

/-- `mac`. -/
def mac (a : Int) (k : Coef) (x : Int) : Int := sat (a + k.mul x) 80

/-- `msb`. -/
def msb (a : Int) (k : Coef) (x : Int) : Int := sat (a + floorShift (-(k.v * x) * 65536) k.sh) 80

/-- A return to 32 bits without residue. -/
def ret32 (a : Int) : Int := sat (roundShift a 16) 32

/-- `fin`: the value and the residue. -/
def fin (a : Int) : Int × Int :=
  let y := ret32 a
  (y, if y = roundShift a 16 then a - y * 65536 else 0)

/-! ### The channel step (R202, R216) -/

/-- The options of a channel that the step reads. -/
structure ChCfg where
  law : Nat
  nen : Bool
  ffen : Bool
  aux : Nat
  awen : Bool
  feen : Bool
  bumpEn : Bool
deriving DecidableEq, Repr

/-- What a run gives: the new state block, the outputs, and whether the following-error time was reached and the
integrator was clamped in the first run after a swap. -/
structure ChRun where
  st : Chan
  u : Int
  ur : Int
  e : Int
  out1 : Int
  fired : Bool
  swapClamp : Bool
deriving DecidableEq, Repr

/-- The notch of a run, after priming point P1 (R202, R216). -/
def notch (k : Nat → Coef) (x : Chan) (e : Int) : Int × Chan :=
  let a := mac (mac (mac x.nres (k 2) e) (k 3) x.e1) (k 4) x.e2
  let a := msb (msb a (k 5) x.en1) (k 6) x.en2
  let (y, r) := fin a
  (y, { x with nres := r, e2 := x.e1, e1 := e, en2 := x.en1, en1 := y })

/-- The PIDF law with P2: the law's output and the state (R202, R216). -/
def pidf (k : Nat → Coef) (kpOld : Coef) (cfg : ChCfg) (x : Chan) (y p ilo ihi : Int) : Int × Chan :=
  let st := if x.prime then { x with x1 := y, d1 := 0, dres := 0, ig := p * 65536 }
    else if x.bump && cfg.bumpEn then { x with ig := sat (x.ig + kpOld.mul x.x1 - (k 7).mul x.x1) 48 }
    else x
  let ig := sat (st.ig + (k 8).mul y) 48
  let ic := decide (ihi < ig ∨ ig < ilo)
  let ig := clampI ig ilo ihi
  let a := msb (mac (mac st.dres (k 10) st.d1) (k 9) y) (k 9) st.x1
  let (d1, dres) := fin a
  let w := ret32 (sat ((k 7).mul y + ig + d1 * 65536) 80)
  (w, { st with ig := ig, iclamp := ic, d1 := d1, dres := dres, x1 := y })

/-- The CMP2 and CMP3 laws: the law's output and the state. -/
def cmpLaw (k : Nat → Coef) (three : Bool) (x : Chan) (y p : Int) : Int × Chan :=
  let p32 := sext (wrap p 32) 32
  let st := if x.prime then { x with x1 := y, x2 := y, x3 := y, w1 := p32, w2 := p32, w3 := p32, lres := 0 } else x
  let a := mac (mac (mac st.lres (k 7) y) (k 8) st.x1) (k 9) st.x2
  let a := if three then mac a (k 10) st.x3 else a
  let i := if three then 11 else 10
  let a := msb (msb a (k i) st.w1) (k (i + 1)) st.w2
  let a := if three then msb a (k 13) st.w3 else a
  let (w, r) := fin a
  (w, { st with lres := r, iclamp := false, x3 := st.x2, x2 := st.x1, x1 := y, w3 := st.w2, w2 := st.w1, w1 := w })

/-- The following-error timer of P4 (R216, R218): the state and whether the message is due. -/
def followErr (x : Chan) (e femax fetime : Int) : Chan × Bool :=
  if femax < e.natAbs then
    let n := min (x.feRuns + 1) 65535
    let hit := decide ((n : Int) = fetime) && !x.feAct
    ({ x with feRuns := n, feAct := x.feAct || hit }, hit)
  else ({ x with feRuns := 0, feAct := false }, false)

/-- One run of a channel with valid parameters: `k` the coefficients of the active bank, `par` its supervision
parameters, `p` the preload. -/
def chanStep (k : Nat → Coef) (par : Nat → Int) (kpOld : Coef) (cfg : ChCfg) (x0 : Chan) (r f v p : Int) : ChRun :=
  let e := ret32 (msb (mac 0 (k 0) r) (k 1) f)
  let x := if x0.prime then
      let y := if cfg.nen then { x0 with e1 := e, e2 := e, en1 := e, en2 := e, nres := 0 } else x0
      { y with feRuns := 0, feAct := false, pval := p }
    else x0
  let (y, x) := if cfg.nen then notch k x e else (e, x)
  let ihi := par 18 * 65536
  let ilo := par 19 * 65536
  let pid := cfg.law = 0
  let (w, x) := if pid then pidf k kpOld cfg x y p ilo ihi else cmpLaw k (cfg.law == 2) x y p
  let a := sat (w * 65536) 80
  let ur := ret32 (if cfg.ffen then mac a (k 14) v else a)
  let u := clampI ur (par 17) (par 16)
  let rw := cfg.awen && u != ur
  let x := if rw && pid then { x with ig := clampI (x.ig - (ur - u) * 65536) ilo ihi } else x
  let (x, fired) := if cfg.feen then followErr x e (par 20) (par 21) else (x, false)
  let x := if rw && !pid then { x with w1 := sat (x.w1 - (ur - u)) 32 } else x
  let sc := x0.bump && x.iclamp
  let x := { x with satHi := decide (par 16 < ur), satLo := decide (ur < par 17), prime := false, bump := false,
                    clampOnSwap := if x0.bump then x.iclamp else x.clampOnSwap }
  let out1 := if cfg.aux = 0 then e else if cfg.aux = 1 then y else if cfg.aux = 2 then ur
    else if pid then roundShift x.ig 16 else x.w1
  { st := x, u := u, ur := ur, e := e, out1 := out1, fired := fired, swapClamp := sc }

/-! ### Turn Order and due channels (R196, R197) -/

/-- The valid Turn Order positions of a channel, lowest first. -/
def State.turnOf (s : State) (c : Nat) : List Nat :=
  (upto 192).filter fun p => s.bit (CE_TURN_VALID p) && s.fld (CE_TURN_CH p) == c

/-- The Turn Order is invalid (R197). -/
def State.turnBad (s : State) : Bool :=
  (upto 192).any fun c =>
    let n := (s.turnOf c).length
    decide (1 < n) || (s.bit (CE_CH_CFG_EN c) && n == 0)

/-- The states that a RUNS code names (R194). -/
def runsIn (runs op : Nat) : Bool :=
  match runs with
  | 0 => op == 6
  | 1 => op == 5 || op == 6
  | 2 => decide (4 ≤ op ∧ op ≤ 8)
  | _ => false

/-- Channel c is due in the present tick (R196). DESIGN CHOICE (log 35): in BENCH every tick of a pipeline that is not halted
counts as released (R473 stops the phases by HALT alone). -/
def State.due (s : State) (c : Nat) : Bool :=
  let rate := s.fld (CE_CH_CFG_RATE c)
  s.bit (CE_CH_CFG_EN c) && runsIn (s.fld (CE_CH_CFG_RUNS c)) s.op && !(s.turnOf c).isEmpty
    && s.now % 2 ^ rate == s.fld (CE_CH_CFG_PHASE c) % 2 ^ rate

/-- The channel that runs at a Turn Order position: the one it holds, in its lowest position (R197). -/
def State.chanAt (s : State) (p : Nat) : Option Nat :=
  let c := s.fld (CE_TURN_CH p)
  if s.bit (CE_TURN_VALID p) && (s.turnOf c).head? == some p && s.due c then some c else none

/-- Message of a channel from its source (R211). -/
def State.chanSend (s : State) (c kind detail : Nat) : State :=
  s.send (0x200 + s.fld (CE_CH_CFG_FSRC c)) kind (c * 2 ^ 24 + detail)

/-- Checked reads of a run, in order, until one is uncorrectable: the failing address, the number of corrected
reads, and the state (R210, R452). -/
def State.checkedReads (s : State) : List Nat → Nat → Option Nat × Nat × State
  | [], n => (none, n, s)
  | a :: t, n =>
    match s.checkedRead a with
    | (.ue, s) => (some a, n, s)
    | (e, s) => State.checkedReads s t (n + b2n e.fixed)

/-- The coefficient words a run reads (R204, R500). -/
def coefWords (cfg : ChCfg) (pre : Bool) : List Nat :=
  [16, 17, 18, 19, 20, 21, 0, 1] ++ (if cfg.nen then [2, 3, 4, 5, 6] else [])
    ++ (match cfg.law with | 0 => [7, 8, 9, 10] | 1 => [7, 8, 9, 10, 11] | _ => [7, 8, 9, 10, 11, 12, 13])
    ++ (if cfg.ffen then [14] else []) ++ (if pre then [22] else [])

/-- The state words a run reads: word 10, and outside a priming run the other supervisor words (R217, R226) and the state
its law and options use. -/
def stateWords (cfg : ChCfg) (prime : Bool) : List Nat :=
  10 :: (if prime then [] else [11, 12, 13, 14, 15] ++ lawWords (cfg.law == 0) cfg.nen)

/-- The state words a run writes: what its law and options use, the outputs, word 10, and the preload of a priming run
(R202, R216, R220). -/
def writtenWords (cfg : ChCfg) (prime : Bool) : List Nat :=
  lawWords (cfg.law == 0) cfg.nen ++ [8, 9, 10] ++ (if prime then [11] else [])

/-- An abandoned run in the tick's record, with its end cycle: the run is not an overrun. -/
def State.chanAbandon (s : State) (c fin : Nat) : State :=
  { s with eng := { s.eng with aband := s.eng.aband ++ [c], endCyc := fin } }

/-- A run of channel c whose reads have succeeded, ending in cycle `last`. -/
def State.chanRun (s : State) (c : Nat) (cfg : ChCfg) (fin : Nat) (r f v pre : Int) : State :=
  let b := s.bankOf c
  let x := s.chan c
  let q := chanStep (s.coef b c) (s.param b c) (s.coef (1 - b) c 7) cfg x r f v pre
  let s := s.setChan c q.st q.u q.ur q.e (writtenWords cfg x.prime)
  let s := (s.setSlot (0x200 + 2 * c) q.u).setSlot (0x201 + 2 * c) q.out1
  let s := if q.fired then
      (s.flagBit (CE_FE (c / 32)) (c % 32)).chanSend c 0x11 (wrap q.e 32 / 65536)
    else s
  let s := s.when q.swapClamp (·.flagBit (CE_CLAMP_ON_SWAP (c / 32)) (c % 32))
  { s with eng := { s.eng with done := s.eng.done ++ [c], endCyc := fin, lastEnd := fin } }

/-- CHANNEL_STEP (R49, R50, R198, R202, R210, R216, R500): the slot of Turn Order position p. A channel that cannot
complete by cycle 867 is abandoned and still holds the engine to its end. DESIGN CHOICE (log 125): state words are read before
the coefficients, the first uncorrectable one is reported, and an error of a word goes before an invalid set. -/
def channelStep (s : State) (p : Nat) : State :=
  match s.chanAt p with
  | none => s
  | some c =>
    let start := max (100 + 4 * p) s.eng.endCyc
    if 868 ≤ start ∨ s.eng.done.contains c ∨ s.eng.aband.contains c then s
    else
      let cfg : ChCfg :=
        { law := s.fld (CE_CH_CFG_LAW c), nen := s.bit (CE_CH_CFG_NEN c), ffen := s.bit (CE_CH_CFG_FFEN c),
          aux := s.fld (CE_CH_CFG_AUX_SEL c), awen := s.bit (CE_CH_SUP_AWEN c), feen := s.bit (CE_CH_SUP_FEEN c),
          bumpEn := s.bit (CE_CH_SUP_BUMP c) }
      let b := s.bankOf c
      let s := s.pipeRead (slotWords (((if s.bit (CE_CH_IN_REF_EN c) then [s.fld (CE_CH_IN_REF c)] else []) ++
        (if s.bit (CE_CH_IN_FB_EN c) then [s.fld (CE_CH_IN_FB c)] else [])) ++
        ((if cfg.ffen then [s.fld (CE_CH_IN_FF c)] else []) ++
        (if s.bit (CE_CH_SUP_PRE_SRC c) then [] else [s.fld (CE_CH_SUP_PRE_SLOT c)]))))
      let w10 := (s.wordAt (chanAddr c 10)).toNat
      let prime := tbit w10 20
      let pre := prime && !s.bit (CE_CH_SUP_PRE_SRC c)
      let r := if s.bit (CE_CH_IN_REF_EN c) then s.slot (s.fld (CE_CH_IN_REF c)) else 0
      let f := if s.bit (CE_CH_IN_FB_EN c) then s.slot (s.fld (CE_CH_IN_FB c)) else 0
      let v := if cfg.ffen then s.slot (s.fld (CE_CH_IN_FF c)) else 0
      let pslot := s.slot (s.fld (CE_CH_SUP_PRE_SLOT c))
      let bad := if s.paramOk b c then s.eng.badRun.filter (· != c) else s.eng.badRun
      let s := { s with eng := { s.eng with reads := mput s.eng.reads c (r, f, v, pslot), badRun := bad } }
      let kp := if cfg.law = 0 && tbit w10 21 && !prime && cfg.bumpEn then [coefAddr (1 - b) c 7] else []
      let (ue, n1, s) := s.checkedReads ((stateWords cfg prime).map (chanAddr c)) 0
      match ue with
      | some a =>
        let k := (a - chanAddr c 0) / 8
        let s := (s.count CE_CNT_UE CE_CNT_OVF 1 1).flag CE_STAT_UE_SEEN
        (((s.count CE_CNT_STALL CE_CNT_OVF 0 n1).chanSend c 0x13 (k * 2 ^ 20)).primeChan c).chanAbandon c (start + 4 + n1)
      | none =>
        let (ue, n2, s) := s.checkedReads (((coefWords cfg pre).map (coefAddr b c)) ++ kp) 0
        let s := s.count CE_CNT_STALL CE_CNT_OVF 0 (n1 + n2)
        match ue with
        | some a =>
          let bk := (a - 0x30000000) / 0x80000
          let k := a % 256 / 8
          let s := (s.count CE_CNT_UE CE_CNT_OVF 1 1).flag CE_STAT_UE_SEEN
          (s.chanSend c 0x12 (bk * 2 ^ 23 + k * 2 ^ 18)).chanAbandon c (start + 4 + n1 + n2)
        | none =>
          if !s.paramOk b c then
            let s := if s.eng.badRun.contains c then s
              else ({ s with eng := { s.eng with badRun := s.eng.badRun ++ [c] } }).chanSend c 0x19 0
            s.chanAbandon c (start + 4 + n1 + n2)
          else if 868 < start + 4 + n1 + n2 then { s with eng := { s.eng with endCyc := start + 4 + n1 + n2 } }
          else
            let ipre := s.param b c 22
            s.chanRun c cfg (start + 4 + n1 + n2) r f v (if s.bit (CE_CH_SUP_PRE_SRC c) then pslot else ipre)

def execChannelStep (p : Fin 192) (s : State) : Host.Outcome State Fault Refusal :=
  .next (s.inPhase fun s => channelStep s p)

/-- Position p's channel was due but is not among those that ran or were abandoned (R225). -/
def State.fenceAt (s : State) (p : Nat) : State :=
  match s.chanAt p with
  | none => s
  | some c =>
    if s.eng.done.contains c || s.eng.aband.contains c then s
    else
      let started := (mget none (s.eng.reads.map fun q => (q.1, some q.2)) c).isSome
      (s.flagBit (CE_OVR (c / 32)) (c % 32)).chanSend c 0x10 (b2n started * 2 ^ 23 + p * 2 ^ 14)

/-- CONTROL_FENCE (R50, R225, `CE_SLACK`). -/
def controlFence (s : State) : State :=
  let s := s.each (upto 192) State.fenceAt
  let s := if s.eng.done.isEmpty then s.setFld CE_SLACK_LAST_END 0
    else
      let s := s.setFld CE_SLACK_LAST_END s.eng.lastEnd
      s.setFld CE_SLACK_MIN_SLACK (min (s.fld CE_SLACK_MIN_SLACK) (868 - s.eng.lastEnd))
  { s with eng := { s.eng with done := [], aband := [], endCyc := 0, lastEnd := 0 } }

def execControlFence (s : State) : Host.Outcome State Fault Refusal := .next (s.inPhase controlFence)

/-! ### Swaps (R221 to R223) -/

/-- A GO at `CE_SWAP_CTRL` (R221, R223). -/
def State.swapGo (s : State) : State :=
  let at_ := s.bit CE_SWAP_CTRL_AT
  let ahead := wrap ((s.fld CE_SWAP_TICK : Int) - (s.now % 2 ^ 32 : Nat)) 32
  let shadow := s.role = 1 ∧ s.partnerShadow
  let ok := s.eng.swap.isNone && s.role != 2
    && (if at_ then decide (2 ≤ ahead ∧ ahead ≤ 2 ^ 31) && (!decide shadow || decide (128 ≤ ahead)) else !decide shadow)
  if ok then
    let sel := (upto 192).filter fun c => tbit (s.fld (CE_SWAP_SEL (c / 32))) (c % 32)
    { s.flag CE_SWAP_CTRL_PEND with
      eng := { s.eng with swap := some ⟨sel, if at_ then s.now + ahead else s.now + 1⟩ } }
  else (s.flag CE_SWAP_CTRL_REJ).send 0x270 0x17 0

/-- SWAP_REQUEST: a write of `CE_SWAP_CTRL`. -/
def swapWrite (s : State) (m : Master) (val : Nat) : State :=
  let s := s.regWrite m 0x40080 val
  if wbits val CE_SWAP_CTRL_GO = 1 && !s.inFreset 0x40080 then s.unlessHold State.swapGo else s

def execSwapRequest (m : Master) (val : Word) (s : State) : Host.Outcome State Fault Refusal :=
  .next (swapWrite s m val.toNat)

/-- One channel of a swap (R222). -/
def State.swapChan (s : State) (c : Nat) : State :=
  let b := s.bankOf c
  if s.paramOk (1 - b) c then
    let i := CE_BANK_ACT (c / 32)
    let s := s.setFld i (if b = 0 then setBit (s.fld i) (c % 32) else clrBit (s.fld i) (c % 32))
    s.wr (chanAddr c 10) 8 (setBit (s.supWord c) 21)
  else (s.flag CE_SWAP_CTRL_SWAP_BAD).send 0x270 0x18 (c * 2 ^ 24)

/-- BANK_SWAP (R222): at cycle 0 of the tick the pending swap names. -/
def bankSwap (s : State) : State :=
  match s.eng.swap with
  | none => s
  | some w =>
    if s.now < w.tick then s
    else
      let s := s.each w.sel State.swapChan
      { s.setFld CE_SWAP_CTRL_PEND 0 with eng := { s.eng with swap := none } }

def execBankSwap (s : State) : Host.Outcome State Fault Refusal := .next (bankSwap s)

/-- PRIME_REQUEST: a write of 1 to `CE_CHc_SUP.PRIME`, a mirrored request (R219, R295). -/
def primeRequest (s : State) (m : Master) (c : Nat) : State := s.unlessHold fun s => s.mirrored m 4 c fun s => s.primeChan c

def execPrimeRequest (m : Master) (c : Fin 192) (s : State) : Host.Outcome State Fault Refusal := .next (primeRequest s m c)

/-- SLACK_CLEAR: a write of 1 to `CE_CNT_CLR.SLACK_CLR` (R213). -/
def execSlackClear (_m : Master) (s : State) : Host.Outcome State Fault Refusal :=
  .next (s.setFld CE_SLACK_MIN_SLACK 0x300)

/-- A write that changes `CE_TURN_p` or `CE_CHc_CFG` (R197): TURN_ERR shows the validity; from PARKED on a write that
leaves the Turn Order invalid is reported. -/
def State.turnCheck (s : State) (report : Bool) : State :=
  let bad := s.turnBad
  let s := s.setFld CE_STAT_TURN_ERR (b2n bad)
  if bad && report && decide (4 ≤ s.op) then (s.flag CE_STAT_TURN_SEEN).send 0x270 0x14 0 else s

/-- A channel of the Turn Order whose RUNS named the old operating state and not the new one primes at its next run (R219). -/
def State.primeOnState (s : State) (old new : Nat) : State :=
  if old = new then s
  else s.each (upto 192) fun s c =>
    if s.bit (CE_CH_CFG_EN c) && runsIn (s.fld (CE_CH_CFG_RUNS c)) old && !runsIn (s.fld (CE_CH_CFG_RUNS c)) new
        && !(s.turnOf c).isEmpty
    then s.primeChan c else s

/-- Function reset of the engine, beside the status fields (R212, R227): word 10 of every block returns to its reset
value; a pending swap and the record of the channels that have run in the tick stay. DESIGN CHOICE (log 125): the runs of ticks with
an invalid set (R500) begin anew. -/
def State.engFreset (s : State) : State :=
  let s := s.each (upto 192) fun s c => s.wr (chanAddr c 10) 8 0x100000
  let s := s.setFld CE_STAT_TURN_ERR (b2n s.turnBad)
  { s.setFld CE_SWAP_CTRL_PEND (b2n s.eng.swap.isSome) with eng := { s.eng with badRun := [] } }

end Sys2Proof.Machine
end

