-- ==== Sys2Proof/Machine/Time.lean ====
section
/-! DEFINITION. Station time (chapter 12): the counter, the two time domains, selection, modes, steps, PTP and TP0
samples, TP1, and the loss of CK_TIME. -/
namespace Sys2Proof.Machine
open Sys2Proof

/-! ### The local scale and control time (R261, R266, R275) -/

/-- Control time read within the present tick, in 2^-32 ns: at or after its start and the last read, and before the next
boundary; the instant within the tick is a free value (log entry 10). Until PLL_TIME has locked it reads 0 (R262). -/
def State.ctRead (s : State) : Nat × State :=
  if !s.ctl.clocked then (s.time.ct0 * 2 ^ 32, s)
  else
    let (v, s) := s.draw 96
    let pos := s.time.rd + v % max 1 ((s.ctl.nextB - s.time.ct0) * 2 ^ 32 - s.time.rd)
    ((s.time.ct0 * 2 ^ 32 + pos) % 2 ^ 96, { s with time := { s.time with rd := pos } })

/-- Control time read within the present tick, in 1/16 ns: the resolution of a timestamp (R399). -/
def State.ctStamp (s : State) : Nat × State :=
  let (v, s) := s.ctRead
  (v / 2 ^ 28, s)

/-- Local instant in 2^-16 ns at which control time has a value given in 1/16 ns (R261). -/
def State.localAt (s : State) (ct16 : Nat) : Int :=
  let d : Int := swrap ((ct16 : Int) * 2 ^ 28 - s.time.edgeC) 96
  (s.time.edgeL : Int) * 65536 + floorDiv (d * 4 * 65536) s.time.inc

/-- The model of a domain, and its update. -/
def State.dom (s : State) (d : Nat) : Dom := if d = 0 then s.time.dom0 else s.time.dom1
def State.setDom (s : State) (d : Nat) (x : Dom) : State :=
  if d = 0 then { s with time := { s.time with dom0 := x } } else { s with time := { s.time with dom1 := x } }

/-- State code and rate of a domain (R266, R267). -/
def State.domSt (s : State) (d : Nat) : Nat := s.fld (TIM_D_STAT_STATE d)
def State.domY (s : State) (d : Nat) : Int := sext (s.fld (TIM_D_FREQ d)) 32

/-- A domain's predicted time at a local instant, both in 2^-16 ns (R266). -/
def State.domTime (s : State) (d : Nat) (l16 : Int) : Int :=
  let x := s.dom d
  l16 + x.th + roundShift (s.domY d * (l16 - x.ld * 65536)) 40

/-- A domain's time minus control time at the boundary, in 2^-16 ns; control time wraps at 2^64 ns (R13, R269). -/
def State.ctErr (s : State) (t16 : Int) : Int := swrap (t16 - (s.time.ct0 : Int) * 65536) 80

/-- A rounded asymmetry in 2^-16 ns (R274). -/
def asym16 (v : Nat) : Int := floorDiv (sext v 32 * 16 + 500) 1000 * 4096

/-- qt shown in `TIM_Dd_STAT` (R267). -/
def State.showDom (s : State) (d : Nat) : State :=
  s.setFld (TIM_D_STAT_QT d) (min ((s.dom d).qt / 1000000000).toNat 4095)

/-- Clocks lost now include CK_TIME (R59). -/
def State.timeLost (s : State) : Bool := s.ctl.lost.contains 0x013

/-- R272: the two domains are USABLE and too far apart; DOM_DISAGREE once per episode. -/
def State.disagreeCheck (s : State) : State :=
  let l : Int := s.time.l16
  let dis := s.domSt 0 == 3 && s.domSt 1 == 3
    && decide (s.fld TIM_DIFF_MAX * 65536 < (s.domTime 0 l - s.domTime 1 l).natAbs)
  let s' := s.setFld TIM_STAT_DISAGREE (b2n dis)
  s'.sendIf (dis && !s.bit TIM_STAT_DISAGREE) 0x340 0x14 0

/-- The quotient of the frequency update (R266). `floor_div` has no result for a sample that is not later than the last
one: that quotient is a free value (log entry 92). -/
def State.freqStep (s : State) (x : Int) (dt : Int) (sh : Nat) : Int × State :=
  if 0 < dt then (x * 2 ^ 24 / (dt * 2 ^ sh), s)
  else
    let (v, s) := s.draw 64
    (sext v 64, s)

/-- DOMAIN_SAMPLE (R266): offset `m` of domain time over L in 2^-16 ns at local instant `ls` in ns; `freq` replaces
the innovation in the frequency update when the 10 MHz input measured it (R265). The assignments keep the low bits of
their declared widths (R16). -/
def State.domSample (s : State) (d : Nat) (m : Int) (ls : Nat) (freq : Option Int) : State :=
  if s.domSt d = 0 ∨ s.timeLost then s
  else
    let x := s.dom d
    let restart (s : State) : State :=
      ((s.setDom d { s.dom d with th := swrap m 64, ld := ls, qt := 0, first := false }).setFld
        (TIM_D_STAT_STATE d) 2).showDom d
    let y := s.domY d
    let dt := swrap ((ls : Int) - x.ld) 64
    let pred := swrap (x.th + roundShift (y * dt * 65536) 40) 64
    let inn := swrap (m - pred) 64
    if s.domSt d = 1 ∨ x.first then restart s
    else if 1000 * 65536 ≤ inn.natAbs then
      let s := (s.count TIM_CNT_STEP TIM_CNT_OVF 0 1).flag TIM_STAT_STEP_SEEN
      restart (s.send (0x341 + d) 0x15 0)
    else
      let (q, s) := s.freqStep (freq.getD inn) dt (s.fld (TIM_D_GAIN_KI_SH d))
      let yn := swrap (y + q) 64
      let y' := clampI yn (-109951162) 109951162
      let bad := decide (yn ≠ y')
      let s := s.setFld (TIM_D_FREQ d) (wrap y' 32)
      let s := s.sendIf bad (0x341 + d) 0x16 0
      let s := s.when bad (·.setFld (TIM_D_STAT_STATE d) 2)
      let qt := if bad then 0 else x.qt
      let qual := s.domSt d == 2
      let qt := if !qual then qt
        else if inn.natAbs ≤ s.fld (TIM_D_QUAL_TOL d) * 65536 then qt + dt else 0
      let s := s.setDom d
        { x with th := swrap (pred + roundShift inn (s.fld (TIM_D_GAIN_KP_SH d))) 64, ld := ls, qt := qt }
      let ok := qual && decide (s.fld (TIM_D_QUAL_QUAL_S d) * 1000000000 ≤ qt)
      let s := s.when ok (·.setFld (TIM_D_STAT_STATE d) 3)
      ((s.sendIf ok (0x341 + d) 0x18 0).showDom d).disagreeCheck

/-! ### PTP (R264, R399) -/

/-- A token of a station port's bucket c (R395): taken, or none left. Tokens are kept in thousandths. -/
def State.takeToken (s : State) (p c : Nat) : Bool × State :=
  let x : Stn := mget {} s.stn p
  let burst := s.fld (STN_RATE_BURST p c) * 1000
  let has := min burst (mget burst x.tokens c + s.fld (STN_RATE_RATE p c) * (s.now - mget 0 x.tokTick c))
  let ok := decide (1000 ≤ has)
  let x := { x with tokens := mput x.tokens c (if ok then has - 1000 else has), tokTick := mput x.tokTick c s.now }
  (ok, { s with stn := mset {} s.stn p x })

/-- A PTP frame at a port: what it does when the path is on and the bucket has a token; otherwise dropped and
counted (R399, R403), with the path off as a frame that R388 or R389 drops. -/
def State.ptpFrame (s : State) (p : Nat) (f : State → State) : State :=
  if !s.bit (STN_CTRL_EN p) then s
  else if !s.bit (STN_CTRL_PTP_EN p) then s.count (STN_CNT p 1) (STN_CNT_OVF p) 1 1
  else
    let (ok, s) := s.takeToken p 4
    if ok then f s else s.count (STN_CNT p 9) (STN_CNT_OVF p) 9 1

/-- The domains whose source is PTP on a port with a domain number (R263). -/
def State.ptpDoms (s : State) (p pdom : Nat) : List Nat :=
  [0, 1].filter fun d => s.fld (TIM_D_CFG_SRC d) == 1 && s.fld (TIM_D_CFG_PORT d) == p
    && s.fld (TIM_D_CFG_PDOM d) == pdom

/-- A PTP message that no domain names is dropped and counted (R399). -/
def State.ptpFor (s : State) (p pdom : Nat) (f : State → Nat → State) : State :=
  match s.ptpDoms p pdom with
  | [] => s.count (STN_CNT p 9) (STN_CNT_OVF p) 9 1
  | ds => ds.foldl f s

/-- The Announces of a grandmaster, the last of them in tick t, have stopped for the receipt time-out of the profile. -/
def State.gmSilent (s : State) (t : Nat) : Bool := decide (t + Config.announceTimeout ≤ s.now)

/-- PTP_SYNC_RX (R264, R266): a Sync of the selected grandmaster, while its Announces go on, is a sample. The sample is t2 − (originTimestamp + correctionField) − meanLinkDelay with t2
corrected under R274; the domain's time leads control time by minus the sample, and L at the same instant is `ls`. -/
def ptpSync (s : State) (p : Nat) (msg : PtpSync) : State :=
  s.ptpFrame p fun s => s.ptpFor p msg.pdom.toNat fun s d =>
    let x := s.dom d
    match x.gm with
    | none => s
    | some (id, _, at_) =>
      if id ≠ msg.src.toNat ∨ s.gmSilent at_ then s
      else
        let t2 : Int := (msg.t2 : Int) * 4096 - asym16 (s.fld (TIM_ASYM_ING p))
        let org : Int := ((msg.sec.toNat * 1000000000 + msg.ns.toNat : Nat) : Int) * 65536
        let sample := t2 - (org + msg.corr) - x.mld
        let m := (msg.t2 : Int) * 4096 - (msg.ls : Int) * 65536 - sample
        let s := s.setDom d { x with intv := (clampI msg.intv 62500000 1000000000).toNat }
        s.domSample d m msg.ls none

/-- The rank of a data set in the comparison of IEEE 1588-2019 clause 9.3.4, the smaller the better: priority1, clockClass,
clockAccuracy, offsetScaledLogVariance, priority2 and identity of the grandmaster, then the steps to it and the sender
(PRESUMED from the standard, log entry 75). -/
def announceRank (m : PtpAnnounce) : Nat :=
  (m.prio1 ++ m.cls ++ m.acc ++ m.var ++ m.prio2 ++ m.gm ++ m.steps ++ m.src).toNat

/-- A foreign master is qualified by a second Announce within four intervals, less than 255 steps away (clause 9.3.2.5 of IEEE
1588-2019; PRESUMED, log entry 75). -/
def State.qualified (s : State) (x : Dom) (msg : PtpAnnounce) : Bool :=
  decide (msg.steps.toNat < 255) &&
    (match mget none (x.heard.map fun q => (q.1, some q.2)) msg.src.toNat with
      | some t => decide (s.now ≤ t + 4 * Config.announceInterval)
      | none => false)

/-- ANNOUNCE_RX (R264): the best master clock algorithm over the Announces of the port. A grandmaster whose Announces have
stopped for the receipt time-out of the profile no longer takes part; another replaces it when it is qualified and better. -/
def announceRx (s : State) (p : Nat) (msg : PtpAnnounce) : State :=
  s.ptpFrame p fun s => s.ptpFor p msg.pdom.toNat fun s d =>
    let x := s.dom d
    let y := { x with heard := mput x.heard msg.src.toNat s.now }
    let new := match x.gm with
      | none => s.qualified x msg
      | some (id, rank, t) =>
        id == msg.src.toNat || (s.qualified x msg && (s.gmSilent t || decide (announceRank msg < rank)))
    if !new then s.setDom d y
    else ((s.setDom d { y with gm := some (msg.src.toNat, announceRank msg, s.now) }).setFld TIM_UTC_OFS msg.utc.toNat).setFld
      TIM_UTC_VALID (b2n msg.utcValid)

/-- A PTP message leaves a port (R399), and is counted as sent (R403). -/
def State.ptpSend (s : State) (a : PtpTx) : State :=
  { s with time := { s.time with ptpTx := (a :: s.time.ptpTx).take 16 } }.count (STN_CNT a.port 8) (STN_CNT_OVF a.port) 8 1

/-- PDELAY_REQ_RX (R399): answered two-step, the receive timestamp corrected under R274; the transmit timestamp of
the Follow_Up is a free value. -/
def pdelayReq (s : State) (p : Nat) (msg : PtpPdelayReq) : State :=
  s.ptpFrame p fun s =>
    let t2 := ((msg.t2 : Int) - asym16 (s.fld (TIM_ASYM_ING p)) / 4096).toNat
    let (t3, s) := s.ctStamp
    let t3 := ((t3 : Int) + asym16 (s.fld (TIM_ASYM_EGR p)) / 4096).toNat
    let a : PtpTx := { port := p, type := 3, pdom := msg.pdom.toNat, dst := msg.src.toNat, seq := msg.seq.toNat, time := t2 }
    (s.ptpSend a).ptpSend { a with type := 0xA, time := t3 }

/-- The Pdelay_Req of a port that a PTP domain names, once the profile's interval has passed since its last one (R264, log
entry 75); the transmit timestamp is a free value. -/
def State.pdelaySend (s : State) (p : Nat) : State :=
  let ds := [0, 1].filter fun d => s.fld (TIM_D_CFG_SRC d) == 1 && s.fld (TIM_D_CFG_PORT d) == p
  match ds with
  | [] => s
  | d :: _ =>
    let last := s.time.pdly.find? fun x => x.1 == p
    let owed := match last with
      | none => true
      | some x => decide (x.2.1 + Config.pdelayInterval ≤ s.now)
    if !owed || !s.bit (STN_CTRL_EN p) || !s.bit (STN_CTRL_PTP_EN p) then s
    else
      let seq := match last with
        | none => 0
        | some x => (x.2.2 + 1) % 65536
      let (t1, s) := s.ctStamp
      let t1 := ((t1 : Int) + asym16 (s.fld (TIM_ASYM_EGR p)) / 4096).toNat
      let a : PtpTx := { port := p, type := 2, pdom := s.fld (TIM_D_CFG_PDOM d), dst := 0, seq := seq, time := t1 }
      { s with time := { s.time with pdly := mput s.time.pdly p (s.now, seq) } }.ptpSend a

/-- PDELAY_RESP_RX (R264): meanLinkDelay of the port's domains from the four timestamps. -/
def pdelayResp (s : State) (p : Nat) (msg : PtpPdelayResp) : State :=
  s.ptpFrame p fun s => s.ptpFor p msg.pdom.toNat fun s d =>
    let t1 := msg.t1 + asym16 (s.fld (TIM_ASYM_EGR p))
    let t4 := msg.t4 - asym16 (s.fld (TIM_ASYM_ING p))
    s.setDom d { s.dom d with mld := floorDiv ((t4 - t1) - (msg.t3 - msg.t2) - msg.corr) 2 }

def execPtpSyncRx (p : Fin 4) (msg : PtpSync) (s : State) : Host.Outcome State Fault Refusal := .next (ptpSync s p msg)
def execAnnounceRx (p : Fin 4) (msg : PtpAnnounce) (s : State) : Host.Outcome State Fault Refusal :=
  .next (announceRx s p msg)
def execPdelayReqRx (p : Fin 4) (msg : PtpPdelayReq) (s : State) : Host.Outcome State Fault Refusal :=
  .next (pdelayReq s p msg)
def execPdelayRespRx (p : Fin 4) (msg : PtpPdelayResp) (s : State) : Host.Outcome State Fault Refusal :=
  .next (pdelayResp s p msg)

/-! ### TP0 (R265) -/

/-- TP0_PULSE: a rising edge of 1PPS timestamped `t` in 1/16 ns of control time; `mhz` is the local time in 1/16 ns
that the second's 10 MHz cycles took, when that input is present. -/
def tp0Pulse (s : State) (t : Nat) (mhz : Option Nat) : State :=
  let l16 := s.localAt t
  let ct : Int := (t : Int) * 4096 - asym16 (s.fld (TIM_ASYM_ING 4))
  let own : Nat := s.fld TIM_TP0_SEC_LO + s.fld TIM_TP0_SEC_HI * 2 ^ 32
  let s := [0, 1].foldl (fun s d =>
    if s.fld (TIM_D_CFG_SRC d) ≠ 2 then s
    else
      let sec : Int := if s.bit TIM_TP0_SECSRC then own
        else floorDiv (s.domTime (1 - d) l16 + 500000000 * 65536) (1000000000 * 65536)
      let off := sec * 1000000000 * 65536 - ct
      let m := off + (t : Int) * 4096 - l16
      let freq := mhz.map fun n =>
        let dl : Int := (n : Int) * 4096
        1000000000 * 65536 - (dl + roundShift (s.domY d * dl) 40)
      s.domSample d m (l16 / 65536).toNat freq) s
  let n := (own + 1) % 2 ^ 64
  (s.setFld TIM_TP0_SEC_LO (n % 2 ^ 32)).setFld TIM_TP0_SEC_HI (n / 2 ^ 32)

def execTp0Pulse (t : Nat) (mhz : Option Nat) (s : State) : Host.Outcome State Fault Refusal :=
  .next (tp0Pulse s t mhz)

/-! ### Loss of samples, SRC writes, holdover (R267, R269) -/

/-- Sample interval of the loss count (R267). -/
def State.sampleIntv (s : State) (d : Nat) : Nat :=
  match s.fld (TIM_D_CFG_SRC d) with
  | 1 => if (s.dom d).intv = 0 then 1000000000 else (s.dom d).intv
  | 3 => 1000000
  | 4 => 1000000
  | _ => 1000000000

/-- DOM_LOST: no sample for LOSS_N intervals. -/
def domLost (s : State) (d : Nat) : State :=
  if (s.domSt d = 2 ∨ s.domSt d = 3) ∧ !s.timeLost
      ∧ (s.dom d).ld + s.fld (TIM_D_QUAL_LOSS_N d) * s.sampleIntv d ≤ s.time.l16 / 65536 then
    ((s.setFld (TIM_D_STAT_STATE d) 1).setDom d { s.dom d with qt := 0 }).showDom d |>.send (0x341 + d) 0x17 0
  else s

def execDomLost (d : Fin 2) (s : State) : Host.Outcome State Fault Refusal := .next (domLost s d)

/-- A domain after a write of its SRC or a chip reset (R266, R267). -/
def State.srcWritten (s : State) (d : Nat) : State :=
  ((s.setFld (TIM_D_STAT_STATE d) (if s.fld (TIM_D_CFG_SRC d) = 0 then 0 else 1)).setDom d
    { s.dom d with first := true, qt := 0, intv := 0, gm := none, heard := [] }).showDom d

/-- A write of `TIM_Dd_CFG`; its SRC field acts unless it is locked or reserved. -/
def domCfgWrite (s : State) (m : Master) (d val : Nat) : State :=
  let ok := !s.locked && decide (wbits val (TIM_D_CFG_SRC d) ≤ 4)
  let s := s.regWrite m (0x20100 + 64 * d) val
  if ok then s.srcWritten d else s

def execDomainSrcWrite (m : Master) (d : Fin 2) (val : Word) (s : State) : Host.Outcome State Fault Refusal :=
  .next (domCfgWrite s m d val.toNat)

/-- The mode becomes FREERUN and a pending step is dropped (R269, R271). -/
def State.toFreerun (s : State) : State :=
  { s with time := { s.time with mode := 0, sUse := 0, stepPend := false } }

/-- HO_EXPIRED: HOLDOVER has lasted LIMIT seconds. -/
def hoExpired (s : State) : State :=
  if s.time.mode = 3 ∧ s.fld TIM_HO_LIMIT * 1000000000 ≤ s.time.hoNs then s.toFreerun.send 0x340 0x11 0 else s

def execHoExpired (s : State) : Host.Outcome State Fault Refusal := .next (hoExpired s)

/-! ### CK_TIME (R59, R280) -/

/-- CK_TIME is lost: ticks run free, the domain models are frozen. -/
def State.ckTimeLost (s : State) : State :=
  let s := if s.timeLost then s else { s with ctl := { s.ctl with lost := s.ctl.lost ++ [0x013] } }
  (s.flag CLK_MON_TIME_FREERUN).toFreerun

/-- CK_TIME returns: every domain with a source re-enters QUAL and starts afresh. -/
def State.ckTimeBack (s : State) : State :=
  if !s.timeLost then s
  else
    let s := { s with ctl := { s.ctl with lost := s.ctl.lost.filter (· != 0x013), edge0 := s.time.edgeL },
                      time := { s.time with edgeC := s.time.ct0 * 2 ^ 32, l16 := s.time.edgeL * 65536 } }
    let s := s.setFld CLK_MON_TIME_FREERUN 0
    [0, 1].foldl (fun s d =>
      if s.fld (TIM_D_CFG_SRC d) = 0 then s
      else ((s.setFld (TIM_D_STAT_STATE d) 2).setDom d
        { s.dom d with qt := 0, first := true, ld := s.time.l16 / 65536 }).showDom d) s

/-- Function reset of a time domain (R280, R425): the model is cleared and the domain enters QUAL. -/
def State.domFreset (s : State) (d : Nat) : State :=
  let s := s.setDom d { ld := s.time.l16 / 65536 }
  (((s.setFld (TIM_D_FREQ d) 0).setFld (TIM_D_OFS d) 0).setFld (TIM_D_STAT_QT d) 0).setFld (TIM_D_STAT_STATE d)
    (if s.fld (TIM_D_CFG_SRC d) = 0 then 0 else 2)

/-! ### The boundary (R268 to R271, R275, R279) -/

/-- The crossing of a grid instant (R275) from a CK_TIME edge on, given by L in ns and control time in 2^-32 ns: L in 2^-16
ns at the crossing to 1/16 ns, and the last edge at or before it; control time at an edge holds the increment added there. -/
def crossing (edgeL edgeC inc g : Nat) : Nat × Nat × Nat :=
  let d := wrap ((g * 2 ^ 32 : Nat) - (edgeC : Int)) 96
  let n := d / inc
  let past := d - n * inc
  let ph := (2 * past * 64 + inc) / (2 * inc)
  let el := edgeL + 4 * n
  (el * 65536 + ph * 4096, el, (edgeC + n * inc) % 2 ^ 96)

/-- The local instant in ns of the first CK_CORE rising edge at or after a local instant in 2^-16 ns (R43). CK_CORE and the
local scale come from one reference, and its edges lie on whole ns of L (DESIGN CHOICE, log entry 93). -/
def coreEdge (l16 : Nat) : Nat := (l16 + 65535) / 65536

/-- L, the last CK_TIME edge and the local instant of cycle 0 at the next boundary (R43, R275). -/
def State.nextCross (s : State) : Nat × Nat × Nat :=
  crossing s.time.edgeL s.time.edgeC s.time.inc s.ctl.nextB

/-- The cycles of the tick that ends, as its crossing gives them: 1,000 in a free-running tick (R59), 1,000 to 1,999 in a
realignment tick (R45). -/
def State.crossLen (s : State) : Nat :=
  if s.timeLost then 1000
  else
    let n := coreEdge s.nextCross.1 - s.ctl.edge0
    if s.ctl.realign then min n 1999 else n

/-- The grid instant of the next boundary is reached: L and control time at the crossing (R275). In free-running
ticks control time advances by 1,000 ns and L stands still (R59). -/
def State.timeCross (s : State) : State :=
  let t := s.time
  let g := s.ctl.nextB % 2 ^ 64
  if s.timeLost then
    { s with ctl := { s.ctl with btime := g, edge0 := coreEdge t.l16 }, time := { t with ct0 := g, rd := 0 } }
  else
    let (l16, el, ec) := s.nextCross
    { s with ctl := { s.ctl with btime := g, edge0 := coreEdge l16 },
             time := { t with l16 := l16, edgeL := el, edgeC := ec, ct0 := g, rd := 0 } }

/-- The domain selected at the boundary (R268). -/
def State.selectDomain (s : State) : State :=
  let old := s.time.sel
  let pref := s.fld TIM_CTRL_PREF
  let new := if s.domSt old = 3 then (if s.bit TIM_CTRL_REVERT && s.domSt pref == 3 then pref else old)
    else if s.domSt (1 - old) = 3 then 1 - old else old
  if new = old then s
  else
    let s := (s.count TIM_CNT_SWITCH TIM_CNT_OVF 1 1).flag TIM_STAT_SWITCH_SEEN
    ({ s with time := { s.time with sel := new } }).send 0x340 0x13 0

/-- The mode and the values of R269; `changed` says that the selection changed, `e` is the offset at the boundary. -/
def State.modeStep (s : State) (changed : Bool) (e : Int) : State :=
  let t := s.time
  if s.domSt t.sel = 3 then
    let near := decide (e.natAbs ≤ 16 * 65536)
    let mode := if changed || t.mode == 0 || t.mode == 3 then (if near then 1 else 2)
      else if t.mode = 2 ∧ near then 1 else t.mode
    let smax : Int := floorDiv ((s.fld TIM_SLEW_SMAX * 2 ^ 40 : Nat) : Int) 1000000
    let slew := clampI (floorDiv (e * 2 ^ 24) (s.fld TIM_SLEW_TAU * 1000000)) (-smax) smax
    { s with time := { t with mode := mode, yUse := s.domY t.sel, sUse := slew, e := e } }
  else if t.mode = 1 ∨ t.mode = 2 then
    let s := { s with time := { t with mode := 3, yUse := s.domY t.sel, sUse := 0, stepPend := false, e := e,
                                       hoNs := 0, hoErr := s.fld TIM_TQ / 65536 } }
    ((s.count TIM_CNT_HO TIM_CNT_OVF 2 1).flag TIM_STAT_HO_SEEN).send 0x340 0x10 0
  else { s with time := { t with sUse := 0, stepPend := false, e := e } }

/-- ERR of the time-quality word (R279). -/
def State.tqErr (s : State) : Nat :=
  let t := s.time
  min 65535 (match t.mode with
    | 1 => (t.e.natAbs + 65535) / 65536 + s.fld (TIM_D_CFG_ACC t.sel)
    | 2 => (t.e.natAbs + 65535) / 65536 + s.fld (TIM_D_CFG_ACC t.sel)
    | 3 => t.hoErr + (s.fld TIM_HO_RATE * t.hoNs + 999999999) / 1000000000
    | _ => 65535)

/-- The time-quality word of the present tick (R279), with the domains' registers. -/
def State.showTime (s : State) : State :=
  let t := s.time
  let w := t.mode + t.sel * 4 + s.domSt 0 * 8 + s.domSt 1 * 32 + b2n t.stepPend * 128 + s.fld TIM_UTC_VALID * 256
    + s.fld TIM_STAT_DISAGREE * 512 + s.tqErr * 65536
  let s := ((s.setFld TIM_TQ w).setFld TIM_INC_LO (t.inc % 2 ^ 32)).setFld TIM_INC_HI (t.inc / 2 ^ 32)
  [0, 1].foldl (fun s d =>
    let o := if s.domSt d = 0 then 0 else floorDiv (s.ctErr (s.domTime d t.l16)) 65536
    s.setFld (TIM_D_OFS d) (wrap (sat o 32) 32)) s

/-- The time unit's slots at cycle 0 (R275). -/
def State.timeSlots (s : State) : State :=
  let b := s.ctl.btime
  ((s.setSlotBits 0x3C4 (s.fld TIM_TQ)).setSlotBits 0x3C5 (b % 2 ^ 32)).setSlotBits 0x3C6 (b / 2 ^ 32 % 2 ^ 32)

/-- The first grid instant at least 1,000 CK_CORE cycles after cycle 0 of the present tick, from the control time that
the step has given it (R45). -/
def State.realignEnd (s : State) (ct inc : Nat) : Nat :=
  let far (g : Nat) : Bool :=
    decide (s.ctl.edge0 + 1000 ≤ coreEdge (crossing s.time.edgeL s.time.edgeC inc g).1)
  let g := (ct / 1000 + 1) * 1000
  if far g then g else if far (g + 1000) then g + 1000 else g + 2000

/-- Gating of TP1 (R278): TP1_GATED is sent when the gate closes (DEDUCED, log entry 11). -/
def State.tp1Gate (s : State) : State :=
  let g := s.bit TIM_CTRL_TP1_EN && s.bit TIM_CTRL_TP1_GATE && s.time.mode == 0
  ({ s with time := { s.time with gated := g } }).sendIf (g && !s.time.gated) 0x343 0x19 0

/-- INC from the values of the mode (R261). -/
def State.incNow (s : State) : Nat :=
  let nom : Int := (s.fld TIM_INC_NOM_LO + s.fld TIM_INC_NOM_HI * 2 ^ 32 : Nat)
  (nom + roundShift (nom * (s.time.yUse + s.time.sUse)) 40).toNat

/-- The time unit at a boundary, after the operating state has gone from `old` to the present one: selection, mode,
step, increment, time quality. -/
def State.timeBoundary (s : State) (old : Nat) : State :=
  if s.timeLost then
    ({ s with ctl := { s.ctl with nextB := s.ctl.btime + 1000, realign := false },
              time := { s.time with inc := s.incNow } }).showTime.tp1Gate
  else
    let s := { s with time := { s.time with hoNs := if s.time.mode = 3 then s.time.hoNs + 1000 else 0 } }
    let sel := s.time.sel
    let s := s.selectDomain
    let changed := decide (s.time.sel ≠ sel)
    let off (s : State) : Int :=
      if s.domSt s.time.sel = 3 then s.ctErr (s.domTime s.time.sel s.time.l16) else 0
    let e := off s
    let drop := decide (old = 5 ∧ s.op = 6) || changed || s.domSt s.time.sel != 3 || decide (e < 1000 * 65536)
    let pend := s.time.stepPend && !drop
    let step := pend && (old == 4 || old == 5 || old == 7 || old == 8)
    let s := { s with time := { s.time with stepPend := pend && !step } }
    let ct1 := wrap (floorDiv (s.domTime s.time.sel s.time.l16) 65536) 64
    let s := if step then
        let jump := wrap ((ct1 : Int) - s.time.ct0) 64
        let out (o : Tp1Out) : Tp1Out := { o with fall := (o.fall + jump) % 2 ^ 64 }
        let s := { s with time := { s.time with ct0 := ct1, edgeC := (s.time.edgeC + jump * 2 ^ 32) % 2 ^ 96,
                                                pps := out s.time.pps, mhz := out s.time.mhz },
                          acq := { s.acq with jump := s.acq.jump + swrap jump 64 } }
        (s.flag TIM_STAT_CT_STEP_SEEN).send 0x340 0x12 (min (jump / 1000) (2 ^ 32 - 1))
      else s
    let s := s.modeStep changed (off s)
    let t : Time := s.time
    let again := !step && (t.mode == 1 || t.mode == 2) && decide (1000 * 65536 ≤ t.e) && s.bit TIM_CTRL_STEP_EN
    let inc := s.incNow
    let s := { s with time := { t with stepPend := t.stepPend || again, inc := inc },
                      ctl := { s.ctl with realign := step, nextB := if step then s.realignEnd t.ct0 inc else s.ctl.btime + 1000 } }
    (upto 4).foldl (fun s p => s.pdelaySend p) s.disagreeCheck.showTime.tp1Gate

/-- An output of TP1 at a control-time instant in ns (R278): a pulse in progress falls when its width is over, gated or
not; a pulse begins at a whole multiple of the period, unless the output is disabled, or held low in FREERUN. Each edge is placed
earlier by the egress asymmetry (R274). -/
def State.tp1Out (s : State) (o : Tp1Out) (inst period width : Nat) : Tp1Out :=
  let at_ := (inst : Int) * 16 - asym16 (s.fld (TIM_ASYM_EGR 5)) / 4096
  if o.high then (if inst = o.fall then { o with high := false, at_ := at_ } else o)
  else if s.bit TIM_CTRL_TP1_EN && !(s.bit TIM_CTRL_TP1_GATE && s.time.mode == 0) && decide (inst % period = 0) then
    { high := true, fall := (inst + width) % 2 ^ 64, at_ := at_ }
  else o

/-- TP1_EDGE (R278): control time reaches an instant of the present tick at which the 1PPS or the 10 MHz output has an edge.
An instant that control time does not reach, as one that a step jumps over, has none. -/
def tp1Edge (s : State) (pps : Bool) (inst : Nat) : State :=
  if inst < s.time.ct0 ∨ s.ctl.nextB ≤ inst then s
  else { s with time := if pps then { s.time with pps := s.tp1Out s.time.pps inst 1000000000 100000000 }
                        else { s.time with mhz := s.tp1Out s.time.mhz inst 100 50 } }

def execTp1Edge (pps : Bool) (inst : BitVec 64) (s : State) : Host.Outcome State Fault Refusal :=
  .next (tp1Edge s pps inst.toNat)

end Sys2Proof.Machine
end

