-- ==== Sys2Proof/Machine/Mode.lean ====
section
/-! DEFINITION. Operating states (R35 to R42), the role register (R285), and the device status slots (R31). -/
namespace Sys2Proof.Machine
open Sys2Proof

/-- Ticks run (R46, R57, R60): CK_CORE runs, and PLL_SYS and PLL_TIME have locked since power-on. -/
def State.ticksRun (s : State) : Bool := !s.ctl.lost.contains 0x010 && s.ctl.clocked

/-- The operating state changes (R36): its register, the STATE event, priming of channels that are no longer due
(R219), and the end of a pipeline halt on leaving BENCH (R473). -/
def State.enterState (s : State) (new cause : Nat) : State :=
  let old := s.op
  if new = old then s
  else
    let s := ((s.setFld CLK_STATE_PREV old).setFld CLK_STATE_STATE new).setFld CLK_STATE_CAUSE cause
    let s := (s.seqEvent 1).primeOnState old new
    let s := { s with acq := { s.acq with opSeen := true } }
    let s := if old = 8 then
        { (s.setFld DBG_PIPE_HALTED 0).setFld DBG_PIPE_LEFT 0 with dbg := { s.dbg with frozen := false } } else s
    s.driveBlockOut

/-- ROLE and SUB change (R285): the ROLE event. -/
def State.setRole (s : State) (role sub : Nat) : State :=
  if s.role = role ∧ s.sub = sub then s
  else ((s.setFld RED_STAT_ROLE role).setFld RED_STAT_SUB sub).seqEvent 5

/-- A rejected state request (R42). -/
def State.rejectState (s : State) : State := (s.flag CLK_STATE_REQ_REJ).send 0x000 0x14 0

/-- Whether a host (`host`) or sequencer request for a target lies on a transition of R36. -/
def reachable (host : Bool) (frm tgt : Nat) : Bool :=
  (frm == 4 && tgt == 5) || (frm == 5 && (tgt == 4 || tgt == 6)) || (frm == 6 && tgt == 5)
    || (host && ((frm == 4 && tgt == 8) || (frm == 8 && tgt == 4)))

/-- The deblock conditions of R37, apart from the latched block. -/
def State.deblockOk (s : State) : Bool :=
  s.bit PLN_CTRL_EN && (1 ≤ s.time.mode && s.time.mode ≤ 3)
    && s.arms.all fun a => decide (s.fld (SEL_ARM_MIN_MIN_AVAIL a) ≤ (s.slot (0x181 + 8 * a)).toNat)

/-- Why a request is rejected, as REASON of R436; 0 when it is valid (R36 to R38, R41, R197, R419). -/
def State.rejection (s : State) (host : Bool) (tgt : Nat) : Nat :=
  if !reachable host s.op tgt then 1
  else if s.role = 2 ∧ tgt ≠ 8 ∧ s.op ≠ 8 then 4
  else if (tgt = 5 ∧ s.op = 4 ∨ tgt = 6) ∧ s.latched then 3
  else if tgt = 6 ∧ !s.deblockOk then 2
  else if tgt = 5 ∧ s.bit CE_STAT_TURN_ERR then 6
  else if tgt = 5 ∧ s.op = 4 ∧ s.bit CFG_STAT_MODIFIED ∧ !s.bit CFG_CTRL_MOD_OK then 5
  else 0

/-- The result of a sequencer request (R436): `SEQ_REQ_STAT` and the REQ event. -/
def State.seqResult (s : State) (tgt reason : Nat) : State :=
  ((((s.setFld SEQ_REQ_STAT_TARGET tgt).setFld SEQ_REQ_STAT_PEND 0).setFld SEQ_REQ_STAT_ACC
    (b2n (reason = 0))).setFld SEQ_REQ_STAT_REASON reason).seqEvent 4

/-- A release request of the sequencer (R436, R243), which the boundary's protection has evaluated: accepted when the
block is gone; a STANDBY rejects it (R41), and so does an invalid Turn Order (R197). -/
def State.seqRelease (s : State) : State :=
  if s.role = 2 then s.rejectState.seqResult 5 4
  else if s.bit CE_STAT_TURN_ERR then s.rejectState.seqResult 5 6
  else if s.latched then s.rejectState.seqResult 5 7 else s.seqResult 5 0

/-- STATE_TRANSITION (R36, R40): the pending causes in the order latched block, sequencer, host. A STANDBY makes the
transitions of R41 at STATE_FOLLOW. -/
def State.transition (s : State) : State :=
  let seqR := s.ctl.seqReq
  let hostR := s.ctl.hostReq
  let wasBlk := s.op == 7
  let s := { s with ctl := { s.ctl with seqReq := none, hostReq := none } }
  let blk := s.role != 2 && ((s.latched && (s.op == 5 || s.op == 6)) || (!s.latched && s.op == 7))
  let (s, taken) :=
    if blk then ((if s.latched then s.enterState 7 0x04 else s.enterState 5 0x05), true) else (s, false)
  let (s, taken) := match seqR with
    | none => (s, taken)
    | some tgt =>
      if tgt = 5 ∧ wasBlk then (s.seqRelease, taken)
      else
        let why := if taken then 3 else s.rejection false tgt
        if why = 0 then ((s.enterState tgt 0x03).seqResult tgt 0, true)
        else (s.rejectState.seqResult tgt why, taken)
  match hostR with
  | none => s
  | some tgt =>
    if !taken && s.rejection true tgt == 0 then s.enterState tgt 0x02 else s.rejectState

/-- STATE_REQUEST: a write of `CLK_STATE_REQ` (R42). -/
def stateRequest (s : State) (val : Nat) : State :=
  let tgt := wbits val CLK_STATE_REQ_TARGET
  if wbits val CLK_STATE_REQ_KEY ≠ 0xA5C3 ∨ !reachable true s.op tgt then s.rejectState
  else { s with ctl := { s.ctl with hostReq := some tgt } }

def execStateRequest (_m : Master) (val : Word) (s : State) : Host.Outcome State Fault Refusal :=
  .next (stateRequest s val.toNat)

/-- Slot 0x3C0, DEVSTAT (R31). -/
def State.devstat (s : State) : Nat :=
  s.op + s.fld CLK_STATE_PREV * 16 + b2n s.latched * 256 + s.fld PLN_CTRL_EN * 512 + s.role * 1024 + s.sub * 4096
    + s.fld RED_STAT_PARTNER * 2 ^ 14 + s.fld CFG_STAT_MODIFIED * 2 ^ 15 + s.fld PRT_CAUSE_ALL * 2 ^ 16

/-- DEVICE_STATUS_WRITE (R31, R275). -/
def State.statusSlots (s : State) : State :=
  let t := s.now
  let s := (s.setSlotBits 0x3C0 s.devstat).setSlotBits 0x3C1 (s.fld RED_EPOCH_EPOCH)
  let s := (s.setSlotBits 0x3C2 (t % 2 ^ 32)).setSlotBits 0x3C3 (t / 2 ^ 32 % 2 ^ 32)
  (s.setSlotBits 0x3C7 (if s.op = 3 then 0 else s.fld (CFG_HASH 0))).timeSlots

end Sys2Proof.Machine
end

