-- ==== Sys2Proof/Machine/Ckpt.lean ====
section
/-! DEFINITION. The checkpoint (R299 to R305): the groups and their slices, capture, loading, re-runs from the 6-tick
log, and reception of a cycle. The layout inside the slices of the arm, composer and unit groups is the model's
(DESIGN CHOICE, log entry 12): the spec names what they hold. -/
namespace Sys2Proof.Machine
open Sys2Proof

/-! ### Groups (R299) -/

/-- First slice and number of slices of a group: 24 channel groups, 6 arms, 16 composer groups, unit, sequencer. -/
def groupSlices (g : Nat) : Nat × Nat :=
  if g < 24 then (g, 1) else if g < 30 then (24 + 5 * (g - 24), 5) else if g < 46 then (54 + (g - 30), 1)
  else if g = 46 then (70, 2) else (72, 28)

/-- The group of a slice. -/
def groupOf (i : Nat) : Nat :=
  if i < 24 then i else if i < 54 then 24 + (i - 24) / 5 else if i < 70 then 30 + (i - 54) else if i < 72 then 46
  else 47

/-- A list of numbers as n words, filled up with 0. -/
def padW (n : Nat) (l : List Nat) : List (BitVec 64) :=
  (l.take n).map (BitVec.ofNat 64) ++ List.replicate (n - l.length) 0

/-- Pairs of 32-bit values as 64-bit values. -/
def pairsOf : List Nat → List Nat
  | a :: b :: t => (a + b * 2 ^ 32) :: pairsOf t
  | [a] => [a]
  | [] => []

/-- The 32-bit halves of words, in address order. -/
def halves (l : List (BitVec 64)) : List Nat := l.flatMap fun w => [w.toNat % 2 ^ 32, w.toNat / 2 ^ 32]

/-- The target of a code. -/
def tgtOf : Nat → Tgt
  | 0 => .blk | 1 => .out | 2 => .pos | _ => .neg

/-- The 4 bytes of a cell in its arm's group. -/
def State.selWord (s : State) (g : Nat) : Nat :=
  let x := s.selRec g
  let p := match s.excl.find? fun r => r.cell == g with
    | some r => (r.act % 3 + 1) * 2 ^ 5 + b2n r.fresh * 2 ^ 7 + r.tick % 64 * 2 ^ 26
    | none => 0
  x.prev.code + b2n x.drain * 4 + s.ce g ceExcl * 8 + s.ce g ceStest * 16 + x.dwell % 65536 * 2 ^ 8
    + b2n x.forTest * 2 ^ 24 + b2n x.readmit * 2 ^ 25 + p

/-- A cell's 4 bytes loaded. -/
def State.setSelWord (s : State) (g w : Nat) : State :=
  let x := s.selRec g
  let s := s.setSel g { x with prev := tgtOf (w % 4), drain := tbit w 2, dwell := bitsOf w 23 8, forTest := tbit w 24,
                               readmit := tbit w 25 }
  let s := (s.setCe g ceExcl (bitsOf w 3 3)).setCe g ceStest (bitsOf w 4 4)
  let rest := s.excl.filter fun r => r.cell != g
  if bitsOf w 6 5 = 0 then { s with excl := rest }
  else { s with excl := rest ++ [⟨g, bitsOf w 6 5 - 1, s.now - wrap ((s.now : Int) - bitsOf w 31 26) 6, tbit w 7⟩] }

/-- The scalars of an arm's group. -/
def State.armScalars (s : State) (a : Nat) : List Nat :=
  let p := s.plnA a
  [s.fld (SEL_ARM_PTR_PTR a), s.fld (SEL_ARM_STAT_CHARGE a), b2n (s.selA a).shortRun, wrap p.nprev 64, b2n p.first,
   (match p.pip with | some g => g + 1 | none => 0), p.pptr, p.rc, b2n p.ps, p.tl, wrap p.bal 64, p.pc, b2n p.act,
   b2n p.limRun + 2 * b2n p.noPipRun + 4 * b2n p.bsatRun + 8 * b2n p.noVmRun]

/-- An arm's scalars loaded. -/
def State.setArmScalars (s : State) (a : Nat) (l : List Nat) : State :=
  let n i := l.getD i 0
  let s := (s.setFld (SEL_ARM_PTR_PTR a) (n 0)).setFld (SEL_ARM_STAT_CHARGE a) (n 1)
  let s := s.setSelA a { s.selA a with shortRun := n 2 == 1 }
  s.setPlnA a { s.plnA a with
    nprev := sext (n 3) 64, first := n 4 == 1, pip := if n 5 = 0 then none else some (n 5 - 1), pptr := n 6, rc := n 7,
    ps := n 8 == 1, tl := n 9, bal := sext (n 10) 64, pc := n 11, act := n 12 == 1, limRun := tbit (n 13) 0,
    noPipRun := tbit (n 13) 1, bsatRun := tbit (n 13) 2, noVmRun := tbit (n 13) 3 }

/-- The execution tick that a 6-bit place names: the last one at or before that of this tick's frames. -/
def State.execTick (s : State) (v : Nat) : Nat := s.now + 2 - wrap ((s.now : Int) + 2 - v) 6

/-- The execution ticks from x to that of this tick's frames, newest first: an item is in every word of its cell (R111). -/
def State.ticksFrom (s : State) (x : Nat) : List Nat := ((upto (s.now + 3 - x)).map (x + ·)).reverse

/-- The 4 bytes of a cell in its composer group: [1:0] source of its item in progress, [8:2] its profile download, [31:9] by
source. Host: [9] second phase, [16:10] first word, [23:17] last confirmed word of DATA = 0, [27:24] place in the cell's queue.
Others: [15:10] first word, [31:16] data, [9] a compensation with a valid DMEAS. -/
def State.itemWord (s : State) (g : Nat) : Nat :=
  let x := s.cc g
  let prof := match x.prof with | some k => 2 + 3 * (k % 32) + x.tries % 3 | none => b2n x.profOk
  let mark (t : Option Nat) : Nat := match t with | some v => v % 64 * 2 + 1 | none => 0
  let first (i : ItemRun) : Nat := i.sent.getLast?.getD (s.now + 2) % 64
  prof * 4 + match x.cur with
    | none => 0
    | some i =>
      match i.src with
      | .host =>
        let ix := ((s.cmp.queue.filter fun q => q.cell == g).zipIdx.find? fun q => q.1.id == i.id).map (·.2)
        1 + b2n (i.phase == 2) * 2 ^ 9 + mark i.sent.getLast? * 2 ^ 10 + mark i.zeros.head? * 2 ^ 17 + ix.getD 0 % 16 * 2 ^ 24
      | .prof => 2 + b2n i.dmv * 2 ^ 9 + first i * 2 ^ 10 + i.data % 2 ^ 16 * 2 ^ 16
      | .own => 3 + b2n i.dmv * 2 ^ 9 + first i * 2 ^ 10 + i.data % 2 ^ 16 * 2 ^ 16

/-- An item in progress of a cell that stands at a place of its queue; where the queue has no such place, the place is kept in
`id` until the unit group brings the queue. -/
def State.queuedRun (s : State) (g ix : Nat) (i : ItemRun) : ItemRun :=
  match (s.cmp.queue.filter fun q => q.cell == g)[ix]? with
  | some q =>
    if q.code = 3 then { i with id := q.id, code := 3, data := b2n (i.phase == 2), phase := if i.phase = 2 then 2 else 1 }
    else { i with id := q.id, code := q.code, data := q.data, phase := 0 }
  | none => { i with id := ix, code := 0 }

/-- A cell's composer state loaded. -/
def State.setItemWord (s : State) (g w : Nat) : State :=
  let p := bitsOf w 8 2
  let prof := if p < 2 then none else some ((p - 2) / 3)
  let marked (v : Nat) : Option Nat := if tbit v 0 then some (s.execTick (v / 2)) else none
  let run (src : ItemSrc) (code : Nat) : ItemRun :=
    { src := src, id := 0, code := code, data := bitsOf w 31 16, phase := 0, sent := s.ticksFrom (s.execTick (bitsOf w 15 10)),
      zeros := [], dmv := tbit w 9 }
  let cur := match bitsOf w 1 0 with
    | 0 => none
    | 1 =>
      some (s.queuedRun g (bitsOf w 27 24)
        { run .host 0 with phase := bitsOf w 9 9 + 1, dmv := false,
                           sent := (marked (bitsOf w 16 10)).elim [] s.ticksFrom, zeros := (marked (bitsOf w 23 17)).toList })
    | 2 => some (run .prof (s.profItem g (prof.getD 0)).1)
    | _ => some (run .own (if tbit w 9 then 4 else 6))
  s.setCc g { s.cc g with cur := cur, prof := prof, tries := if p < 2 then 0 else (p - 2) % 3, profOk := p == 1 }

/-- The queue replaced: the items in progress keep their places in the queues of their cells. -/
def State.setQueue (s : State) (l : List QItem) : State :=
  let t : State := { s with cmp := { s.cmp with queue := l } }
  (s.ccell.map (·.1)).foldl (fun t g =>
    match (s.cc g).cur with
    | some i =>
      if i.src != .host then t
      else
        let ix := if i.code = 0 then some i.id
          else ((s.cmp.queue.filter fun q => q.cell == g).zipIdx.find? fun q => q.1.id == i.id).map (·.2)
        t.setCc g { t.cc g with cur := some (t.queuedRun g (ix.getD 0) i) }
    | none => t) t

/-- The pending exclusions, bit g % 64 of word g / 64 for cell g. -/
def State.exclWords (s : State) : List (BitVec 64) :=
  let gs := s.exclCells
  (upto 64).map fun i => BitVec.ofNat 64 ((gs.filter fun g => g / 64 == i).foldl (fun w g => setBit w (g % 64)) 0)

/-- The pending exclusions loaded: those that the words do not name go, and one that only they name is an exclusion. -/
def State.setExclWords (s : State) (l : List (BitVec 64)) : State :=
  let has g := (l.getD (g / 64) 0).getLsbD (g % 64)
  let new := s.confCells.filter fun g => has g && !s.exclCells.contains g
  ({ s with excl := (s.excl.filter fun (r : ExclReq) => r.act == 1 || has r.cell)
    ++ new.map fun g => ({ cell := g, act := 0, tick := s.now, fresh := false } : ExclReq) }).exclPending

/-- The words of the unit group. -/
def State.unitWords (s : State) : List (BitVec 64) :=
  let swap := match s.eng.swap with
    | some w => [(w.sel.foldl setBit 0) % 2 ^ 64, (w.sel.foldl setBit 0) / 2 ^ 64 % 2 ^ 64, (w.sel.foldl setBit 0) / 2 ^ 128,
                 w.tick + 1]
    | none => [0, 0, 0, 0]
  let q := s.cmp.queue.map fun i => i.cell + i.code * 2 ^ 12 + i.data * 2 ^ 16 + i.id % 2 ^ 32 * 2 ^ 32
  padW 3 (pairsOf ((upto 6).map fun i => s.fld (CE_BANK_ACT i))) ++ padW 4 swap ++ padW 1 [q.length] ++ padW 32 q
    ++ padW 9 [s.fld PLN_PAT_PER_PER, s.fld PLN_PAT_DUTY_DUTY, s.fld PLN_PAT_LO_LVL, s.fld PLN_PAT_HI_LVL,
        s.fld PLN_PAT_ACT_PER + s.fld PLN_PAT_ACT_DUTY * 65536, wrap s.pat.lo 64, wrap s.pat.hi 64,
        b2n s.pat.perW + 2 * b2n s.pat.dutyW, s.fld PLN_STAT_COMMIT_PEND]
    ++ padW 2 [match s.red.dbl with | some t => t + 1 | none => 0, s.red.dblNext]
    ++ s.rdWords (0x10000000 + 4 * 0x380) 32 ++ s.exclWords ++ padW 1 [s.cmp.nextId] ++ padW 108 []

/-- The unit group loaded. -/
def State.setUnitWords (s : State) (l : List (BitVec 64)) : State :=
  let n i := (l.getD i 0).toNat
  let s := (upto 6).foldl (fun s i => s.setFld (CE_BANK_ACT i) ((halves (l.take 3)).getD i 0)) s
  let sel := n 3 + n 4 * 2 ^ 64 + n 5 * 2 ^ 128
  let sw : Option Swap := if n 6 = 0 then none else some ⟨bitsSet sel 192, n 6 - 1⟩
  let s := { s.setFld CE_SWAP_CTRL_PEND (b2n (n 6 != 0)) with eng := { s.eng with swap := sw } }
  let q : List QItem := (upto (n 7)).map fun i =>
    let w := n (8 + i)
    ⟨bitsOf w 63 32, bitsOf w 11 0, bitsOf w 15 12, bitsOf w 31 16⟩
  let s := s.setQueue q
  let s := { s with cmp := { s.cmp with nextId := n 147 } }
  let s := (((s.setFld PLN_PAT_PER_PER (n 40)).setFld PLN_PAT_DUTY_DUTY (n 41)).setFld PLN_PAT_LO_LVL (n 42)).setFld
    PLN_PAT_HI_LVL (n 43)
  let s := ((s.setFld PLN_PAT_ACT_PER (n 44)).setFld PLN_PAT_ACT_DUTY (n 44 / 65536)).setFld PLN_STAT_COMMIT_PEND (n 48)
  let s := { s with pat := { s.pat with lo := sext (n 45) 64, hi := sext (n 46) 64, perW := tbit (n 47) 0,
                                        dutyW := tbit (n 47) 1 },
                    red := { s.red with dbl := if n 49 = 0 then none else some (n 49 - 1), dblNext := n 50 } }
  (s.wrWords (0x10000000 + 4 * 0x380) ((l.drop 51).take 32)).setExclWords ((l.drop 83).take 64)

/-- The words of a group as the unit holds it now. -/
def State.groupWords (s : State) (g : Nat) : List (BitVec 64) :=
  if g < 24 then s.rdWords (chanAddr (8 * g) 0) 128
  else if g < 30 then
    padW 512 (pairsOf ((s.armCells (g - 24)).map s.selWord)) ++ padW 128 (s.armScalars (g - 24))
  else if g < 46 then padW 128 (pairsOf ((upto 256).map fun c => s.itemWord (256 * (g - 30) + c)))
  else if g = 46 then s.unitWords
  else s.rdWords 0x38070000 3584

/-- A group loaded from words. -/
def State.loadGroup (s : State) (g : Nat) (l : List (BitVec 64)) : State :=
  if g < 24 then s.wrWords (chanAddr (8 * g) 0) (l.take 128)
  else if g < 30 then
    let a := g - 24
    let hs := halves (l.take 512)
    let s := (s.armCells a).zipIdx.foldl (fun s p => s.setSelWord p.1 (hs.getD p.2 0)) s
    s.setArmScalars a ((l.drop 512).map BitVec.toNat)
  else if g < 46 then
    let hs := halves (l.take 128)
    (s.confCells.filter fun c => c / 256 == g - 30).foldl (fun s c => s.setItemWord c (hs.getD (c % 256) 0)) s
  else if g = 46 then s.setUnitWords l
  else s.wrWords 0x38070000 (l.take 3584)

/-! ### Mirrored requests as the targets take them (R295) -/

/-- A planner register of KIND 5 written: 0 PER, 1 DUTY, 2 LO, 3 HI, 4 `PLN_COMMIT`, 5 `PLN_CTRL`. PER and DUTY mark
their writes for the next commit (R188). -/
def plnApply (s : State) (k val : Nat) : State :=
  match k with
  | 0 => let s := s.regWrite .host 0x50020 val
         if s.fld PLN_PAT_PER_PER = val % 65536 then { s with pat := { s.pat with perW := true } } else s
  | 1 => let s := s.regWrite .host 0x50024 val
         { s with pat := { s.pat with dutyW := true } }
  | 2 => s.regWrite .host 0x50028 val
  | 3 => s.regWrite .host 0x5002C val
  | 4 => if val % 2 = 1 then patternRequest s else s
  | 5 => s.regWrite .host 0x50000 val
  | _ => s

/-- A staged slot write (R29). -/
def State.stage (s : State) (slot : Nat) (v : Nat) : State :=
  { s with ctl := { s.ctl with staged := s.ctl.staged ++ [⟨slot, sext v 32⟩] } }

/-- One mirrored request takes effect. -/
def applyMsg (s : State) (m : MirMsg) : State :=
  match m.kind with
  | 1 => s.stage (bitsOf m.body 57 48) (m.body % 2 ^ 32)
  | 2 => auxRequest s (bitsOf m.body 11 0) (bitsOf m.body 14 12) (bitsOf m.body 31 16)
  | 3 => exclRequest s (bitsOf m.body 11 0) (bitsOf m.body 13 12)
  | 4 => s.primeChan (m.body % 256)
  | 5 => plnApply s (bitsOf m.body 35 32) (m.body % 2 ^ 32)
  | 6 =>
    let t := s.now + wrap (((m.body % 2 ^ 32 : Nat) : Int) - (s.now % 2 ^ 32 : Nat)) 32
    { (s.flag RED_STAT_DBL_PEND).setFld RED_DBL_NEXT (m.body % 2 ^ 32) with
      red := { s.red with dbl := some t, dblOk := false } }
  | _ => s

/-! ### Re-runs (R302) -/

/-- One channel re-run with the inputs it read. -/
def State.rerunChan (s : State) (c : Nat) (x : Int × Int × Int × Int) : State :=
  if !s.paramOk (s.bankOf c) c then s
  else
    let cfg : ChCfg :=
      { law := s.fld (CE_CH_CFG_LAW c), nen := s.bit (CE_CH_CFG_NEN c), ffen := s.bit (CE_CH_CFG_FFEN c),
        aux := s.fld (CE_CH_CFG_AUX_SEL c), awen := s.bit (CE_CH_SUP_AWEN c), feen := s.bit (CE_CH_SUP_FEEN c),
        bumpEn := s.bit (CE_CH_SUP_BUMP c) }
    let pre := if s.bit (CE_CH_SUP_PRE_SRC c) then x.2.2.2 else s.param (s.bankOf c) c 22
    s.chanRun c cfg 0 x.1 x.2.1 x.2.2.1 pre

/-- The owner of a group computes one tick on a scratch state. -/
def State.rerunTick (s : State) (g : Nat) (l : InLog) : State :=
  if g < 24 then l.chans.foldl (fun s p => if p.1 / 8 = g then s.rerunChan p.1 p.2 else s) s
  else if g < 30 then selectionPass2 (selectionThreshold (plannerPhase (selectionPass1 s)))
  else if g < 46 then
    let s := (s.confCells.filter fun c => c / 256 == g - 30).foldl (fun s c =>
      if s.ce c ceAge = 0 then s.itemReport c (s.ce c ceSeqe) (s.ce c ceFlags) else s) s
    composerPhase s
  else if g = 46 then l.msgs.foldl applyMsg s
  else s

/-- The words of a group after every logged tick from a capture tick on has been re-run on them. -/
def State.rerun (s : State) (g frm : Nat) (ws : List (BitVec 64)) : List (BitVec 64) :=
  (s.red.log.reverse.filter fun l => decide (frm ≤ l.tick)).foldl (fun ws l =>
    let x := { s with regs := l.regs, mem := { bytes := l.mem }, ctl := { s.ctl with tick := l.tick } }
    ((x.loadGroup g ws).rerunTick g l).groupWords g) ws

/-! ### Cycles (R300, R301) -/

/-- The slices that ML0 and ML1 carry in a tick: lane and slice. -/
def State.slicesAt (s : State) (k : Nat) : List (Nat × Nat) :=
  match s.red.cyc with
  | none => []
  | some (st, two) =>
    let t := k - st
    if two then (if t < 50 then [(0, 2 * t), (1, 2 * t + 1)] else [])
    else if t < 100 then [(if s.portState 36 = 4 then 0 else 1, t)] else []

/-- The groups whose first slice is among those of a tick are captured; the capture
tick is the one that ends. -/
def State.captureFor (s : State) (k : Nat) (sl : List Nat) : State :=
  sl.foldl (fun s i =>
    let g := groupOf i
    if (groupSlices g).1 = i ∧ g < 48 then
      { s with red := { s.red with caps := mput s.red.caps g (k - 1, s.groupWords g) } }
    else s) s

/-- The unit takes part in the checkpoint: ACTIVE, or a standby that has adopted the tick counter. -/
def State.inCkpt (s : State) : Bool :=
  s.bit RED_CFG_PAIR && (s.role == 1 || (s.role == 2 && s.red.adopted))

/-- Captures at the boundary into tick k, before its work (R301); a cycle that is over ends. A tick that may begin a
cycle captures the groups of its first position. -/
def State.ckptBoundary (s : State) (k : Nat) : State :=
  if !s.inCkpt then s
  else
    let s := match s.red.cyc with
      | some (st, two) => if st + (if two then 64 else 100) ≤ k then { s with red := { s.red with cyc := none } } else s
      | none => s
    if s.red.cyc.isNone && k % 64 == 0 then s.captureFor k [0, 1]
    else s.captureFor k ((s.slicesAt k).map (·.2))

/-- CHECKPOINT_CYCLE_START (R300). -/
def checkpointCycleStart (s : State) : State :=
  if s.inCkpt && s.red.cyc.isNone && s.now % 64 == 0 then
    let two := s.red.next2.getD (s.portState 36 == 4 && s.portState 37 == 4)
    { s.setFld RED_STAT_ONE_LANE (b2n (!two)) with
      red := { s.red with cyc := some (s.now, two), seqNo := if s.role = 1 then (s.red.seqNo + 1) % 65536 else s.red.seqNo } }
  else s

def execCheckpointCycleStart (s : State) : Host.Outcome State Fault Refusal := .next (checkpointCycleStart s)

/-! ### Reception (R302, R303, R305) -/

/-- A group has arrived whole: compared with the own capture, which a standby has once it has adopted the tick counter; a
difference is loaded, re-run and counted (R302). In the first cycle after an adoption an equal group is loaded and re-run too
(R304). -/
def State.groupArrived (s : State) (g cap : Nat) (ws : List (BitVec 64)) : State :=
  if 46 < g ∨ s.bit RED_CFG_MODE ∨ !s.red.adopted then s
  else
    let same := match mget none (s.red.caps.map fun p => (p.1, some p.2)) g with
      | some (t, w) => t % 65536 == cap && w == ws
      | none => false
    if same && !s.red.loadAll then s
    else
      let frm := fullTick s.now cap + 1
      let s := s.loadGroup g (s.rerun g frm ws)
      let s := s.when (!same) fun s => (s.count RED_CNT_GAPP RED_CNT_OVF 2 1).send 0x382 0x17 ((groupSlices g).1 * 2 ^ 24)
      { s with red := { s.red with misg := s.red.misg + b2n (!same) } }

/-- CHECKPOINT_COMPLETE (R303, R305). -/
def State.cycleComplete (s : State) (c : Cycle) : State :=
  let clean := s.red.adopted && s.red.misg == 0 && !s.red.dirty && !s.red.loadAll
  let n := if clean then s.red.clean + 1 else 0
  let s := ((s.setFld RED_CKPT_SEQ c.seq).setFld RED_CKPT_MISG s.red.misg).setFld RED_CKPT_CLEAN (b2n (s.red.misg == 0))
  let seq := (upto 28).flatMap fun i => mget [] c.slices (72 + i)
  let s := s.wrWords 0x38070000 seq
  let r : Red := { s.red with rx := none, kept := some c, misg := 0, dirty := false, clean := n }
  let s := { s with red := { r with loadAll := r.loadAll && r.cut, cut := false } }
  if s.role = 2 ∧ s.sub ≠ 1 ∧ s.op ≠ 8 ∧ s.fld RED_CFG_VCYC ≤ n then s.setRole 2 1 else s

/-- The cycle that a slice i received on lane m in the frame of tick j shows its sender to be in: its start and whether it
has two lanes (R300). -/
def cycleOf (m i j : Nat) : Option (Nat × Bool) :=
  if i % 2 = m ∧ i / 2 ≤ j ∧ (j - i / 2) % 64 = 0 ∧ 2 ≤ i then some (j - i / 2, true)
  else if i ≤ j ∧ (j - i) % 64 = 0 ∧ 2 ≤ i then some (j - i, false)
  else none

/-- A slice of the partner's cycle (R303). A voided cycle is no complete one; a group that differed or a digest trouble in it
ends the run of clean cycles, since those must follow it (R305). -/
def State.sliceRx (s : State) (seq epoch i cap : Nat) (ws : List (BitVec 64)) : State :=
  let cur := s.red.rx
  let low := decide (epoch < s.fld RED_EPOCH_EPOCH) || (match cur with | some c => decide (epoch < c.epoch) | none => false)
  if low || 100 ≤ i then s
  else
    let change := match cur with | some c => c.seq != seq || c.epoch != epoch | none => false
    let s := s.sendIf change 0x382 0x18 0
    let c : Cycle := match cur with
      | some c => if change then ⟨seq, epoch, []⟩ else c
      | none => ⟨seq, epoch, []⟩
    let s := if change then
        { s with red := { s.red with clean := if s.red.misg = 0 ∧ !s.red.dirty then s.red.clean else 0, misg := 0, dirty := false } }
      else s
    let s := if change || cur.isNone then { s with red := { s.red with cut := false } } else s
    let c := { c with slices := mput c.slices i ws }
    let s := { s with red := { s.red with rx := some c } }
    let (f, n) := groupSlices (groupOf i)
    let whole := (upto n).all fun k => c.slices.any fun p => p.1 == f + k
    let s := if whole then
        s.groupArrived (groupOf i) cap ((upto n).flatMap fun k => mget [] c.slices (f + k))
      else s
    if c.slices.length = 100 then s.cycleComplete c else s

/-- The owner of a group that a forerunner left as zero starts as after entry to PARKED (R314). DESIGN CHOICE (log 111):
channels prime; an arm's selection and planner records and the items in progress are as at their set-up; the unit group
has nothing to prime. -/
def State.primeGroup (s : State) (g : Nat) : State :=
  if g < 24 then s.each ((upto 8).map fun k => 8 * g + k) State.primeChan
  else if g < 30 then
    (s.each (s.armCells (g - 24)) fun s c => s.setSel c selReset).setPlnA (g - 24) plnArmReset
  else if g < 46 then
    s.each (s.confCells.filter fun c => c / 256 == g - 30) fun s c =>
      s.setCc c { s.cc c with cur := none, probe := none, adopt := none }
  else s

/-- A compatibility standby loads the kept cycle in one step and primes owners of groups left as zero (R314). -/
def State.loadKept (s : State) : State :=
  match s.red.kept with
  | none => s
  | some c =>
    let s := { s with red := { s.red with rx := none } }
    s.each (upto 47) fun s g =>
      let (f, n) := groupSlices g
      let ws := (upto n).flatMap fun k => mget [] c.slices (f + k)
      if ws.all (· == 0) then s.primeGroup g else s.loadGroup g ws

end Sys2Proof.Machine
end

