-- ==== Sys2Proof/Machine/Pair.lean ====
section
/-! DEFINITION. Active and standby units (chapter 13): roles and epoch, pair frames, following, digests, takeover,
Doubles, and the forerunner's heartbeats. -/
namespace Sys2Proof.Machine
open Sys2Proof

/-! ### Roles and epoch (R285 to R289) -/

/-- The RUNNING CL ports. -/
def State.runningCl (s : State) : List Nat := (upto 32).filter fun n => s.portState n == 4

/-- More than half of the RUNNING CL ports satisfy a condition. -/
def State.majority (s : State) (p : Nat → Bool) : Bool :=
  decide (s.runningCl.length < 2 * (s.runningCl.filter p).length)

/-- Address of the stored epoch in MRAM (R288, R455). -/
def epochAddr : Nat := 0x40001000

/-- The stored copy of the epoch is brought up to the one in force; no MRAM write starts below a low threshold (R481),
and one that waited is made at the rail's recovery. -/
def State.storeEpoch (s : State) : State :=
  if s.mramHeld ∨ s.rd epochAddr 4 = s.fld RED_EPOCH_EPOCH then s else s.writeBytes epochAddr (leBytes 4 (s.fld RED_EPOCH_EPOCH))

/-- The stored epoch as the unit reads it; a free value where its word is uncorrectable (DESIGN CHOICE, log entry 130). -/
def State.storedEpoch (s : State) : Nat × State :=
  match s.readBytes epochAddr 4 with
  | (some l, s) => (leNat l, s)
  | (none, s) => s.draw 24

/-- The epoch in force and its stored copy (R288). -/
def State.setEpoch (s : State) (e : Nat) : State :=
  if s.fld RED_EPOCH_EPOCH = e then s else (s.setFld RED_EPOCH_EPOCH e).storeEpoch

/-- A role change enters the sequencer's role vector when ROLE_VEC asks for it (R429): reason 0 decision, 1 takeover,
2 Doubles swap, 3 demotion. -/
def State.roleChange (s : State) (role sub reason : Nat) : State :=
  let s := s.setRole role sub
  if s.bit SEQ_CTRL_ROLE_VEC then { s with seq := { s.seq with role := some reason } } else s

/-- The epoch that a unit becoming ACTIVE takes, by its stored epoch (R288). -/
def State.nextEpoch (s : State) (stored : Nat) : Nat :=
  let p := match s.red.hdr with | some h => h.epoch | none => 0
  max stored (max p ((s.runningCl.map fun n => s.fld (CL_HUB_STAT_EPOCH n)).foldl max 0)) + 1

/-- A unit becomes ACTIVE unless the epoch is exhausted (R288). -/
def State.becomeActive (s : State) (reason : Nat) : State :=
  let (stored, s) := s.storedEpoch
  let e := s.nextEpoch stored
  if 0xFFFFFF < e then (s.flag RED_STAT_EPOCH_EXH).send 0x380 0x12 0
  else { (s.setEpoch e).roleChange 1 0 reason with
         red := { s.red with waitFrom := none, rx := none, cyc := none, next2 := none, take := false } }

/-- A unit becomes STANDBY by decision or demotion. -/
def State.becomeStandby (s : State) (sub reason : Nat) : State :=
  let s := s.roleChange 2 sub reason
  { s with red := { s.red with waitFrom := none, rx := none, cyc := none, next2 := none, clean := 0, misg := 0,
                               dirty := false, adopted := s.red.adopted && sub != 0, take := false } }

/-- ROLE_DECISION from a received header (R286, rules 1 and 2). -/
def State.roleDecide (s : State) (partnerRole : Nat) : State :=
  if s.red.waitFrom.isNone || s.role != 0 then s
  else if partnerRole = 1 then s.becomeStandby 0 0
  else if partnerRole = 0 then (if s.bit RED_ID_UNIT then s.becomeStandby 0 0 else s.becomeActive 0)
  else s

/-- Entry to PARKED from VERIFY (R286). -/
def State.pairEnter (s : State) : State :=
  if !s.bit RED_CFG_PAIR then s.becomeActive 0
  else
    let s := { s.setRole 0 0 with red := { s.red with waitFrom := some s.now } }
    match s.red.hdr with
    | some h => if s.bit RED_STAT_PARTNER then s.roleDecide h.role else s
    | none => s

/-- S3 of a hub's last frame: the last TOKEN seen on the other uplink (R109). -/
def State.otherToken (s : State) (n : Nat) : Bool :=
  match (s.lane n).rx with
  | f :: _ => (match f.words.getD 131 none with | some w => w.getLsbD 39 | none => false)
  | [] => false

/-- ROLE_WAIT_EXPIRY (R286, rule 3): WAIT has passed without a usable pair frame. DEDUCED (log 109): a partner whose frames
decide nothing, being STANDBY, holds the decision back until none has arrived for WAIT. -/
def roleWaitExpiry (s : State) : State :=
  match s.red.waitFrom with
  | none => s
  | some t =>
    let w := s.fld RED_CFG_WAIT * 10000
    let heard := match s.red.hdr with | some h => decide (s.now < h.tick + w) | none => false
    if s.role ≠ 0 ∨ s.now < t + w ∨ heard = true then s
    else if s.majority s.otherToken then s.becomeStandby 2 0 else s.becomeActive 0

def execRoleWaitExpiry (s : State) : Host.Outcome State Fault Refusal := .next (roleWaitExpiry s)

/-- DEMOTED (R287). -/
def demoted (s : State) : State :=
  if s.role = 1 ∧ 3 ≤ s.red.demRun then ((s.becomeStandby 2 3).flag RED_STAT_DEMOTED).send 0x380 0x11 0 else s

def execDemoted (s : State) : Host.Outcome State Fault Refusal := .next (demoted s)

/-- A pair frame, usable or not, was received in this tick or the one before. -/
def State.pairHeard (s : State) : Bool :=
  match s.red.heardAt with
  | some t => decide (s.now ≤ t + 1)
  | none => false

/-- EPOCH_CLEAR: a write of 1 to `RED_EPOCH.CLR` (R288). -/
def epochClear (s : State) : State :=
  if s.op = 4 ∧ !s.pairHeard then
    ((s.setFld RED_EPOCH_EPOCH 0).storeEpoch).setFld RED_STAT_EPOCH_EXH 0
  else s

def execEpochClear (_m : Master) (s : State) : Host.Outcome State Fault Refusal := .next (epochClear s)

/-! ### The pair frame (R284, R290 to R292, R296) -/

/-- The header of a pair frame (R290, R284). -/
def State.pairHeader (s : State) (lph : Nat) : BitVec 64 :=
  let pair := s.bit RED_CFG_PAIR
  let role := if pair then s.role else 1
  let sub := if pair then s.sub else 0
  let type := if pair && s.bit RED_CFG_MODE then 6 else 5
  BitVec.ofNat 64 (type * 2 ^ 60 + 2 ^ 58 + s.fld RED_CFG_PAIR_ID * 2 ^ 50 + s.fld RED_ID_UNIT * 2 ^ 49
    + (if pair then b2n s.token else 1) * 2 ^ 48 + s.fld RED_EPOCH_EPOCH * 2 ^ 24 + role * 2 ^ 22 + sub * 2 ^ 20
    + lph % 32 * 2 ^ 15)

/-- The frame of tick j carries NEXT2: position 62 of a two-lane cycle, 98 of a single-lane cycle (R300). -/
def State.next2At (s : State) (j : Nat) : Bool :=
  match s.red.cyc with
  | some (st, two) => j == st + (if two then 62 else 98)
  | none => false

/-- The STAT word (R291). -/
def State.statWord (s : State) : BitVec 64 :=
  let pair := s.bit RED_CFG_PAIR
  let n2 := pair && s.role == 1 && s.next2At s.now && s.portState 36 == 4 && s.portState 37 == 4
  BitVec.ofNat 64 (s.op * 2 ^ 60 + b2n s.latched * 2 ^ 59 + b2n (pair && s.red.handover) * 2 ^ 58
    + s.fld PRT_CAUSE_ALL * 2 ^ 50 + (if pair then s.red.now.length else 0) * 2 ^ 47 + b2n n2 * 2 ^ 46
    + s.fld (CFG_HASH 0))

/-- The payload of the pair frame on lane m (R291, R284). -/
def State.pairWords (s : State) (m lph tp : Nat) : List (BitVec 64) :=
  let pair := s.bit RED_CFG_PAIR
  let msg i := match s.red.now[i]? with
    | some x => if pair then BitVec.ofNat 64 (x.kind * 2 ^ 60 + x.body % 2 ^ 60) else 0
    | none => 0
  let n := s.now % 32
  let slice := if pair && s.role == 1 then ((s.slicesAt s.now).find? fun p => p.1 == m).map (·.2) else none
  let (sd, data) := match slice with
    | some i =>
      let (f, _) := groupSlices (groupOf i)
      let (t, ws) := mget (0, []) s.red.caps (groupOf i)
      (i * 2 ^ 56 + s.fld RED_EPOCH_EPOCH * 2 ^ 32 + s.red.seqNo * 2 ^ 16 + t % 65536,
       ((ws.drop (128 * (i - f))).take 128) ++ List.replicate (128 - ((ws.drop (128 * (i - f))).take 128).length) 0)
    | none => (0xFF * 2 ^ 56 + s.fld RED_EPOCH_EPOCH * 2 ^ 32 + s.red.seqNo * 2 ^ 16, List.replicate 128 0)
  let dig := if pair && !s.bit RED_CFG_MODE then
      (match s.red.digs.find? fun p => p.1 + 1 == s.now with | some p => p.2 | none => 0) else 0
  [s.statWord, msg 0, msg 1, msg 2, msg 3, BitVec.ofNat 64 s.ctl.btime, BitVec.ofNat 64 s.now,
   BitVec.ofNat 64 (n * 2 ^ 59 + s.fld (CL_PDLY_DPORT n) * 2 ^ 43 + lph % 32 * 2 ^ 38 + tp % 65536),
   BitVec.ofNat 64 sd] ++ data ++ [BitVec.ofNat 64 dig]

/-- Before the pair frames of a tick: up to four mirrored requests are taken, the NEXT2 decision and the unit's own
port delay are noted (R295, R296, R300). -/
def State.pairPrepare (s : State) (lph : Nat) : State :=
  if !s.bit RED_CFG_PAIR then s
  else
    let s := { s with red := { s.red with now := s.red.queue.take 4, queue := s.red.queue.drop 4 } }
    if s.role ≠ 1 then s
    else
      let s := if s.next2At s.now then
          { s with red := { s.red with next2 := some (s.portState 36 == 4 && s.portState 37 == 4) } } else s
      let n := s.now % 32
      let old := mget [] s.red.dports n
      { s with red := { s.red with dports := mput s.red.dports n (((s.now, s.fld (CL_PDLY_DPORT n), lph) :: old).take 4) } }

/-- The pair frame of lane m (0 ML0, 1 ML1) is launched. -/
def State.launchPair (s : State) (m lph tp : Nat) : State :=
  let l := 36 + m
  let x := s.lane l
  let tx := if s.fld (CL_CTRL_LB l) = 3 then x.feWords else s.pairHeader lph :: s.pairWords m lph tp
  s.newFrame l tx false

/-- The header identifies the expected partner (R283, R284). -/
def State.expectPair (s : State) (hdr : BitVec 64) : Bool :=
  let h := hdr.toNat
  let t := bitsOf h 63 60
  let base := bitsOf h 59 58 == 1 && bitsOf h 57 50 == s.fld RED_CFG_PAIR_ID
  if s.bit RED_CFG_PAIR then
    base && t == (if s.bit RED_CFG_MODE then 6 else 5) && bitsOf h 49 49 != s.fld RED_ID_UNIT
  else base && (t == 5 || t == 6)

/-- DPAIR, DELTA and dlt from the 16 most recent usable frames (R292). -/
def State.pairDelay (s : State) (x tp dl : Int) : State :=
  let l := ((x, tp, dl) :: s.red.offs).take 16
  let s := { s with red := { s.red with offs := l } }
  if l.length < 16 then s
  else
    let sx := (l.map fun p => p.1).foldl (· + ·) 0
    let st := 250 * (l.map fun p => p.2.1).foldl (· + ·) 0
    let dpair := floorDiv (sx - st + 16) 32
    let dlt := dl - floorDiv (sx + st + 16) 32
    let s := (s.setFld RED_PAIR_DLY_DPAIR (usat (floorDiv (dpair + 125) 250) 16)).setFld RED_PAIR_DLY_DELTA
      (wrap (sat (floorDiv (dlt + 125) 250) 16) 16)
    { s with red := { s.red with dlyOk := true, dlt := dlt } }

/-- A STAT word with the partner's configuration hash (R283, R291). -/
def statOf (w t : Nat) : PairStat :=
  { state := bitsOf w 63 60, latched := tbit w 59, handover := tbit w 58, cause := bitsOf w 57 50,
    hash := w % 2 ^ 32, tick := t }

/-- A standby keeps its cycles in step with the sender's (R300, R301). -/
def State.cycleSeen (s : State) (m i j : Nat) : State :=
  match cycleOf m i j with
  | some c => if s.red.cyc = some c then s else
      { s.setFld RED_STAT_ONE_LANE (b2n (!c.2)) with red := { s.red with cyc := some c } }
  | none => s

/-- The partner's configuration hash is held against the own one (R283): CFG_MISMATCH when a difference is new. -/
def State.hashCheck (s : State) (v : Nat) : State :=
  if v = s.fld (CFG_HASH 0) then { s with red := { s.red with badHash := false } }
  else { ((s.sendIf (!s.red.badHash) 0x380 0x10 0).flag RED_STAT_CFG_MIS) with red := { s.red with badHash := true } }

/-- A usable pair frame (R286, R288, R292, R296, R298, R303). `j` is the own tick of its launch. -/
def State.pairUsable (s : State) (m : Nat) (f : FrameIn) (j : Nat) (x : Int) : State :=
  let h := f.hdr.toNat
  let w (i : Nat) : Option Nat := match f.words[i - 1]? with
    | some p => if p.1.good then some p.2.toNat else none
    | none => none
  let hdr : PairHdr := { epoch := bitsOf h 47 24, role := bitsOf h 23 22, sub := bitsOf h 21 20, token := tbit h 48,
                         unit := bitsOf h 49 49, tick := j }
  let wasCur := match s.red.hdr with | some o => o.role == 2 && o.sub == 1 | none => false
  let s := { s with red := { s.red with hdr := some hdr, lanesJ := mput s.red.lanesJ m j } }
  let s := if hdr.role = 2 ∧ hdr.sub = 1 ∧ !wasCur then
      { s with red := { s.red with dblNext := s.now + s.fld RED_DBL_INT * 60000000 } } else s
  let s := match w 1 with
    | some v =>
      let n2 := if s.role = 2 ∧ s.next2At j then some (tbit v 46) else s.red.next2
      { s with red := { s.red with stat := some (statOf v j), next2 := n2 } }
    | none => s
  let s := match w 7 with
    | some v => { s with red := { s.red with lastW7 := some (v, j) } }
    | none => s
  let s := match w 8 with
    | some v =>
      let s := s.pairDelay x (sext v 16) (80 * ((bitsOf h 19 15 : Int) - s.cmp.lph))
      if hdr.role = 1 then
        let n := bitsOf v 63 59
        let old := mget [] s.red.dports n
        { s with red := { s.red with dports := mput s.red.dports n (((j, bitsOf v 58 43, bitsOf v 42 38) :: old).take 4) } }
      else s
    | none => s
  let s := match w 138 with
    | some v => { s with red := { s.red with pdigs := ((m, j - 1, v) :: s.red.pdigs).take 8 } }
    | none => s
  let s := s.roleDecide hdr.role
  let s := if s.role = 2 ∧ hdr.role = 1 then s.setEpoch hdr.epoch else s
  match w 9 with
  | some v =>
    let data := (f.words.drop 9).take 128
    if bitsOf v 63 56 != 0xFF && s.role == 2 && data.all (fun p => p.1.good) then
      (if s.red.adopted then s.cycleSeen m (bitsOf v 63 56) j else s).sliceRx (bitsOf v 31 16) (bitsOf v 55 32) (bitsOf v 63 56) (v % 65536) (data.map (·.2))
    else s
  | none => s

/-- PAIR_FRAME_RX: a frame on ML0 or ML1 whose trailer is received in cycle `cyc`; `x` is the arrival of its FRAME
marker minus the launch of the own marker of the same tick, in ps (R292). -/
def pairFrameRx (s : State) (m : Nat) (line : List Bool) (cyc : Nat) (x : Int) : State :=
  let l := 36 + m
  let src := 0x1A1 + 8 * m
  if !s.aligned l then s
  else
    let f := frameIn 138 line
    let s := stuffEvents s l f.stuffV
    let s := loopCompare s l line (f.hdr :: f.words.map (·.2))
    if s.portState l ≠ 3 ∧ s.portState l ≠ 4 then s else
    let (s, rep) := s.laneCheck l f.syns
    if !f.hdrEcc.good then (s.noIdent l).sendIf (!rep.headD false) src 0x18 0
    else if !f.crcOk then (s.noIdent l).send src 0x19 0
    else
      let ok := s.expectPair f.hdr
      let s := if bitsOf f.hdr.toNat 63 60 = 5 ∨ bitsOf f.hdr.toNat 63 60 = 6 then
          { s with red := { s.red with heardAt := some s.now } } else s
      let was := s.portState l
      let s := portIdentify s l ok
      let s := if was ≠ 4 ∧ s.portState l = 4 then { s with red := { s.red with offs := [], dlyOk := false } } else s
      if !ok || !s.delivers l || !s.bit RED_CFG_PAIR then s
      else
        let s := match f.words[0]? with
          | some p => if p.1.good then s.hashCheck (p.2.toNat % 2 ^ 32) else s
          | none => s
        if s.red.badHash then s
        else
          let synced := s.role = 1 ∨ s.red.adopted
          let j0 := if cyc ≤ 80 then s.now - 1 else s.now
          let j := match f.words[6]? with
            | some p => if synced ∧ p.1.good then p.2.toNat else j0
            | none => j0
          if synced ∧ (j + 1 < s.now ∨ (j + 1 = s.now ∧ 80 < cyc)) then s.send src 0x2F 0
          else s.pairUsable m f j x

def execPairFrameRx (ml : Fin 2) (line : List Bool) (cyc : Nat) (x : Int) (s : State) :
    Host.Outcome State Fault Refusal := .next (pairFrameRx s ml line cyc x)

/-! ### Following (R293 to R295) -/

/-- STAT_LATE: a deadline of R293 is missed in this tick. -/
def statLate (s : State) : State :=
  if s.role ≠ 2 then s
  else
    let s := (s.flag RED_STAT_STAT_LATE).sendIf (!s.red.lateRun && !s.red.lateNow) 0x383 0x19 0
    let s := { s with red := { s.red with lateNow := true, clean := 0 } }
    if s.sub = 1 then s.setRole 2 2 else s

def execStatLate (s : State) : Host.Outcome State Fault Refusal := .next (statLate s)

/-- A standby takes an operating state from its partner; a loopback that the state does not allow ends with it (R41, R86). -/
def State.followTo (s : State) (a : Nat) : State := if s.op = a then s else loopbackEnd (s.enterState a 0x06)

/-- STATE_FOLLOW (R41, R243, R294): at cycle 97 of tick k a standby takes the STATE of the STAT word of the active
unit's frame of tick k, and writes its device status slots. The active unit's release at the boundary, which the word shows,
releases the block that the standby had there too, when its own conditions 2 to 7 held. -/
def stateFollow (s : State) (stat : ECWord) : State :=
  if s.role ≠ 2 then s
  else
    let (e, d) := hsiaoDec stat
    let w := d.toNat
    let s := if e.good then s.hashCheck (w % 2 ^ 32) else s
    let usable := e.good && !s.red.badHash
    let a := bitsOf w 63 60
    let was := match s.red.stat with | some p => p.latched | none => false
    let freed := usable && s.latched && s.prot.fresh.old && !tbit w 59 && (was || (s.op == 7 && a == 5))
    let s := if !usable then s else { s with red := { s.red with stat := some (statOf w s.now) } }
    let s := if freed && decide (s.fld PRT_STAT_UNMET / 2 % 64 = 0) then s.releaseOld else s
    let s := if s.op = 8 then
        { (if s.sub = 2 then s else s.setRole 2 2) with red := { s.red with clean := 0 } }
      else if !usable then s
      else if 5 ≤ a ∧ a ≤ 7 ∨ (a = 4 ∧ 5 ≤ s.op ∧ s.op ≤ 7) then s.followTo a
      else s
    s.statusSlots

def execStateFollow (stat : ECWord) (s : State) : Host.Outcome State Fault Refusal := .next (stateFollow s stat)

/-- MIRRORED_REQUEST_APPLY (R295): in the last cycle of a tick the ACTIVE unit applies the requests that its frame
carried, a STANDBY those of the MSG words it received. -/
def mirroredApply (s : State) (msgs : List ECWord) : State :=
  let l : List MirMsg :=
    if s.role = 1 then s.red.now
    else if s.role = 2 ∧ !s.red.badHash then msgs.filterMap fun w =>
      let (e, d) := hsiaoDec w
      if e.good then some ⟨bitsOf d.toNat 63 60, d.toNat % 2 ^ 60⟩ else none
    else []
  let s := l.foldl applyMsg s
  { s with red := { s.red with now := [], applied := l } }

def execMirroredRequestApply (msgs : List ECWord) (s : State) : Host.Outcome State Fault Refusal :=
  .next (mirroredApply s msgs)

/-! ### Digests and silence (R298, R306) -/

/-- One lane of a paired unit without a usable frame of the previous tick: PAIR_MISS once per run (DEDUCED, log
entry 13). -/
def State.pairMiss (s : State) (m : Nat) : State :=
  let got := mget none (s.red.lanesJ.map fun p => (p.1, some p.2)) m == some (s.now - 1)
  let was := s.red.missing.contains m
  if s.portState (36 + m) ≠ 4 ∨ got then { s with red := { s.red with missing := s.red.missing.filter (· != m) } }
  else if was then s
  else ({ s with red := { s.red with missing := s.red.missing ++ [m] } }).send (0x1A1 + 8 * m) 0x2E 0

/-- DIGEST_COMPARE at cycles 80 to 99: the digest of two ticks ago, and in every role whether the partner is heard and the
count of silent ticks (R31, R288, R298, R306, R314). -/
def digestCompare (s : State) : State :=
  if !s.bit RED_CFG_PAIR then s.setFld RED_STAT_PARTNER 0
  else
    let s := (s.pairMiss 0).pairMiss 1
    let heard := s.red.lanesJ.any fun p => p.2 + 1 == s.now || p.2 == s.now
    let n := if heard then 0 else s.red.silent + 1
    let s := { s.setFld RED_STAT_PARTNER (b2n heard) with red := { s.red with silent := n } }
    let s := s.sendIf (s.bit RED_CFG_MODE && n == 1000) 0x385 0x1F 0
    if s.bit RED_CFG_MODE || s.now < 2 then s
    else
      let k := s.now - 2
      let own := (s.red.digs.find? fun p => p.1 == k).map (·.2)
      let his (m : Nat) := (s.red.pdigs.find? fun p => p.1 == m && p.2.1 == k).map (·.2.2)
      let p := match his 0 with | some v => some v | none => his 1
      match p with
      | none =>
        let r := s.red.missRun + 1
        let s := (s.count RED_CNT_DMISS RED_CNT_OVF 1 1).sendIf (r == 1) 0x381 0x16 0
        let s := { s with red := { s.red with missRun := r, dirty := true } }
        if s.role = 2 ∧ s.sub = 1 ∧ 3 ≤ r then { s.setRole 2 2 with red := { s.red with clean := 0 } } else s
      | some v =>
        let s := { s with red := { s.red with missRun := 0 } }
        if own = some v then s
        else
          let s := (s.count RED_CNT_DMIS RED_CNT_OVF 0 1).send 0x381 0x15 0
          let s := { s with red := { s.red with dirty := true } }
          if s.role = 2 ∧ s.sub = 1 then { s.setRole 2 2 with red := { s.red with clean := 0 } } else s

def execDigestCompare (s : State) : Host.Outcome State Fault Refusal := .next (digestCompare s)

/-! ### Takeover (R306 to R309) -/

/-- The standby may take over (R306, R309). -/
def State.mayTake (s : State) : Bool := s.role == 2 && (s.sub == 1 || (s.sub == 2 && s.bit RED_CFG_TAKE_STALE))

/-- TAKEOVER_DECISION at cycle 100 (R306, R314). -/
def takeoverDecision (s : State) : State :=
  let st := s.red.stat
  let c1 := match st with | some p => p.handover | none => false
  let c2 := !s.bit RED_CFG_MODE && decide (s.fld RED_CFG_SILENT ≤ s.red.silent)
  let c3 := !s.bit RED_CFG_MODE && (match st with | some p => p.state == 6 | none => false)
    && s.majority fun n => decide (2 ≤ mget 0 s.red.hold n)
  let c4 := !s.bit RED_CFG_MODE && s.red.alertAt.isSome && (match s.red.hdr with | some h => h.role == 1 | none => false)
  let c5 := s.bit RED_CFG_MODE && s.red.hbGone && decide (1000 ≤ s.red.silent)
  let go := s.mayTake && (c1 || c2 || c3 || c4 || c5)
  { s with red := { s.red with alertAt := none, take := s.red.take || go } }

def execTakeoverDecision (s : State) : Host.Outcome State Fault Refusal := .next (takeoverDecision s)

/-- The new active unit composes with its own delays and hands each cell its compensation (R307, R308). -/
def State.adoptDelays (s : State) : State :=
  let s := s.red.ownPort.foldl (fun s p =>
    let s := s.setFld (CL_PDLY_DPORT p.1) p.2
    { s with red := { s.red with dports := mput s.red.dports p.1 [(s.now - 4, p.2, s.cmp.lph)] } }) s
  let delta := sext (s.fld RED_PAIR_DLY_DELTA) 16
  s.each s.confCells fun s g =>
    let own := mget (s.ce g ceDmeas) s.red.own g
    let ok := s.ceBit g ceDlyOk
    let s := s.setCe g ceDmeas own
    if ok then s.setCc g { s.cc g with adopt := some (usat ((own : Int) + delta) 16, none) } else s

/-- The announced swap ends. -/
def State.dblEnd (s : State) (next : Nat) : State :=
  { s.setFld RED_STAT_DBL_PEND 0 with red := { s.red with dbl := none, dblOk := false, dblNext := next } }

/-- The decided takeover is taken up. -/
def State.noTake (s : State) : State := { s with red := { s.red with take := false } }

/-- A takeover (reason 1) drops a swap whose checks have passed (R315). -/
def State.dropSwap (s : State) (reason : Nat) : State :=
  if reason = 1 ∧ s.red.dblOk = true then s.dblEnd (s.now + s.fld RED_DBL_INT * 60000000) else s

/-- TAKEOVER at a boundary (R307 to R309): reason 1 for a takeover, 2 for a Doubles swap. -/
def State.takeover (s : State) (reason : Nat) : State :=
  let stale := s.sub == 2
  let s := ((s.noTake).dropSwap reason).becomeActive reason
  if s.role ≠ 1 then s
  else
    let s := if stale then (s.send 0x384 0x1B 0).sumpBlock 0x384 else s
    let s := (s.flag RED_STAT_TAKEOVER).count RED_CNT_TAKE RED_CNT_OVF 3 1
    let s := if s.bit RED_CFG_MODE then s.loadKept else s
    (s.adoptDelays).send 0x384 0x1A 0

/-! ### Doubles (R311, R312) -/

/-- A swap is announced (R311). -/
def State.announce (s : State) : State :=
  if s.red.queue.length ≥ 64 then (s.flag RED_STAT_MIRQ_FULL).send 0x380 0x14 0
  else
    let t := s.now + 1000
    let s := ((s.flag RED_STAT_DBL_PEND).setFld RED_DBL_NEXT (t % 2 ^ 32)).send 0x384 0x1C 0
    { s with red := { s.red with dbl := some t, dblOk := false, queue := s.red.queue ++ [⟨6, t % 2 ^ 32⟩] } }

/-- A swap can be announced: ACTIVE, CURRENT partner, none pending. -/
def State.canSwap (s : State) : Bool := s.bit RED_CFG_PAIR && s.role == 1 && s.partnerCurrent && s.red.dbl.isNone

/-- DOUBLES_ANNOUNCE: INT minutes have passed. -/
def doublesAnnounce (s : State) : State :=
  if s.canSwap && s.fld RED_DBL_INT != 0 && decide (s.red.dblNext ≤ s.now) then s.announce else s

def execDoublesAnnounce (s : State) : Host.Outcome State Fault Refusal := .next (doublesAnnounce s)

/-- DOUBLES_REQUEST: a write of `RED_DBL_REQ` (R311, R10, R295). -/
def doublesRequest (s : State) (val : Nat) : State :=
  if wbits val RED_DBL_REQ_KEY ≠ 0x3C5A then s.send 0x380 0x03 0
  else if wbits val RED_DBL_REQ_GO = 0 then s
  else if s.op = 3 then s.svcDenied
  else if s.bit RED_CFG_PAIR && s.role == 2 then (s.flag RED_STAT_NOT_ACTIVE).send 0x380 0x13 0
  else if s.canSwap then s.announce else s

def execDoublesRequest (_m : Master) (val : Word) (s : State) : Host.Outcome State Fault Refusal :=
  .next (doublesRequest s val.toNat)

/-- DOUBLES_CHECK at the boundary of tick S − 2 (R312). -/
def doublesCheck (s : State) : State :=
  match s.red.dbl with
  | none => s
  | some t =>
    if s.now + 2 < t then s
    else
      let cur := if s.role = 2 then s.sub == 1 else s.partnerCurrent
      let pblk := match s.red.stat with | some p => p.latched | none => false
      let swap := match s.eng.swap with | some w => decide (t ≤ w.tick + 2 ∧ w.tick ≤ t) | none => false
      if cur && !s.latched && !pblk && !swap && !s.red.take then { s with red := { s.red with dblOk := true } }
      else ((s.flag RED_STAT_DBL_ABORT).send 0x384 0x1D 0).dblEnd (s.now + 60000000)

def execDoublesCheck (s : State) : Host.Outcome State Fault Refusal := .next (doublesCheck s)

/-- DOUBLES_SWAP at the boundary of tick S (R312); a takeover decided for that boundary wins (R315). -/
def doublesSwap (s : State) : State :=
  match s.red.dbl with
  | none => s
  | some t =>
    if s.now < t ∨ !s.red.dblOk then s
    else if s.red.take then s.dblEnd (s.now + s.fld RED_DBL_INT * 60000000)
    else
      let s := (s.dblEnd (s.now + s.fld RED_DBL_INT * 60000000)).count RED_CNT_DBL RED_CNT_OVF 4 1
      if s.role = 2 then s.takeover 2
      else { s.roleChange 2 1 2 with red := { s.red with adopted := true, loadAll := false, clean := 0, rx := none } }

def execDoublesSwap (s : State) : Host.Outcome State Fault Refusal := .next (doublesSwap s)

/-! ### Heartbeats (R313, R314) -/

/-- Level of the unit's own heartbeat pin: low in native mode (R313). -/
def State.hbPin (s : State) : Bool := s.bit RED_CFG_MODE && s.red.hbOwn

/-- HEARTBEAT_TOGGLE (R313): after a half-period of 125 µs, while the tick pipeline runs. -/
def heartbeatToggle (s : State) : State :=
  if !s.bit RED_CFG_MODE ∨ s.dbg.frozen ∨ !s.ticksRun ∨ s.now < s.red.hbAt + 125 then s
  else { s with red := { s.red with hbOwn := !s.red.hbOwn, hbAt := s.now } }

def execHeartbeatToggle (s : State) : Host.Outcome State Fault Refusal := .next (heartbeatToggle s)

def execHeartbeatEdgeRx (s : State) : Host.Outcome State Fault Refusal :=
  .next (if s.bit RED_CFG_MODE then { s with red := { s.red with hbSeen := s.now, hbGone := false } } else s)

/-- HB_LOST (R314): the pin is lost, which is told once until an edge comes; TAKEOVER_DECISION acts on it when the pair
frames are lost too. -/
def hbLost (s : State) : State :=
  if !s.bit RED_CFG_MODE ∨ s.red.hbGone ∨ s.now < s.red.hbSeen + 1000 then s
  else { s.send 0x385 0x1E 0 with red := { s.red with hbGone := true } }

def execHbLost (s : State) : Host.Outcome State Fault Refusal := .next (hbLost s)

/-! ### The boundary (R287, R293, R304, R306) -/

/-- Stored tick values are moved with the tick counter, so that timers count boundaries (R304). -/
def State.shiftTicks (s : State) (d : Int) : State :=
  let f (t : Nat) : Nat := ((t : Int) + d).toNat
  let g := d * 65536000
  { s with
    lanes := s.lanes.map fun p => (p.1, { p.2 with faultedAt := f p.2.faultedAt, silentFrom := p.2.silentFrom.map f,
                                                   rx := p.2.rx.map fun x => { x with tick := f x.tick } })
    time := { s.time with dom0 := { s.time.dom0 with gm := s.time.dom0.gm.map fun q => (q.1, q.2.1, f q.2.2), heard := s.time.dom0.heard.map fun q => (q.1, f q.2) },
                          dom1 := { s.time.dom1 with gm := s.time.dom1.gm.map fun q => (q.1, q.2.1, f q.2.2), heard := s.time.dom1.heard.map fun q => (q.1, f q.2) },
                          pdly := s.time.pdly.map fun p => (p.1, f p.2.1, p.2.2) }
    eng := { s.eng with swap := s.eng.swap.map fun w => { w with tick := f w.tick } }
    acq := { s.acq with wake := s.acq.wake.map f, log := s.acq.log.map fun q => { q with tick := f q.tick },
                        wait := s.acq.wait.map fun b => { b with g := b.g + g },
                        recs := s.acq.recs.map fun p => (p.1, { p.2 with
                          armTick := f p.2.armTick, stepIn := p.2.stepIn.map f, holdAt := f p.2.holdAt, t0 := p.2.t0 + g,
                          trig := p.2.trig.map fun t => { t with g := t.g + g, seen := f t.seen } }) }
    prot := { s.prot with setTick := f s.prot.setTick, window := s.prot.window.map fun w => (w.1, w.2.1, f w.2.2) }
    sump := { s.sump with srcs := s.sump.srcs.map fun p => (p.1, { p.2 with ws := f p.2.ws, tl := f p.2.tl }),
                          creset := s.sump.creset.map fun p => (p.1, f p.2) }
    excl := s.excl.map fun r => { r with tick := f r.tick }
    ccell := s.ccell.map fun p => (p.1, { p.2 with
      stestAt := f p.2.stestAt, probe := p.2.probe.map f, adopt := p.2.adopt.map fun q => (q.1, q.2.map f),
      cur := p.2.cur.map fun i => { i with sent := i.sent.map f, zeros := i.zeros.map f } })
    cmp := { s.cmp with stestNext := s.cmp.stestNext.map fun p => (p.1, f p.2) }
    stn := s.stn.map fun p => (p.1, { p.2 with tokTick := p.2.tokTick.map fun q => (q.1, f q.2), c0At := f p.2.c0At,
                                               told := p.2.told.map fun q => (q.1, f q.2) })
    ld := { s.ld with cmd := s.ld.cmd.map fun c => { c with tick := f c.tick },
                      offs := s.ld.offs.map fun o => { o with tick := f o.tick } }
    mem := { s.mem with caver := s.mem.caver.map fun c => { c with tick := f c.tick }, caverAt := s.mem.caverAt.map f }
    sec := { s.sec with dbgTick := f s.sec.dbgTick, backAt := f s.sec.backAt }
    nrg := { s.nrg with queue := s.nrg.queue.map fun b => { b with tick := f b.tick },
                        failAt := s.nrg.failAt.map f, open_ := s.nrg.open_.map fun i => { i with upTo := f i.upTo },
                        offered := s.nrg.offered.map fun q => (q.1, f q.2) }
    red := { s.red with hbSeen := f s.red.hbSeen, hbAt := f s.red.hbAt, log := s.red.log.map fun l => { l with tick := f l.tick },
                        dports := s.red.dports.map fun p => (p.1, p.2.map fun q => (f q.1, q.2)), dblNext := f s.red.dblNext, lanesJ := [],
                        heardAt := s.red.heardAt.map f, hdr := s.red.hdr.map fun h => { h with tick := f h.tick } } }

/-- TICK_ADOPTION (R304): the tick counter of the tick that begins. DEDUCED (log 110): a STALE standby that has never
adopted the counter does as one in JOIN, since R305 lets it become CURRENT. -/
def State.adoptTick (s : State) (next : Nat) : Nat × State :=
  let delta := sext (s.fld RED_PAIR_DLY_DELTA) 16
  if s.role = 2 ∧ s.sub ≠ 1 ∧ !s.red.adopted ∧ s.red.dlyOk ∧ delta.natAbs < 2000 then
    match s.red.lastW7 with
    | some (w, j) =>
      let t := w + (next - j)
      let s := s.shiftTicks ((t : Int) - next)
      (t, { s with red := { s.red with adopted := true, loadAll := true, cut := s.red.rx.isSome, digs := [], pdigs := [] } })
    | none => (next, s)
  else (next, s)

/-- The pair's counts over the tick that ends (R287, R293, R306). -/
def State.pairBoundary (s : State) : State :=
  let own := s.fld RED_EPOCH_EPOCH
  let dem := s.role == 1 && s.bit RED_CFG_PAIR
    && s.majority fun n => !s.bit (CL_HUB_STAT_TOKEN n) && decide (own < s.fld (CL_HUB_STAT_EPOCH n))
  { s with red := { s.red with demRun := if dem then min 3 (s.red.demRun + 1) else 0,
                               lateRun := s.red.lateNow, lateNow := false } }

end Sys2Proof.Machine
end

