-- ==== Sys2Proof/Machine/Acq.lean ====
section
/-! DEFINITION. Acquisition and triggers (chapter 15): channels, rows, trigger units, recorders, the bus of ML2 and
ML3, retention. -/
namespace Sys2Proof.Machine
open Sys2Proof

/-! ### Recorders: formats and memory (R340 to R342) -/

def recorderReset : Recorder := {}
def State.recd (s : State) (r : Nat) : Recorder := mget recorderReset s.acq.recs r
def State.setRecd (s : State) (r : Nat) (x : Recorder) : State :=
  { s with acq := { s.acq with recs := mset recorderReset s.acq.recs r x } }

/-- State code of a recorder (R346): 0 IDLE, 1 ARMED, 2 POST, 3 CLOSE, 4 HOLD, 5 FULL. -/
def State.recSt (s : State) (r : Nat) : Nat := s.fld (ACQ_R_STAT_STATE r)

/-- Selected channels in increasing number (R340). -/
def State.recChans (s : State) (r : Nat) : List Nat :=
  if s.bit (ACQ_R_CFG_MODE r) then bitsSet (s.fld (ACQ_R_DLO r) + s.fld (ACQ_R_DHI r) * 2 ^ 32) 64
  else bitsSet (s.fld (ACQ_R_RAW r)) 32

/-- Lanes of a row (R340, R341). -/
def State.recLanes (s : State) (r : Nat) : Nat :=
  (s.recChans r).length * (if s.fld (ACQ_R_CFG_RED r) = 0 then 1 else 2) + s.fld (ACQ_R_CFG_EVT r)

/-- Lanes in a word: 4 of 16 bits in raw rows, 2 of 32 bits in tick rows. -/
def State.lanesPerWord (s : State) (r : Nat) : Nat := if s.bit (ACQ_R_CFG_MODE r) then 2 else 4

/-- Row width w in words. -/
def State.rowWidth (s : State) (r : Nat) : Nat :=
  let l := s.lanesPerWord r
  (s.recLanes r + l - 1) / l

/-- Words G of a segment, and its capacity C in rows (R342). -/
def State.segWords (s : State) (r : Nat) : Nat := 512 * s.fld (ACQ_R_MEM_SIZE r) / s.fld (ACQ_R_CFG_NSEG r)
def State.segRows (s : State) (r : Nat) : Nat := (s.segWords r - 16) / s.rowWidth r

/-- Address of the header of the current segment. -/
def State.segAddr (s : State) (r : Nat) : Nat :=
  0x20000000 + 8 * (512 * s.fld (ACQ_R_MEM_BASE r) + s.fld (ACQ_R_STAT_SEG r) * s.segWords r)

/-- A row as one number: lane i in bits [iB + B − 1 : iB] (R340). -/
def rowNat (b : Nat) : List Nat → Nat
  | [] => 0
  | v :: t => v % 2 ^ b + 2 ^ b * rowNat b t

/-- Interval between inputs on the tick grid in 2^-16 ns. -/
def State.inputStep (s : State) (r : Nat) : Nat :=
  if s.bit (ACQ_R_CFG_MODE r) then 65536000 * 2 ^ s.fld (ACQ_R_CFG_DIV r)
  else 65536000 / rateOf (s.fld (ACQ_R_CFG_RATE r))

/-- Grid place of sample i of sample tick j at S samples per tick (R248). -/
def State.sampleGrid (s : State) (j sn i : Nat) : Int :=
  65536 * (1000 * (j : Int) - s.fld SNS_CFG_ADV) + ((65536000 / sn * i : Nat) : Int)

/-! ### Arming and closing (R342, R343, R346, R347, R349) -/

/-- The recorder's next free segment from `n` on (R343). -/
def State.freeSeg (s : State) (r n : Nat) : Option Nat :=
  let k := s.fld (ACQ_R_CFG_NSEG r)
  ((upto k).map fun i => (n + i) % k).find? fun g => s.bit (ACQ_R_CFG_OVW r) || !tbit (s.fld (ACQ_R_STAT_CLOSED r)) g

/-- The recorder arms into its next free segment, or is FULL when there is none (R343, R346). -/
def State.armInto (s : State) (r : Nat) : State :=
  let x := s.recd r
  match s.freeSeg r x.next with
  | none =>
    let s := (s.setFld (ACQ_R_STAT_STATE r) 5).setRecd r { x with missSent := false }
    s.send (0x3C0 + r) 0x11 0
  | some g =>
    let m := 2 ^ s.fld (ACQ_R_CFG_DIV r)
    let t0 : Int := if s.bit (ACQ_R_CFG_MODE r) then 65536000 * (((s.now + m - 1) / m * m : Nat) : Int)
      else s.sampleGrid s.now 1 0
    let s := ((s.setFld (ACQ_R_STAT_STATE r) 1).setFld (ACQ_R_STAT_SEG r) g).unflagBit (ACQ_R_STAT_CLOSED r) g
    s.setRecd r { recorderReset with next := g + 1, seq := x.seq, t0 := t0, armTick := s.now }

/-- An ARM is rejected (R342). -/
def State.armBad (s : State) (r : Nat) : Bool :=
  let lo (q : Nat) := s.fld (ACQ_R_MEM_BASE q)
  let hi (q : Nat) := s.fld (ACQ_R_MEM_BASE q) + s.fld (ACQ_R_MEM_SIZE q)
  decide (6144 < hi r)
    || (upto 4).any (fun q => q != r && s.recSt q != 0 && decide (lo q < hi r ∧ lo r < hi q))
    || decide (s.segRows r < s.fld (ACQ_R_PRE_ROWS r) + s.fld (ACQ_R_POST_ROWS r) + 1)
    || (!s.bit (ACQ_R_CFG_MODE r) && (s.recChans r).any fun n => s.fld (SNS_P_CFG_RATE (n / 8)) != s.fld (ACQ_R_CFG_RATE r))
    || !s.bit ACQ_STAT_AWAKE

/-- ARM (R342, R417). -/
def recorderArm (s : State) (r : Nat) : State :=
  if s.op = 3 then s.svcDenied
  else if s.recSt r ≠ 0 then s
  else if s.armBad r then (s.flag (ACQ_R_STAT_REJ r)).send (0x3C0 + r) 0x12 0
  else s.armInto r

/-- The record header is written (R347, R349) and the segment holds a record. A record closed before any trigger has
no trigger instant, position or source: those fields are free values. -/
def State.writeHeader (s : State) (r : Nat) (abort : Bool) : State :=
  let x := s.recd r
  let c := s.segRows r
  let pre0 := s.fld (ACQ_R_PRE_ROWS r)
  let rho := s.fld (ACQ_R_CFG_RED r)
  let row := match x.trig with | some t => t.row | none => x.rows
  let post := x.rows - row - 1
  let pre := match x.trig with
    | some t => if t.inArm then 0 else min pre0 (min row x.rows)
    | none => min pre0 row
  let old := row - pre
  let nrows := x.rows - old
  let (v, s) := match x.trig with
    | some _ => (0, s)
    | none => s.draw 192
  let (w1, w2, w3, w5, w6) := match x.trig with
    | some t =>
      ((floorDiv t.g 65536000).toNat, (floorDiv t.inst 65536).toNat, t.tq * 2 ^ 32 + (t.inst % 65536).toNat * 2 ^ 16,
       wrap (t.pos - ((old * 256 * 2 ^ rho : Nat) : Int)) 48 + t.tsrc * 2 ^ 48 + b2n t.exact * 2 ^ 56,
       t.origin * 2 ^ 48 + t.tseq * 2 ^ 56)
    | none => (v % 2 ^ 64, v / 2 ^ 64 % 2 ^ 64, v / 2 ^ 128 % 2 ^ 48 * 2 ^ 16, v / 2 ^ 136 % 2 ^ 56, 0)
  let a := s.segAddr r
  let start := if c = 0 then 0 else old % c
  let ws : List Nat :=
    [0x4C4E * 2 ^ 48 + 2 ^ 40 + r * 2 ^ 38 + x.seq % 2 ^ 32, w1, w2, w3, pre + post * 2 ^ 32,
     w5 + b2n abort * 2 ^ 57, nrows % 2 ^ 32 + min x.retrig 65535 * 2 ^ 32 + w6,
     start + (match x.stepIn with | some t => t % 65536 * 2 ^ 32 + 2 ^ 48 | none => 0),
     s.fld (CFG_HASH 0) * 2 ^ 32 + s.regBits (0x91000 + 256 * r), s.fld (ACQ_R_RAW r), s.fld (ACQ_R_DLO r),
     s.fld (ACQ_R_DHI r), 0, 0, 0, 0]
  let s := s.wrWords a (ws.map (BitVec.ofNat 64))
  let s := (s.setRecd r { x with seq := (x.seq + 1) % 2 ^ 32 }).flagBit (ACQ_R_STAT_CLOSED r) (s.fld (ACQ_R_STAT_SEG r))
  s.send (0x3C0 + r) 0x16 0

/-- The end of the hold-off (R346). -/
def State.holdEnd (s : State) (r : Nat) : State :=
  if s.bit (ACQ_R_CFG_REARM r) then s.armInto r else s.setFld (ACQ_R_STAT_STATE r) 0

/-- The header of a closing record is written: HOLD, which with HMODE 0 lasts zero time (R346). -/
def headerWritten (s : State) (r : Nat) : State :=
  if s.recSt r ≠ 3 then s
  else
    let s := (s.writeHeader r false).setFld (ACQ_R_STAT_STATE r) 4
    let s := s.setRecd r { s.recd r with holdAt := s.now, holdN := 0, missSent := false }
    if s.fld (ACQ_R_CFG_HMODE r) = 0 then s.holdEnd r else s

/-- The hold-off of HMODE 1 has lasted HOLD µs, or HMODE 2 has seen its triggers (R346). -/
def holdOffEnd (s : State) (r : Nat) : State :=
  let x := s.recd r
  let due : Bool := match s.fld (ACQ_R_CFG_HMODE r) with
    | 1 => decide (x.holdAt + s.fld (ACQ_R_HOLD r) ≤ s.now)
    | 2 => decide (s.fld (ACQ_R_HOLD r) ≤ x.holdN)
    | _ => true
  if s.recSt r = 4 ∧ due then s.holdEnd r else s

/-- STOP (R346): IDLE from any state; an open record is closed with ABORT, one in CLOSE gets its header, with ABORT where its
trigger came in the same tick (R354). -/
def recorderStop (s : State) (r : Nat) : State :=
  let st := s.recSt r
  let s := if st = 1 ∨ st = 2 then s.writeHeader r true else if st = 3 then s.writeHeader r ((s.recd r).trig.any fun t => t.seen == s.now) else s
  s.setFld (ACQ_R_STAT_STATE r) 0

/-- A write of a segment's index to `ACQ_Rr_FREE` (R343, R354). -/
def segmentFree (s : State) (r g : Nat) : State :=
  let st := s.recSt r
  if 15 ≤ g ∨ ((st = 1 ∨ st = 2 ∨ st = 3) ∧ s.fld (ACQ_R_STAT_SEG r) = g) then s
  else
    let s := s.unflagBit (ACQ_R_STAT_CLOSED r) g
    if st = 5 ∧ (s.freeSeg r (s.recd r).next).isSome then s.armInto r else s

/-- MCLR (R348); during a function reset it has no effect (R497). -/
def missedClear (s : State) (r : Nat) : State :=
  if s.inFreset (0x91024 + 256 * r) then s
  else [ACQ_R_MISSED r, ACQ_R_STAT_MOVF r, ACQ_R_FMISS_LO r, ACQ_R_FMISS_HI r].foldl (fun s f => s.setFld f 0) s

def execRecorderArm (_m : Master) (r : Fin 4) (s : State) : Host.Outcome State Fault Refusal := .next (recorderArm s r)
def execRecorderStop (_m : Master) (r : Fin 4) (s : State) : Host.Outcome State Fault Refusal := .next (recorderStop s r)
def execMissedClear (_m : Master) (r : Fin 4) (s : State) : Host.Outcome State Fault Refusal := .next (missedClear s r)
def execSegmentFree (_m : Master) (r : Fin 4) (seg : Fin 16) (s : State) : Host.Outcome State Fault Refusal :=
  .next (segmentFree s r seg)
def execRecordHeaderWritten (r : Fin 4) (s : State) : Host.Outcome State Fault Refusal := .next (headerWritten s r)
def execHoldOffEnd (r : Fin 4) (s : State) : Host.Outcome State Fault Refusal := .next (holdOffEnd s r)

/-! ### Triggers (R345 to R348, R351) -/

/-- A firing of a trigger source: grid place and control-time instant in 2^-16 ns, TSRC, a received bus trigger. -/
structure Fire where
  g    : Int
  inst : Int
  tsrc : Nat
deriving DecidableEq, Repr

/-- TRIG markers and messages of a recorder's trigger (R351): one marker on each lane enabled in TX. -/
def State.busSend (s : State) (lanes : Nat) (msg : BusMsg) : State :=
  [(0, 38), (1, 39)].foldl (fun s p =>
    if !tbit lanes p.1 || s.portState p.2 == 0 then s
    else
      let s := s.setLane p.2 { s.lane p.2 with deferred := (s.lane p.2).deferred ++ [.trig] }
      if p.1 = 0 then { s with acq := { s.acq with pend2 := s.acq.pend2 ++ [msg] } }
      else { s with acq := { s.acq with pend3 := s.acq.pend3 ++ [msg] } }) s

/-- Row and position of an instant in a recorder's segment (R345, R349, R354): clamped to row 0. -/
def State.rowOf (s : State) (r : Nat) (g : Int) : Nat × Int :=
  let d := s.inputStep r
  let x := max 0 (g - (s.recd r).t0)
  ((((x + d - 1) / (d : Int)).toNat) / 2 ^ s.fld (ACQ_R_CFG_RED r), floorDiv (x * 256) d)

/-- The record of a recent tick, where it is kept. -/
def State.tickRec (s : State) (j : Nat) : Option TickRec := s.acq.log.find? fun p => p.tick == j

/-- The tick that holds an instant on the tick grid, and the time-quality word in force in it. -/
def tickOf (g : Int) : Nat := (floorDiv g 65536000).toNat
def State.tqAt (s : State) (g : Int) : Nat :=
  match s.tickRec (tickOf g) with
  | some p => p.tq
  | none => s.fld TIM_TQ

/-- The trigger of a record (R345). -/
def State.mkTrig (s : State) (r : Nat) (f : Fire) : Trig :=
  let p := s.rowOf r f.g
  { inst := f.inst, g := f.g, tsrc := f.tsrc, exact := false, origin := 0, tseq := 0, tq := s.tqAt f.g,
    row := p.1, pos := p.2, inArm := tickOf f.g == (s.recd r).armTick, seen := s.now }

/-- A trigger reaches a recorder (R345, R347, R348, R354). In POST one with an earlier instant, or with the same and
a lower TSRC, takes the record over, and the later one counts in RETRIG. -/
def State.recTrigger (s : State) (r : Nat) (f : Fire) : State :=
  let x := s.recd r
  match s.recSt r with
  | 1 =>
    if f.g < x.t0 ∧ tickOf f.g ≤ x.armTick then s
    else
      let s := (s.setRecd r { x with trig := some (s.mkTrig r f), retrig := 0, minEnd := 0 }).setFld (ACQ_R_STAT_STATE r) 2
      if tbit (s.fld ACQ_BUS_CFG_TXMASK) r then
        let msg : BusMsg := ⟨s.fld ACQ_BUS_CFG_ID, s.acq.tseq, 0, f.inst⟩
        let s := { s with acq := { s.acq with tseq := (s.acq.tseq + 1) % 256 } }
        s.busSend (s.fld ACQ_BUS_CFG_TX) msg
      else s
  | 2 =>
    let first := match x.trig with
      | some t => decide (x.t0 ≤ f.g) && (decide (f.g < t.g) || (decide (f.g = t.g) && decide (f.tsrc < t.tsrc)))
      | none => true
    s.setRecd r { x with trig := if first then some (s.mkTrig r f) else x.trig, retrig := min (x.retrig + 1) 65535 }
  | 0 => s
  | st =>
    let ns := wrap (floorDiv f.inst 65536) 64
    let s := if s.fld (ACQ_R_MISSED r) = 0 then
        (s.setFld (ACQ_R_FMISS_LO r) (ns % 2 ^ 32)).setFld (ACQ_R_FMISS_HI r) (ns / 2 ^ 32) else s
    let s := s.count (ACQ_R_MISSED r) (ACQ_R_STAT_MOVF r) 0 1
    let s := if st = 3 ∨ x.missSent then s
      else (s.setRecd r { s.recd r with missSent := true }).send (0x3C0 + r) 0x10 0
    if st = 4 then
      let s := s.setRecd r { s.recd r with holdN := x.holdN + 1 }
      if s.fld (ACQ_R_CFG_HMODE r) = 2 ∧ s.fld (ACQ_R_HOLD r) ≤ x.holdN + 1 then s.holdEnd r else s
    else s

/-- SOFT_TRIGGER: the boundary of the tick of the write (R345, R417). -/
def softTrigger (s : State) (mask : Nat) : State :=
  s.unlessHold fun s => s.each (bitsSet mask 4) fun s r => s.recTrigger r ⟨65536000 * (s.now : Int), (s.ctl.btime : Int) * 65536, 9⟩

def execSoftTrigger (_m : Master) (mask : BitVec 4) (s : State) : Host.Outcome State Fault Refusal :=
  .next (softTrigger s mask.toNat)

/-! ### Rows (R340, R341) -/

/-- Extremes of one channel with one more input; raw inputs of 0x8000 are left out. -/
def joinExt (raw : Bool) (p : Int × Int) (v : Int) : Int × Int :=
  if raw && p.1 == -32768 && p.2 == -32768 then (v, v)
  else if raw && v == -32768 then p
  else (min p.1 v, max p.2 v)

/-- One input of a recorder at grid place g: values of its channels and event lane (R340, R341). The row is written
once 2^RED inputs are in; POST ends with its last row (R346, R352). -/
def State.recInput (s : State) (r : Nat) (g : Int) (vals : List Int) (ev : Nat) : State :=
  let x := s.recd r
  let st := s.recSt r
  if (st ≠ 1 ∧ st ≠ 2) ∨ g < x.t0 then s
  else
    let raw := !s.bit (ACQ_R_CFG_MODE r)
    let rho := s.fld (ACQ_R_CFG_RED r)
    let part := if x.partN = 0 then vals.map fun v => (v, v)
      else (x.part.zip vals).map fun p => joinExt raw p.1 p.2
    let pe := if x.partN = 0 then ev else ev / 256 * 256 + Nat.lor (x.partEv % 256) (ev % 256)
    if x.partN + 1 < 2 ^ rho then s.setRecd r { x with part := part, partN := x.partN + 1, partEv := pe }
    else
      let b := if raw then 16 else 32
      let lanes := (part.flatMap fun p => if rho = 0 then [wrap p.1 b] else [wrap p.1 b, wrap p.2 b])
        ++ (if s.bit (ACQ_R_CFG_EVT r) then [if raw then pe % 256 else pe] else [])
      let w := s.rowWidth r
      let s := s.wr (s.segAddr r + 128 + 8 * (x.rows % s.segRows r * w)) (8 * w) (rowNat b lanes)
      let s := s.setRecd r { x with rows := x.rows + 1, part := [], partN := 0, partEv := 0 }
      match x.trig with
      | some t =>
        if st = 2 ∧ t.row + 1 + s.fld (ACQ_R_POST_ROWS r) ≤ x.rows + 1 ∧ x.minEnd ≤ x.rows + 1 then
          s.setFld (ACQ_R_STAT_STATE r) 3
        else s
      | none => s

/-! ### Channels and units (R337 to R339, R344) -/

/-- Event lane and boundary time of a recent tick. -/
def State.tickLog (s : State) (j : Nat) : Nat × Nat :=
  match s.tickRec j with
  | some p => (p.lane, p.btime)
  | none => (0, s.ctl.btime - 1000 * (s.now - j))

/-- The raw samples of a channel for sample tick j at S samples per tick (R338). -/
def rawSamples (f : Option RxFrame) (sn c : Nat) : List Int :=
  match f with
  | some f => (upto sn).map fun k => sampleAt f.words k c
  | none => List.replicate sn (-32768)

/-- One input of a trigger unit (R344): its new state, and fr when it fires. -/
def TrigUnit.eval (u : TrigUnit) (typ : Nat) (lvl hyst : Int) (raw : Bool) (x1 : Int) : TrigUnit × Option Nat :=
  if raw ∧ x1 = -32768 then ({ u with x0 := none }, none)
  else
    let rdy := if typ = 1 then u.rdy || decide (x1 < lvl - hyst)
      else if typ = 2 then u.rdy || decide (lvl + hyst < x1) else u.rdy
    match typ with
    | 0 => (⟨rdy, some x1⟩, none)
    | 1 =>
      match u.x0 with
      | some x0 =>
        if rdy ∧ x0 < lvl ∧ lvl ≤ x1 then
          (⟨false, some x1⟩, some (max 1 ((lvl - x0) * 256 / (x1 - x0)).toNat))
        else (⟨rdy, some x1⟩, none)
      | none => (⟨rdy, some x1⟩, none)
    | 2 =>
      match u.x0 with
      | some x0 =>
        if rdy ∧ lvl < x0 ∧ x1 ≤ lvl then
          (⟨false, some x1⟩, some (max 1 ((x0 - lvl) * 256 / (x0 - x1)).toNat))
        else (⟨rdy, some x1⟩, none)
      | none => (⟨rdy, some x1⟩, none)
    | _ =>
      let hit := rdy && (decide (lvl + hyst < x1) || decide (x1 < lvl - hyst))
      (⟨(rdy && !hit) || decide ((x1 - lvl).natAbs ≤ hyst), some x1⟩, if hit then some 256 else none)

/-- Level and hysteresis of a unit: bits [15:0] for a raw channel (`ACQ_TRGu_LVL`). -/
def State.unitLvl (s : State) (u : Nat) : Int × Int :=
  let w := if s.fld (ACQ_TRG_CFG_SRC u) = 0 then 16 else 32
  (sext (s.fld (ACQ_TRG_LVL u)) w, sext (s.fld (ACQ_TRG_HYST u)) w)

def unitReset : TrigUnit := {}

/-- The inputs of one unit in this tick, in order, and its firings (R344). `frames` are the frames the aligner
uses, by port; j the sample tick, none where there is none yet. A unit that is off fires nothing. -/
def State.unitFires (s : State) (u : Nat) (frames : List (Option RxFrame)) (j : Option Nat) : State × List Fire :=
  let typ := s.fld (ACQ_TRG_CFG_TYP u)
  let ch := s.fld (ACQ_TRG_CFG_CH u)
  let (lvl, hyst) := s.unitLvl u
  let k := s.now - 1
  let tickG : Int := 65536000 * (k : Int)
  let tickInst : Int := ((s.tickLog k).2 : Int) * 65536
  let x := mget unitReset s.acq.units u
  let put (s : State) (x : TrigUnit) : State := { s with acq := { s.acq with units := mset unitReset s.acq.units u x } }
  match s.fld (ACQ_TRG_CFG_SRC u), j with
  | 0, none => (s, [])
  | 0, some j =>
    let m := ch % 32 / 8
    let sn := rateOf (s.fld (SNS_P_CFG_RATE m))
    let d : Int := ((65536000 / sn : Nat) : Int)
    let b : Int := ((s.tickLog j).2 : Int) * 65536 - 65536000 * (j : Int)
    let r := (rawSamples (frames.getD m none) sn (ch % 8)).zipIdx.foldl (fun (a : TrigUnit × List Fire) p =>
      let (x, fr) := a.1.eval typ lvl hyst true p.1
      match fr with
      | some fr =>
        let g := s.sampleGrid j sn p.2 - d + d * fr / 256
        (x, a.2 ++ [⟨g, g + b, u⟩])
      | none => (x, a.2)) (x, [])
    (put s r.1, r.2)
  | 1, _ =>
    if s.now = 0 then (s, []) else
    let (x, fr) := x.eval typ lvl hyst false (mget 0 s.acq.der ch)
    (put s x, if fr.isSome then [⟨tickG, tickInst, u⟩] else [])
  | 2, _ => (s, if typ ≠ 0 ∧ tbit s.acq.ev (ch % 8) ∧ !tbit s.acq.evPrev (ch % 8) then [⟨tickG, tickInst, u⟩] else [])
  | _, _ => (s, [])

/-- Insertion of a firing by instant, then by TSRC (R345). -/
def fireInsert (f : Fire) : List Fire → List Fire
  | [] => [f]
  | a :: t => if f.g < a.g ∨ (f.g = a.g ∧ f.tsrc < a.tsrc) then f :: a :: t else a :: fireInsert f t

/-- The inputs of recorder r in this tick: grid place, values, event lane (R337, R340). -/
def State.recInputs (s : State) (r : Nat) (frames : List (Option RxFrame)) (j : Option Nat) : List (Int × List Int × Nat) :=
  let chans := s.recChans r
  if s.bit (ACQ_R_CFG_MODE r) then
    let k := s.now - 1
    if s.now ≠ 0 ∧ k % 2 ^ s.fld (ACQ_R_CFG_DIV r) = 0 then
      [(65536000 * (k : Int), chans.map fun c => mget 0 s.acq.der c, (s.tickLog k).1)]
    else []
  else match j with
  | none => []
  | some j =>
    let sn := rateOf (s.fld (ACQ_R_CFG_RATE r))
    (upto sn).map fun i => (s.sampleGrid j sn i,
      chans.map fun n => (rawSamples (frames.getD (n / 8) none) sn (n % 8)).getD i (-32768), (s.tickLog j).1)

/-- A recorder meets its inputs and the firings that it selects in order of instant; a firing comes before an input
at the same instant, which makes that input's row the trigger row (R345). -/
def State.runRecorder (s : State) (r : Nat) (ins : List (Int × List Int × Nat)) (fires : List Fire) : State :=
  let a := ins.foldl (fun (a : State × List Fire) i =>
    let now := a.2.takeWhile fun f => decide (f.g ≤ i.1)
    let s := now.foldl (fun s f => s.recTrigger r f) a.1
    (s.recInput r i.1 i.2.1 i.2.2, a.2.drop now.length)) (s, fires)
  a.2.foldl (fun s f => s.recTrigger r f) a.1

/-- Lantern's part of the input phase (ACQ_ROW_WRITE, TRIGGER_FIRE). A halted pipeline uses no frame (R473). -/
def acqPhase (s : State) : State :=
  let lag := 2 + s.fld SNS_CFG_SLAG
  let j := if s.now < lag then none else some (s.now - lag)
  let frames := (upto 4).map fun m => if s.dbg.frozen then none else s.snsFrame m
  let a := (upto 8).foldl (fun (a : State × List Fire) u =>
    let (s, l) := a.1.unitFires u frames j
    (s, l.foldl (fun l f => fireInsert f l) a.2)) (s, [])
  (upto 4).foldl (fun s r =>
    s.runRecorder r (s.recInputs r frames j)
      (a.2.filter fun f => tbit (s.fld (ACQ_R_TMASK_UNITS r)) f.tsrc)) a.1

/-- Values committed at cycle 980 (R337, R339 type 7). -/
def acqCommit (s : State) : State :=
  let s := s.pipeRead (slotWords (0x380 :: (upto 64).map fun k => s.fld (ACQ_DCH_SLOT k)))
  { s with acq := { s.acq with der := (64, (s.rd (0x10000000 + 4 * 0x380) 4 : Int)) ::
      ((upto 64).map fun k => (k, s.slot (s.fld (ACQ_DCH_SLOT k)))) } }

/-- The condition of event channel e in the tick that ends (R339). -/
def State.eventBit (s : State) (e : Nat) : Bool :=
  let arg := s.fld (ACQ_EVT_ARG e)
  match s.fld (ACQ_EVT_TYPE e) with
  | 1 => tbit s.acq.pinsSeen (arg % 16) || s.pinActive (arg % 16)
  | 2 => tbit s.acq.cmpSeen (arg % 32) || s.bit (PRT_CMP_STAT_TRIP (arg % 32))
  | 3 => s.acq.blkSeen
  | 4 => s.sump.served.any fun p => p.1 == arg && (s.bit (ACQ_EVT_ANY e) || p.2 == s.fld (ACQ_EVT_KIND e))
  | 5 => s.acq.opSeen
  | 6 => s.acq.trigSeen
  | 7 => tbit (mget 0 s.acq.der 64).toNat (arg % 32)
  | _ => false

/-- At a boundary, before anything of the new tick: the event lane of the tick that ends, and the conditions of the
next one (R339, R340); a bus lane that is RUNNING and received no frame in the tick sends PAIR_MISS once per run
(DEDUCED, log entry 13). -/
def acqBoundary (s : State) : State :=
  let ev := (upto 8).foldl (fun x e => x + b2n (s.eventBit e) * 2 ^ e) 0
  let lane := ev + s.op * 256 + s.regBits 0x80008 % 16 * 4096
  let pins := (upto 16).foldl (fun x p => x + b2n (s.pinActive p) * 2 ^ p) 0
  let cmps := (upto 32).foldl (fun x n => x + s.fld (PRT_CMP_STAT_TRIP n) * 2 ^ n) 0
  let this : TickRec := ⟨s.now, lane, s.ctl.btime, s.fld TIM_TQ,
    if s.bit TIM_UTC_VALID then sext (s.fld TIM_UTC_OFS) 16 else 0⟩
  let s := { s with
    acq := { s.acq with evPrev := s.acq.ev, ev := ev, log := (this :: s.acq.log).take 8,
                        pinsSeen := pins, cmpSeen := cmps, blkSeen := false, opSeen := false, trigSeen := false },
    sump := { s.sump with served := [] } }
  let s := [38, 39].foldl (fun s l =>
    let miss := s.portState l == 4 && !s.acq.busGot.contains l
    let ms := if miss then (if s.acq.busMiss.contains l then s.acq.busMiss else s.acq.busMiss ++ [l])
      else s.acq.busMiss.filter (· != l)
    let s' := { s with acq := { s.acq with busMiss := ms } }
    s'.sendIf (miss && !s.acq.busMiss.contains l) (0x1A1 + 8 * (l - 36)) 0x2E 0) s
  { s with acq := { s.acq with busGot := [] } }

/-- A step of control time inside open records (R354). -/
def acqStep (s : State) : State :=
  s.each (upto 4) fun s r =>
    if s.recSt r = 1 ∨ s.recSt r = 2 then s.setRecd r { s.recd r with stepIn := some s.now } else s

/-! ### The bus (R277, R350 to R352) -/

/-- One-way delay D of ML2 (m = 2) or ML3 in 0.25 ns from the last 16 round trips, both ends corrected (R274, R277). -/
def busDelay (s : State) (m : Nat) (l : List Int) : Nat :=
  let sum := l.foldl (· + ·) 0
  let asy := asym16 (s.fld (TIM_ASYM_ING (m + 4))) + asym16 (s.fld (TIM_ASYM_EGR (m + 4)))
  usat (floorDiv (sum * 65536 - 16000 * asy + 262144000) 524288000) 16

/-- D in 2^-16 ns. -/
def State.busD (s : State) (m : Nat) : Int :=
  ((if m = 2 then s.fld ACQ_BUS_DLY_D2 else s.fld ACQ_BUS_DLY_D3 : Nat) : Int) * 16384

/-- Launch of a marker of the present frame at line word boundary w, in ps of control time. -/
def State.markAt (s : State) (w : Nat) : Nat := s.acq.launch + 2560 * w

/-- The messages of the TRIG markers of the frame that ends (R351): each launch carries the egress asymmetry (R274). -/
def State.busMessages (s : State) (m : Nat) : List (BitVec 64) :=
  let l := 36 + m
  let marks := ((s.lane l).marks.filter fun p => p.2 == .trig).map (·.1)
  let msgs := if m = 2 then s.acq.pend2 else s.acq.pend3
  (marks.zip msgs).map fun p =>
    let x := p.2.inst * 1000 - (s.markAt p.1 : Int) * 65536 - asym16 (s.fld (TIM_ASYM_EGR (m + 4))) * 1000
    let tofs := floorDiv (2 * x + 4096000) 8192000
    BitVec.ofNat 64 (2 ^ 63 + p.2.origin * 2 ^ 55 + p.2.tseq * 2 ^ 47 + p.2.hops * 2 ^ 44 + wrap (sat tofs 32) 32)

/-- The bus frame of ML2 or ML3 is launched (R350); `ta` is the turnaround. Call for both lanes before the launch
instant is moved on. -/
def State.launchBus (s : State) (m lph ta : Nat) : State :=
  let l := 36 + m
  let x := s.lane l
  let msgs := s.busMessages m
  let hdr := BitVec.ofNat 64 (7 * 2 ^ 60 + 2 ^ 58 + s.fld ACQ_BUS_CFG_ID * 2 ^ 50 + lph % 32 * 2 ^ 45)
  let tm := (upto 4).map fun i => msgs.getD i 0
  let ws := [hdr, BitVec.ofNat 64 s.ctl.btime, BitVec.ofNat 64 (s.fld TIM_TQ * 2 ^ 32 + ta % 65536 * 65536)] ++ tm
  let s := s.newFrame l (if s.fld (CL_CTRL_LB l) = 3 then x.feWords else ws) false
  if m = 2 then { s with acq := { s.acq with pend2 := s.acq.pend2.drop msgs.length } }
  else { s with acq := { s.acq with pend3 := s.acq.pend3.drop msgs.length } }

/-- The launch instant of the bus frames of the present tick; a port that is OFF holds no message. -/
def State.busLaunched (s : State) (lph : Nat) : State :=
  { s with acq := { s.acq with launch := s.ctl.btime * 1000 + 24000 + 80 * (lph % 32), jump := (s.time.ct0 : Int) - s.ctl.btime,
                               pend2 := if s.portState 38 = 0 then [] else s.acq.pend2,
                               pend3 := if s.portState 39 = 0 then [] else s.acq.pend3 } }

/-- TRIG_RX (R339, R352): a TRIG marker `ofs` UI after the boundary of the present tick gives a bus trigger at
arrival − D to the recorders that select it, the arrival less the ingress asymmetry (R274). -/
def trigRx (s : State) (l : Nat) (word : Word) (ofs : Nat) : State :=
  let (k, s) := s.markerRx l word
  if k != some .trig || decide (l < 38) then s
  else
      let s := { s with acq := { s.acq with trigSeen := true } }
      if !tbit (s.fld ACQ_BUS_CFG_RX) (l - 38) then s
      else
        let rel : Int := ((ofs * 80 * 65536 / 1000 : Nat) : Int)
        let arr := (s.ctl.btime : Int) * 65536 + rel
        let d := s.busD (l - 36) + asym16 (s.fld (TIM_ASYM_ING (l - 32)))
        let f : Fire := ⟨65536000 * (s.now : Int) + rel - d, arr - d, 8⟩
        let recs := (upto 4).filter fun r => s.bit (ACQ_R_TMASK_BUS r)
        let s' := s.each recs fun s r => s.recTrigger r f
        let mine := recs.filter fun r => match (s'.recd r).trig with
          | some t => s'.recSt r == 2 && t.tsrc == 8 && t.inst == f.inst
          | none => false
        { s' with acq := { s'.acq with wait := s'.acq.wait ++ [⟨l, arr, f.inst, f.g, mine⟩] } }

def execTrigRx (lane : Fin 40) (word : Word) (ofs : Nat) (s : State) : Host.Outcome State Fault Refusal :=
  .next (trigRx s lane word ofs)

/-- A good message corrects the record that its marker triggered (R352, R354). -/
def State.busCorrect (s : State) (r : Nat) (b : BusTrig) (tofs : Int) (origin tseq : Nat) : State :=
  let x := s.recd r
  match x.trig with
  | some t =>
    if (s.recSt r = 2 ∨ s.recSt r = 3) ∧ t.tsrc = 8 ∧ t.inst = b.inst ∧ !t.exact then
      let g := b.g + tofs
      let p := s.rowOf r g
      s.setRecd r { x with trig := some { t with inst := b.inst + tofs, g := g, exact := true, origin := origin, tseq := tseq,
                                                 tq := s.tqAt g, row := p.1, pos := p.2,
                                                 inArm := tickOf g == x.armTick }, minEnd := x.rows + 1 }
    else s
  | none => s

/-- One waiting marker meets its message word, or none (R352): BUS_MSG_LOST, BUS_LOOP, or the correction and the
forwarding on the other lane. -/
def State.busMessage (s : State) (b : BusTrig) (w : Option (BitVec 64)) : State :=
  match w with
  | none => s.send 0x3C4 0x14 0
  | some d =>
    let v := d.toNat
    if !tbit v 63 then s.send 0x3C4 0x14 0
    else
      let origin := bitsOf v 62 55
      let tseq := bitsOf v 54 47
      let hops := bitsOf v 46 44
      if origin = s.fld ACQ_BUS_CFG_ID then s.send 0x3C4 0x13 0
      else
        let tofs := sext v 32 * 4096
        let s := s.each b.recs fun s r => s.busCorrect r b tofs origin tseq
        if s.bit ACQ_BUS_CFG_FWD ∧ hops < 7 then
          let other := 77 - b.lane
          let lanes := if tbit (s.fld ACQ_BUS_CFG_TX) (other - 38) then 2 ^ (other - 38) else 0
          s.busSend lanes ⟨origin, tseq, hops + 1, b.inst + tofs⟩
        else s

/-- The waiting markers of a lane that arrived before this frame's FRAME marker meet its messages, in order; one
that waits since before the frame before it has lost its message. `ws` is empty where the frame is unusable. -/
def State.busMessages' (s : State) (l : Nat) (arr : Int) (ws : List (Option (BitVec 64))) : State :=
  let mine := s.acq.wait.filter fun b => b.lane == l && decide (b.arr < arr)
  let s := { s with acq := { s.acq with wait := s.acq.wait.filter fun b => !(b.lane == l && decide (b.arr < arr)) } }
  let old := mine.filter fun b => decide (b.arr + 1100 * 65536 < arr)
  let new := mine.filter fun b => !decide (b.arr + 1100 * 65536 < arr)
  let s := old.foldl (fun s b => s.busMessage b none) s
  new.zipIdx.foldl (fun s p => s.busMessage p.1 (ws.getD p.2 none)) s

/-- A time sample of the domains on this lane (R277, R263): the sender's boundary time plus D, minus CT at the FRAME
marker's arrival (in a realignment tick the stepped control time, R45), minus the launch offset; one in 1,000 ticks, none from a sender in FREERUN or HOLDOVER. -/
def State.busSample (s : State) (m : Nat) (arr : Int) (w1 lph mode : Nat) : State :=
  if mode = 0 ∨ mode = 3 then s
  else
    let at_ := arr + s.acq.jump * 65536
    let ct := at_ - asym16 (s.fld (TIM_ASYM_ING (m + 4)))
    let l16 := s.localAt (at_ / 4096).toNat
    let ls := (l16 / 65536).toNat
    let sample := (w1 : Int) * 65536 + s.busD m - ct - ((24000 + 80 * lph) * 65536 / 1000 : Nat)
    [0, 1].foldl (fun s d =>
      if s.fld (TIM_D_CFG_SRC d) ≠ m + 1 ∨ (!(s.dom d).first ∧ s.domSt d ≠ 1 ∧ ls < (s.dom d).ld + 999500) then s
      else s.domSample d (at_ - l16 + sample) ls none) s

/-- BUS_FRAME_RX: a frame on ML2 or ML3; `rtt` is the arrival of its FRAME marker after the launch of the own frame,
in UI (R116, R277, R350). -/
def busFrameRx (s : State) (m : Nat) (line : List Bool) (cyc rtt : Nat) : State :=
  let l := 36 + m
  let src := 0x1A1 + 8 * m
  if !s.aligned l then s
  else
    let f := frameIn 6 line
    let s := stuffEvents s l f.stuffV
    let s := loopCompare s l line (f.hdr :: f.words.map (·.2))
    if s.portState l ≠ 3 ∧ s.portState l ≠ 4 then s else
    let (s, rep) := s.laneCheck l f.syns
    let arr : Int := (((s.acq.launch + 80 * rtt) * 65536 / 1000 : Nat) : Int)
    let _ := cyc
    if !f.hdrEcc.good then ((s.noIdent l).sendIf (!rep.headD false) src 0x18 0).busMessages' l arr []
    else if !f.crcOk then ((s.noIdent l).send src 0x19 0).busMessages' l arr []
    else
      let h := f.hdr.toNat
      let peer := if m = 2 then s.fld ACQ_BUS_PEER_ML2 else s.fld ACQ_BUS_PEER_ML3
      let ok := bitsOf h 63 60 == 7 && bitsOf h 59 58 == 1 && bitsOf h 57 50 == peer
      let was := s.portState l
      let s := portIdentify s l ok
      let s := if was ≠ 4 ∧ s.portState l = 4 then
          (if m = 2 then { s with time := { s.time with bus2 := [] } } else { s with time := { s.time with bus3 := [] } })
        else s
      if !ok || !s.delivers l then s.busMessages' l arr []
      else
        let s := { s with acq := { s.acq with busGot := s.acq.busGot ++ [l] } }
        let w (i : Nat) : Option (BitVec 64) := match f.words[i - 1]? with
          | some p => if p.1.good then some p.2 else none
          | none => none
        let s := match w 2 with
          | some v =>
            let x := (80 * rtt : Nat) - 250 * sext (v.toNat / 65536) 16
            let lst := (x :: (if m = 2 then s.time.bus2 else s.time.bus3)).take 16
            let s := if m = 2 then { s with time := { s.time with bus2 := lst } } else { s with time := { s.time with bus3 := lst } }
            if lst.length < 16 then s
            else
              let s := s.setFld (if m = 2 then ACQ_BUS_DLY_D2 else ACQ_BUS_DLY_D3) (busDelay s m lst)
              match w 1 with
              | some b => s.busSample m arr b.toNat (bitsOf h 49 45) (v.toNat / 2 ^ 32 % 4)
              | none => s
          | none => s
        s.busMessages' l arr [w 3, w 4, w 5, w 6]

def execBusFrameRx (ml : Fin 2) (line : List Bool) (cyc : Nat) (rtt : Nat) (s : State) :
    Host.Outcome State Fault Refusal := .next (busFrameRx s (2 + ml) line cyc rtt)

/-! ### Retention (R353, R460) and function reset (R354) -/

/-- Caver tests an acquisition region now: regions 2,048 to 14,335 in the order of R446. -/
def State.caverInAcq (s : State) : Bool :=
  match s.mem.caver with
  | some c => decide (2048 ≤ c.region ∧ c.region < 14336)
  | none => false

/-- RETENTION_ENTER: a write of RET = 1. -/
def retentionEnter (s : State) : State :=
  if s.op = 3 then s.svcDenied
  else if (upto 4).any fun r => s.recSt r != 0 then s.send 0x3C5 0x15 0
  else
    let s := s.flag ACQ_CTRL_RET
    let s := { s with acq := { s.acq with wake := none } }
    if s.caverInAcq then s else (s.flag ACQ_STAT_IN_RET).setFld ACQ_STAT_AWAKE 0

/-- RETENTION_WAKE: a write of RET = 0 starts the wake. -/
def retentionWake (s : State) : State :=
  let s := s.setFld ACQ_CTRL_RET 0
  if s.bit ACQ_STAT_AWAKE || s.acq.wake.isSome then s
  else { s.setFld ACQ_STAT_IN_RET 0 with acq := { s.acq with wake := some s.now } }

/-- RETENTION_AWAKE: 20 µs after the wake began. -/
def retentionAwake (s : State) : State :=
  match s.acq.wake with
  | some t => if t + 20 ≤ s.now then { s.flag ACQ_STAT_AWAKE with acq := { s.acq with wake := none } } else s
  | none => s

def execRetentionEnter (_m : Master) (s : State) : Host.Outcome State Fault Refusal := .next (retentionEnter s)
def execRetentionWake (_m : Master) (s : State) : Host.Outcome State Fault Refusal := .next (retentionWake s)
def execRetentionAwake (s : State) : Host.Outcome State Fault Refusal := .next (retentionAwake s)

/-- Function reset of acquisition (R354, R11): recorders to IDLE, open records closed with ABORT, units unarmed, the bus
delays measured afresh; MISSED with FMISS and MOVF (DEDUCED, log entry 127), the bus TSEQ and, as part of the memory, the
closed records (R343) are kept. -/
def State.acqFreset (s : State) : State :=
  let s := s.each (upto 4) fun s r => ((recorderStop s r).setFld (ACQ_R_STAT_REJ r) 0).setFld (ACQ_R_STAT_SEG r) 0
  let s := (s.setFld ACQ_BUS_DLY_D2 0).setFld ACQ_BUS_DLY_D3 0
  { s with acq := { s.acq with units := [], wait := [], pend2 := [], pend3 := [] },
           time := { s.time with bus2 := [], bus3 := [] } }

end Sys2Proof.Machine
end

