-- ==== Sys2Proof/Machine/KeyStore.lean ====
section
/-! DEFINITION. The key store and the wrapped items of the MRAM security area (R373 to R376, R381). -/
namespace Sys2Proof.Machine
open Sys2Proof

/-! ### Layout (DESIGN CHOICE, log entry 62: the spec gives neither area an inner layout, and the key store no address) -/

/-- A list cut or filled with zeros to n bytes. -/
def fillTo (n : Nat) (l : List Byte) : List Byte := l.take n ++ List.replicate (n - l.length) 0

/-- Key n of the store: 2p + s the key of slot s of station port p, 8 the identity secret key, 9 the debug challenge. -/
def keyAddr (n : Nat) : Nat := if n < 8 then 0xFFFF2000 + 32 * n else if n = 8 then 0xFFFF0000 else 0xFFFF3000
def keySize (n : Nat) : Nat := if n = 8 then 2305 else 32

/-- The identity public key in the store, 1,793 bytes. -/
def publicAddr : Nat := 0xFFFF1000

/-- The key that a word of the store belongs to, none where it holds none. -/
def keyAt (a : Nat) : Option Nat :=
  if 0xFFFF0000 ≤ a ∧ a < 0xFFFF2000 then some 8
  else if 0xFFFF2000 ≤ a ∧ a < 0xFFFF2100 then some ((a - 0xFFFF2000) / 32)
  else if 0xFFFF3000 ≤ a ∧ a < 0xFFFF3020 then some 9
  else none

/-- The identity blob, the certificate of 3,081 bytes, and the blob of a station port's slot in MRAM. -/
def idBlobAddr : Nat := 0x40100000
def certAddr : Nat := 0x40104000
def certSize : Nat := 3081
def portBlobAddr (n : Nat) : Nat := 0x40108000 + 128 * n

/-! ### Reading the store (R376) -/

/-- A key is unusable: the whole store is to be reloaded. -/
def State.keyLost (s : State) (n : Nat) : State :=
  { s with mem := { s.mem with keyUe := joinN s.mem.keyUe n }, sec := { s.sec with reload := true } }

/-- m bytes of key n at an address of the store, through the checker; none where the key is unusable. -/
def State.keyFetch (s : State) (n a m : Nat) : Option (List Byte) × State :=
  if s.mem.keyUe.contains n then (none, s)
  else
    let (r, s) := s.readBytes a m
    match r with
    | some l => (some l, s)
    | none => (none, s.keyLost n)

/-- The slot of a port that holds a key and carries an identifier (R380, R391). -/
def State.slotNamed (s : State) (p kid : Nat) : Option Nat :=
  [0, 1].find? fun i => tbit (s.fld SEC_PKEY_VALID) (2 * p + i)
    && s.fld (if i = 0 then SEC_PKID_ID0 p else SEC_PKID_ID1 p) == kid

/-- The key of a port's slot as its KMAC256 core reads it (R376). -/
def State.portKey (s : State) (p slot : Nat) : Option (List Byte) × State :=
  if tbit (s.fld SEC_PKEY_VALID) (2 * p + slot) then s.keyFetch (2 * p + slot) (keyAddr (2 * p + slot)) 32 else (none, s)

/-! ### Wrapping (R375, R381) -/

/-- DEV_SEED as bytes (R373). -/
def seedBytes : List Byte := leBytes 32 Config.devSeed.toNat

/-- Bytes wrapped for their place, or unwrapped: the SHAKE256 key stream derived from DEV_SEED (log entry 62). -/
def wrapBytes (a : Nat) (l : List Byte) : List Byte :=
  List.zipWith (· ^^^ ·) l (shakeBytes (seedBytes ++ leBytes 4 a) l.length)

/-- The KMAC256 tag of a wrapped item. -/
def blobTag (a : Nat) (l : List Byte) : List Byte := kmacBytes seedBytes (leBytes 4 a ++ l) [] 32

/-- An item as its blob in the security area. -/
def blobOf (a : Nat) (l : List Byte) : List Byte := wrapBytes a l ++ blobTag a (wrapBytes a l)

/-- The item of n bytes whose blob stands at an address; none where its tag fails. -/
def State.openBlob (s : State) (a n : Nat) : Option (List Byte) × State :=
  let (r, s) := s.readBytes a (n + 32)
  match r with
  | some l => (if l.drop n == blobTag a (l.take n) then some (wrapBytes a (l.take n)) else none, s)
  | none => (none, s)

/-! ### The identity pair (R374) -/

/-- The secret key that the SHAKE256 expansion of DEV_SEED gives, and the public key of a secret key. -/
def seedSecret : List Byte := fillTo 2305 (Config.falconSecret (shakeBytes seedBytes 48))
def publicOf (sk : List Byte) : List Byte := fillTo 1793 (Config.falconPublic sk)

/-- The identity keys are put into the store: READY, and the digest of the public key (R374, R375). -/
def State.identityStore (s : State) (sk : List Byte) : State :=
  let pk := publicOf sk
  let h := (shake256 pk 256).toNat
  let s := (s.writeBytes (keyAddr 8) sk).writeBytes publicAddr pk
  let s := (upto 8).foldl (fun s i => s.setFld (SEC_IDH i) (h / 2 ^ (32 * i) % 2 ^ 32)) s
  { s.flag SEC_STAT_READY with mem := { s.mem with keyUe := s.mem.keyUe.filter (· != 8) } }

/-- The identity blob is unwrapped, or regeneration starts (R375). `ok` is false where the blob has been corrupted. -/
def State.identityUnwrap (s : State) (ok : Bool) : State :=
  let (r, s) := s.openBlob idBlobAddr 2305
  match (if ok then r else none) with
  | some sk => s.identityStore sk
  | none => { s with sec := { s.sec with regen := true } }

/-! ### Port keys (R380, R381) -/

/-- A port key with its identifier comes into the store. -/
def State.keyStore (s : State) (n id : Nat) (key : List Byte) : State :=
  let s := (s.flagBit SEC_PKEY_VALID n).setFld (if n % 2 = 0 then SEC_PKID_ID0 (n / 2) else SEC_PKID_ID1 (n / 2)) id
  let s := s.writeBytes (keyAddr n) key
  { s with mem := { s.mem with keyUe := s.mem.keyUe.filter (· != n) } }

/-- A slot is restored from its blob (R381); one whose tag fails leaves its slot empty and sends KEY_BLOB_BAD. A slot that never
had a blob stays empty. -/
def State.restoreKey (s : State) (ok : Bool) (n : Nat) : State :=
  let a := portBlobAddr n
  let none_ (s : State) : State := (s.unflagBit SEC_PKEY_VALID n).writeBytes (keyAddr n) (List.replicate 32 0)
  if s.rd a 72 = 0 then none_ s
  else
    let (r, s) := s.openBlob a 40
    match (if ok then r else none) with
    | some l => s.keyStore n (leNat (l.take 2)) (l.drop 8)
    | none => (none_ s).send 0x3D2 0x26 0

/-- Every slot is restored; bit n of `ok` is false where blob n has been corrupted. -/
def State.restoreKeys (s : State) (ok : Nat) : State :=
  ((upto 8).foldl (fun s n => s.restoreKey (tbit ok n) n) s).flag SEC_STAT_KEYS_LOADED

end Sys2Proof.Machine
end

