-- ==== Sys2Proof/Machine/Station.lean ====
section
/-! DEFINITION. Station ports (chapter 18): the link, encapsulation, the receive checks, sending, the rings of the
mailbox (R439). The commands that receive station frames stand in `StationRx`. -/
namespace Sys2Proof.Machine
open Sys2Proof

def stnReset : Stn := {}
def State.stnP (s : State) (p : Nat) : Stn := mget stnReset s.stn p
def State.setStn (s : State) (p : Nat) (x : Stn) : State := { s with stn := mset stnReset s.stn p x }

/-- A port message, at most one of each kind per 1,000 ticks (R402). -/
def State.stnTell (s : State) (p src kind det : Nat) : State :=
  let x := s.stnP p
  let last := mget 0 x.told kind
  if last ≠ 0 ∧ s.now < last - 1 + 1000 then s
  else (s.setStn p { x with told := mput x.told kind (s.now + 1) }).send (src + 16 * p) kind det

/-- A station port counter (R403). -/
def State.stnCount (s : State) (p i : Nat) : State := s.count (STN_CNT p i) (STN_CNT_OVF p) i 1

/-! ### Encapsulation (R388, R389, R393) -/

/-- What the encapsulation checks find in a frame: dropped, a PTP frame, or a station frame with its class, source
address, source IP address (0 in raw frames) and payload. -/
inductive Encap where
  | drop
  | ptp
  | frame (cls mac ip : Nat) (payload : List Byte)
deriving DecidableEq, Repr

/-- Ones-complement sum of 16-bit words (IPv4 header checksum). -/
def onesSum : List Byte → Nat
  | a :: b :: t => a.toNat * 256 + b.toNat + onesSum t
  | [a] => a.toNat * 256
  | [] => 0

/-- The IPv4 header checksum is correct: the folded sum of the header's words is all ones. -/
def ipSumOk (hdr : List Byte) : Bool :=
  let x := onesSum hdr
  let y := x % 65536 + x / 65536
  (y % 65536 + y / 65536) == 65535

/-- The payload of an accepted packet (R389), with its source IP address. -/
def State.stnPayload (s : State) (p ety : Nat) (l : List Byte) : Option (Nat × List Byte) :=
  if !s.bit (STN_CTRL_UDP p) then (if ety = s.fld (STN_ADDR_ETYPE p) then some (0, l) else none)
  else
    let b (i n : Nat) := beNat ((l.drop i).take n)
    if ety = 0x0800 ∧ 28 ≤ l.length ∧ b 0 1 = 0x45 ∧ b 6 2 % 0x4000 = 0 ∧ ipSumOk (l.take 20) ∧ b 9 1 = 17
        ∧ b 16 4 = s.fld (STN_IP p) ∧ b 22 2 = s.fld (STN_ADDR_UPORT p) then
      some (b 12 4, l.drop 28)
    else none

/-- Encapsulation and class (R388, R389, R393 steps 1 and 2). -/
def State.encap (s : State) (p : Nat) (f : StnFrame) : Encap :=
  let b := f.bytes
  let n := b.length + 4
  let at_ (i k : Nat) := beNat ((b.drop i).take k)
  let own := s.fld (STN_MAC_LO p) + s.fld (STN_MAC_HI_MAC p) * 2 ^ 32
  let dst := at_ 0 6
  let ptpDst := s.bit (STN_CTRL_PTP_EN p) && (dst == 0x011B19000000 || dst == 0x0180C200000E)
  let tagged := at_ 12 2 == 0x8100
  let tci := at_ 14 2
  let ety := if tagged then at_ 16 2 else at_ 12 2
  let pay := b.drop (if tagged then 18 else 14)
  if !f.fcsOk || decide (n < 64 ∨ 1522 < n) || (dst != own && !ptpDst)
      || (tagged && tci % 4096 != 0 && tci % 4096 != s.fld (STN_VLAN_VID p)) || ety == 0x8808 then .drop
  else if ety = 0x88F7 ∧ s.bit (STN_CTRL_PTP_EN p) then .ptp
  else match s.stnPayload p ety pay with
    | none => .drop
    | some (ip, l) =>
      if tagged then .frame (s.fld (STN_CLSMAP_MAP p) / 4 ^ (tci / 8192) % 4) (at_ 6 6) ip l
      else if s.bit (STN_CLSMAP_UNTAG_EN p) then .frame (s.fld (STN_CLSMAP_UNTAG p)) (at_ 6 6) ip l
      else .drop

/-- The allowlist (R394). -/
def State.stnAllowed (s : State) (p cls mac ip : Nat) : Bool :=
  (upto 8).any fun j =>
    s.bit (STN_ALLOW_HI_VALID p j) && s.fld (STN_ALLOW_LO p j) + s.fld (STN_ALLOW_HI_MAC p j) * 2 ^ 32 == mac
      && tbit (s.fld (STN_ALLOW_HI_CLS p j)) cls
      && (!s.bit (STN_CTRL_UDP p) || !s.bit (STN_ALLOW_HI_IPEN p j) || s.fld (STN_ALLOW_IP p j) == ip)

/-! ### Header, type, tag, sequence (R390 to R392, R396) -/

/-- A type is accepted on a port in a class (R392). -/
def stnAccepts (p cls ty : Nat) : Bool :=
  match ty with
  | 0x01 => p != 2 && cls ≤ 1
  | 0x02 => p != 2 && (cls == 2 || cls == 3)
  | 0x11 => p == 2 && cls == 2
  | 0x12 => p == 2 && cls == 2
  | 0x14 => p == 2 && cls == 2
  | _ => false

/-- A body length of a type in a class (R392). -/
def stnLenOk (cls ty len : Nat) : Bool :=
  match ty with
  | 0x01 => len % 8 == 0 && 8 ≤ len && len ≤ (if cls = 0 then 96 else 1024)
  | 0x02 => 1 ≤ len && len ≤ 1024
  | 0x11 => len == 4
  | 0x12 => len == 4
  | 0x14 => len == 32
  | _ => false

/-- The header is as R390 states and the type as R392 accepts it. -/
def stnHeaderOk (p cls : Nat) (l : List Byte) : Bool :=
  let len := beNat ((l.drop 8).take 2)
  let ty := beNat ((l.drop 1).take 1)
  decide (32 ≤ l.length) && beNat (l.take 1) == 1 && ((l.drop 10).take 6).all (· == 0) && decide (32 + len ≤ l.length)
    && stnAccepts p cls ty && stnLenOk cls ty len

/-- The customisation string of R391, "Ovuth station". -/
def stnCust : List Byte := [0x4F, 0x76, 0x75, 0x74, 0x68, 0x20, 0x73, 0x74, 0x61, 0x74, 0x69, 0x6F, 0x6E]

/-- The tag of R391 as the number of its 16 bytes in the order of the line. -/
def stnTag (key : List Byte) (dir : Nat) (headBody : List Byte) : Nat :=
  beNat (kmacBytes key (BitVec.ofNat 8 dir :: headBody) stnCust 16)

/-- The key that a KEYID names on a port, as the port's core reads it (R376, R391). -/
def State.keyNamed (s : State) (p kid : Nat) : Option (List Byte) × State :=
  match s.slotNamed p kid with
  | some i => s.portKey p i
  | none => (none, s)

/-- The receive checks of R393 in their order: the state with drops, messages and counters, and, for a frame that
passes, its class, type, SEQ and body. It is counted as delivered (R403) where it is. -/
def State.stnCheck (s : State) (p : Nat) (f : StnFrame) : State × Option (Nat × Nat × Nat × List Byte) :=
  if !s.bit (STN_CTRL_EN p) || !s.bit (STN_STAT_LINK p) then (s, none)
  else match s.encap p f with
  | .drop => (s.stnCount p 1, none)
  | .ptp => ((s.takeToken p 4).2.stnCount p 9, none)
  | .frame cls mac ip l =>
    let det := cls * 2 ^ 30
    if !s.stnAllowed p cls mac ip then ((s.stnCount p 2).stnTell p 0x1C1 0x12 (mac % 2 ^ 32), none)
    else
      let (ok, s) := s.takeToken p cls
      if !ok then ((s.stnCount p 3).stnTell p 0x1C1 0x13 det, none)
      else if !stnHeaderOk p cls l then ((s.stnCount p 4).stnTell p 0x1C1 0x14 det, none)
      else
        let len := beNat ((l.drop 8).take 2)
        let seq := beNat ((l.drop 4).take 4)
        let hb := l.take (16 + len)
        let tag := beNat ((l.drop (16 + len)).take 16)
        let (key, s) := s.keyNamed p (beNat ((l.drop 2).take 2))
        let good := match key with
          | some k => stnTag k 0 hb == tag
          | none => false
        if !good then ((s.stnCount p 5).stnTell p 0x1C1 0x11 det, none)
        else
          let x := s.stnP p
          let last := (x.seqs.find? fun q => q.1 == cls).map (·.2)
          let replay := match last with | some q => !serialAfter 32 seq q | none => false
          let gap := match last with | some q => seq != (q + 1) % 2 ^ 32 | none => false
          if replay then ((s.stnCount p 4).stnTell p 0x1C1 0x14 det, none)
          else
            let s := s.setStn p { x with seqs := mput x.seqs cls seq }
            let s := if gap then (s.stnCount p 6).stnTell p 0x1C1 0x16 det else s
            (s, some (cls, beNat ((l.drop 1).take 1), seq, (l.drop 16).take len))

/-! ### Sending (R390 to R392, R396, R397) -/

/-- The IPv4 and UDP headers of a sent packet (R389, R394): DF set, TTL 64, a UDP checksum of 0, to the partner's address.
DESIGN CHOICE (log 128): both UDP ports are UPORT; the type of service and the identification are free values. -/
def State.stnIpUdp (s : State) (p free len : Nat) : List Byte :=
  let hdr (sum : Nat) : List Byte := [0x45, BitVec.ofNat 8 (free / 65536)] ++ beBytes 2 (28 + len) ++ beBytes 2 free ++
    [0x40, 0x00, 64, 17] ++ beBytes 2 sum ++ beBytes 4 (s.fld (STN_IP p)) ++ beBytes 4 (s.fld (STN_ALLOW_IP p 0))
  let x := onesSum (hdr 0)
  let y := x % 65536 + x / 65536
  let port := beBytes 2 (s.fld (STN_ADDR_UPORT p))
  hdr (65535 - (y % 65536 + y / 65536)) ++ port ++ port ++ beBytes 2 (8 + len) ++ [0, 0]

/-- The Ethernet frame of a sent payload, without the FCS: to the partner that entry 0 of the allowlist names (R394), with the
tag that carries its PCP (R397) and the encapsulation of R389. Short frames are filled with zeros to 64 bytes (PRESUMED from
IEEE 802.3, log entry 128). -/
def State.stnFrame (s : State) (p pcp free : Nat) (pay : List Byte) : List Byte :=
  let udp := s.bit (STN_CTRL_UDP p)
  let f := beBytes 2 (s.fld (STN_ALLOW_HI_MAC p 0)) ++ beBytes 4 (s.fld (STN_ALLOW_LO p 0)) ++
    beBytes 2 (s.fld (STN_MAC_HI_MAC p)) ++ beBytes 4 (s.fld (STN_MAC_LO p)) ++ [0x81, 0x00] ++
    beBytes 2 (pcp % 8 * 8192 + s.fld (STN_VLAN_VID p)) ++
    (if udp then [0x08, 0x00] ++ s.stnIpUdp p free pay.length else beBytes 2 (s.fld (STN_ADDR_ETYPE p))) ++ pay
  f ++ List.replicate (60 - f.length) 0

/-- The port sends a frame of a type with a body: numbered, tagged with the slot that `SEC_PKEY.TX` selects. Where
that slot holds no key the tag is a free value. A port that is disabled or whose link is down sends nothing. -/
def State.stnSend (s : State) (p ty : Nat) (body : List Byte) : State :=
  if !s.bit (STN_CTRL_EN p) || !s.bit (STN_STAT_LINK p) then s
  else
    let slot := s.fld SEC_PKEY_TX / 2 ^ p % 2
    let x := s.stnP p
    let kid := s.fld (if slot = 0 then SEC_PKID_ID0 p else SEC_PKID_ID1 p)
    let hdr := [1, BitVec.ofNat 8 ty] ++ beBytes 2 kid ++ beBytes 4 x.txSeq ++ beBytes 2 body.length ++ List.replicate 6 0
    let (key, s) := s.portKey p slot
    let (tag, s) := match key with
      | some k => (stnTag k 1 (hdr ++ body), s)
      | none => s.draw 128
    let pcp := if ty = 4 then s.fld (STN_VLAN_TX_PCP p) else s.fld (STN_VLAN_RSP_PCP p)
    let (free, s) := s.draw 24
    let t : StnTx := { type := ty, kid := kid, seq := x.txSeq, pcp := pcp, body := body, tag := tag,
                       frame := s.stnFrame p pcp free (hdr ++ body ++ beBytes 16 tag) }
    (s.setStn p { x with txSeq := (x.txSeq + 1) % 2 ^ 32, tx := (t :: x.tx).take 16 }).stnCount p 8

/-- STATUS (R397): the body at cycle 100 of a tick on the period. -/
def statusSend (s : State) (p : Nat) : State :=
  let per := s.fld (STN_TX_PER p)
  if per = 0 ∨ s.now % 65536 % per ≠ 0 then s
  else
    let word (v : Int) := beBytes 4 (wrap v 32)
    let sel (i : Nat) := s.fld (if i % 2 = 0 then STN_TXSEL_SLOT_A p (i / 2) else STN_TXSEL_SLOT_B p (i / 2))
    let s := s.pipeRead (slotWords (0x3C0 :: (upto (min 16 (s.fld (STN_TX_NSEL p)))).map sel))
    let body := beBytes 8 s.now ++ beBytes 8 s.ctl.btime ++ word (s.slot 0x3C0)
      ++ (upto (min 16 (s.fld (STN_TX_NSEL p)))).flatMap fun i => word (s.slot (sel i))
    s.stnSend p 4 body

def execStatus (p : Fin 4) (s : State) : Host.Outcome State Fault Refusal := .next (statusSend s p)

/-! ### Rings of the mailbox (R439) -/

/-- The ring index of a port that carries REQUEST and RESPONSE. -/
def ringOf (p : Nat) : Option Nat :=
  match p with
  | 0 => some 0 | 1 => some 1 | 3 => some 2 | _ => none

/-- Address of entry e of the receive and transmit rings. -/
def rxEntry (q e : Nat) : Nat := 0x3C008000 + 0x1400 * q + 1040 * (e % 4)
def txEntry (q e : Nat) : Nat := 0x3C00C000 + 0x1400 * q + 1040 * (e % 4)

/-- A ring is full. -/
def ringFull (wp rp : Nat) : Bool := wrap ((wp : Int) - rp) 3 == 4

/-- A REQUEST body goes to the port's receive ring; a full ring drops it as RATE_DROP (R392, R439). -/
def State.ringReceive (s : State) (p cls seq : Nat) (body : List Byte) : State :=
  match ringOf p with
  | none => s
  | some q =>
    let wp := s.fld (SEQ_RX_WP q)
    if ringFull wp (s.fld (SEQ_RX_RP q)) then (s.stnCount p 3).stnTell p 0x1C1 0x13 (cls * 2 ^ 30)
    else
      let a := rxEntry q wp
      let s := s.writeBytes a (leBytes 8 (body.length + cls * 65536 + seq * 2 ^ 32) ++ leBytes 8 s.now ++ body)
      ((s.setFld (SEQ_RX_WP q) ((wp + 1) % 8)).seqEvent (6 + q)).stnCount p 0

/-- RESPONSE (R439): the port sends the next entry of its transmit ring and advances RP. An entry that it cannot read is passed
over unsent (DESIGN CHOICE, log entry 130). -/
def responseSend (s : State) (p : Nat) : State :=
  match ringOf p with
  | none => s
  | some q =>
    let rp := s.fld (SEQ_TX_RP q)
    if rp = s.fld (SEQ_TX_WP q) ∨ !s.bit (STN_STAT_LINK p) ∨ !s.bit (STN_CTRL_EN p) then s
    else
      let a := txEntry q rp
      let (hd, s) := s.readBytes a 8
      let (body, s) := s.readBytes (a + 16) (min 1024 (leNat ((hd.getD []).take 2)))
      let s := match hd, body with
        | some _, some l => s.stnSend p 3 l
        | _, _ => s
      s.setFld (SEQ_TX_RP q) ((rp + 1) % 8)

def execResponse (p : Fin 4) (s : State) : Host.Outcome State Fault Refusal := .next (responseSend s p)

/-! ### Setpoints (R398, R400, R401) -/

/-- Slot owned by a port in a class (R398). -/
def State.stnOwns (s : State) (p c slot : Nat) : Bool :=
  decide (0x100 ≤ slot ∧ slot < 0x180) && tbit (s.fld (STN_OWN p c ((slot - 0x100) / 32))) (slot % 32)

/-- The place of the next frame in the order in which the staged frames of all ports completed. -/
def State.setpNext (s : State) : Nat :=
  (upto 4).foldl (fun m p => (s.stnP p).staged.foldl (fun m f => max m (f.ord + 1)) m) 0

/-- A SETPOINT that passed the receive checks is staged; one that names a slot that is not owned is FRAME_BAD as a
whole (R398). -/
def State.setpointStage (s : State) (p cls age : Nat) (body : List Byte) : State :=
  let ent : List (Nat × Int) := (upto (body.length / 8)).map fun i =>
    let e := body.drop (8 * i)
    (beNat (e.take 2), sext (beNat ((e.drop 4).take 4)) 32)
  if ent.all fun e => s.stnOwns p cls e.1 then
    let x := s.stnP p
    (s.setStn p { x with staged := x.staged ++ [⟨cls, age, ent, s.setpNext⟩] }).stnCount p 0
  else (s.stnCount p 4).stnTell p 0x1C1 0x14 (cls * 2 ^ 30)

/-- A frame of a port put into the order in which frames completed. -/
def setpInsert (x : Nat × Setp) : List (Nat × Setp) → List (Nat × Setp)
  | [] => [x]
  | y :: t => if x.2.ord < y.2.ord then x :: y :: t else y :: setpInsert x t

/-- The staged frames of the four ports in the order in which they completed. -/
def State.setpAll (s : State) : List (Nat × Setp) :=
  ((upto 4).flatMap fun p => (s.stnP p).staged.map fun f => (p, f)).foldl (fun l x => setpInsert x l) []

/-- One staged frame takes effect (R398): its entries for the slots that its port and class own now (R27); a class-0 frame is
counted and its latency shown (R400, R403). -/
def State.setpTake (s : State) (p : Nat) (f : Setp) : State :=
  let s := f.ent.foldl (fun s e => if s.stnOwns p f.cls e.1 then s.setSlot e.1 e.2 else s) s
  if f.cls ≠ 0 then s
  else
    let lat := min 2047 (f.age + 1)
    let s := (s.setFld (STN_C0_LAT_LAST p) lat).setFld (STN_C0_LAT_MAX p) (max lat (s.fld (STN_C0_LAT_MAX p)))
    let s := s.stnCount p 7
    s.setStn p { s.stnP p with c0At := s.now, c0Sent := false }

/-- SETPOINT_LATCH: at cycle 0 the staged frames of every port take effect in the order in which they completed (R398). -/
def setpointLatch (s : State) : State :=
  let s := s.setpAll.foldl (fun s x => s.setpTake x.1 x.2) s
  s.each (upto 4) fun s p => if (s.stnP p).staged.isEmpty then s else s.setStn p { s.stnP p with staged := [] }

/-- C0_LATE (R398): TMO ticks without a latched class-0 SETPOINT, once per run. -/
def c0Late (s : State) (p : Nat) : State :=
  let t := s.fld (STN_C0_TMO p)
  let x := s.stnP p
  if t = 0 ∨ x.c0Sent ∨ !s.bit (STN_CTRL_EN p) ∨ s.now < x.c0At + t then s
  else (s.setStn p { x with c0Sent := true }).stnTell p 0x1C2 0x15 0

def execC0Late (p : Fin 4) (s : State) : Host.Outcome State Fault Refusal := .next (c0Late s p)
def execC0LatClear (_m : Master) (p : Fin 4) (s : State) : Host.Outcome State Fault Refusal :=
  .next (s.setFld (STN_C0_LAT_MAX p) 0)

/-! ### The link (R387, R401) -/

/-- LINK_DOWN (R387): block lock is lost or hi_ber asserted. -/
def linkDown (s : State) (p : Nat) (hiBer : Bool) : State :=
  let s' := s.setFld (STN_STAT_HIBER p) (b2n hiBer)
  if !s.bit (STN_STAT_LINK p) then s'
  else ((s'.setFld (STN_STAT_LINK p) 0).flag (STN_STAT_DOWN_SEEN p)).stnTell p 0x1C0 0x10 0

/-- LINK_UP: the SEQ memory of the receive classes restarts (R396). In HOLD_FOR_HOST the ports stay OFF (R417). -/
def linkUp (s : State) (p : Nat) : State :=
  if !s.bit (STN_CTRL_EN p) || s.ctl.lost.contains 0x014 || s.op == 3 then s
  else
    let s := (s.flag (STN_STAT_LINK p)).setFld (STN_STAT_HIBER p) 0
    s.setStn p { s.stnP p with seqs := [] }

def execLinkDown (p : Fin 4) (hiBer : Bool) (s : State) : Host.Outcome State Fault Refusal := .next (linkDown s p hiBer)
def execLinkUp (p : Fin 4) (s : State) : Host.Outcome State Fault Refusal := .next (linkUp s p)

/-- Function reset of a station port (R401, R11): the link retrains, staged frames are dropped, buckets fill, SEQ
memory clears; keys, ownership and slots are kept. -/
def State.stnFreset (s : State) (p : Nat) : State :=
  let s := [STN_STAT_LINK p, STN_STAT_HIBER p, STN_STAT_DOWN_SEEN p, STN_C0_LAT_LAST p, STN_C0_LAT_MAX p,
    STN_CNT_OVF p].foldl (fun s f => s.setFld f 0) s
  let s := (upto 10).foldl (fun s i => s.setFld (STN_CNT p i) 0) s
  s.setStn p { tx := (s.stnP p).tx, c0At := s.now }

end Sys2Proof.Machine
end

