-- ==== Sys2Proof/Machine/Security.lean ====
section
/-! DEFINITION. The security unit (chapter 17): requests for signatures, authorised commands, identity, key store. -/
namespace Sys2Proof.Machine
open Sys2Proof

/-- A message of the security unit. -/
def State.secTell (s : State) (i kind det : Nat) : State := s.send (0x3D0 + i) kind det

/-- Fresh entropy into `SEC_NONCE` (R377). -/
def State.newNonce (s : State) : State :=
  let (v, s) := s.draw 256
  (upto 8).foldl (fun s i => s.setFld (SEC_NONCE i) (v / 2 ^ (32 * i) % 2 ^ 32)) s

/-- A 256-bit value held in eight registers. -/
def State.wide (s : State) (f : Nat → Fld) : Nat := (upto 8).foldl (fun v i => v + s.fld (f i) * 2 ^ (32 * i)) 0

/-- SERIAL (R373). -/
def State.serial (s : State) : Nat := s.fld SEC_SN_LO + s.fld SEC_SN_HI * 2 ^ 32

/-- OWNER_ROOT of a slot, its USE bits (0 IMG, 1 DBG, 2 PROV), and whether it is programmed and not revoked. -/
def State.ownerRoot (s : State) (i : Nat) : Nat := mget (Config.otpRoot i).toNat s.sec.roots i
def State.ownerUse (s : State) (i b : Nat) : Bool := tbit (s.fld SEC_OWN_USE) (3 * i + b)
def State.ownerLive (s : State) (i : Nat) : Bool := tbit (s.fld SEC_OWN_PROG) i && !tbit (s.fld SEC_OWN_REVOKED) i

/-- The unrevoked slot other than `but` with a use whose digest is that of a public key (R377, R378). -/
def State.ownerBut (s : State) (but : Nat) (pk : List Byte) (use : Nat) : Option Nat :=
  (upto 4).find? fun i =>
    i != but && s.ownerLive i && s.ownerUse i use && s.ownerRoot i == (shake256 pk 256).toNat
def State.ownerOf (s : State) (pk : List Byte) (use : Nat) : Option Nat := s.ownerBut 4 pk use

/-- A signature verification, counted (R386). -/
def State.verify (s : State) (pk msg sig : List Byte) : Bool × State :=
  (Config.falconVerify pk msg sig, s.count SEC_CNT_VERIFY SEC_CNT_OVF 1 1)

/-! ### Signatures (R371, R372, R382, R383) -/

/-- The statement body for a nonce (R383). -/
def State.statement (s : State) (nonce : Nat) : List (BitVec 64) × State :=
  let (ct, s) := s.ctRead
  let h := if s.op = 3 then 0 else s.wide CFG_HASH
  let idh := s.wide SEC_IDH
  let q (v i : Nat) := v / 2 ^ (64 * i) % 2 ^ 64
  let mask := (upto 4).foldl (fun x i => if s.ownerLive i then setBit x i else x) 0
  let w14 := s.fld SEC_STAT_SVN + s.fld SEC_STAT_ARB * 2 ^ 8 + s.fld SEC_STAT_IMG_SLOT * 2 ^ 16 + mask * 2 ^ 18
    + s.fld SEC_STAT_DBG_POLICY * 2 ^ 22 + s.fld SEC_STAT_DBG_LEVEL * 2 ^ 24 + s.op * 2 ^ 26 + s.role * 2 ^ 30
    + s.fld RED_EPOCH_EPOCH * 2 ^ 32
  let ws : List Nat :=
    [0x4154 * 2 ^ 48 + 2 ^ 40 + s.fld RED_ID_UNIT * 2 ^ 32 + s.sec.stmt % 2 ^ 32, s.serial]
      ++ (upto 4).map (q nonce) ++ (upto 4).map (q h) ++ (upto 4).map (q idh)
      ++ [w14, ct / 2 ^ 32 % 2 ^ 64, s.fld TIM_TQ, s.now % 2 ^ 64] ++ List.replicate 14 0
  (ws.map (BitVec.ofNat 64), { s with sec := { s.sec with stmt := (s.sec.stmt + 1) % 2 ^ 32 } })

/-- The sequencer body at an address, with its tag overwritten (R372); none where it cannot be read. -/
def State.seqBody (s : State) (a : Nat) : Option (List (BitVec 64)) × State :=
  let (r, s) := s.readBytes a 256
  match r.map (wordsOf 32) with
  | some (w :: t) => (some (BitVec.ofNat 64 (0x5351 * 2 ^ 48 + w.toNat % 2 ^ 48) :: t), s)
  | _ => (none, s)

/-! ### The order of service (R371)

The unit serves one request at a time: a signature in `cur`, a command whose stage is 1, a reload of the key store, or the loader's
verification. -/

/-- A request is being served, or the store is to be reloaded. -/
def State.secServing (s : State) : Bool :=
  s.sec.cur.isSome || s.sec.reload || (match s.sec.job with | some j => j.stage == 1 | none => false)

/-- A signature can be made: key loaded and whole, entropy healthy. -/
def State.canSign (s : State) : Bool := s.bit SEC_STAT_READY && s.bit SEC_STAT_ENT_OK && !s.sec.regen

/-- The unit reads the identity key for a signature; the request waits where the key is unusable (R376). -/
def State.signKey (s : State) : Bool × State :=
  let (k, s) := s.keyFetch 8 (keyAddr 8) 2305
  (k.isSome, s)

/-- The statements and sequencer bodies that wait, in order of arrival: the first becomes the signature in progress, its body built
now (R382). A sequencer body that cannot be read ends with result FORMAT (DESIGN CHOICE, log entry 130). -/
def State.takeWaiting (s : State) : List SigReq → State
  | [] => { s with sec := { s.sec with wait := [] } }
  | r :: t =>
    if r.kind = 3 then
      match s.seqBody r.arg with
      | (some ws, s) => { s.setFld SEQ_SIGN_STAT_STATE 2 with sec := { s.sec with cur := some (r, ws), wait := t } }
      | (none, s) => State.takeWaiting (((s.setFld SEQ_SIGN_STAT_STATE 3).setFld SEQ_SIGN_STAT_RESULT 1).seqEvent 9) t
    else
      let (ws, s) := s.statement r.nonce
      { s with sec := { s.sec with cur := some (r, ws), wait := t } }

/-- A waiting statement or sequencer body is taken up. -/
def State.signWaiting (s : State) : State :=
  if !s.canSign || s.sec.wait.isEmpty then s
  else
    let (ok, s) := s.signKey
    if ok then s.takeWaiting s.sec.wait else s

/-- A request of the last class is placed, or refused where 4 wait (R371). -/
def State.signQueue (s : State) (r : SigReq) : Bool × State :=
  if 4 ≤ s.sec.wait.length then (false, s) else (true, { s with sec := { s.sec with wait := s.sec.wait ++ [r] } })

/-- Bytes of operation data of an operation. The manual does not lay them out; the model's layout is: 64-bit words
after word 1, OWN_PROG [1:0] slot and [10:8] USE, then four words of digest; OWN_REVOKE [1:0] slot; PORT_KEY [1:0]
port, [8] slot, [31:16] identifier, then four words of key; ATTEST four words of nonce; DBG_RAISE [1:0] value (DESIGN
CHOICE, log entry 14). -/
def cmdData : Nat → Option Nat
  | 1 => some 40 | 2 => some 8 | 3 => some 0 | 4 => some 40 | 5 => some 32 | 6 => some 0 | 7 => some 8 | _ => none

/-- The USE bit an operation needs, none where it needs no authorisation (R377). -/
def State.cmdUse (s : State) (op : Nat) : Option Nat :=
  match op with
  | 1 => if s.bit SEC_STAT_BLANK then none else some 2
  | 2 => some 2 | 3 => some 0 | 4 => some 2 | 7 => some 2 | _ => none

/-- The operating states of an operation (R377). -/
def cmdState (op st : Nat) : Bool :=
  match op with
  | 1 => st == 3 || st == 4
  | 2 => st == 3 || st == 4
  | 3 => st == 4
  | 4 => decide (4 ≤ st ∧ st ≤ 7)
  | 5 => decide (2 ≤ st)
  | 6 => st != 0
  | _ => st == 4

/-- Bytes of the response of an operation. -/
def cmdResp : Nat → Nat
  | 5 => 2048 | 6 => 1793 + certSize | _ => 0

/-- Word i of a command block. -/
def blockWord (b : List Byte) (i : Nat) : Nat := leNat ((b.drop (8 * i)).take 8)

/-- A change of the command in hand. -/
def State.setJob (s : State) (j : SecJob) : State := { s with sec := { s.sec with job := some j } }

/-- The unit takes the block of a command and checks it (R377, steps 1 to 3): a format error also where the response does not fit
the mailbox or the block cannot be read (DESIGN CHOICE, log entries 14 and 130). An OTP operation that starts with VPP_OTP out of
range ends OTP (R478). Only an operation that needs authorisation
reaches step 3 (DEDUCED, log 112). ATTEST goes on to wait for its signature. -/
def State.cmdTake (s : State) (j : SecJob) : State :=
  let a := 0x3C000000 + j.ofs
  let (w0, s) := s.readBytes a 8
  let w := leNat (w0.getD [])
  let op := bitsOf w 47 40
  let len := w % 2 ^ 32
  let use := s.cmdUse op
  let room := match cmdData op with
    | some d => decide (len = 16 + d + (if use.isSome then 3073 else 0) ∧ j.ofs + len ≤ 65536)
    | none => false
  let (blk, s) := if room then s.readBytes a len else (none, s)
  let b := blk.getD []
  let s := s.setFld SEC_CMD_STAT_OP op
  let vpp := [1, 2, 3, 7].contains op && (s.elec.low.contains 11 || s.elec.high.contains 11)
  let k : SecJob := { j with op := op, block := b, stage := 1, res := if vpp then some 4 else none }
  if bitsOf w 63 48 ≠ 0x5343 ∨ blk.isNone ∨ 65536 < blockWord b 1 % 65536 + cmdResp op then s.setJob { k with res := some 1 }
  else if !cmdState op s.op then s.setJob { k with res := some 2 }
  else match use with
  | none =>
    if op ≠ 5 then s.setJob k
    else
      let (ok, s) := s.signQueue ⟨1, blockWord b 1 % 65536, 0, leNat (b.drop 16)⟩
      if ok then (s.setJob { k with stage := 2 }).signWaiting else s.setJob { k with res := some 5 }
  | some u =>
    let pk := (b.drop (len - 3073)).take 1793
    let sig := b.drop (len - 1280)
    let msg := leBytes 8 s.serial ++ (b.drop 16).take (len - 3089) ++ leBytes 32 (s.wide SEC_NONCE)
    let digest := leBytes 32 (shake256 msg 256).toNat
    match s.ownerBut (if op = 2 then blockWord b 2 % 4 else 4) pk u with
    | none => s.setJob { k with res := some 3, auth := true }
    | some _ =>
      let (good, s) := s.verify pk digest sig
      s.setJob { k with res := if good then k.res else some 3, auth := true }

/-- The next request by the priority of R371: the loader's verification and a reload hold the unit back for themselves, then a Cairn
body, a command, and what else waits for a signature. -/
def State.secNext (s : State) : State :=
  if s.secServing || s.sec.imgWait then s
  else match (if s.canSign then s.nrg.queue else []), s.sec.job with
  | b :: _, _ =>
    let (ok, s) := s.signKey
    if ok then { s with sec := { s.sec with cur := some (⟨0, b.rseq, 0, 0⟩, b.words) } } else s
  | [], some j => if j.stage = 0 then s.cmdTake j else s.signWaiting
  | [], none => s.signWaiting

/-- A request of the last class is placed and taken up when the unit is free, or refused. -/
def State.signRequest (s : State) (r : SigReq) : Bool × State :=
  let (ok, s) := s.signQueue r
  (ok, if ok then s.secNext else s)

/-! ### Signatures made (R372, R382, R438) -/

/-- The 1,280 bytes of a signature, made with a secret key and the n-th salt. -/
def sigBytes (sk : List Byte) (n : Nat) (ws : List (BitVec 64)) : List Byte := fillTo 1280 (Config.falconSign sk n (bytesOf ws))

/-- The 2,048 bytes of a signed body (R382). -/
def signedBytes (ws : List (BitVec 64)) (sig : List Byte) : List Byte := bytesOf ws ++ sig ++ List.replicate 512 0

/-- The identity secret key as it stands in the store. -/
def State.secretKey (s : State) : List Byte := (upto 2305).map fun i => s.seenByte (keyAddr 8 + i)

/-- A waiting body's flag and queue length as the registers show them (R365). -/
def State.showQueue (s : State) : State :=
  let old := s.nrg.queue.any fun b => decide (b.tick + 60000000 < s.now)
  (s.setFld NRG_STAT_QUEUE s.nrg.queue.length).setFld NRG_STAT_SIGN_PEND (b2n (old && s.bit NRG_STAT_SIGN_PEND))

/-- The signature of a request is made: it goes to its requester. -/
def State.signDeliver (s : State) (r : SigReq) (ws : List (BitVec 64)) (sig : List Byte) : State :=
  match r.kind with
  | 0 => ({ s with nrg := { s.nrg with queue := s.nrg.queue.filter (fun b => b.rseq != r.arg),
                                       signed := s.nrg.signed ++ [(r.arg, ws, sig)] } }).showQueue
  | 1 =>
    let s := s.writeBytes (0x3C000000 + r.arg) (signedBytes ws sig)
    { s with sec := { s.sec with job := s.sec.job.map fun j => { j with res := some 0, stage := 1 } } }
  | 2 =>
    let l := signedBytes ws sig
    let hd (part : Nat) := beBytes 4 ((ws.headD 0).toNat % 2 ^ 32) ++ beBytes 1 part ++ [0, 0, 0]
    (s.stnSend 2 0x15 (hd 0 ++ l.take 1024)).stnSend 2 0x15 (hd 1 ++ l.drop 1024)
  | _ => (((s.writeBytes r.arg2 (signedBytes ws sig)).setFld SEQ_SIGN_STAT_STATE 3).setFld SEQ_SIGN_STAT_RESULT 0).seqEvent 9

/-- SIGNATURE_DONE: the signature in progress completes, and the next request is taken. -/
def signatureDone (s : State) : State :=
  match s.sec.cur with
  | none => s.secNext
  | some (r, ws) =>
    let sig := sigBytes s.secretKey s.fresh ws
    let s := { s with fresh := s.fresh + 1, sec := { s.sec with cur := none } }
    ((s.count SEC_CNT_SIGN SEC_CNT_OVF 0 1).signDeliver r ws sig).secNext

def execSignatureDone (s : State) : Host.Outcome State Fault Refusal := .next (signatureDone s)

/-- The signature in progress is abandoned and its request is queued again: a Cairn body has not left its queue, another goes to
the front of its class (R385); a SIGN shows as queued. -/
def State.signAbandon (s : State) : State :=
  match s.sec.cur with
  | none => s
  | some (r, _) =>
    let s := if r.kind = 3 then s.setFld SEQ_SIGN_STAT_STATE 1 else s
    { s with sec := { s.sec with cur := none, wait := if r.kind = 0 then s.sec.wait else r :: s.sec.wait } }

/-- ENT_FAIL (R372, R385): no signature is made, the one in progress is abandoned and re-queued; sent once per
episode. -/
def entFail (s : State) : State :=
  let t := s.signAbandon.setFld SEC_STAT_ENT_OK 0
  ({ t with sec := { t.sec with entFail := true } }).sendIf (!s.sec.entFail) 0x3D2 0x25 0

/-- ENTROPY_RECOVERY: the health tests pass again. -/
def entropyRecovery (s : State) : State :=
  ({ s.flag SEC_STAT_ENT_OK with sec := { s.sec with entFail := false } }).secNext

def execEntFail (s : State) : Host.Outcome State Fault Refusal := .next (entFail s)
def execEntropyRecovery (s : State) : Host.Outcome State Fault Refusal := .next (entropyRecovery s)

/-- ATTEST_REQ over SP2 (R382): queued, or answered ATTEST_FAIL with the result code. -/
def State.attestReq (s : State) (nonce : List Byte) : State :=
  if s.op = 0 ∨ s.op = 1 then s.stnSend 2 0x16 (nonce ++ [2])
  else
    let (ok, s) := s.signRequest ⟨2, 0, 0, leNat nonce⟩
    if ok then s else s.stnSend 2 0x16 (nonce ++ [5])

/-! ### Commands carried out (R377 to R381) -/

/-- The field OFS of a write of `SEC_CMD`: an offset that is not a multiple of 8 is a reserved encoding (R10), which
leaves the field as it is. -/
def State.secOffset (s : State) (ofs : Nat) : State :=
  if ofs % 8 ≠ 0 then s.send 0x3D0 0x03 0 else s.setFld SEC_CMD_OFS ofs

/-- A write of GO to `SEC_CMD` (R377, R385): GO is ignored while a command is in progress, and submits the block at OFS
otherwise, which waits for its turn (R371). OFS is a field that reads back, so a reserved offset leaves the offset that stands to
GO (R10; DEDUCED, log 113). -/
def State.secSubmit (s : State) (ofs : Nat) : State :=
  let s := s.secOffset ofs
  if s.bit SEC_CMD_STAT_BUSY then s
  else ((s.flag SEC_CMD_STAT_BUSY).setJob { ofs := s.fld SEC_CMD_OFS }).secNext

def execOwnProg (_m : Master) (ofs : BitVec 16) (s : State) : Host.Outcome State Fault Refusal := .next (s.secSubmit ofs.toNat)
def execOwnRevoke (_m : Master) (ofs : BitVec 16) (s : State) : Host.Outcome State Fault Refusal := .next (s.secSubmit ofs.toNat)
def execArbAdv (_m : Master) (ofs : BitVec 16) (s : State) : Host.Outcome State Fault Refusal := .next (s.secSubmit ofs.toNat)
def execPortKey (_m : Master) (ofs : BitVec 16) (s : State) : Host.Outcome State Fault Refusal := .next (s.secSubmit ofs.toNat)
def execAttest (_m : Master) (ofs : BitVec 16) (s : State) : Host.Outcome State Fault Refusal := .next (s.secSubmit ofs.toNat)
def execGetId (_m : Master) (ofs : BitVec 16) (s : State) : Host.Outcome State Fault Refusal := .next (s.secSubmit ofs.toNat)
def execDbgRaise (_m : Master) (ofs : BitVec 16) (s : State) : Host.Outcome State Fault Refusal := .next (s.secSubmit ofs.toNat)

/-- ARB raised to the SVN of the image in force (R379). -/
def State.arbTarget (s : State) : Nat := max (s.fld SEC_STAT_ARB) (s.fld SEC_STAT_SVN)

/-- ARB_ADV cut short by a reset: some of its fuses are blown, none above the target (R379, R385). -/
def State.arbLost (s : State) : State :=
  match s.sec.job with
  | some j =>
    if j.op ≠ 3 ∨ j.stage ≠ 1 ∨ j.res.isSome then s
    else
      let (v, s) := s.draw 8
      let a := s.fld SEC_STAT_ARB
      s.setFld SEC_STAT_ARB (a + v % (s.arbTarget - a + 1))
  | none => s

/-- Step 4 of R377 for a command whose checks have passed: its result, none where the key store must be reloaded first. -/
def State.cmdPerform (s : State) (op : Nat) (b : List Byte) : State × Option Nat :=
  let w := blockWord b
  let key := (b.drop 24).take 32
  match op with
  | 1 =>
    let i := w 2 % 4
    if tbit (s.fld SEC_OWN_PROG) i then (s, some 4)
    else
      let use := s.fld SEC_OWN_USE / 2 ^ (3 * i) % 8
      let add := Nat.lor use (w 2 / 256 % 8) - use
      let s := ((s.flagBit SEC_OWN_PROG i).setFld SEC_OWN_USE (s.fld SEC_OWN_USE + add * 2 ^ (3 * i))).setFld SEC_STAT_BLANK 0
      ({ s with sec := { s.sec with roots := mput s.sec.roots i (leNat key) } }, some 0)
  | 2 =>
    let i := w 2 % 4
    let left := (upto 4).any fun j => j != i && s.ownerLive j && s.ownerUse j 2
    if !left then (s, some 4) else (s.flagBit SEC_OWN_REVOKED i, some 0)
  | 3 => (s.setFld SEC_STAT_ARB s.arbTarget, some 0)
  | 4 =>
    let p := w 2 % 4
    let slot := w 2 / 256 % 2
    let n := 2 * p + slot
    let id := w 2 / 65536 % 65536
    if tbit (s.fld SEC_PKEY_TX) p = (slot == 1) then (s, some 2)
    else ((s.keyStore n id key).writeBytes (portBlobAddr n) (blobOf (portBlobAddr n) (leBytes 8 id ++ key)), some 0)
  | 6 =>
    if !s.bit SEC_STAT_READY then (s, none)
    else
      let (pk, s) := s.keyFetch 8 publicAddr 1793
      let (crt, s) := s.readBytes certAddr certSize
      match pk, crt with
      | some pk, some c => (s.writeBytes (0x3C000000 + w 1 % 65536) (pk ++ c), some 0)
      | none, _ => (s, none)
      | _, none => (s, some 1)
  | _ =>
    let v := w 2 % 4
    if v ≤ s.fld SEC_STAT_DBG_POLICY ∨ v = 3 then (s, some 4) else (s.setFld SEC_STAT_DBG_POLICY v, some 0)

/-- A command ends with a result (R377, R386): BUSY falls, DONE rises, CMD_DENIED for every result but OK, a fresh
nonce where step 3 was reached. -/
def State.cmdEnd (s : State) (op r : Nat) (auth : Bool) : State :=
  let s := { ((((s.setFld SEC_CMD_STAT_BUSY 0).flag SEC_CMD_STAT_DONE).setFld SEC_CMD_STAT_RESULT r).setFld
    SEC_CMD_STAT_OP op).seqEvent 10 with sec := { s.sec with job := none } }
  let s := if r = 0 then s
    else (s.count SEC_CNT_DENIED SEC_CNT_OVF 2 1).secTell 1 0x23 (op * 2 ^ 24 + r * 2 ^ 20)
  if auth then s.newNonce else s

/-- SECURITY_COMMAND_END: the command in progress is performed, where its checks have passed, and ends. PORT_KEY waits while no MRAM
write may start (R381, R481); a command that needs a key which must be reloaded waits for the unit again (R376). -/
def securityCommandEnd (s : State) : State :=
  match s.sec.job with
  | none => s
  | some j =>
    if j.stage ≠ 1 then s
    else match j.res with
    | some r => (s.cmdEnd j.op r j.auth).secNext
    | none =>
      if j.op = 4 ∧ s.mramHeld then s
      else match s.cmdPerform j.op j.block with
      | (s, some r) => (s.cmdEnd j.op r j.auth).secNext
      | (s, none) => s.setJob { j with stage := 0 }

def execSecurityCommandEnd (s : State) : Host.Outcome State Fault Refusal := .next (securityCommandEnd s)

/-! ### Identity and key store (R374 to R376, R381) -/

/-- ID_REGEN: the regeneration completes and the blob is rewritten, once an MRAM write may start (R481). -/
def idRegen (s : State) : State :=
  if !s.sec.regen ∨ s.mramHeld then s
  else
    let s := s.writeBytes idBlobAddr (blobOf idBlobAddr seedSecret)
    ((({ s with sec := { s.sec with regen := false } }).identityStore seedSecret).secTell 2 0x24 0).secNext

def execIdRegen (s : State) : Host.Outcome State Fault Refusal := .next (idRegen s)

/-- KEY_STORE_RELOAD (R376): a read finds word w of the key store uncorrectable: ECC_UE from its checker (R452), the word's key is
unusable, and the whole store is to be reloaded. -/
def keyStoreReload (s : State) (w : Nat) : State :=
  let a := 0xFFFF0000 + 8 * w
  let s := (s.count MEM_CNT_UE MEM_CNT_OVF 1 1).send 0x0C2 0x11 a
  match keyAt a with
  | some n => s.keyLost n
  | none => { s with sec := { s.sec with reload := true } }

/-- KEY_STORE_RELOAD_DONE: the reload completes, once the request in progress has ended (R371); bit n of `ok` is false where the
blob of slot n has been corrupted. The challenge has no copy in MRAM and is gone (DEDUCED, log entry 62). -/
def keyStoreReloadDone (s : State) (ok : Nat) : State :=
  let busy := s.sec.cur.isSome || (match s.sec.job with | some j => j.stage == 1 | none => false)
  if !s.sec.reload || busy then s
  else
    let s := { s with mem := { s.mem with keyUe := [] }, sec := { s.sec with reload := false, chal := false } }
    let s := s.restoreKeys ok
    (if s.sec.regen then s else (s.setFld SEC_STAT_READY 0).identityUnwrap true).secNext

def execKeyStoreReload (word : Fin 8192) (s : State) : Host.Outcome State Fault Refusal := .next (keyStoreReload s word)
def execKeyStoreReloadDone (blobOk : BitVec 8) (s : State) : Host.Outcome State Fault Refusal :=
  .next (keyStoreReloadDone s blobOk.toNat)

/-- Function reset of the security unit (R385, R11): a command in progress ends RESET, a signature is re-queued, debug
sessions end, the key store reloads, so that no key is loaded until it has; OTP and MRAM are untouched. -/
def State.secFreset (s : State) : State :=
  let s := s.signAbandon
  let s := { s with sec := { s.sec with wait := s.sec.wait.filter fun r => r.kind != 1 } }
  let s := [SEC_CNT_SIGN, SEC_CNT_VERIFY, SEC_CNT_DENIED, SEC_CNT_OVF, SEC_CMD_STAT_DONE, SEC_CMD_STAT_RESULT,
    SEC_CMD_STAT_OP, SEC_STAT_DBG_LEVEL, SEC_STAT_READY, SEC_STAT_KEYS_LOADED].foldl (fun s f => s.setFld f 0) s
  let s := match s.sec.job with
    | some j => s.cmdEnd j.op 6 j.auth
    | none => s
  { s with sec := { s.sec with reload := true } }

end Sys2Proof.Machine
end

