-- ==== Sys2Proof/Machine/Energy.lean ====
section
/-! DEFINITION. Energy metering and settlement records (chapter 16): accumulation, journal, intervals, the ring. -/
namespace Sys2Proof.Machine
open Sys2Proof

/-- A 128-bit energy register held in four words (`NRG_IMPi`, `NRG_EXPi`), and its update. -/
def State.energy (s : State) (f : Nat → Fld) : Nat := (upto 4).foldl (fun v i => v + s.fld (f i) * 2 ^ (32 * i)) 0
def State.setEnergy (s : State) (f : Nat → Fld) (v : Nat) : State :=
  (upto 4).foldl (fun s i => s.setFld (f i) (v / 2 ^ (32 * i) % 2 ^ 32)) s

/-- The power of one sample interval from the raw codes of VP, VN and I (R356). -/
def State.power (s : State) (vp vn ii : Int) : Int :=
  let cal (raw : Int) (x : Nat) : Int :=
    sat (roundShift (raw * sext (s.fld (NRG_CAL_GAIN x)) 32) (s.fld (NRG_CAL_SH_SH x)) + sext (s.fld (NRG_CAL_OFS x)) 32) 32
  let v := swrap (cal vp 0 - (if s.bit NRG_CFG_VN_EN then cal vn 1 else 0)) 32
  let p := v * cal ii 2
  if s.bit NRG_CFG_DIR then -p else p

/-- Saturating addition to an energy register (R357): NRG_SAT once, when its flag is set. -/
def State.energyAdd (s : State) (f : Nat → Fld) (flag : Fld) (e : Nat) : State :=
  let v := s.energy f + e
  if v < 2 ^ 128 then s.setEnergy f v
  else ((s.setEnergy f (2 ^ 128 - 1)).flag flag).sendIf (!s.bit flag) 0x3C8 0x18 0

/-- One sample interval's energy (R356): the residue is carried. -/
def State.accumulate (s : State) (p : Int) (sn : Nat) : State :=
  let num := p * 256 + s.nrg.res
  let e := floorDiv num (1000000 * sn)
  let s := { s with nrg := { s.nrg with res := num - e * ((1000000 * sn : Nat) : Int) } }
  if 0 < e then s.energyAdd NRG_IMP NRG_STAT_SAT_IMP e.toNat
  else if e < 0 then s.energyAdd NRG_EXP NRG_STAT_SAT_EXP (-e).toNat
  else s

/-- A gap: it is counted, also in the open interval, and entry to it is sent (R358). -/
def State.meterGap (s : State) : State :=
  let s := ((s.count NRG_CNT_GAP NRG_CNT_OVF 1 1).flag NRG_STAT_GAP).sendIf (!s.bit NRG_STAT_GAP) 0x3C8 0x19 0
  { s with nrg := { s.nrg with open_ := s.nrg.open_.map fun i => { i with gap := min (i.gap + 1) (2 ^ 32 - 1) } } }

/-- A missing or complete sample interval (R356, R358). -/
def State.meterSample (s : State) (x : Option (Int × Int × Int)) (sn : Nat) : State :=
  let n := s.nrg
  match x with
  | some (vp, vn, ii) =>
    let p := s.power vp vn ii
    (({ s with nrg := { n with lastP := some p, missRun := 0 } }).setFld NRG_STAT_GAP 0).accumulate p sn
  | none =>
    let hold := decide (n.missRun < s.fld NRG_INT_HOLDMAX * sn)
    let s := { s with nrg := { n with missRun := n.missRun + 1 } }
    match (if hold then n.lastP else none) with
    | some p =>
      let s := (s.count NRG_CNT_SUBST NRG_CNT_OVF 0 1).accumulate p sn
      { s with nrg := { s.nrg with open_ := s.nrg.open_.map fun i => { i with subst := min (i.subst + 1) (2 ^ 32 - 1) } } }
    | none => s.meterGap

/-! ### The journal (R359 to R361) -/

/-- CRC-64 of words with initial value 0 (R359). -/
def crc64 (l : List (BitVec 64)) : BitVec 64 := l.foldl crc64Word 0

/-- One journal entry that closes the second T (R359, R360). -/
def State.journalEntry (s : State) (t : Nat) : State :=
  let q := s.fld NRG_JSEQ
  let imp := s.energy NRG_IMP
  let exp := s.energy NRG_EXP
  let ws : List Nat := [0x4A4E * 2 ^ 48 + 2 ^ 40 + q, imp % 2 ^ 64, imp / 2 ^ 64, exp % 2 ^ 64, exp / 2 ^ 64, t % 2 ^ 64,
    s.fld NRG_RSEQ + s.fld NRG_STAT_SAT_IMP * 2 ^ 32 + s.fld NRG_STAT_SAT_EXP * 2 ^ 33 + b2n s.nrg.cleared * 2 ^ 34]
  let w := ws.map (BitVec.ofNat 64)
  if s.mramHeld then s
  else (s.wrWords (0x40000000 + 64 * (q % 64)) (w ++ [crc64 w])).setFld NRG_JSEQ ((q + 1) % 2 ^ 32)

/-- A journal slot that is valid (R361): its words. -/
def journalWords (l : List Byte) : Option (List Nat) :=
  let w := wordsOf 8 l
  if bitsOf (w.headD 0).toNat 63 40 = 0x4A4E01 ∧ crc64 (w.take 7) = w.getD 7 0 then some (w.map BitVec.toNat) else none

/-- All 64 slots are read: the entries that are kept, and the number of discarded slots that are not blank. A slot of zeros is
blank (DESIGN CHOICE, log entry 15). -/
def State.journalRead (s : State) : State × List (List Nat) × Nat :=
  (upto 64).foldl (fun a x =>
    let (r, s) := a.1.readBytes (0x40000000 + 64 * x) 64
    match r, r.bind journalWords with
    | _, some w => (s, a.2.1 ++ [w], a.2.2)
    | some l, none => (s, a.2.1, a.2.2 + b2n (l.any (· != 0)))
    | none, none => (s, a.2.1, a.2.2 + 1)) (s, [], 0)

/-- The entry to restore from (R361): the one after every other in serial order, else the largest. -/
def journalPick (l : List (List Nat)) : Option (List Nat) :=
  let sq (e : List Nat) := e.headD 0 % 2 ^ 32
  match l.zipIdx.find? (fun e => l.zipIdx.all fun o => o.2 == e.2 || serialAfter 32 (sq e.1) (sq o.1)) with
  | some e => some e.1
  | none => l.foldl (fun b e => match b with
      | some x => if sq x < sq e then some e else some x
      | none => some e) none

/-- JOURNAL_RESTORE (R361, R362), at entry to PARKED from VERIFY. -/
def State.journalRestore (s : State) : State :=
  let (s, kept, bad) := s.journalRead
  let s := (upto bad).foldl (fun s _ => (s.count NRG_CNT_JBAD NRG_CNT_OVF 2 1).send 0x3C9 0x1A 0) s
  let n : Energy := { s.nrg with on := true, res := 0, lastP := none, missRun := 0, open_ := none, nextSec := 0,
                                 restart := true }
  match journalPick kept with
  | some w =>
    let g (i : Nat) := w.getD i 0
    let s := { s with nrg := { n with cleared := tbit (g 6) 34, jnew := false } }
    let s := (s.setEnergy NRG_IMP (g 1 + g 2 * 2 ^ 64)).setEnergy NRG_EXP (g 3 + g 4 * 2 ^ 64)
    let s := (s.setFld NRG_STAT_SAT_IMP (bitsOf (g 6) 32 32)).setFld NRG_STAT_SAT_EXP (bitsOf (g 6) 33 33)
    (s.setFld NRG_RSEQ (g 6 % 2 ^ 32)).setFld NRG_JSEQ ((g 0 + 1) % 2 ^ 32)
  | none =>
    let s := { s with nrg := { n with cleared := false, jnew := true } }
    let s := (s.setEnergy NRG_IMP 0).setEnergy NRG_EXP 0
    let s := [NRG_STAT_SAT_IMP, NRG_STAT_SAT_EXP, NRG_RSEQ, NRG_JSEQ].foldl (fun s f => s.setFld f 0) s
    (s.flag NRG_STAT_JNEW).send 0x3C9 0x1B 0

/-! ### Intervals and records (R363 to R365) -/

/-- The tick that begins at an instant of control time or holds it: of the ticks kept, the first whose end lies after it. -/
def State.tickAt (s : State) (t j : Nat) : Nat :=
  match s.acq.log.reverse.find? fun q => decide (t < q.btime + 1000) with
  | some q => q.tick
  | none => j

/-- The time quality and the UTC offset of a tick (R279, R363). -/
def State.tqOf (s : State) (j : Nat) : Nat := s.tqAt (65536000 * (j : Int))
def State.utcOf (s : State) (j : Nat) : Int :=
  match s.tickRec j with
  | some q => q.utc
  | none => 0

/-- The opening of an interval at an instant in a tick (R362, R363). -/
def State.intervalOpen (s : State) (start tick : Nat) : State :=
  let i : Interval := { rseq := s.fld NRG_RSEQ, start := start, imp0 := s.energy NRG_IMP, exp0 := s.energy NRG_EXP,
                        tq0 := s.tqOf tick, restart := s.nrg.restart, utc := if s.bit NRG_CFG_UTC then s.utcOf tick else 0,
                        upTo := tick }
  { s with nrg := { s.nrg with open_ := some i, restart := false } }

/-- The ticks of an interval before a tick, with their time quality (R364). -/
def State.intervalTicks (s : State) (i : Interval) (tick : Nat) : Interval :=
  let l := s.acq.log.filter fun q => decide (i.upTo ≤ q.tick ∧ q.tick < tick)
  { l.foldl (fun (i : Interval) q => { i with errMax := max i.errMax (q.tq / 65536), modes := setBit i.modes (q.tq % 4) }) i with
    upTo := max i.upTo tick }

/-- The body of a record (R364): interval end T, tick counter at T. -/
def State.recordBody (s : State) (i : Interval) (t tick : Nat) : List (BitVec 64) :=
  let imp := s.energy NRG_IMP
  let exp := s.energy NRG_EXP
  let h := s.wide CFG_HASH
  let sat := s.bit NRG_STAT_SAT_IMP || s.bit NRG_STAT_SAT_EXP
  let flags := b2n i.restart * 2 ^ 24 + b2n i.step * 2 ^ 25 + b2n sat * 2 ^ 26 + b2n s.nrg.cleared * 2 ^ 27
    + b2n s.nrg.jnew * 2 ^ 28
  let ws : List Nat :=
    [0x4352 * 2 ^ 48 + 2 ^ 40 + s.fld RED_ID_UNIT * 2 ^ 32 + i.rseq, s.serial, i.start % 2 ^ 64, t % 2 ^ 64,
     i.imp0 % 2 ^ 64, i.imp0 / 2 ^ 64, i.exp0 % 2 ^ 64, i.exp0 / 2 ^ 64,
     imp % 2 ^ 64, imp / 2 ^ 64, exp % 2 ^ 64, exp / 2 ^ 64,
     i.tq0 + s.tqOf tick * 2 ^ 32, i.errMax + i.modes * 2 ^ 16, i.subst + i.gap * 2 ^ 32, i.health + flags]
      ++ (upto 4).map (fun k => h / 2 ^ (64 * k) % 2 ^ 64) ++ [tick % 2 ^ 64] ++ List.replicate 11 0
  ws.map (BitVec.ofNat 64)

/-- An interval closes (R363, R365): its body joins the queue of the 16 that are not committed yet, or is lost with
REC_LOST and leaves its flags CLEARED and JNEW to the next record. -/
def State.intervalClose (s : State) (i : Interval) (t tick : Nat) : State :=
  let body := s.recordBody i t tick
  if 16 ≤ s.nrg.queue.length + s.nrg.signed.length then s.send 0x3CA 0x1D 0
  else
    let s := { s with nrg := { s.nrg with cleared := false, jnew := false } }
    let b : Body := { rseq := i.rseq, words := body, tick := s.now }
    ({ s with nrg := { s.nrg with queue := s.nrg.queue ++ [b] } }).showQueue.secNext

/-- The journal write for the second reached, and the close of an interval that ends there or that a step of control
time jumped over (R360, R363, R368). `tick` is the tick that begins at T. -/
def State.secondReached (s : State) (t tick : Nat) : State :=
  let sec : Int := ((t / 1000000000 : Nat) : Int)
  let last : Int := ((s.nrg.nextSec / 1000000000 : Nat) : Int) - 1
  let len := s.fld NRG_INT_SEC
  let s' := match s.nrg.open_ with
    | none => s.journalEntry t
    | some i =>
      if len ≠ 0 ∧ floorDiv (last - i.utc) len < floorDiv (sec - i.utc) len then
        let i := { i with step := decide (sec - i.utc ≠ (floorDiv (last - i.utc) len + 1) * (len : Int)) }
        let i := s.intervalTicks i (tick + b2n ((s.tickRec tick).any fun (q : TickRec) => decide (q.btime < t)))
        let s := (s.setFld NRG_RSEQ ((s.fld NRG_RSEQ + 1) % 2 ^ 32)).journalEntry t
        (s.intervalClose i t tick).intervalOpen t tick
      else s.journalEntry t
  { s' with nrg := { s'.nrg with nextSec := t + 1000000000 } }

/-- The health bits of the three metering channels, in the open interval (R364). -/
def State.meterHealth (s : State) (hl : Nat) : State :=
  { s with nrg := { s.nrg with open_ := s.nrg.open_.map fun i => { i with health := Nat.lor i.health hl } } }

/-- Cairn's part of the input phase (METERING_SAMPLE, JOURNAL_WRITE): the samples of sample tick j in grid order,
with the journal write before the first sample at or after a whole second. The interval after a restart opens with the first
sample accumulated (R362). -/
def meterPhase (s : State) : State :=
  let lag := 2 + s.fld SNS_CFG_SLAG
  if !s.nrg.on || !s.bit NRG_CFG_EN || decide (s.now < lag) then s
  else
    let j := s.now - lag
    let bj := (s.tickLog j).2
    let chs := [s.fld NRG_CFG_VP, s.fld NRG_CFG_VN, s.fld NRG_CFG_I]
    let sn := rateOf (s.fld (SNS_P_CFG_RATE (chs.headD 0 / 8)))
    let frame (n : Nat) := if s.dbg.frozen then none else s.snsFrame (n / 8)
    let raws := chs.map fun n => rawSamples (frame n) sn (n % 8)
    let t0 : Int := (bj : Int) - s.fld SNS_CFG_ADV
    let s := if s.nrg.nextSec = 0 then
        { s with nrg := { s.nrg with nextSec := (t0.toNat / 1000000000 + 1) * 1000000000 } } else s
    let hl := (chs.zipIdx.foldl (fun x p => x + s.fld (SNS_CH_STAT_NOW p.1) * 2 ^ (4 * p.2)) 0)
    let s := (upto sn).foldl (fun s i =>
      let t := (t0 + ((1000 / sn * i : Nat) : Int)).toNat
      let s := if s.nrg.nextSec ≤ t then
          let w := t / 1000000000 * 1000000000
          s.secondReached w (s.tickAt w j)
        else s
      let v (k : Nat) := (raws.getD k []).getD i (-32768)
      let bad := v 0 == -32768 || v 2 == -32768 || (s.bit NRG_CFG_VN_EN && v 1 == -32768)
      let s := if s.nrg.open_.isNone && !bad then s.intervalOpen bj j else s
      (s.meterHealth hl).meterSample (if bad then none else some (v 0, v 1, v 2)) sn) s
    { s with nrg := { s.nrg with open_ := s.nrg.open_.map fun i => s.intervalTicks i (j - 1) } }

/-! ### The ring and delivery (R365, R366) -/

/-- Address of a record's slot; the RSEQ that its commit word names, none where it holds no record or cannot be read. -/
def ringSlot (rseq : Nat) : Nat := 0x40200000 + 2048 * (rseq % 1024)
def State.ringRseq (s : State) (rseq : Nat) : Option Nat × State :=
  let (r, s) := s.readBytes (ringSlot rseq + 0x7F8) 8
  let q := Nat.xor (leNat (r.getD [])) 0xC0DE000000000000
  (if r.isSome && q < 2 ^ 32 && q % 1024 == rseq % 1024 then some q else none, s)

/-- A record is acknowledged (R366). -/
def State.recAcked (s : State) (rseq : Nat) : Bool := s.nrg.acked && !serialAfter 32 rseq (s.fld NRG_ACK)

/-- A record's two frames on SP2 (R392). A record that cannot be read is not sent (DESIGN CHOICE, log entry 130). -/
def State.recordSend (s : State) (rseq : Nat) : State :=
  let (r, s) := s.readBytes (ringSlot rseq) 2048
  match r with
  | none => s
  | some l =>
    [0, 1].foldl (fun s part =>
      s.stnSend 2 0x10 (beBytes 4 rseq ++ beBytes 1 part ++ [0, 0, 0] ++ (l.drop (1024 * part)).take 1024)) s

/-- RECORD_COMMIT (R364 to R366): body, signature, zeros, then the commit word; the record is offered at once. -/
def recordCommit (s : State) : State :=
  match (if s.mramHeld then [] else s.nrg.signed) with
  | [] => s
  | (rseq, ws, sig) :: t =>
    let a := ringSlot rseq
    let (old, s) := s.ringRseq rseq
    let s := s.sendIf (old.any fun q => !s.recAcked q) 0x3CA 0x1E 0
    let s := s.wrBytes a (bytesOf ws ++ sig ++ List.replicate 504 0)
    let s := s.wr (a + 0x7F8) 8 (Nat.xor rseq 0xC0DE000000000000)
    let off := (s.nrg.offered.filter fun p => p.1 % 1024 != rseq % 1024)
    ({ s with nrg := { s.nrg with signed := t, offered := mput off rseq s.now } }).recordSend rseq

def execRecordCommit (s : State) : Host.Outcome State Fault Refusal := .next (recordCommit s)

/-- SIGN_FAIL (R365): a body has waited more than 60 s; once per 60 s. -/
def signFail (s : State) : State :=
  match s.nrg.queue with
  | [] => s
  | b :: _ =>
    if s.now ≤ b.tick + 60000000 then s
    else
      let again := match s.nrg.failAt with | some x => decide (x + 60000000 ≤ s.now) | none => true
      let s := s.flag NRG_STAT_SIGN_PEND
      if again then ({ s with nrg := { s.nrg with failAt := some s.now } }).send 0x3CA 0x1C 0 else s

def execSignFail (s : State) : Host.Outcome State Fault Refusal := .next (signFail s)

/-- RECORD_RESEND (R366): every unacknowledged record whose period has passed is offered again. -/
def recordResend (s : State) : State :=
  s.nrg.offered.foldl (fun s p =>
    let (held, s) := s.ringRseq p.1
    if s.recAcked p.1 || held != some p.1 then { s with nrg := { s.nrg with offered := mdel s.nrg.offered p.1 } }
    else if p.2 + s.fld NRG_CFG_RESEND * 1000000 ≤ s.now then
      ({ s with nrg := { s.nrg with offered := mput s.nrg.offered p.1 s.now } }).recordSend p.1
    else s) s

def execRecordResend (s : State) : Host.Outcome State Fault Refusal := .next (recordResend s)

/-- An acknowledgement (R366). -/
def State.recordAck (s : State) (rseq : Nat) : State :=
  let s := { s.setFld NRG_ACK rseq with nrg := { s.nrg with acked := true } }
  { s with nrg := { s.nrg with offered := s.nrg.offered.filter fun p => !s.recAcked p.1 } }

/-- A request for a record (R366): the record, or NOT_HELD. -/
def State.recordReq (s : State) (rseq : Nat) : State :=
  let (held, s) := s.ringRseq rseq
  if held = some rseq then s.recordSend rseq else s.stnSend 2 0x13 (beBytes 4 rseq)

/-- ENERGY_CLEAR (R367, R10): GO with the key in PARKED; anything else with GO is void and sends BAD_VALUE. -/
def energyClear (s : State) (val : Nat) : State :=
  if wbits val NRG_CLR_KEY ≠ 0x7E81 then s.send 0x3C8 0x03 0
  else if wbits val NRG_CLR_GO = 0 then s
  else if s.op ≠ 4 then s.send 0x3C8 0x03 0
  else
    let s := (s.setEnergy NRG_IMP 0).setEnergy NRG_EXP 0
    let s := (s.setFld NRG_STAT_SAT_IMP 0).setFld NRG_STAT_SAT_EXP 0
    let s := { s with nrg := { s.nrg with res := 0, cleared := true } }
    (s.journalEntry (s.ctl.btime / 1000000000 * 1000000000)).send 0x3C8 0x1F 0

def execEnergyClear (_m : Master) (val : Word) (s : State) : Host.Outcome State Fault Refusal :=
  .next (energyClear s val.toNat)

/-- Function reset of metering (R368): delivery state and the signing queue are cleared; accumulation, registers and
journal are kept. -/
def State.nrgFreset (s : State) : State :=
  let s := { s with nrg := { s.nrg with queue := [], signed := [], offered := [] } }
  let s := match s.sec.cur with
    | some (r, _) => if r.kind = 0 then { s with sec := { s.sec with cur := none } } else s
    | none => s
  ((s.setFld NRG_STAT_QUEUE 0).setFld NRG_STAT_SIGN_PEND 0).secNext

end Sys2Proof.Machine
end

