-- ==== Sys2Proof/Machine/StationRx.lean ====
section
/-! DEFINITION. Reception of station frames (chapter 18): the receive checks, then what each frame type does. -/
namespace Sys2Proof.Machine
open Sys2Proof

/-- A frame at a station port passes the receive checks of R393 and acts by its type (R392). -/
def stationFrame (s : State) (p : Nat) (f : StnFrame) : State :=
  match s.stnCheck p f with
  | (s, none) => s
  | (s, some (cls, ty, seq, body)) =>
    match ty with
    | 0x01 => s.setpointStage p cls f.age body
    | 0x02 => s.ringReceive p cls seq body
    | 0x11 => (s.stnCount p 0).recordAck (beNat body)
    | 0x12 => (s.stnCount p 0).recordReq (beNat body)
    | 0x14 => (s.stnCount p 0).attestReq body
    | _ => s

def execSetpoint (p : Fin 4) (f : StnFrame) (s : State) : Host.Outcome State Fault Refusal := .next (stationFrame s p f)
def execRequest (p : Fin 4) (f : StnFrame) (s : State) : Host.Outcome State Fault Refusal := .next (stationFrame s p f)
def execRecordAck (p : Fin 4) (f : StnFrame) (s : State) : Host.Outcome State Fault Refusal := .next (stationFrame s p f)
def execRecordReq (p : Fin 4) (f : StnFrame) (s : State) : Host.Outcome State Fault Refusal := .next (stationFrame s p f)
def execAttestReq (p : Fin 4) (f : StnFrame) (s : State) : Host.Outcome State Fault Refusal := .next (stationFrame s p f)

end Sys2Proof.Machine
end

