-- ==== Sys2Proof/Machine/CfgWrite.lean ====
section
/-! DEFINITION. Register writes whose fields act beyond their content (R85, R188, R197, R219, R230, R239, R267, R329,
R501), as the loader's pairs and every other writer meet them. -/
namespace Sys2Proof.Machine
open Sys2Proof

/-- The lane whose line register set an address lies in (R88). -/
def laneOf (a : Nat) : Option Nat :=
  if 0x100000 ≤ a ∧ a < 0x120000 then some ((a - 0x100000) / 4096)
  else if 0x128000 ≤ a ∧ a < 0x12C000 then some (32 + (a - 0x128000) / 4096)
  else if 0x138000 ≤ a ∧ a < 0x13C000 then some (36 + (a - 0x138000) / 4096)
  else none

/-- A write of `CL_CTRL`: the plain fields, then EN (R501) and LB (R85). -/
def State.ctrlWrite (s : State) (l val : Nat) : State :=
  let s := ((s.setFld (CL_CTRL_AUTO_REC l) (wbits val (CL_CTRL_AUTO_REC l))).setFld (CL_CTRL_LOS_PIN_EN l)
    (wbits val (CL_CTRL_LOS_PIN_EN l))).setFld (CL_CTRL_LOS_PIN_POL l) (wbits val (CL_CTRL_LOS_PIN_POL l))
  let s := if s.pinLoss l then losAssert s l else s
  let s := if tbit val 0 then portEnable s l else portDisable s l
  loopbackSelect s l (wbits val (CL_CTRL_LB l))

/-- The address is that of `CE_TURN_p` or `CE_CHc_CFG`. -/
def isTurnReg (a : Nat) : Bool :=
  decide (0x40400 ≤ a ∧ a < 0x40700) || (decide (0x41000 ≤ a ∧ a < 0x41C00) && a % 16 == 0)

/-! ### Slots and their producers (R27) -/

/-- The slots of the enabled sensor channels (R256). -/
def State.channelSlots (s : State) : List Nat :=
  (upto 32).flatMap fun n =>
    if s.bit (SNS_CH_CFG_EN n) then
      s.fld (SNS_CH_CFG_MEAN n) :: (if s.bit (SNS_CH_CFG_MMEN n) then [s.fld (SNS_CH_CFG_MIN n), s.fld (SNS_CH_CFG_MAX n)]
        else [])
    else []

/-- The health slots of the sensor ports (R257). -/
def State.healthSlots (s : State) : List Nat :=
  (upto 4).flatMap fun m => if s.bit (SNS_P_CFG_HSEN m) then [s.fld (SNS_P_CFG_HSLOT m)] else []

/-- The setpoint slots that the station ports own, from 0x100 on (R398). -/
def State.stationSlots (s : State) : List Nat :=
  (upto 4).flatMap fun p => (upto 2).flatMap fun c => (upto 4).flatMap fun w =>
    (bitsSet (s.fld (STN_OWN p c w)) 32).map fun j => 32 * w + j

/-- The slots that registers give a producer. -/
def State.madeSlots (s : State) : List Nat :=
  s.channelSlots ++ s.healthSlots ++ s.stationSlots.map (0x100 + ·)
    ++ ((upto 192).filter fun c => s.bit (CE_CH_CFG_EN c)).flatMap fun c => [0x200 + 2 * c, 0x201 + 2 * c]

/-- The address is that of a register that gives slots their producer. -/
def isSlotReg (a : Nat) : Bool :=
  (decide (0x121000 ≤ a ∧ a < 0x121200) && a % 16 == 0) || (decide (0x120100 ≤ a ∧ a < 0x120200) && a % 64 == 0)
    || (decide (0x140000 ≤ a ∧ a < 0x150000) && decide (0x80 ≤ a % 16384 ∧ a % 16384 < 0xA0))
    || (decide (0x41000 ≤ a ∧ a < 0x41C00) && a % 16 == 0)

/-- A slot that has lost its producer reads 0 (R27). -/
def State.dropSlots (old s : State) : State :=
  let now := s.madeSlots
  (old.madeSlots.filter fun i => !now.contains i).foldl (fun s i => s.setSlotBits i 0) s

/-- A write to a register on behalf of a master, with what the register's fields do beyond holding their content. -/
def State.fieldWrite (s : State) (m : Master) (a val : Nat) : State :=
  match laneOf a with
  | some l => if a = lineBase l then s.ctrlWrite l val else s.regWrite m a val
  | none =>
    if a = 0x30010 then pinCfgWrite s m val
    else if a = 0x30000 then (s.regWrite m a val).driveBlockOut
    else if 0x30100 ≤ a ∧ a < 0x30300 ∧ a % 16 = 0 then s.cmpCfgWrite m a val
    else if a = 0x10000 ∨ (0x10080 ≤ a ∧ a < 0x10100) then (s.regWrite m a val).driveInt
    else if a = 0x20100 then domCfgWrite s m 0 val
    else if a = 0x20140 then domCfgWrite s m 1 val
    else if isTurnReg a then (s.regWrite m a val).turnCheck true
    else if a = 0x50020 then plnApply s 0 val
    else if a = 0x50024 then plnApply s 1 val
    else if a = 0x70010 then (s.regWrite m a val).lateAll
    else if 0x41000 ≤ a ∧ a < 0x41C00 ∧ a % 16 = 8 then
      let s := s.regWrite m a val
      if tbit val 14 then s.primeChan ((a - 0x41000) / 16) else s
    else s.regWrite m a val

/-- A write to a register on behalf of a master, and the slots that lose their producer by it. -/
def State.plainWrite (s : State) (m : Master) (a val : Nat) : State :=
  if isSlotReg a then State.dropSlots s (s.fieldWrite m a val) else s.fieldWrite m a val

end Sys2Proof.Machine
end

