-- ==== Sys2Proof/Machine/SeqCore.lean ====
section
/-! DEFINITION. The sequencer's programmer state and its starts (R429, R430, R440, R442). -/
namespace Sys2Proof.Machine
open Sys2Proof

/-- The three vectors (R428). -/
def seqResetVec : Nat := 0x38000000
def seqNmiVec : Nat := 0x38000040
def seqRoleVec : Nat := 0x38000080

/-- A register; s0 reads 0 (R430). -/
def State.sx (s : State) (i : Nat) : Nat := if i = 0 then 0 else mget 0 s.seq.x i

/-- A register written; writes to s0 are ignored (R430). -/
def State.setSx (s : State) (i v : Nat) : State :=
  if i = 0 then s else { s with seq := { s.seq with x := mset 0 s.seq.x i (v % 2 ^ 32) } }

/-- `SEQ_STAT.MODE` and NMI_PEND as the sequencer's state gives them. -/
def State.showSeq (s : State) : State :=
  let q := s.seq
  let mode := if q.dead then 5 else if !q.run then 0 else if q.halt then 4 else if q.wait.isSome then 2
    else if q.masked then 3 else 1
  (s.setFld SEQ_STAT_MODE mode).setFld SEQ_STAT_NMI_PEND (b2n (q.nmi || q.held))

/-- A start (R429): the cause goes to ENTRY, a wait ends, NMI is unmasked so that a held one becomes pending, and the
watchdog counts from here; `clear` clears s1 to s15. -/
def State.seqStart (s : State) (vec entry : Nat) (clear : Bool) : State :=
  let q := s.seq
  let s := { s with seq := { q with x := if clear then [] else q.x, pc := vec, run := true, dead := false, wait := none,
                                    masked := false, nmi := q.nmi || q.held, held := false, wd := 0, pass := false } }
  (s.setFld SEQ_STAT_ENTRY entry).showSeq

/-- An entry at the NMI vector with EPC (R440): NMI is masked until RETN. -/
def State.seqNmi (s : State) (epc entry : Nat) : State :=
  let s := (s.setFld SEQ_EPC epc).seqStart seqNmiVec entry false
  { s with seq := { s.seq with masked := true, nmi := false, held := s.seq.nmi } }.showSeq

/-- The start at entry to PARKED from VERIFY (R429). -/
def State.seqBoot (s : State) : State :=
  let s := { s with seq := { s.seq with nmi := false, held := false, role := none } }
  (s.setFld SEQ_EVT 0).seqStart seqResetVec 0 true

/-- The fields that a function reset of the sequencer returns to 0 (R445). -/
def seqResetFlds : List Fld :=
  [SEQ_STAT_MODE, SEQ_STAT_NMI_PEND, SEQ_STAT_ENTRY, SEQ_STAT_LS_SEEN, SEQ_STAT_WD_SEEN, SEQ_EVT,
   SEQ_REQ_STAT_TARGET, SEQ_REQ_STAT_PEND, SEQ_REQ_STAT_ACC, SEQ_REQ_STAT_REASON, SEQ_CNT_LS, SEQ_CNT_NMI, SEQ_CNT_ILL,
   SEQ_CNT_OVF] ++ (upto 3).flatMap fun q => [SEQ_RX_WP q, SEQ_RX_RP q, SEQ_TX_WP q, SEQ_TX_RP q]

/-- A queued SIGN is withdrawn with result RESET (R444). -/
def State.signWithdrawn (s : State) : State :=
  let s := (s.setFld SEQ_SIGN_STAT_STATE 3).setFld SEQ_SIGN_STAT_RESULT 6
  { s with sec := { s.sec with wait := s.sec.wait.filter fun r => r.kind != 3 } }

/-- Function reset of the sequencer (R429, R444, R445): a queued SIGN is withdrawn with result RESET, one in progress
completes, and `SEQ_SIGN_STAT` returns to reset where none is outstanding (R11); the registers of R445 return to reset and
the cores restart. -/
def State.seqFreset (s : State) : State :=
  let stopped := decide (s.op < 4)
  let queued := s.sec.wait.any fun r => r.kind == 3
  let signing := s.fld SEQ_SIGN_STAT_STATE == 2
  let s := if queued then s.signWithdrawn
    else if signing then s
    else (s.setFld SEQ_SIGN_STAT_STATE 0).setFld SEQ_SIGN_STAT_RESULT 0
  let s := seqResetFlds.foldl (fun s f => s.setFld f 0) s
  let s := { s with seq := { s.seq with nmi := false, held := false, role := none }, ctl := { s.ctl with seqReq := none } }
  if stopped then s else s.seqStart seqResetVec 1 true

end Sys2Proof.Machine
end

