-- ==== Sys2Proof/Machine/Loader.lean ====
section
/-! DEFINITION. Start-up (chapter 19): the flash, the image format, the choice of a slot, VERIFY and entry to PARKED;
flash commands, ports taken offline, and which function resets may be requested. -/
namespace Sys2Proof.Machine
open Sys2Proof

/-! ### Flash and image format (R405 to R408) -/

/-- Erased flash. -/
def flashDefault (_ : Nat) : Byte := 0xFF

/-- n bytes of flash as a little-endian number, and as a list. -/
def State.flRd (s : State) (a n : Nat) : Nat := crd flashDefault s.ld.flash a n
def State.flBytes (s : State) (a n : Nat) : List Byte := (upto n).map fun i => cget flashDefault s.ld.flash (a + i)
def State.flZero (s : State) (a n : Nat) : Bool := (upto n).all fun i => cget flashDefault s.ld.flash (a + i) == 0

/-- First byte of slot x: 0 A, 1 B (R405). -/
def slotBase (x : Nat) : Nat := 0x2000000 * x

/-- A section table entry (R408). -/
structure Section where
  ty     : Nat
  units  : Nat
  zero   : Nat
  ofs    : Nat
  len    : Nat
  target : Nat
  digest : Nat
deriving DecidableEq, Repr

/-- Entry k of a slot's section table. -/
def State.sectionAt (s : State) (x k : Nat) : Section :=
  let e := slotBase x + 0x20 + 48 * k
  { ty := s.flRd e 1, units := s.flRd (e + 1) 1, zero := s.flRd (e + 2) 2, ofs := s.flRd (e + 4) 4,
    len := s.flRd (e + 8) 4, target := s.flRd (e + 12) 4, digest := s.flRd (e + 16) 32 }

/-- NSEC and GEN of a slot's header. -/
def State.nsec (s : State) (x : Nat) : Nat := s.flRd (slotBase x + 6) 2
def State.imgGen (s : State) (x : Nat) : Nat := s.flRd (slotBase x + 8) 4
def State.imgSvn (s : State) (x : Nat) : Nat := s.flRd (slotBase x + 0x14) 1

/-- The sections of a slot. -/
def State.sections (s : State) (x : Nat) : List Section := (upto (s.nsec x)).map (s.sectionAt x)

/-- The slot is EMPTY: MAGIC or COMMIT is wrong (R412). -/
def State.slotEmpty (s : State) (x : Nat) : Bool :=
  let b := slotBase x
  s.flRd b 4 != 0x4943564F || s.flRd (b + 0x1FF8) 8 != 0x4F56434D * 2 ^ 32 + s.imgGen x

/-- Check 0x02 of R414: FORMAT, CHIP, NSEC, IMGLEN, SVN and the bytes that are 0. -/
def State.headerOk (s : State) (x : Nat) : Bool :=
  let b := slotBase x
  let n := s.nsec x
  let len := s.flRd (b + 16) 4
  s.flRd (b + 4) 2 == 1 && decide (1 ≤ n ∧ n ≤ 64) && s.flRd (b + 12) 4 == s.regBits 0
    && decide (8200 ≤ len ∧ len ≤ 33554432) && len % 8 == 0 && decide (s.imgSvn x ≤ 128)
    && s.flZero (b + 0x15) 11 && s.flZero (b + 0x20 + 48 * n) (48 * (64 - n)) && s.flZero (b + 0x1321) 223
    && s.flZero (b + 0x1900) 1784

/-- Check 0x03 of R414: the section table of R408 and the TARGET ranges of R409. -/
def State.tableOk (s : State) (x : Nat) : Bool :=
  let len := s.flRd (slotBase x + 16) 4
  ((s.sections x).foldl (fun (p : Bool × Nat) e =>
    let tgt := if e.ty = 2 then
        (decide (0x30000000 ≤ e.target) && decide (e.target + e.len ≤ 0x30100000))
          || (decide (0x38000000 ≤ e.target) && decide (e.target + e.len ≤ 0x38080000))
      else e.target == 0
    (p.1 && e.zero == 0 && decide (p.2 ≤ e.ofs) && e.ofs % 8 == 0 && decide (8 ≤ e.len) && e.len % 8 == 0
      && decide (e.ofs + e.len ≤ len) && tgt, e.ofs + e.len)) (true, 0x2000)).1

/-- Check 0x04 of R414: TYPE and UNITS. -/
def State.typesOk (s : State) (x : Nat) : Bool :=
  (s.sections x).all fun e => decide (1 ≤ e.ty ∧ e.ty ≤ 7) && decide (e.units ≤ 2)

/-- The first header check that fails, 0 for none. -/
def State.headerCode (s : State) (x : Nat) : Nat :=
  if !s.headerOk x then 2 else if !s.tableOk x then 3 else if !s.typesOk x then 4 else 0

/-! ### Choosing a slot (R412) -/

/-- A slot's header is read and classed. -/
def State.classSlot (s : State) (x : Nat) : State :=
  let s := (s.setFld (CFG_SLOT_STAT_PASSED x) 0).setFld (CFG_SLOT_STAT_CODE x) 0
  if s.slotEmpty x then s.setFld (CFG_SLOT_STAT_CLASS x) 1
  else
    let s := s.setFld (CFG_SLOT_GEN x) (s.imgGen x)
    let c := s.headerCode x
    if c = 0 then s.setFld (CFG_SLOT_STAT_CLASS x) 3
    else ((s.setFld (CFG_SLOT_STAT_CLASS x) 2).setFld (CFG_SLOT_STAT_CODE x) c).send (0x3D8 + x) 0x28 (c * 2 ^ 24)

/-- The candidates in the order in which they are tried. -/
def State.slotOrder (s : State) : List Nat :=
  let c := [0, 1].filter fun x => s.fld (CFG_SLOT_STAT_CLASS x) == 3
  let next := s.fld CFG_CTRL_NEXT
  let rest := if c == [0, 1] && serialAfter 32 (s.imgGen 1) (s.imgGen 0) then [1, 0] else c
  (rest.filter fun x => x + 1 == next) ++ rest.filter fun x => x + 1 != next

/-- Both headers are read, or neither when the flash does not answer (check 0x01, R404). -/
def State.readHeaders (s : State) : State :=
  if !s.ld.flashOk then
    let s := (s.setFld (CFG_SLOT_STAT_CODE 0) 1).setFld (CFG_SLOT_STAT_CODE 1) 1
    { s.send 0x3DA 0x2D (2 ^ 24) with ld := { s.ld with cand := [], first := 0, reading := true, trial := {} } }
  else
    let s := (s.classSlot 0).classSlot 1
    let l := s.slotOrder
    let next := s.fld CFG_CTRL_NEXT
    let first := if next = 1 ∨ next = 2 then next else l.headD 0 + 1
    { s with ld := { s.ld with cand := l.map (· + 1), first := first, reading := true, trial := {} } }

/-- The lock flags of PLL_SYS, PLL_TIME, PLL_LANE and PLL_STN. -/
def lockFlds : List Fld := [CLK_MON_SYS_LOCK, CLK_MON_TIME_LOCK, CLK_MON_LANE_LOCK, CLK_MON_STN_LOCK]

/-- The clocks that PLL i makes, by monitor source: CK_CORE and CK_FAB, CK_TIME, CK_LTX, CK_STN (R55). -/
def pllClocks (i : Nat) : List Nat :=
  match i with
  | 0 => [0x010, 0x011] | 1 => [0x013] | 2 => [0x012] | _ => [0x014]

/-- PLL i reports lock: its flag, and its clocks run; control time is joined again when CK_TIME does (R59). Ticks begin once PLL_SYS and PLL_TIME have locked (R60). -/
def State.pllUp (s : State) (i : Nat) : State :=
  let runs (l : List Nat) : List Nat := l.filter fun c => !(pllClocks i).contains c
  let s := s.when (i == 1) State.ckTimeBack
  let s := { s with ctl := { s.ctl with lost := runs s.ctl.lost, dead := runs s.ctl.dead } }
  let s := s.flag (lockFlds.getD i CLK_MON_SYS_LOCK)
  { s with ctl := { s.ctl with clocked := s.ctl.clocked || (s.bit CLK_MON_SYS_LOCK && s.bit CLK_MON_TIME_LOCK) } }

/-- PLL_LOCK (R60, R404, R412): bit i of `locked` is the lock of PLL i. When every PLL has reported lock, RESET ends and the
headers are read; NEXT returns to 0. -/
def pllLock (s : State) (locked : Nat) (flashOk : Bool) : State :=
  if s.op ≠ 0 ∨ s.elec.inReset ∨ s.ctl.lost.contains 0x016 then s
  else
    let s := (bitsSet locked 4).foldl (fun s i => s.pllUp i) s
    if !lockFlds.all s.bit then s
    else
    let s := s.enterState 1 0x01
    let s := { s with ld := { s.ld with flashOk := flashOk, rstPulse := false } }
    s.readHeaders.setFld CFG_CTRL_NEXT 0

/-! ### Applying sections (R409, R410) -/

/-- A section is for this unit (R408). -/
def State.unitMatch (s : State) (e : Section) : Bool := e.units == 0 || e.units == s.fld RED_ID_UNIT + 1

/-- Pair i of a REG section: address and value. -/
def State.pairAt (s : State) (x : Nat) (e : Section) (i : Nat) : Nat × Nat :=
  (s.flRd (slotBase x + e.ofs + 8 * i) 4, s.flRd (slotBase x + e.ofs + 8 * i + 4) 4)

/-- A REG pair is legal (R410): RW and RWL fields only, the other bits 0, no reserved encoding. -/
def pairOk (a v : Nat) : Bool :=
  match regAt a with
  | none => false
  | some r =>
    let open_ := r.flds.filter fun f => f.acc == .rw || f.acc == .rwl
    let rest := open_.foldl (fun v f => v - v / 2 ^ f.lo % 2 ^ f.w * 2 ^ f.lo) v
    !open_.isEmpty && rest == 0 && open_.all (fun f => legalVal f (v / 2 ^ f.lo % 2 ^ f.w))
      && (match a / 0x10000 with
          | 0 => false
          | 12 => a == 0xC0004 && decide (v ≤ 1)
          | 15 => false
          | _ => true)

/-- Pairs to these registers are held until entry to PARKED (R409). -/
def heldReg (a : Nat) : Bool :=
  a == 0x50000 || (decide (0x140000 ≤ a ∧ a < 0x150000) && a % 0x4000 == 0)
    || (match laneOf a with | some l => a == lineBase l | none => false)

/-- A change of the candidate's contents. -/
def State.onTrial (s : State) (f : Image → Image) : State := { s with ld := { s.ld with trial := f s.ld.trial } }

/-- One REG pair of the candidate; of the CFG_ registers it sets MOD_OK alone (R410). -/
def State.applyPair (s : State) (p : Nat × Nat) : State :=
  if !pairOk p.1 p.2 then s
  else if heldReg p.1 then s.onTrial fun i => { i with held := i.held ++ [p] }
  else if p.1 = 0xC0004 then s.setFld CFG_CTRL_MOD_OK (p.2 % 2)
  else s.plainWrite .loader p.1 p.2

/-- Entry k of a CELLMAP: g and its configuration. -/
def State.cellEntry (s : State) (x : Nat) (e : Section) (k : Nat) : Nat × CellCfg :=
  let w := s.flRd (slotBase x + e.ofs + 8 * k) 8
  (bitsOf w 11 0, ⟨bitsOf w 14 12, tbit w 15, bitsOf w 31 16⟩)

/-- A PORTMAP of the candidate: arm + 1 per port (0 for none), and the lanes listed as used. -/
def State.applyPortmap (s : State) (x : Nat) (e : Section) : State :=
  let b := fun n => s.flRd (slotBase x + e.ofs + n) 1
  let arms := (upto 32).foldl (fun m n => mset 0 m n (if b n % 8 = 7 then 0 else b n % 8 + 1)) []
  let used := (upto 40).filter fun n => tbit (b n) (if n < 32 then 3 else 0)
  s.onTrial fun i => { i with arms := arms, used := used }

/-- A section applied as it is read (R409). -/
def State.applySection (s : State) (x : Nat) (e : Section) : State :=
  if !s.unitMatch e then s
  else match e.ty with
    | 1 => (upto (e.len / 8)).foldl (fun s i => s.applyPair (s.pairAt x e i)) s
    | 2 => s.wr e.target e.len (s.flRd (slotBase x + e.ofs) e.len)
    | 3 =>
      let put := fun (m : NMap CellCfg) k => mput m (s.cellEntry x e k).1 (s.cellEntry x e k).2
      s.onTrial fun i => { i with cells := (upto (e.len / 8)).foldl put i.cells }
    | 4 =>
      let put := fun (m : NMap Nat) p a => mset 0 m (256 * p + a + 1) (s.flRd (slotBase x + e.ofs + 64 * p + 2 * (a + 1)) 2)
      s.onTrial fun i => { i with profs := (upto 8).foldl (fun m p => (upto 19).foldl (fun m a => put m p a) m) i.profs }
    | 5 => s.applyPortmap x e
    | 6 =>
      let put := fun (m : NMap Nat) k => mset 0 m k (s.flRd (slotBase x + e.ofs + 4 * k) 2)
      s.onTrial fun i => { i with slotMap := true, slots := (upto 1024).foldl put i.slots }
    | _ => s

/-- The reset content of a register's RW and RWL fields. -/
def resetBits (a : Nat) : Nat :=
  match regAt a with
  | none => 0
  | some r => r.flds.foldl (fun v f => if f.acc == .rw || f.acc == .rwl then v + (fldAt a f).rst * 2 ^ f.lo else v) 0

/-- CANDIDATE_CLEAR (R413): what a section wrote returns to its reset value. -/
def State.clearSection (s : State) (x : Nat) (e : Section) : State :=
  if !s.unitMatch e then s
  else match e.ty with
    | 1 => (upto (e.len / 8)).foldl (fun s i =>
        let p := s.pairAt x e i
        if p.1 = 0xC0004 then s.setFld CFG_CTRL_MOD_OK CFG_CTRL_MOD_OK.rst
        else if pairOk p.1 p.2 && !heldReg p.1 then s.plainWrite .loader p.1 (resetBits p.1) else s) s
    | 2 => s.wr e.target e.len 0
    | _ => s

/-- HOLD_FOR_HOST is entered (R413, R417). -/
def State.enterHold (s : State) : State :=
  let s := if s.op = 1 then s.enterState 2 0x01 else s
  let s := (s.enterState 3 0x01).setFld CFG_STAT_SLOT 0
  let s := { s with ld := { s.ld with cand := [], reading := false, trial := {} } }
  s.send 0x3DB 0x2E 0

/-- The candidate fails: its code, its message, its first n sections cleared, and the next candidate or HOLD_FOR_HOST. -/
def State.failCandidate (s : State) (x n code kind det : Nat) : State :=
  let s := (s.setFld (CFG_SLOT_STAT_CODE x) code).send (0x3D8 + x) kind (code * 2 ^ 24 + det)
  let s := ((s.sections x).take n).foldl (fun s e => s.clearSection x e) s
  let tail := s.ld.cand.drop 1
  let s := { s with ld := { s.ld with cand := tail, reading := true, trial := {} } }
  if tail.isEmpty then s.enterHold else s

/-- IMAGE_READ_COMPLETE (R36, R409, R413): the candidate has been read, its sections applied and digested up to the first
digest that fails. A candidate tried after a failure of VERIFY is read while the state stays VERIFY (DEDUCED, log entry
16). -/
def imageReadComplete (s : State) : State :=
  if !s.ld.reading || !(s.op == 1 || s.op == 2) then s
  else match s.ld.cand with
    | [] => s.enterHold
    | x1 :: _ =>
      let x := x1 - 1
      let l := s.sections x
      let good := l.takeWhile fun e => (shake256 (s.flBytes (slotBase x + e.ofs) e.len) 256).toNat == e.digest
      let s := s.onTrial fun _ => {}
      let s := (l.take (good.length + 1)).foldl (fun s e => s.applySection x e) s
      if good.length < l.length then s.failCandidate x (good.length + 1) 5 0x29 0
      else
        let s := { s with ld := { s.ld with reading := false } }
        s.enterState 2 0x01

/-! ### VERIFY (R414) -/

/-- Check 0x06, the security unit's checks of R378: the owner slot that signed the image. -/
def State.sealCheck (s : State) (x : Nat) : Option Nat × State :=
  let b := slotBase x
  let pk := s.flBytes (b + 0xC20) 1793
  match (if s.bit SEC_STAT_BLANK then none else s.ownerOf pk 0) with
  | none => (none, s.secTell 0 0x20 0)
  | some o =>
    let h := (shake256 (s.flBytes b 0x1400) 256).toNat
    let (ok, s) := s.verify pk (leBytes 32 h) (s.flBytes (b + 0x1400) 1280)
    if !ok then (none, s.secTell 0 0x21 0)
    else if s.imgSvn x < s.fld SEC_STAT_ARB then (none, s.secTell 0 0x22 0)
    else (some o, s)

/-- Check 0x07: the first REG pair that is not legal, by section and entry. -/
def State.badPair (s : State) (x : Nat) : Option (Nat × Nat) :=
  ((s.sections x).zipIdx.filterMap fun p =>
    if p.1.ty ≠ 1 then none
    else ((upto (p.1.len / 8)).find? fun i =>
      let q := s.pairAt x p.1 i
      !pairOk q.1 q.2).map fun i => (p.2, i)).head?

/-- No value occurs twice. -/
def distinct : List Nat → Bool
  | [] => true
  | a :: t => !t.contains a && distinct t

/-- Check 0x08: the limits of R25 and the cell map. DESIGN CHOICE (log 102): a CL port that PORTMAP gives an arm and the
image does not mark as used counts neither as a port of that arm nor towards the arms configured. -/
def State.limitsOk (s : State) (x : Nat) : Bool :=
  let i := s.ld.trial
  let maps := (s.sections x).filter fun e => e.ty == 3 && s.unitMatch e
  let gs := maps.flatMap fun e => (upto (e.len / 8)).map fun k => (s.cellEntry x e k).1
  let arm n := mget 0 i.arms n
  let ports a := (upto 32).filter fun n => i.used.contains n && arm n == a + 1
  let used := (upto 6).filter fun a => !(ports a).isEmpty
  distinct gs && gs.all (fun g => i.used.contains (g / 128) && decide (1 ≤ arm (g / 128) ∧ arm (g / 128) ≤ 6))
    && i.arms.all (fun p => decide (p.2 ≤ 6)) && !used.isEmpty
    && used.all fun a =>
      let per n := (gs.filter fun g => g / 128 == n).length
      let tot : Nat := ((ports a).map per).foldl (· + ·) 0
      decide (1 ≤ tot ∧ tot ≤ 1024) && decide ((ports a).length ≤ 8) && (ports a).all fun n => decide (1 ≤ per n)

/-- Check 0x09: the slot rules of R27, R178, R195 and R398, and the unit codes of R409. -/
def State.slotsOk (s : State) : Bool :=
  let i := s.ld.trial
  let refs := (upto 6).all fun a =>
    (i.arms.all fun p => p.2 != a + 1) || s.bit (PLN_ARM_REF_SRC a) || !i.slotMap
      || mget 0 i.slots (s.fld (PLN_ARM_REF_SLOT a)) == 1 + 256 * 0xFE
  distinct (s.channelSlots ++ s.healthSlots) && distinct s.stationSlots && refs && i.slots.all fun p => decide (p.2 % 256 ≤ 9)

/-- Check 0x0A: the Turn Order (R197) and the parameter sets of enabled channels in both banks (R215). -/
def State.channelsOk (s : State) : Bool :=
  !s.turnBad && (upto 192).all fun c => !s.bit (CE_CH_CFG_EN c) || (s.paramOk 0 c && s.paramOk 1 c)

/-- Check 0x0B: the value checks of R136 and the dwell bound of R165 on the profiles that the cell map names. -/
def State.profilesOk (s : State) : Bool :=
  let i := s.ld.trial
  (upto 8).all fun p =>
    let w a := mget 0 i.profs (256 * p + a)
    let need := (10 * w 3 + 1998) / 1000
    i.cells.all (fun c => c.2.prof != p)
      || (decide (w 2 + 10 ≤ w 3) && decide (w 8 < w 9) && decide (need ≤ s.fld (SEL_DWELL_ON_MIN p))
          && decide (need ≤ s.fld (SEL_DWELL_OFF_MIN p)))

/-- Check 0x0C: R263, R310 and R355. -/
def State.timePairOk (s : State) : Bool :=
  let s0 := s.fld (TIM_D_CFG_SRC 0)
  let same := s0 != 0 && s0 == s.fld (TIM_D_CFG_SRC 1)
    && (s0 != 1 || s.fld (TIM_D_CFG_PORT 0) == s.fld (TIM_D_CFG_PORT 1))
  let pair := !s.bit RED_CFG_PAIR || (s.bit CMP_CTRL_HOLD_EN && decide (s.fld RED_CFG_SILENT + 2 ≤ s.fld CMP_CTRL_HOLD))
  let rate f := s.fld (SNS_P_CFG_RATE (s.fld f / 8))
  let nrg := !s.bit NRG_CFG_EN || (rate NRG_CFG_VP == rate NRG_CFG_I && (!s.bit NRG_CFG_VN_EN || rate NRG_CFG_VN == rate NRG_CFG_I))
  !same && pair && nrg

/-- The first of checks 0x08 to 0x0C that fails, 0 for none. -/
def State.contentCode (s : State) (x : Nat) : Nat :=
  if !s.limitsOk x then 8 else if !s.slotsOk then 9 else if !s.channelsOk then 10 else if !s.profilesOk then 11
  else if !s.timePairOk then 12 else 0

/-! ### The entry that a check finds offending (R414)

DESIGN CHOICE (log entry 59): an entry offends when what it sets takes part in what the check finds wrong. -/

/-- The entries of a section, as R409 lays its content out. -/
def Section.entries (e : Section) : Nat :=
  match e.ty with
  | 4 => 8
  | 5 => 40
  | 6 => e.len / 4
  | _ => e.len / 8

/-- The first entry of a slot's sections for this unit that offends, by section and entry. -/
def State.firstEntry (s : State) (x : Nat) (bad : Section → Nat → Bool) : Option (Nat × Nat) :=
  ((s.sections x).zipIdx.filterMap fun p =>
    if !s.unitMatch p.1 then none else ((upto p.1.entries).find? (bad p.1)).map fun i => (p.2, i)).head?

/-- Values that occur more than once. -/
def repeated (l : List Nat) (v : Nat) : Bool := decide (1 < l.count v)

/-- Check 0x08: entry k of a CELLMAP; port n of a PORTMAP. -/
def State.cellBad (s : State) (x : Nat) (e : Section) (k : Nat) : Bool :=
  let i := s.ld.trial
  let gs := ((s.sections x).filter fun e => e.ty == 3 && s.unitMatch e).flatMap fun e =>
    (upto (e.len / 8)).map fun k => (s.cellEntry x e k).1
  let arm g := mget 0 i.arms (g / 128)
  let g := (s.cellEntry x e k).1
  repeated gs g || !i.used.contains (g / 128) || arm g == 0 || decide (6 < arm g)
    || decide (1024 < (gs.filter fun h => arm h == arm g).length)
def State.portBad (s : State) (x n : Nat) : Bool :=
  let i := s.ld.trial
  let gs := ((s.sections x).filter fun e => e.ty == 3 && s.unitMatch e).flatMap fun e =>
    (upto (e.len / 8)).map fun k => (s.cellEntry x e k).1
  let a := mget 0 i.arms n
  decide (n < 32) && a != 0 && (decide (6 < a) || (i.used.contains n
    && (gs.all (fun g => g / 128 != n) || decide (8 < ((upto 32).filter fun m => i.used.contains m && mget 0 i.arms m == a).length))))

/-- Check 0x09: the register at an address gives a slot a second producer, or an arm a slot whose LSB is wrong. -/
def State.slotRegBad (s : State) (a : Nat) : Bool :=
  let twice := repeated (s.channelSlots ++ s.healthSlots)
  let n := (a - 0x121000) / 16
  let m := (a - 0x120100) / 64
  let o := a % 16384
  let p := (a - 0x50100) / 64
  if 0x121000 ≤ a ∧ a < 0x121200 then
    s.bit (SNS_CH_CFG_EN n) && (twice (s.fld (SNS_CH_CFG_MEAN n))
      || (s.bit (SNS_CH_CFG_MMEN n) && (twice (s.fld (SNS_CH_CFG_MIN n)) || twice (s.fld (SNS_CH_CFG_MAX n)))))
  else if 0x120100 ≤ a ∧ a < 0x120200 ∧ a % 64 = 0 then s.bit (SNS_P_CFG_HSEN m) && twice (s.fld (SNS_P_CFG_HSLOT m))
  else if 0x140000 ≤ a ∧ a < 0x150000 ∧ 0x80 ≤ o ∧ o < 0xA0 then
    (bitsSet (s.fld (STN_OWN ((a - 0x140000) / 16384) ((o - 0x80) / 16) (o % 16 / 4))) 32).any fun j =>
      repeated s.stationSlots (32 * (o % 16 / 4) + j)
  else if 0x50100 ≤ a ∧ a < 0x50280 ∧ a % 64 = 0 then
    s.ld.trial.slotMap && !s.bit (PLN_ARM_REF_SRC p) && mget 0 s.ld.trial.slots (s.fld (PLN_ARM_REF_SLOT p)) != 1 + 256 * 0xFE
  else false

/-- Check 0x0A: the register at an address gives a channel its place or enables one that fails; word k of a MEM is a
parameter of a set that is not valid. -/
def State.chanFails (s : State) (c : Nat) : Bool :=
  decide (c < 192) && (decide (1 < (s.turnOf c).length) || (s.bit (CE_CH_CFG_EN c) && (s.turnOf c).isEmpty))
def State.paramFails (s : State) (bank c : Nat) : Bool := decide (c < 192) && s.bit (CE_CH_CFG_EN c) && !s.paramOk bank c
def State.chanRegBad (s : State) (a : Nat) : Bool :=
  let c := (a - 0x41000) / 16
  if 0x40400 ≤ a ∧ a < 0x40700 then
    s.bit (CE_TURN_VALID ((a - 0x40400) / 4)) && s.chanFails (s.fld (CE_TURN_CH ((a - 0x40400) / 4)))
  else decide (0x41000 ≤ a ∧ a < 0x41C00) && a % 16 == 0 && (s.chanFails c || s.paramFails 0 c || s.paramFails 1 c)
def State.paramWordBad (s : State) (a : Nat) : Bool :=
  let o := (a - 0x30000000) % 0x80000
  decide (0x30000000 ≤ a ∧ a < 0x30100000) && decide (16 ≤ o % 256 / 8 ∧ o % 256 / 8 ≤ 21)
    && s.paramFails ((a - 0x30000000) / 0x80000) (o / 256)

/-- Check 0x0B: profile p, and the register at an address with its dwell times. -/
def State.profileBad (s : State) (p : Nat) : Bool :=
  let i := s.ld.trial
  let w a := mget 0 i.profs (256 * p + a)
  i.cells.any (fun c => c.2.prof == p) && (decide (w 3 < w 2 + 10) || decide (w 9 ≤ w 8))
def State.dwellBad (s : State) (a : Nat) : Bool :=
  let p := (a - 0x60010) / 4
  let need := (10 * mget 0 s.ld.trial.profs (256 * p + 3) + 1998) / 1000
  decide (0x60010 ≤ a ∧ a < 0x60030) && s.ld.trial.cells.any (fun c => c.2.prof == p)
    && (decide (s.fld (SEL_DWELL_ON_MIN p) < need) || decide (s.fld (SEL_DWELL_OFF_MIN p) < need))

/-- Check 0x0C: the registers of the domains, of the pair, and of metering. -/
def State.timeRegBad (s : State) (a : Nat) : Bool :=
  let s0 := s.fld (TIM_D_CFG_SRC 0)
  let same := s0 != 0 && s0 == s.fld (TIM_D_CFG_SRC 1) && (s0 != 1 || s.fld (TIM_D_CFG_PORT 0) == s.fld (TIM_D_CFG_PORT 1))
  let pair := s.bit RED_CFG_PAIR && !(s.bit CMP_CTRL_HOLD_EN && decide (s.fld RED_CFG_SILENT + 2 ≤ s.fld CMP_CTRL_HOLD))
  let port f := s.fld f / 8
  let rate f := s.fld (SNS_P_CFG_RATE (port f))
  let vn := s.bit NRG_CFG_VN_EN && rate NRG_CFG_VN != rate NRG_CFG_I
  let nrg := s.bit NRG_CFG_EN && (rate NRG_CFG_VP != rate NRG_CFG_I || vn)
  let ports := [port NRG_CFG_VP, port NRG_CFG_I] ++ (if vn then [port NRG_CFG_VN] else [])
  (same && (a == 0x20100 || a == 0x20140)) || (pair && (a == 0x80004 || a == 0x70000))
    || (nrg && (a == 0xA0000 || ports.any fun m => a == 0x120100 + 64 * m))

/-- The first offending section and entry of a check that has failed. -/
def State.badEntry (s : State) (x code : Nat) : Option (Nat × Nat) :=
  s.firstEntry x fun e k =>
    let a := (s.pairAt x e k).1
    match code with
    | 8 => if e.ty = 3 then s.cellBad x e k else e.ty == 5 && s.portBad x k
    | 9 => if e.ty = 1 then s.slotRegBad a else e.ty == 6 && decide (9 < mget 0 s.ld.trial.slots k % 256)
    | 10 => if e.ty = 1 then s.chanRegBad a else e.ty == 2 && s.paramWordBad (e.target + 8 * k)
    | 11 => if e.ty = 1 then s.dwellBad a else e.ty == 4 && s.profileBad k
    | _ => e.ty == 1 && s.timeRegBad a

/-- The detail bits of a section and entry; free values where what is wrong is that entries are missing. -/
def State.entryDetail (s : State) : Option (Nat × Nat) → Nat × State
  | some (k, i) => (k % 256 * 2 ^ 16 + i % 65536, s)
  | none => s.draw 24

/-! ### Entry to PARKED (R416) -/

/-- A held pair as it is applied (R84, R409). -/
def State.applyHeld (s : State) (p : Nat × Nat) : State :=
  match laneOf p.1 with
  | some l => s.ctrlWrite l (p.2 - p.2 % 2 + b2n (s.ld.img.used.contains l))
  | none => s.regWrite .loader p.1 p.2

/-- ENTER_PARKED: what the device does on entry to PARKED from VERIFY. -/
def State.enterParked (s : State) : State :=
  let s := s.enterState 4 0x01
  let s := s.ld.img.held.foldl State.applyHeld s
  let s := s.each s.ld.img.used portUp
  let s := s.tableSetup.selSetup
  let s := s.each (upto 6) fun s i => s.setFld (CE_BANK_ACT i) 0
  let s := (s.each (upto 192) State.primeChan).pipSeed.cmpSetup
  let prot := { s.prot with cmpOn := true, slRan := [], boHold := false }
  let s := { s with prot := prot, sump := { s.sump with errState := false } }
  let s := s.driveBlockOut.driveErr
  let s := ((s.journalRestore.restoreKeys 0xFF).seqBoot).pairEnter
  s.setFld CFG_STAT_MODIFIED 0

/-- The image of slot x is in force (R407, R412, R416). -/
def State.acceptImage (s : State) (x owner : Nat) : State :=
  let h := (shake256 (s.flBytes (slotBase x) 0x1400) 256).toNat
  let s := (upto 8).foldl (fun s i => s.setFld (CFG_HASH i) (h / 2 ^ (32 * i) % 2 ^ 32)) s
  let s := ((s.flag (CFG_SLOT_STAT_PASSED x)).setFld CFG_STAT_SLOT (x + 1)).setFld CFG_GEN (s.imgGen x)
  let s := (s.setFld SEC_STAT_SVN (s.imgSvn x)).setFld SEC_STAT_IMG_SLOT owner
  let s := if s.ld.first = x + 1 then s else (s.flag CFG_STAT_FALLBACK).send (0x3D8 + x) 0x2C 0
  let img := { s.ld.trial with gen := s.imgGen x, svn := s.imgSvn x, hash := h }
  let ld := { s.ld with img := img, trial := {}, cand := [], reading := false }
  ({ s with ld := ld }).enterParked

/-- IMAGE_VERIFY (R414): the checks of VERIFY on the candidate that has been read. While the security unit serves another request the
verification waits for it, before all that wait (R371). -/
def imageVerify (s : State) : State :=
  match s.op == 2 && !s.ld.reading, s.ld.cand with
  | true, x1 :: _ =>
    if s.secServing then { s with sec := { s.sec with imgWait := true } } else
    let x := x1 - 1
    let n := (s.sections x).length
    let (o, s) := ({ s with sec := { s.sec with imgWait := false } }).sealCheck x
    let s := s.secNext
    match o, s.badPair x with
    | none, _ => s.failCandidate x n 6 0x2A 0
    | some _, some p => s.failCandidate x n 7 0x2B (s.entryDetail (some p)).1
    | some o, none =>
      let c := s.contentCode x
      if c = 0 then s.acceptImage x o
      else
        let (d, s) := s.entryDetail (s.badEntry x c)
        s.failCandidate x n c 0x2B d
  | _, _ => s

def execPllLock (locked : BitVec 4) (flashOk : Bool) (s : State) : Host.Outcome State Fault Refusal :=
  .next (pllLock s locked.toNat flashOk)
def execImageReadComplete (s : State) : Host.Outcome State Fault Refusal := .next (imageReadComplete s)
def execImageVerify (s : State) : Host.Outcome State Fault Refusal := .next (imageVerify s)

/-! ### Flash commands (R420, R421) -/

/-- The operands of a flash command are in range: LEN, and OFS with the data inside the mailbox. -/
def flashArgsOk (op addr len ofs : Nat) : Bool :=
  if op = 3 then true
  else ofs % 8 == 0 && decide (ofs + len ≤ 65536) && decide (1 ≤ len)
    && (if op = 1 then decide (len ≤ 4096) else decide (addr % 256 + len ≤ 256))

/-- A write of `CFG_FL_CMD` with an operation (R420, R421). -/
def State.flashStart (s : State) (op val : Nat) : State :=
  let addr := s.fld CFG_FL_ADDR
  let len := s.fld CFG_FL_LEN
  let ofs := wbits val CFG_FL_CMD_OFS
  let loading := s.op == 1 || s.op == 2
  let inForce := s.fld CFG_STAT_SLOT != 0 && addr / 0x2000000 + 1 == s.fld CFG_STAT_SLOT && s.op != 3
  if s.ld.cmd.isSome then s
  else if loading || (op != 1 && inForce) then (s.flag CFG_FL_STAT_DENIED).svcDenied
  else if !flashArgsOk op addr len ofs then s.blockSend 0xC0060 0x03
  else { s.flag CFG_FL_STAT_BUSY with ld := { s.ld with cmd := some ⟨op, addr, len, ofs, s.now⟩ } }

/-- A list of bytes stored in the flash. -/
def flashWrite (l : List Host.Cell) : Nat → List Byte → List Host.Cell
  | _, [] => l
  | a, b :: t => flashWrite (cset flashDefault l a b) (a + 1) t

/-- The command ends: BUSY clears, a flag is set, and the sequencer's FLASH event occurs (R434). -/
def State.flashEnd (s : State) (f : Fld) : State :=
  { (s.setFld CFG_FL_STAT_BUSY 0).flag f with ld := { s.ld with cmd := none } }.seqEvent 11

/-- A command has run for more than the 3 s that the flash has for it. -/
def State.flashLate (s : State) (c : FlashCmd) : Bool := decide (c.tick + 3000000 < s.now)


/-- n blocks of 256 bytes of flash take free values: what a PROGRAM or ERASE that failed leaves is not stated. -/
def State.flashFree (s : State) : Nat → Nat → Nat → State
  | 0, _, _ => s
  | n + 1, a, len =>
    let (v, s) := s.draw 2048
    ({ s with ld := { s.ld with flash := flashWrite s.ld.flash a (leBytes (min len 256) v) } }).flashFree n (a + 256) len

/-- A command fails (R421). -/
def State.flashFail (s : State) (c : FlashCmd) : State :=
  let s := match c.op with
    | 1 => s
    | 2 => s.flashFree 1 c.addr c.len
    | _ => s.flashFree 256 (c.addr / 65536 * 65536) 256
  (s.flashEnd CFG_FL_STAT_ERR).send 0x3DA 0x2D 0

/-- FLASH_DONE: the command in progress completes, if it does so within its 3 s (R421). A PROGRAM whose bytes cannot be read fails
(DESIGN CHOICE, log entry 130). -/
def flashDone (s : State) : State :=
  match s.ld.cmd with
  | none => s
  | some c =>
    if s.flashLate c then s
    else match c.op with
      | 1 => (s.writeBytes (0x3C000000 + c.ofs) (s.flBytes c.addr c.len)).flashEnd CFG_FL_STAT_DONE
      | 2 =>
        match s.readBytes (0x3C000000 + c.ofs) c.len with
        | (some l, s) => ({ s with ld := { s.ld with flash := flashWrite s.ld.flash c.addr l } }).flashEnd CFG_FL_STAT_DONE
        | (none, s) => s.flashFail c
      | _ => ({ s with ld := { s.ld with flash := s.ld.flash.filter fun p => p.1 / 65536 != c.addr / 65536 } }).flashEnd CFG_FL_STAT_DONE

/-- FL_ERR (R421): the flash has not completed the command within 3 s. -/
def flErr (s : State) : State :=
  match s.ld.cmd with
  | none => s
  | some c => if s.flashLate c then s.flashFail c else s

def execFlashRead (_m : Master) (val : Word) (s : State) : Host.Outcome State Fault Refusal :=
  .next (s.flashStart 1 val.toNat)
def execFlashProgram (_m : Master) (val : Word) (s : State) : Host.Outcome State Fault Refusal :=
  .next (s.flashStart 2 val.toNat)
def execFlashErase (_m : Master) (val : Word) (s : State) : Host.Outcome State Fault Refusal :=
  .next (s.flashStart 3 val.toNat)
def execFlashDone (s : State) : Host.Outcome State Fault Refusal := .next (flashDone s)
def execFlErr (s : State) : Host.Outcome State Fault Refusal := .next (flErr s)

/-! ### Ports taken offline (R423, R424) -/

/-- PORT_OFFLINE (R423, R417, R426). -/
def portOffline (s : State) (n : Nat) : State :=
  if s.op = 3 then s.svcDenied
  else if s.portOffline n || s.ld.offs.any (fun o => o.port == n) then s
  else
    let run := s.op == 6
    let s := { s.flagBit CFG_OFF_PEND n with ld := { s.ld with offs := s.ld.offs ++ [⟨n, s.now, false, []⟩] } }
    if run then s else s.offGrant n

/-- PORT_ONLINE (R424): EN is set, the port's bit cleared, and the cells that the request excluded are readmitted. -/
def portOnline (s : State) (n : Nat) : State :=
  if s.op = 3 then s.svcDenied
  else
    let cells := mget [] s.ld.offCells n
    let s := ((portEnable s n).unflagBit CFG_OFF_STAT n).unflagBit CFG_OFF_PEND n
    let ld := { s.ld with offs := s.ld.offs.filter (fun o => o.port != n), offCells := mdel s.ld.offCells n }
    ({ s with ld := ld }).each cells fun s g =>
      s.setSel g { s.selRec g with drain := false, forTest := false, readmit := true }

/-- OFFLINE_WITHDRAW (R423): 1,000 ticks ungranted. -/
def offlineWithdraw (s : State) (n : Nat) : State :=
  if s.ld.offs.any fun o => o.port == n && !o.grant && decide (o.tick + 1000 ≤ s.now) then
    let ld := { s.ld with offs := s.ld.offs.filter fun o => o.port != n }
    ({ s.unflagBit CFG_OFF_PEND n with ld := ld }).svcDenied
  else s

/-- A write of `CFG_OFFLINE`. -/
def offlineWrite (s : State) (val : Nat) : State :=
  if tbit val 5 then portOnline s (val % 32) else portOffline s (val % 32)

def execPortOffline (_m : Master) (port : Fin 32) (s : State) : Host.Outcome State Fault Refusal :=
  .next (portOffline s port)
def execPortOnline (_m : Master) (port : Fin 32) (s : State) : Host.Outcome State Fault Refusal :=
  .next (portOnline s port)
def execOfflineWithdraw (port : Fin 32) (s : State) : Host.Outcome State Fault Refusal :=
  .next (offlineWithdraw s port)

/-! ### Requested function resets (R425) -/

/-- The reset of a function may be requested in the present state (R425). -/
def State.fresetAllowed (s : State) (fn idx : Nat) : Bool :=
  let inRange := match fn with
    | 1 => true
    | 3 => decide (idx < 4)
    | 4 => decide (idx < 4)
    | 5 => decide (idx < 2)
    | _ => decide (1 ≤ fn ∧ fn ≤ 15)
  let running := match fn with
    | 1 => s.portFree idx
    | 3 => decide (2 ≤ idx) || s.portState (36 + (1 - idx)) == 4
    | 9 => s.role != 1
    | _ => decide (4 ≤ fn ∧ fn ≤ 8)
  inRange && (if s.op < 4 then fn == 8 else if s.locked then running else true)

/-- Whether the reset of a function sets the latched block first (R328). -/
def escalated (fn : Nat) : Bool := decide (11 ≤ fn ∧ fn ≤ 15)

/-- Functions with instances (R425). -/
def indexed (fn : Nat) : Bool := fn == 1 || fn == 3 || fn == 4 || fn == 5

/-- A write of `CFG_FRESET` (R425). -/
def fresetWrite (s : State) (val : Nat) : State :=
  let fn := wbits val CFG_FRESET_TARGET
  let idx := wbits val CFG_FRESET_INDEX
  if wbits val CFG_FRESET_KEY ≠ 0x9E1D then s.blockSend 0xC0070 0x03
  else if s.fresetAllowed fn idx then s.fresetRequest fn (if indexed fn then idx else 0) 0 (escalated fn)
  else s.svcDenied

end Sys2Proof.Machine
end

