-- ==== Sys2Proof/Machine/Reset.lean ====
section
/-! DEFINITION. Chip reset and what survives it (R11, R343, R480, R496), supplies and temperature (R477 to R481, R491,
R494), the clock monitors (R57 to R59, R242), the error pins' clear (R329) and the request of a load (R418). -/
namespace Sys2Proof.Machine
open Sys2Proof

/-! ### Caver's regions -/

/-- Byte address of Caver's region i: the order of R446, the key store last (it has no address; its words read as
0xFFFF_0000 + offset in `MEM_CAVER_FADDR`). -/
def regionAddr (i : Nat) : Nat :=
  if i < 2048 then 0x10000000 + 2048 * i
  else if i < 14336 then 0x20000000 + 2048 * (i - 2048)
  else if i < 14848 then 0x30000000 + 2048 * (i - 14336)
  else if i < 15104 then 0x38000000 + 2048 * (i - 14848)
  else if i < 15136 then 0x3C000000 + 2048 * (i - 15104)
  else if i < 15264 then 0x3D000000 + 2048 * (i - 15136)
  else 0xFFFF0000 + 2048 * (i - 15264)

/-- The region is acquisition memory; the region is key store. -/
def regionAcq (i : Nat) : Bool := decide (2048 ≤ i ∧ i < 14336)
def regionKey (i : Nat) : Bool := decide (15264 ≤ i)

/-! ### Chip reset -/

/-- n blocks of 512 bytes take free values. -/
def State.memFree (s : State) : Nat → Nat → State
  | 0, _ => s
  | n + 1, a =>
    let (v, s) := s.draw 4096
    (s.wr a 512 v).memFree n (a + 512)

/-- A reset in Caver's test leaves the region undefined, but acquisition memory (R461, R343). -/
def State.caverLost (s : State) (c : Option CaverRun) : State :=
  match c with
  | some c => if regionAcq c.region then s else s.memFree 4 (regionAddr c.region)
  | none => s

/-- A reset during PROGRAM or ERASE leaves what was being written undefined (R426). -/
def State.flashLost (s : State) : State :=
  match s.ld.cmd with
  | some c =>
    if c.op = 2 then s.flashFree 1 c.addr c.len
    else if c.op = 3 then s.flashFree 256 (c.addr / 65536 * 65536) 256
    else s
  | none => s

/-- The fields of the always-on domain (R496). -/
def aonFlds : List Fld :=
  [CLK_MON_LOSS_CORE, CLK_MON_LOSS_FAB, CLK_MON_LOSS_LTX, CLK_MON_LOSS_TIME, CLK_MON_LOSS_STN, CLK_MON_LOSS_HOST,
   CLK_MON_LOSS_AON, CLK_MON_FREQ_ERR, CLK_PWR_EXC, CLK_TEMP_TRIP_SEEN, FLT_CRESET_CAUSE_SRC, FLT_CRESET_CAUSE_KIND,
   FLT_CRESET_CAUSE_VALID, CFG_CTRL_NEXT]

/-- The fields that show the OTP (R373): a fuse once blown stays blown. -/
def otpFlds : List Fld := [SEC_OWN_PROG, SEC_OWN_REVOKED, SEC_OWN_USE, SEC_STAT_ARB, SEC_STAT_DBG_POLICY]

/-- The key of a field in `State.regs`. -/
def Fld.key (f : Fld) : Nat := 32 * f.addr + f.lo

/-- The register contents of a list of fields, all others at reset. -/
def keepFlds (l : List Fld) (regs : NMap Nat) : NMap Nat := regs.filter fun p => (l.map Fld.key).contains p.1

/-- MRAM keeps its contents without power. -/
def inMram (a : Nat) : Bool := decide (0x40000000 ≤ a ∧ a < 0x40400000)

/-- Memories that a chip reset does not clear: MRAM, acquisition memory (R343) and the fault log. -/
def keptAddr (a : Nat) : Bool :=
  inMram a || decide (0x20000000 ≤ a ∧ a < 0x21800000) || decide (0x3D000000 ≤ a ∧ a < 0x3D040000)

/-- The memory with only the addresses that a predicate keeps. -/
def Memory.keep (m : Memory) (p : Nat → Bool) : Memory :=
  { bytes := m.bytes.filter fun c => p c.1, err := m.err.filter fun c => p c.1 }

/-- The state after a reset: the other devices, the pins, the flash, OTP and MRAM stand; `flds` and the addresses of
`kept` keep their content; all else is at reset, with the reset asserted. -/
def State.resetTo (s : State) (flds : List Fld) (kept : Nat → Bool) (elec : Elec) : State :=
  { regs := keepFlds flds s.regs, mem := s.mem.keep kept,
    ctl := { lost := s.ctl.lost, dead := s.ctl.dead, clocked := s.ctl.clocked },
    lanes := s.lanes.filterMap fun p => if p.2.losPin then some (p.1, { losPin := true }) else none,
    hubs := s.hubs, cells := s.cells, concs := s.concs, prot := { pins := s.prot.pins },
    red := { unitSel := s.red.unitSel }, sec := { roots := s.sec.roots },
    ld := { flash := s.ld.flash }, dbg := { ir := s.dbg.ir, bsr := s.dbg.bsr, tdo := s.dbg.tdo }, elec := elec,
    fresh := s.fresh, pending := s.pending }

/-- A chip reset (R11, R36, R343, R496): RESET with a cause. The reset stays asserted until RESET_RELEASE. Ticks that run free
go on so (R59, R60). -/
def State.chipReset (s : State) (cause : Nat) : State :=
  let test := s.mem.caver
  let s := s.flashLost.arbLost
  let elec : Elec := { low := s.elec.low, high := s.elec.high, below := s.elec.below, hot := s.elec.hot, porst := s.elec.porst }
  let t := (s.resetTo (aonFlds ++ otpFlds) keptAddr elec).setFld CLK_STATE_CAUSE cause
  (t.setFld CLK_MON_TIME_FREERUN (b2n s.timeLost)).caverLost test

/-- PORST (R480): PORST_N has been low for 1 µs, which resets the chip and holds the reset, or is high again. -/
def porstPin (s : State) (low : Bool) : State :=
  if low then { s with elec := { s.elec with porst := true } }.chipReset 0
  else { s with elec := { s.elec with porst := false } }

def execChipReset (s : State) : Host.Outcome State Fault Refusal := .next (s.chipReset 0)
def execPorst (low : Bool) (s : State) : Host.Outcome State Fault Refusal := .next (porstPin s low)

/-- POWER_ON (R479): supplies rise; nothing but flash, OTP, MRAM and the rest of the station keeps its content. The TAP
selects IDCODE (PRESUMED from IEEE 1149.1, log entry 46). -/
def powerOn (s : State) : State := { s.flashLost.arbLost.resetTo otpFlds inMram {} with dbg := {}, ctl := {} }

def execPowerOn (s : State) : Host.Outcome State Fault Refusal := .next (powerOn s)

/-- The regions that hardware sets for masters 3 to 8 (R453): master, and first and last block of 256 bytes of each memory that its
chapter names, read and written (DEDUCED, log entry 48). -/
def hardRegions : List (Nat × List (Nat × Nat)) :=
  let state := (0x100000, 0x103FFF)
  let mbox := (0x3C0000, 0x3C00FF)
  let seqm := (0x380000, 0x3807FF)
  [(3, [state, mbox]), (4, [state, (0x200000, 0x217FFF)]), (5, [state, (0x400000, 0x40000F), (0x402000, 0x403FFF)]),
   (6, [mbox, seqm, (0x401000, 0x4010FF)]), (7, [(0, 0xFFFFFF)]),
   (8, [state, seqm, (0x300000, 0x300FFF), (0x400010, 0x40001F)])]

/-- Hardware sets the regions of masters 3 to 8 (R453). -/
def State.setRegions (s : State) : State :=
  hardRegions.foldl (fun s p => p.2.zipIdx.foldl (fun s q =>
    ((((s.setFld (MEM_BASE_BASE p.1 q.2) q.1.1).setFld (MEM_LIMIT_LIMIT p.1 q.2) q.1.2).flag (MEM_CFG_EN p.1 q.2)).flag
      (MEM_CFG_R p.1 q.2)).flag (MEM_CFG_W p.1 q.2)) s) s

/-- Rails that hold the reset: every one but VPP_OTP that is out of its range (R480). -/
def State.railsGood (s : State) : Bool :=
  (s.elec.low ++ s.elec.high ++ s.elec.below).all fun r => r == 11 || decide (12 ≤ r)

/-- What holds the reset (R480, R491): a rail out of range, PORST_N low, the oscillator of CK_AON not running, or heat. -/
def State.resetHeld (s : State) : Bool := !s.railsGood || s.elec.porst || s.ctl.lost.contains 0x016 || s.elec.hot

/-- The OTP is read (R373). -/
def State.otpRead (s : State) : State :=
  let s := s.setFld SEC_STAT_BLANK (b2n (s.fld SEC_OWN_PROG = 0))
  let s := s.setFld SEC_STAT_ARB (max (s.fld SEC_STAT_ARB) Config.otpArb.val)
  s.setFld SEC_STAT_DBG_POLICY (max (s.fld SEC_STAT_DBG_POLICY) Config.otpPolicy.val)

/-- RESET_RELEASE (R480): 20.0 ms after the last of its conditions. XSPI_RST_N is pulsed (R404), UNIT_SEL sampled (R282),
RED_EPOCH loaded from MRAM (R288), the OTP read (R373), hardware sets its regions (R453), the entropy source starts, and the
identity blob is unwrapped (R375). -/
def resetRelease (s : State) (idBlobOk : Bool) : State :=
  if !s.elec.inReset ∨ s.resetHeld then s
  else
    let s := { s with elec := { s.elec with inReset := false }, ld := { s.ld with rstPulse := true } }
    let s := (s.setFld CLK_PWR_GOOD 0x7FF).setFld RED_ID_UNIT (b2n s.red.unitSel)
    let (epoch, s) := s.storedEpoch
    let s := ((s.setFld RED_EPOCH_EPOCH epoch).otpRead).setRegions
    ((s.flag SEC_STAT_ENT_OK).pinStat).identityUnwrap idBlobOk

def execResetRelease (idBlobOk : Bool) (s : State) : Host.Outcome State Fault Refusal := .next (resetRelease s idBlobOk)

/-- CRESET (R333): the chip reset of a CRESET reaction, once its time has come. -/
def creset (s : State) : State :=
  match s.sump.creset with
  | some (_, t) => if t ≤ s.now then s.chipReset 7 else s
  | none => s

/-- BLOCK_STREAM_CRESET (R58): after 10 µs of block stream. -/
def blockStreamCreset (s : State) : State := if s.ctl.stream then s.chipReset 7 else s

def execCreset (s : State) : Host.Outcome State Fault Refusal := .next (creset s)
def execBlockStreamCreset (s : State) : Host.Outcome State Fault Refusal := .next (blockStreamCreset s)

/-! ### Supplies (R477, R478) -/

/-- A monitored rail crosses a threshold: its EXC bit and its GOOD bit, and its message unless the chip has been held in reset. -/
def State.railEvent (s : State) (tell : Bool) (rail kind : Nat) : State :=
  ((s.flagBit CLK_PWR_EXC rail).unflagBit CLK_PWR_GOOD rail).sendIf tell (0x020 + rail) kind 0

/-- SUPPLY_EXCURSION (R478): one message for each excursion; below −10 % the chip is reset. The message of a rail that falls
through both thresholds at once outlasts that reset (R494). -/
def supplyExcursion (s : State) (rail : Nat) (kind : RailKind) : State :=
  let watched := decide (rail < 11) || (rail == 11 && s.otpRuns)
  let tell := !s.elec.inReset
  match (decide (12 ≤ rail)), kind with
  | true, _ => s
  | _, .high =>
    let first := !s.elec.high.contains rail
    let s := { s with elec := { s.elec with high := joinN s.elec.high rail } }
    s.when (first && watched) (·.railEvent tell rail 0x16)
  | _, .low =>
    let first := !s.elec.low.contains rail
    let s := { s with elec := { s.elec with low := joinN s.elec.low rail } }
    s.when (first && watched) (·.railEvent tell rail 0x15)
  | _, .below10 =>
    let first := !s.elec.low.contains rail
    let s := { s with elec := { s.elec with low := joinN s.elec.low rail, below := joinN s.elec.below rail } }
    let s := if rail = 11 then s else s.chipReset 0
    s.when (first && watched) (·.railEvent tell rail 0x15)

/-- SUPPLY_RECOVERY (R478): the excursion ends; an epoch whose store waited is written (R481). -/
def supplyRecovery (s : State) (rail : Nat) : State :=
  let out := fun l => l.filter (· != rail)
  let e := s.elec
  let s := { s with elec := { e with low := out e.low, high := out e.high, below := out e.below } }
  let s := if s.elec.inReset ∨ 11 ≤ rail then s else s.flagBit CLK_PWR_GOOD rail
  if s.elec.inReset then s else s.storeEpoch

def execSupplyExcursion (rail : Fin 16) (kind : RailKind) (s : State) : Host.Outcome State Fault Refusal :=
  .next (supplyExcursion s rail kind)
def execSupplyRecovery (rail : Fin 16) (s : State) : Host.Outcome State Fault Refusal := .next (supplyRecovery s rail)

/-! ### Output pins (R463, R469, R479, R494) -/

/-- What an output pin shows: a level that the device drives, or nothing. -/
inductive Pin where
  | driven (level : Bool)
  | undriven
deriving DecidableEq, Repr

/-- The core's level on a pin, unless boundary scan holds the pins: then the cell of the boundary register that the BSDL
description gives the pin, and nothing under HIGHZ (R469). -/
def State.scanPin (s : State) (cell : Nat) (core : Bool) : Pin :=
  if !s.dbg.scan then .driven core
  else if s.dbg.ir = 5 then .undriven
  else .driven (s.dbg.bsr.getD (Config.bsdlCell cell) false)

/-- A pin of the 3.3 V bank: without VDD_AON or VDD_IO33 it is not driven (R479, R494). -/
def State.bankPin (s : State) (cell : Nat) (core : Bool) : Pin :=
  if s.elec.below.contains 3 || s.elec.below.contains 10 then .undriven else s.scanPin cell core

/-- BLOCK_OUT, ERR_A and INT_N as the pins show them, active or asserted when true. -/
def State.blockOutPin (s : State) : Pin := s.bankPin 0 s.prot.blockOut
def State.errAPin (s : State) : Pin := s.bankPin 1 s.elec.errA
def State.intPin (s : State) : Pin := s.scanPin 3 s.elec.intN

/-- ERR_B reads as asserted where it is released (R479, R494). -/
def State.errBAsserted (s : State) : Bool :=
  match s.bankPin 2 s.elec.errB with
  | .driven level => level
  | .undriven => true

/-- What a lane's transmitter sends: the core's stream, the block stream, nothing (electrical idle), or what boundary scan
asks for: a level, pulses or trains of IEEE 1149.6 (R58, R468, R469, R479). -/
inductive LaneDrive where
  | core | blocks | idle | level | pulse | train
deriving DecidableEq, Repr

def State.laneDrive (s : State) (l : Nat) : LaneDrive :=
  if s.elec.below.contains 3 then .idle
  else if s.dbg.scan then (match s.dbg.ir with | 5 => .idle | 8 => .pulse | 9 => .train | _ => .level)
  else if s.ctl.stream ∧ (l < 32 ∨ 36 ≤ l) then .blocks
  else if s.portState l = 0 then .idle
  else .core

/-! ### Temperature (R491) -/

/-- TEMP_READING: `code` is °C + 40. -/
def tempReading (s : State) (code : Nat) : State :=
  if s.elec.inReset then
    { s with elec := { s.elec with hot := s.elec.hot && decide (140 ≤ code) || decide (162 ≤ code) } }
  else
    let s := (s.setFld CLK_TEMP_NOW code).setFld CLK_TEMP_MAX (max (s.fld CLK_TEMP_MAX) code)
    let hi := decide (s.fld CLK_TEMP_HI ≤ code)
    let s := s.sendIf (hi && !s.elec.tempHi) 0x030 0x17 0
    let s := s.when hi (·.flag CLK_TEMP_HI_SEEN)
    let s := { s with elec := { s.elec with tempHi := hi } }
    if 162 ≤ code then
      let s := (s.flag CLK_TEMP_TRIP_SEEN).chipReset 0
      { s with elec := { s.elec with hot := true } }
    else s

/-- TEMP_MAX_CLEAR: MAX becomes NOW. -/
def tempMaxClear (s : State) : State := s.setFld CLK_TEMP_MAX (s.fld CLK_TEMP_NOW)

def execTempReading (code : BitVec 8) (s : State) : Host.Outcome State Fault Refusal := .next (tempReading s code.toNat)
def execTempMaxClear (_m : Master) (s : State) : Host.Outcome State Fault Refusal := .next (tempMaxClear s)

/-! ### Clock monitors (R57, R58, R59) -/

/-- The always-on assertion of the error pins (R329): ERR_B, and both on loss of CK_AON. -/
def State.aonAssert (s : State) (both : Bool) : State :=
  ({ s with sump := { s.sump with aonA := s.sump.aonA || both, aonB := true } }).driveErr

/-- The latched block on loss of a clock (R228 cause 5, R242 condition 5). -/
def State.clockBlock (s : State) (src : Nat) : State :=
  (s.blockCause .clock).joinClk src

/-- Loss of CK_CORE (R58): the block stream on CL and ML ports, no frames, BLOCK_OUT, until a reset. -/
def State.coreLost (s : State) : State :=
  let s := { s.flag CLK_MON_LOSS_CORE with ctl := { s.ctl with stream := true } }
  ((s.commitBlockMarkers .clock).driveBlockOut).aonAssert false

/-- The fixed reaction to the loss of clock c: 0 CORE, 1 FAB, 2 LTX, 3 TIME, 4 STN, 5 HOST, 6 AON. -/
def State.clockReact (s : State) (c : Nat) : State :=
  let s := { s with ctl := { s.ctl with lost := joinN s.ctl.lost (0x010 + c) } }
  match c with
  | 0 => s.coreLost
  | 1 => (s.clockBlock 0x011).aonAssert false
  | 2 => s.clockBlock 0x012
  | 3 => s.ckTimeLost
  | 4 => s.each (upto 4) fun s p => linkDown s p false
  | 5 => s.setFld HP_STAT_OPEN 0
  | _ => (s.clockBlock 0x016).aonAssert true

/-- The sticky loss flag of a clock. -/
def lossFld (c : Nat) : Fld :=
  match c with
  | 0 => CLK_MON_LOSS_CORE | 1 => CLK_MON_LOSS_FAB | 2 => CLK_MON_LOSS_LTX | 3 => CLK_MON_LOSS_TIME
  | 4 => CLK_MON_LOSS_STN | 5 => CLK_MON_LOSS_HOST | _ => CLK_MON_LOSS_AON

/-- The lock flag of the PLL that makes a clock, none for CK_HOST and CK_AON. -/
def pllFld (c : Nat) : Option Fld :=
  match c with
  | 0 => some CLK_MON_SYS_LOCK | 1 => some CLK_MON_SYS_LOCK | 2 => some CLK_MON_LANE_LOCK
  | 3 => some CLK_MON_TIME_LOCK | 4 => some CLK_MON_STN_LOCK | _ => none

/-- The clocks that are lost where monitor `mon` flags clock c: with its PLL's lock every clock that the PLL makes (R55). -/
def clocksOf (mon c : Nat) : List Nat := if mon = 8 ∧ c ≤ 1 then [0, 1] else [c]

/-- CLOCK_LOSS (R57): monitor `mon` sees no edge (0 to 6, of its own clock), a frequency error (7) or a lost lock (8) of
clock c, which a PLL makes. CK_HOST is watched while the host port is open. -/
def clockLoss (s : State) (mon c : Nat) : State :=
  let c := if mon < 7 then mon else c
  let due := (clocksOf mon c).filter fun k => !s.ctl.lost.contains (0x010 + k)
  if s.elec.inReset ∨ (mon < 7 ∧ s.ctl.dead.contains (0x010 + c)) ∨ (c = 5 ∧ !s.bit HP_STAT_OPEN) ∨ (7 ≤ mon ∧ (pllFld c).isNone)
  then s
  else
    let s := if mon < 7 then { s.flag (lossFld c) with ctl := { s.ctl with dead := joinN s.ctl.dead (0x010 + c) } } else if mon = 7 then s.flag CLK_MON_FREQ_ERR
      else match pllFld c with
        | some f => s.setFld f 0
        | none => s
    let s := s.send (0x010 + mon) (if mon < 7 then 0x11 else if mon = 7 then 0x12 else 0x13) 0
    due.foldl State.clockReact s

/-- CLOCK_RETURN (R242, R329): the clock runs again and its PLL has relocked. -/
def clockReturn (s : State) (c : Nat) : State :=
  if !s.ctl.lost.contains (0x010 + c) then s
  else
    let s := if c = 3 then s.ckTimeBack else s
    let s := { s with ctl := { s.ctl with lost := s.ctl.lost.filter (· != 0x010 + c),
                                          dead := s.ctl.dead.filter (· != 0x010 + c) } }
    let s := match pllFld c with
      | some f => if s.elec.inReset ∨ s.op = 0 then s else s.flag f
      | none => s
    if c = 5 then s.flag HP_STAT_OPEN else s

def execClockLoss (src : Fin 9) (clk : Fin 7) (s : State) : Host.Outcome State Fault Refusal := .next (clockLoss s src clk)
def execCkCoreLoss (s : State) : Host.Outcome State Fault Refusal := .next (clockLoss s 0 0)
def execCkTimeLoss (s : State) : Host.Outcome State Fault Refusal := .next (clockLoss s 3 3)
def execClockReturn (clk : Fin 7) (s : State) : Host.Outcome State Fault Refusal := .next (clockReturn s clk)
def execCkTimeReturn (s : State) : Host.Outcome State Fault Refusal := .next (clockReturn s 3)
def execErrClear (_m : Master) (s : State) : Host.Outcome State Fault Refusal := .next (errClear s)

/-! ### Request of a load (R418) -/

/-- A write of `CFG_LOAD` (R418). DESIGN CHOICE (log 100): in HOLD_FOR_HOST the load starts at once, as R418 says, though
R36 lists it among the transitions made at a tick boundary. -/
def imageLoadRequest (s : State) (val : Nat) : State :=
  if wbits val CFG_LOAD_KEY ≠ 0x6C0D then s.blockSend 0xC0050 0x03
  else if wbits val CFG_LOAD_GO = 0 then s
  else if s.ld.cmd.isSome then s.svcDenied
  else if s.op = 3 then (s.enterState 1 0x02).readHeaders
  else if s.op = 4 ∨ s.op = 8 then s.chipReset 0
  else s.svcDenied

def execImageLoadRequest (_m : Master) (val : Word) (s : State) : Host.Outcome State Fault Refusal :=
  .next (imageLoadRequest s val.toNat)

end Sys2Proof.Machine
end

