-- ==== Sys2Proof/Machine/Debug.lean ====
section
/-! DEFINITION. The debug port: sessions (R384, R471), the TAP and boundary scan (R468, R469), and the halt of the
sequencer and of the tick pipeline (R472 to R474). -/
namespace Sys2Proof.Machine
open Sys2Proof

/-! ### Sessions (R384, R470, R471) -/

/-- The level at which the debug port stands: 2 under policy 0, 0 under policy 2, else the session's. -/
def State.dbgLevel (s : State) : Nat :=
  match s.fld SEC_STAT_DBG_POLICY with
  | 0 => 2
  | 1 => s.fld SEC_STAT_DBG_LEVEL
  | _ => 0

/-- A halted sequencer runs on: RESUME (R472). The instruction at which it stands is not stopped at again. -/
def State.seqResume (s : State) : State :=
  if s.seq.halt then ({ s.setFld DBG_SEQ_HALTED 0 with seq := { s.seq with halt := false, pass := true } }).showSeq else s

/-- A pipeline halt ends (R473). -/
def State.pipeResume (s : State) : State := (s.setFld DBG_PIPE_HALTED 0).setFld DBG_PIPE_LEFT 0

/-- A session ends (R384, R474): the sequencer resumes and a pipeline halt ends. -/
def State.sessionEnd (s : State) : State :=
  if s.fld SEC_STAT_DBG_LEVEL = 0 then s
  else (s.setFld SEC_STAT_DBG_LEVEL 0).seqResume.pipeResume

/-- A refused debug access (R470). -/
def State.debugRefused (s : State) : State := s.send 0x0F0 0x01 0

/-- A debug access that is allowed: the idle time of the session begins anew (R384). -/
def State.debugTouch (s : State) : State := { s with sec := { s.sec with dbgTick := s.now } }

/-- An access that needs no session, which policy 2 refuses too (R470). -/
def State.atPolicy (s : State) (f : State → State) : State :=
  if s.fld SEC_STAT_DBG_POLICY < 2 then f s.debugTouch else s.debugRefused

/-- Registers that need no session (R470): a write at the address of DBG_CHAL4 is one of `DBG_HALT_BLOCK` (log entry 132). -/
def sessionReg (a : Nat) (write : Bool) : Bool :=
  a == 0xF8000 || a == 0xF8004 || (decide (0xF8010 ≤ a ∧ a < 0xF8030) && !(write && a == 0xF8020))
    || decide (0xF9000 ≤ a ∧ a < 0xFA000)

/-- The table of R470. -/
def State.kdaAllowed (s : State) (a : Nat) (write : Bool) : Bool :=
  match s.fld SEC_STAT_DBG_POLICY with
  | 2 => false
  | 3 => false
  | _ => sessionReg a write || (s.dbgLevel == 1 && !write) || s.dbgLevel == 2

/-- A read of `DBG_CHAL0` draws a fresh challenge, which the key store holds (R376). -/
def challengeRead (s : State) : State :=
  let (v, s) := s.draw 256
  let s := (upto 8).foldl (fun s i => s.setFld (DBG_CHAL i) (v / 2 ^ (32 * i) % 2 ^ 32)) s
  let s := s.writeBytes (keyAddr 9) (leBytes 32 v)
  { s with mem := { s.mem with keyUe := s.mem.keyUe.filter (· != 9) }, sec := { s.sec with chal := true } }

/-- The authentication buffer (R471). -/
def State.authBytes (s : State) (o n : Nat) : List Byte := (upto n).map fun i => BitVec.ofNat 8 (mget 0 s.dbg.auth (o + i))

/-- The challenge in force as the unit reads it from the key store (R376, R384). -/
def State.challenge (s : State) : Option (List Byte) × State :=
  if s.sec.chal then s.keyFetch 9 (keyAddr 9) 32 else (none, s)

/-- The signature in the authentication buffer verifies for a level: under the key of a slot with DBG use, over the challenge in
force (R384). -/
def State.debugVerify (s : State) (lvl : Nat) : Bool × State :=
  let pk := s.authBytes 0 1793
  match s.ownerOf pk 1, s.challenge with
  | some _, (some c, s) =>
    s.verify pk (leBytes 32 (shake256 (leBytes 8 s.serial ++ c ++ leBytes 1 lvl) 256).toNat) (s.authBytes 1793 1280)
  | some _, (none, s) => (false, s)
  | none, _ => (false, s)

/-- A write of `DBG_AUTH` (R384, R471). Under policy 0 there is no session to open. -/
def debugAuth (s : State) (val : Nat) : State :=
  let lvl := wbits val DBG_AUTH_LVL
  if lvl = 0 ∨ lvl = 3 then s.blockSend 0xF8004 0x03
  else if wbits val DBG_AUTH_GO = 0 ∨ s.bit DBG_SESS_WAIT ∨ s.fld SEC_STAT_DBG_POLICY ≠ 1 then s
  else
    let (ok, s) := s.debugVerify lvl
    if ok then { s.setFld SEC_STAT_DBG_LEVEL lvl with sec := { s.sec with dbgTick := s.now } }
    else
      let s := ((s.flag DBG_SESS_FAIL).flag DBG_SESS_WAIT).count SEC_CNT_DENIED SEC_CNT_OVF 2 1
      { s.secTell 3 0x27 0 with sec := { s.sec with backAt := s.now } }

/-- DEBUG_SESSION_TIMEOUT: TO minutes without a debug access. -/
def debugTimeout (s : State) : State :=
  if s.sec.dbgTick + s.fld SEC_DBG_TO * 60000000 ≤ s.now then s.sessionEnd else s

/-- DEBUG_BACKOFF_END: 1 s after the failed attempt. -/
def backoffEnd (s : State) : State :=
  if s.sec.backAt + 1000000 ≤ s.now then s.setFld DBG_SESS_WAIT 0 else s

def execDebugAuth (_m : Master) (val : Word) (s : State) : Host.Outcome State Fault Refusal := 
  .next (s.atPolicy fun s => debugAuth s val.toNat)
def execChallengeRead (_m : Master) (s : State) : Host.Outcome State Fault Refusal := .next (s.atPolicy challengeRead)
def execDebugSessionTimeout (s : State) : Host.Outcome State Fault Refusal := .next (debugTimeout s)
def execDebugBackoffEnd (s : State) : Host.Outcome State Fault Refusal := .next (backoffEnd s)

/-! ### The TAP (R468, R469) -/

/-- Instructions under which the boundary register holds the pins. -/
def holdsPins (ir : Nat) : Bool := ir == 0 || ir == 4 || ir == 5 || ir == 8 || ir == 9

/-- Bits are shifted through a data register: what leaves it on TDO, bit by bit, and what it holds then. -/
def drShift (reg tdi : List Bool) : List Bool × List Bool := ((reg ++ tdi).take tdi.length, (reg ++ tdi).drop tdi.length)

/-- A DR scan under an instruction (R468): the boundary register, which has captured the pins, the 32 bits of IDCODE, or the one
bit of BYPASS. A scan of no bits changes nothing. -/
def drScan (s : State) (ir : Nat) (pins tdi : List Bool) : State :=
  if ir = 0 ∨ ir = 1 ∨ ir = 8 ∨ ir = 9 then
    let r := drShift pins tdi
    { s with dbg := { s.dbg with tdo := lsbNat r.1, bsr := r.2 } }
  else
    let reg := if ir = 2 then lsbBits 32 0xB9600A4D else [false]
    { s with dbg := { s.dbg with tdo := lsbNat (drShift reg tdi).1 } }

/-- A TAP instruction is loaded (R469). One that takes the pins sets the latched block with cause DEBUG, and no lane sends
markers; one that does not, loaded after one that does, resets the chip. -/
def tapLoad (s : State) (ir : Nat) : State :=
  let s := { s with dbg := { s.dbg with ir := ir, tdo := if ir = 2 then 0xB9600A4D else 0 } }
  if holdsPins ir then
    if s.dbg.scan then s else ({ s with dbg := { s.dbg with scan := true } }).blockCause .debug
  else if s.dbg.scan then s.chipReset 0
  else s

/-- TRST (R384, R469): the TAP resets, which selects IDCODE (PRESUMED from IEEE 1149.1, log entry 46). -/
def trst (s : State) : State :=
  let s := s.sessionEnd
  let s := { s with dbg := { s.dbg with kda := [], kdaReq := none } }
  tapLoad s 2

/-- An instruction is loaded and a DR scan follows, where it shifts any bits. -/
def tapScan (s : State) (ir : Nat) (pins tdi : List Bool) : State :=
  if tdi.isEmpty then tapLoad s ir else drScan (tapLoad s ir) ir pins tdi

def execExtest (pins tdi : List Bool) (s : State) : Host.Outcome State Fault Refusal := .next (tapScan s 0x00 pins tdi)
def execSamplePreload (pins tdi : List Bool) (s : State) : Host.Outcome State Fault Refusal :=
  .next (tapScan { s with dbg := { s.dbg with bsr := pins } } 0x01 pins tdi)
def execIdcode (tdi : List Bool) (s : State) : Host.Outcome State Fault Refusal := .next (tapScan s 0x02 [] tdi)
def execClamp (tdi : List Bool) (s : State) : Host.Outcome State Fault Refusal := .next (tapScan s 0x04 [] tdi)
def execHighz (tdi : List Bool) (s : State) : Host.Outcome State Fault Refusal := .next (tapScan s 0x05 [] tdi)
def execExtestPulse (pins tdi : List Bool) (s : State) : Host.Outcome State Fault Refusal := .next (tapScan s 0x08 pins tdi)
def execExtestTrain (pins tdi : List Bool) (s : State) : Host.Outcome State Fault Refusal := .next (tapScan s 0x09 pins tdi)
def execKda (s : State) : Host.Outcome State Fault Refusal := .next (tapLoad s 0x10)
def execBypass (_code : BitVec 8) (tdi : List Bool) (s : State) : Host.Outcome State Fault Refusal :=
  .next (tapScan s 0x1F [] tdi)
def execTrst (s : State) : Host.Outcome State Fault Refusal := .next (trst s)

/-! ### Halts (R472, R473) -/

/-- The sequencer halts at an instruction boundary (R472). -/
def State.seqHalt (s : State) : State :=
  if !s.seq.run ∨ s.seq.dead ∨ s.seq.halt then s
  else
    let s := ({ s.flag DBG_SEQ_HALTED with seq := { s.seq with halt := true } }).showSeq
    if s.bit DBG_HALT_BLOCK_EN then s.blockCause .debug else s

/-- A breakpoint whose address is that of the next instruction, and that is not being passed. -/
def State.breakHere (s : State) : Option Nat :=
  if s.seq.pass ∨ s.dbgLevel ≠ 2 then none
  else (upto 4).find? fun i => s.bit (DBG_BP_EN i) && s.fld (DBG_BP_ADDR i) == s.seq.pc / 4

/-- BREAKPOINT_HIT: an enabled breakpoint is reached before its instruction executes. -/
def breakpointHit (s : State) : State :=
  if !s.seq.run || s.seq.dead || s.seq.halt || s.seq.wait.isSome then s
  else match s.breakHere with
    | some i => ((s.flag DBG_SEQ_BP_HIT).setFld DBG_SEQ_BP i).seqHalt
    | none => s

/-- `DBG_PIPE.HALT` (R473): accepted only in BENCH. -/
def State.pipeHalt (s : State) : State :=
  if s.op = 8 ∧ !s.bit DBG_PIPE_HALTED then ((s.flag DBG_PIPE_HALTED).setFld DBG_PIPE_LEFT 0).blockCause .debug else s

/-- A write of `DBG_PIPE`: COUNT, then HALT, RESUME and STEP. -/
def dbgPipeWrite (s : State) (val : Nat) : State :=
  let s := s.regWrite .debug 0xF8100 val
  let s := if wbits val DBG_PIPE_HALT = 1 then s.pipeHalt else s
  let s := if wbits val DBG_PIPE_RESUME = 1 then s.pipeResume else s
  if wbits val DBG_PIPE_STEP = 1 ∧ s.bit DBG_PIPE_HALTED then s.setFld DBG_PIPE_LEFT (s.fld DBG_PIPE_COUNT) else s

/-- An access that needs level 2 (R470). -/
def State.atLevel2 (s : State) (f : State → State) : State := if s.dbgLevel = 2 then f s.debugTouch else s.debugRefused

def execSeqHalt (s : State) : Host.Outcome State Fault Refusal := .next (s.atLevel2 State.seqHalt)
def execSeqResume (s : State) : Host.Outcome State Fault Refusal := .next (s.atLevel2 State.seqResume)
def execBreakpointHit (s : State) : Host.Outcome State Fault Refusal := .next (breakpointHit s)
def execPipeHalt (s : State) : Host.Outcome State Fault Refusal :=
  .next (s.atLevel2 fun s => dbgPipeWrite s (1 + s.fld DBG_PIPE_COUNT * 256))
def execPipeResume (s : State) : Host.Outcome State Fault Refusal :=
  .next (s.atLevel2 fun s => dbgPipeWrite s (2 + s.fld DBG_PIPE_COUNT * 256))
def execPipeStep (count : Fin 256) (s : State) : Host.Outcome State Fault Refusal :=
  .next (s.atLevel2 fun s => dbgPipeWrite s (4 + count * 256))

end Sys2Proof.Machine
end

