-- ==== Sys2Proof/Machine/Freset.lean ====
section
/-! DEFINITION. Function resets (R11, R328, R425): each function's reset, and its completion. -/
namespace Sys2Proof.Machine
open Sys2Proof

/-- The field of a register key is a configuration field (RW or RWL), which a function reset keeps (R11). -/
def configKey (k : Nat) : Bool :=
  match regAt (k / 32) with
  | some r => r.flds.any fun f => f.lo == k % 32 && (f.acc == .rw || f.acc == .rwl)
  | none => false

/-- The status, counter and flag fields of a function return to their reset values (R11), but those at the addresses of
`kept`. -/
def State.resetStatus (s : State) (code : Nat) (kept : Nat → Bool) : State :=
  { s with regs := s.regs.filter fun p =>
      !(addrFunctions (p.1 / 32)).contains code || kept (p.1 / 32) || configKey p.1 }

/-- A function reset starts (R328): one that was not requested before is recorded with source 0, and an escalated one
sets the latched block first. -/
def State.fresetBegin (s : State) (fn idx : Nat) : State :=
  let s := s.fresetRequest fn idx 0 (escalated fn)
  { s with sump := { s.sump with fresetRun := joinN s.sump.fresetRun (64 * fn + idx) } }

/-- No address is kept. -/
def noKept (_ : Nat) : Bool := false

/-- The line part of a port, beside the registers of its frames. -/
def State.portFreset (s : State) (fn idx l : Nat) : State :=
  lineReset ((s.fresetBegin fn idx).resetStatus (64 * fn + idx) noKept) l

/-- Function reset of the redundancy manager. The unit number and the epoch are kept; a unit that is not ACTIVE decides
its role again and is resynchronised (R305; DEDUCED, log entry 45). -/
def State.redFreset (s : State) : State :=
  let role := s.role
  let sub := s.sub
  let s := s.resetStatus (64 * 9) fun a => a == 0x80000 || a == 0x8000C
  let r := s.red
  let s := { s with red := { unitSel := r.unitSel, hbOwn := r.hbOwn, hbSeen := r.hbSeen, hbAt := r.hbAt, queue := r.queue, now := r.now } }
  let s := (s.setFld RED_STAT_ROLE role).setFld RED_STAT_SUB sub
  if role = 1 ∨ s.op < 4 then s else s.pairEnter

/-- FRESET_X: the reset of a function (R328, R425). -/
def State.freset (s : State) (fn idx : Nat) : State :=
  match fn with
  | 1 => s.portFreset 1 idx idx
  | 2 => ((s.fresetBegin 2 0).resetStatus 128 noKept).snsFreset
  | 3 => s.portFreset 3 idx (36 + idx)
  | 4 => (s.fresetBegin 4 idx).stnFreset idx
  | 5 => (s.fresetBegin 5 idx).domFreset idx
  | 6 => (s.fresetBegin 6 0).acqFreset
  | 7 => (s.fresetBegin 7 0).nrgFreset
  | 8 => (s.fresetBegin 8 0).sessionEnd.secFreset
  | 9 => (s.fresetBegin 9 0).redFreset
  | 10 => (s.fresetBegin 10 0).seqFreset
  | 11 => ((s.fresetBegin 11 0).resetStatus (64 * 11) fun a => decide (0x40010 ≤ a ∧ a < 0x40028)).engFreset
  | 12 => ((s.fresetBegin 12 0).resetStatus (64 * 12) fun a => a == 0x50034).plnFreset
  | 13 => ((s.fresetBegin 13 0).resetStatus (64 * 13) noKept).selFreset
  | 14 => ((s.fresetBegin 14 0).resetStatus (64 * 14) noKept).cmpFreset
  | 15 => (s.fresetBegin 15 0).protFreset
  | _ => s.portFreset 16 idx (32 + idx)

/-- FRESET_DONE (R328): a function reset in progress completes. One that no command has performed, such as that of an SL port's
line, which has no command of its own, is performed here. -/
def fresetDone (s : State) (fn idx : Nat) : State :=
  match s.sump.fresets.find? fun p => p.1 == 64 * fn + idx with
  | none => s
  | some (code, src) =>
    let s := if s.sump.fresetRun.contains code then s else s.freset fn idx
    let s := { s with sump := { s.sump with fresets := s.sump.fresets.filter (fun p => p.1 != code),
                                            fresetRun := s.sump.fresetRun.filter (· != code) } }
    s.send 0x001 0x1A (src * 2 ^ 22)

def execFresetClPort (n : Fin 32) (s : State) : Host.Outcome State Fault Refusal := .next (s.freset 1 n)
def execFresetSensor (s : State) : Host.Outcome State Fault Refusal := .next (s.freset 2 0)
def execFresetMlPort (n : Fin 4) (s : State) : Host.Outcome State Fault Refusal := .next (s.freset 3 n)
def execFresetStationPort (n : Fin 4) (s : State) : Host.Outcome State Fault Refusal := .next (s.freset 4 n)
def execFresetTimeDomain (n : Fin 2) (s : State) : Host.Outcome State Fault Refusal := .next (s.freset 5 n)
def execFresetAcquisition (s : State) : Host.Outcome State Fault Refusal := .next (s.freset 6 0)
def execFresetEnergy (s : State) : Host.Outcome State Fault Refusal := .next (s.freset 7 0)
def execFresetSecurity (s : State) : Host.Outcome State Fault Refusal := .next (s.freset 8 0)
def execFresetRedundancy (s : State) : Host.Outcome State Fault Refusal := .next (s.freset 9 0)
def execFresetSequencer (s : State) : Host.Outcome State Fault Refusal := .next (s.freset 10 0)
def execFresetEngine (s : State) : Host.Outcome State Fault Refusal := .next (s.freset 11 0)
def execFresetPlanner (s : State) : Host.Outcome State Fault Refusal := .next (s.freset 12 0)
def execFresetSelection (s : State) : Host.Outcome State Fault Refusal := .next (s.freset 13 0)
def execFresetComposer (s : State) : Host.Outcome State Fault Refusal := .next (s.freset 14 0)
def execFresetProtection (s : State) : Host.Outcome State Fault Refusal := .next (s.freset 15 0)
def execFresetDone (fn : Fin 32) (idx : Fin 32) (s : State) : Host.Outcome State Fault Refusal :=
  .next (fresetDone s fn idx)

end Sys2Proof.Machine
end

