-- ==== Sys2Proof/Machine/Write.lean ====
section
/-! DEFINITION. Reads and writes of every register as a master makes them (R7 to R10, R14, R15, R32): latched sets,
counter clears, request registers, mirrored targets (R295). -/
namespace Sys2Proof.Machine
open Sys2Proof

/-! ### Reads (R14) -/

/-- Registers that a read of an address latches for the reading master. -/
def latchesOf (a : Nat) : List Nat :=
  if a = 0x20 then [0x24]
  else if a = 0x20010 then [0x20014, 0x20018]
  else if a = 0xA0040 ∨ a = 0xA0050 then [a + 4, a + 8, a + 12]
  else if a = 0xB0004 then [0xB0008]
  else if 0x91000 ≤ a ∧ a < 0x91400 ∧ a % 256 = 0x34 then [a + 4]
  else match laneOf a with
    | some l => if a = lineBase l + 0x60 then [a + 4] else []
    | none => []

/-- The register that latches an address, none for one that is never latched. -/
def latchedBy (a : Nat) : Option Nat :=
  if a = 0x24 then some 0x20
  else if a = 0x20014 ∨ a = 0x20018 then some 0x20010
  else if (0xA0044 ≤ a ∧ a < 0xA0050) ∨ (0xA0054 ≤ a ∧ a < 0xA0060) then some (a / 16 * 16)
  else if a = 0xB0008 then some 0xB0004
  else if 0x91000 ≤ a ∧ a < 0x91400 ∧ a % 256 = 0x38 then some (a - 4)
  else match laneOf a with
    | some l => if a = lineBase l + 0x64 then some (a - 4) else none
    | none => none

/-- The live content of a register. -/
def State.liveReg (s : State) (a : Nat) : Nat × State :=
  if a = 0x20 then (s.now % 2 ^ 32, s)
  else if a = 0x24 then (s.now / 2 ^ 32 % 2 ^ 32, s)
  else if a = 0x10004 then (s.regRead a + b2n s.logFull * 2, s)
  else if a = 0x20010 then (let (t, s) := s.ctRead; (t / 2 ^ 32 % 2 ^ 32, s))
  else if a = 0x20014 then (let (t, s) := s.ctRead; (t / 2 ^ 64 % 2 ^ 32, s))
  else if a = 0x20018 then (let (t, s) := s.ctRead; (t % 2 ^ 32, s))
  else if 0x41000 ≤ a ∧ a < 0x41C00 ∧ a % 16 = 12 then (s.supWord ((a - 0x41000) / 16) % 2 ^ 22, s)
  else if 0x41000 ≤ a ∧ a < 0x41C00 ∧ a % 16 = 8 then
    let c := (a - 0x41000) / 16
    (s.regRead a % 2 ^ 14 + b2n (tbit (s.supWord c) 20) * 2 ^ 14, s)
  else if a = 0xF8000 then (s.dbgLevel + s.regRead a / 4 * 4, s)
  else if 0xF8084 ≤ a ∧ a < 0xF80C0 then
    (if s.seq.halt then (s.sx ((a - 0xF8080) / 4), s) else s.draw 32)
  else if 0xF9000 ≤ a ∧ a < 0xFA000 then
    (leNat (s.authBytes (a - 0xF9000) 4), s)
  else (s.regRead a, s)

/-- The latched values of a list of registers stored for a master; control time, in 2^-32 ns, is read once for its whole set
(R14, R262). -/
def State.latchRegs (s : State) (m : Master) : List Nat → Nat → State
  | [], _ => s
  | a :: t, ct =>
    let (v, s) := if a = 0x20014 then (ct / 2 ^ 64 % 2 ^ 32, s) else if a = 0x20018 then (ct % 2 ^ 32, s) else s.liveReg a
    State.latchRegs { s with latches := mput s.latches (16 * a + Master.num m) v } m t ct

/-- A read of a register by a master: its value, and the state with its latches (R14) and a fresh challenge (R471). -/
def State.readReg (s : State) (m : Master) (a : Nat) : Nat × State :=
  match (latchedBy a).bind fun _ => s.latches.find? fun p => p.1 == 16 * a + Master.num m with
  | some p => (p.2, s)
  | none =>
    if a = 0x20010 then
      let (t, s) := s.ctRead
      (t / 2 ^ 32 % 2 ^ 32, s.latchRegs m (latchesOf a) t)
    else
      let s := if a = 0xF8010 then challengeRead s else s
      let (v, s) := s.liveReg a
      (v, s.latchRegs m (latchesOf a) 0)

/-! ### Counter clears (R15) -/

/-- The counters of a clear register in the order of its bits, and their overflow register. -/
def clearTable (a : Nat) : Option (List (List Fld) × Fld) :=
  if a = 0x10050 then some ([[FLT_CNT_EVT], [FLT_CNT_MERGED], [FLT_CNT_LOGLOST]], FLT_CNT_OVF)
  else if a = 0x20310 then some ([[TIM_CNT_STEP], [TIM_CNT_SWITCH], [TIM_CNT_HO]], TIM_CNT_OVF)
  else if a = 0x3003C then some ([[PRT_CNT_SET], [PRT_CNT_RELREJ]], PRT_CNT_OVF)
  else if a = 0x40054 then some ([[CE_CNT_STALL], [CE_CNT_UE]], CE_CNT_OVF)
  else if a = 0x50054 then
    some ((upto 30).map (fun k =>
      let n := k / 5
      [match k % 5 with
        | 0 => PLN_ARM_CNT_LIM n | 1 => PLN_ARM_CNT_DVLIM n | 2 => PLN_ARM_CNT_EDGE n | 3 => PLN_ARM_CNT_HELD n
        | _ => PLN_ARM_CNT_ROT n]), PLN_CNT_OVF)
  else if a = 0x60054 then
    some ((upto 18).map (fun k =>
      let n := k / 3
      [match k % 3 with
        | 0 => SEL_ARM_CNT_SWAPS n | 1 => SEL_ARM_CNT_QLIM n | _ => SEL_ARM_CNT_SHORT n]), SEL_CNT_OVF)
  else if a = 0x80060 then
    some ([[RED_CNT_DMIS], [RED_CNT_DMISS], [RED_CNT_GAPP], [RED_CNT_TAKE], [RED_CNT_DBL]], RED_CNT_OVF)
  else if a = 0xA0090 then some ([[NRG_CNT_SUBST], [NRG_CNT_GAP], [NRG_CNT_JBAD]], NRG_CNT_OVF)
  else if a = 0xB0090 then some ([[SEC_CNT_SIGN], [SEC_CNT_VERIFY], [SEC_CNT_DENIED]], SEC_CNT_OVF)
  else if a = 0xD0090 then some ([[SEQ_CNT_LS], [SEQ_CNT_NMI], [SEQ_CNT_ILL]], SEQ_CNT_OVF)
  else if a = 0xE0060 then
    some ([[MEM_CNT_CE], [MEM_CNT_UE], [MEM_CNT_REGION], [MEM_CNT_MBOX], [MEM_CNT_CAVER]], MEM_CNT_OVF)
  else if 0x120120 ≤ a ∧ a < 0x120220 ∧ a % 64 = 0x20 then
    let m := (a - 0x120120) / 64
    some ([[SNS_P_CNT_CRC m], [SNS_P_CNT_MISS m], [SNS_P_CNT_LATE m]], SNS_P_CNT_OVF m)
  else if 0x140000 ≤ a ∧ a % 16384 = 0x244 then
    let p := (a - 0x140000) / 16384
    some ((upto 10).map (fun i => [STN_CNT p i]), STN_CNT_OVF p)
  else match laneOf a with
    | some l =>
      if a = lineBase l + 0x80 then
        some ([[CL_CNT_LOS l], [CL_CNT_LOL l], [CL_CNT_MISS l], [CL_CNT_STUFF l], [CL_CNT_MFIX l], [CL_CNT_MBAD l],
          [CL_CNT_DEFER l], [CL_CNT_LB l], [CL_CNT_RXFRM_LO l, CL_CNT_RXFRM_HI l]], CL_CNT_OVF l)
      else if a = lineBase l + 0xF4 ∧ l < 32 then
        some ([[CL_FCNT_CRC l], [CL_FCNT_HFIX l], [CL_FCNT_HUE l], [CL_FCNT_WFIX l], [CL_FCNT_WUE l], [CL_FCNT_IDX l],
          [CL_FCNT_LATE l], [CL_FCNT_SEQ l], [CL_FCNT_NOREP l]], CL_FCNT_OVF l)
      else none
    | none => none

/-- Counter i of a list is cleared with bit i of its overflow register where bit i of the value is 1. -/
def State.clearCounters (s : State) (ovf : Fld) (val : Nat) : Nat → List (List Fld) → State
  | _, [] => s
  | i, c :: t =>
    let s := if tbit val i then (c.foldl (fun s f => s.setFld f 0) s).unflagBit ovf i else s
    State.clearCounters s ovf val (i + 1) t

/-- A write of a counter clear register (R15), with what else these registers clear: `CE_CNT_CLR.SLACK_CLR` (R213),
`CMP_STEST_CLR`, `FLT_SRCn_REC.CLR` and `STN_C0_LAT.CLR`. None where the address is no such register. -/
def State.clearWrite (s : State) (a val : Nat) : Option State :=
  match clearTable a with
  | some (l, ovf) =>
    let s := s.clearCounters ovf val 0 l
    some (if a = 0x40054 ∧ tbit val 2 then s.setFld CE_SLACK_MIN_SLACK 0x300 else s)
  | none =>
    if a = 0x70040 then
      some (if tbit val 0 then
        [CMP_STEST_CNT_PASS, CMP_STEST_CNT_FAIL, CMP_STEST_STAT_PASS_OVF, CMP_STEST_STAT_FAIL_OVF].foldl
          (fun s f => s.setFld f 0) s else s)
    else if 0x14000 ≤ a ∧ a < 0x18000 ∧ a % 16 = 12 then
      let n := (a - 0x14000) / 16
      some (if tbit val 31 then (s.setFld (FLT_SRC_REC_REC n) 0).setFld (FLT_SRC_STAT_REC_OVF n) 0 else s)
    else if 0x140000 ≤ a ∧ a % 16384 = 0x38 then
      some (if tbit val 31 then s.setFld (STN_C0_LAT_MAX ((a - 0x140000) / 16384)) 0 else s)
    else none

def execCounterClear (_m : Master) (addr : Word) (val : Word) (s : State) : Host.Outcome State Fault Refusal :=
  .next (if s.inFreset addr.toNat then s else (s.clearWrite addr.toNat val.toNat).getD s)

/-! ### Writes -/

/-- A write of `SEQ_EVT_SET` sets SW0 to SW15 (R434); during a function reset it has no effect (R497). -/
def eventSet (s : State) (val : Nat) : State :=
  if s.inFreset 0xD0014 then s else (bitsSet (val / 65536) 16).foldl (fun s i => s.seqEvent (16 + i)) s

/-- A write of `ACQ_Rr_CTRL`: MCLR, ARM, then STOP, which wins over a trigger and an arming of its tick (R354). -/
def recCtrlWrite (s : State) (r val : Nat) : State :=
  let s := if tbit val 2 then missedClear s r else s
  let s := if tbit val 0 then recorderArm s r else s
  if tbit val 1 then recorderStop s r else s

/-- A write of `ACQ_CTRL` (R353). -/
def acqCtrlWrite (s : State) (val : Nat) : State :=
  if tbit val 0 then (if s.bit ACQ_CTRL_RET then s else retentionEnter s) else retentionWake s

/-- A write of `CFG_FL_CMD` (R420): operation 0 is reserved. -/
def flCmdWrite (s : State) (val : Nat) : State :=
  let op := wbits val CFG_FL_CMD_OP
  if op = 0 then s.blockSend 0xC0060 0x03 else s.flashStart op val

/-- A write of `DBG_SEQ` without its STEP (R472). -/
def dbgSeqWrite (s : State) (val : Nat) : State :=
  let s := s.regWrite .debug 0xF8030 val
  let s := if tbit val 0 then s.seqHalt else s
  if tbit val 1 then s.seqResume else s

/-- A write of `SEL_EXCL_REQ`. -/
def exclReqWrite (s : State) (m : Master) (val : Nat) : State :=
  exclWrite s m (wbits val SEL_EXCL_REQ_CELL) (wbits val SEL_EXCL_REQ_ACT)

/-- The index of a mirrored planner register (R295, kind 5). -/
def plnIndex (a : Nat) : Option Nat :=
  if a = 0x50020 then some 0 else if a = 0x50024 then some 1 else if a = 0x50028 then some 2
  else if a = 0x5002C then some 3 else if a = 0x50030 then some 4 else if a = 0x50000 then some 5 else none

/-- Four bytes of the authentication buffer (R471). -/
def authWrite (s : State) (a val : Nat) : State :=
  let o := a - 0xF9000
  { s with dbg := { s.dbg with auth := (upto 4).foldl (fun m i => mset 0 m (o + i) (val / 256 ^ i % 256)) s.dbg.auth } }

/-- A write to a request register of the blocks below 0x80000; none where the address is no such register. -/
def State.requestLow (s : State) (m : Master) (a val : Nat) : Option State :=
  if a = 0x14 then some (stateRequest s val)
  else if a = 0x44 then
    let s := s.regWrite m a val
    some (if tbit val 26 then tempMaxClear s else s)
  else if a = 0x10014 then some (if tbit val 0 then errClear s else s)
  else if a = 0x3001C then some (relWrite s val)
  else if a = 0x30020 then some (forceWrite s val)
  else if a = 0x40080 then some (swapWrite s m val)
  else if 0x41000 ≤ a ∧ a < 0x41C00 ∧ a % 16 = 8 then
    let s := s.regWrite m a val
    let c := (a - 0x41000) / 16
    some (if tbit val 14 then primeRequest s m c else s)
  else if a = 0x60040 then some (exclReqWrite s m val)
  else if a = 0x70020 then
    some (auxWrite s m (wbits val CMP_AUX_REQ_CELL) (wbits val CMP_AUX_REQ_CODE) (wbits val CMP_AUX_REQ_DATA))
  else (plnIndex a).map fun k => s.mirrored m 5 (k * 2 ^ 32 + val) fun s => plnApply s k val

/-- A write to a request register of the blocks from 0x80000 on; none where the address is no such register. `DBG_HALT_BLOCK` shares
its address with DBG_CHAL4 and takes the writes (DESIGN CHOICE, log entry 132). -/
def State.requestHigh (s : State) (a val : Nat) : Option State :=
  if a = 0x8000C then some (if tbit val 24 then epochClear s else s)
  else if a = 0x8001C then some (doublesRequest s val)
  else if a = 0x90000 then some (acqCtrlWrite s val)
  else if a = 0x90008 then some (softTrigger s (val % 16))
  else if 0x91000 ≤ a ∧ a < 0x91400 ∧ a % 256 = 0x24 then some (recCtrlWrite s ((a - 0x91000) / 256) val)
  else if 0x91000 ≤ a ∧ a < 0x91400 ∧ a % 256 = 0x2C then some (segmentFree s ((a - 0x91000) / 256) (val % 16))
  else if a = 0xA006C then some (energyClear s val)
  else if a = 0xB0010 then some (if tbit val 16 then s.secSubmit (val % 65536) else s.secOffset (val % 65536))
  else if a = 0xC0050 then some (imageLoadRequest s val)
  else if a = 0xC0060 then some (flCmdWrite s val)
  else if a = 0xC0070 then some (fresetWrite s val)
  else if a = 0xC0078 then some (offlineWrite s val)
  else if a = 0xD0014 then some (eventSet s val)
  else if a = 0xF8004 then some (debugAuth s val)
  else if a = 0xF8020 then some (s.plainWrite .debug 0xF8021 val)
  else if a = 0xF8030 then some (dbgSeqWrite s val)
  else if 0xF8084 ≤ a ∧ a < 0xF80C0 then some (if s.seq.halt then s.setSx ((a - 0xF8080) / 4) val else s)
  else if a = 0xF8100 then some (dbgPipeWrite s val)
  else if 0xF9000 ≤ a ∧ a < 0xFA000 then some (authWrite s a val)
  else none

/-- A write of a register by a master, with all that the register does. -/
def State.writeReg (s : State) (m : Master) (a val : Nat) : State :=
  match (if s.inFreset a then none else s.clearWrite a val) with
  | some s => s
  | none =>
    match s.requestLow m a val with
    | some s => s
    | none =>
      match s.requestHigh a val with
      | some s => s
      | none => s.plainWrite m a val

def execEventSet (_m : Master) (val : Word) (s : State) : Host.Outcome State Fault Refusal := .next (eventSet s val.toNat)
def execExecOffsetWrite (m : Master) (val : Word) (s : State) : Host.Outcome State Fault Refusal :=
  .next (s.writeReg m 0x70010 val.toNat)
def execPortEnable (_m : Master) (lane : Fin 40) (s : State) : Host.Outcome State Fault Refusal := .next (portEnable s lane)
def execPortDisable (_m : Master) (lane : Fin 40) (s : State) : Host.Outcome State Fault Refusal := .next (portDisable s lane)
def execLoopbackSelect (_m : Master) (lane : Fin 40) (lb : Fin 4) (s : State) : Host.Outcome State Fault Refusal :=
  .next (loopbackSelect s lane lb)

end Sys2Proof.Machine
end

