-- ==== Sys2Proof/Machine/Fabric.lean ====
section
/-! DEFINITION. Accesses of the fabric masters (R6, R29 to R32, R206, R208, R353, R446, R449, R452 to R455, R495), the
write-back of corrected words (R452) and the background test (R457 to R461). -/
namespace Sys2Proof.Machine
open Sys2Proof

/-! ### The check of an access (R454, R455) -/

/-- Region r of a master covers n bytes from an address. -/
def State.regionCovers (s : State) (m r a n : Nat) : Bool :=
  s.bit (MEM_CFG_EN m r) && decide (s.fld (MEM_BASE_BASE m r) * 256 ≤ a)
    && decide (a + n ≤ s.fld (MEM_LIMIT_LIMIT m r) * 256 + 256)

/-- Some region of the master allows the access (R454): read, write with its read-modify-write, or fetch. A fetch from
outside sequencer memory is refused whatever the regions say. -/
def State.regionOk (s : State) (m : Master) (a n : Nat) (k : AccessKind) : Bool :=
  let inSeq := decide (0x38000000 ≤ a ∧ a + n ≤ 0x38080000)
  if k = .fetch ∧ !inSeq then false
  else (upto 16).any fun r => s.regionCovers (Master.num m) r a n && s.bit (match k with
    | .read => MEM_CFG_R (Master.num m) r | .write => MEM_CFG_W (Master.num m) r | .fetch => MEM_CFG_X (Master.num m) r)

/-- Writes that are refused whatever the regions say (R455). -/
def writeBarred (m : Master) (a : Nat) : Bool :=
  if 0x3D000000 ≤ a ∧ a < 0x3D040000 then true
  else if 0x40000000 ≤ a ∧ a < 0x40400000 then
    match m with
    | .cairn => !(decide (a < 0x40001000) || decide (0x40200000 ≤ a))
    | .security => !(decide (0x40100000 ≤ a ∧ a < 0x40110000))
    | .redundancy => !(decide (0x40001000 ≤ a ∧ a < 0x40002000))
    | _ => true
  else false

/-- A refusal of R454 or R455. -/
def State.regionRefused (s : State) (m : Master) (a : Nat) (wr : Bool) : State :=
  let s := (s.setFld MEM_REGION_ADDR a).setFld MEM_REGION_M_M (Master.num m)
  let s := (s.setFld MEM_REGION_M_WR (b2n wr)).count MEM_CNT_REGION MEM_CNT_OVF 2 1
  s.send 0x0F0 0x12 (a / 16 * 16 + Master.num m)

/-- An access that no part of the machine answers (R446, R449, R495): the message's detail is the byte address where R449
refuses the access, and 0 at an address that is not there. -/
def State.badAccess (s : State) (det : Nat) : State := s.send 0x0F0 0x01 det

/-- A register that only the debug port reaches: one of the `DBG_` registers, the authentication buffer among them (R471). -/
def debugOnly (a : Nat) : Bool :=
  (decide (0xF8000 ≤ a ∧ a < 0xF9000) && (regAt a).isSome) || decide (0xF9000 ≤ a ∧ a < 0xFA000)

/-- An address inside a memory of R446. -/
def inMemory (a : Nat) : Bool :=
  decide (0x10000000 ≤ a ∧ a < 0x10400000) || decide (0x20000000 ≤ a ∧ a < 0x21800000)
    || decide (0x30000000 ≤ a ∧ a < 0x30100000) || decide (0x38000000 ≤ a ∧ a < 0x38080000)
    || decide (0x3C000000 ≤ a ∧ a < 0x3C010000) || decide (0x3D000000 ≤ a ∧ a < 0x3D040000)
    || decide (0x40000000 ≤ a ∧ a < 0x40400000)

/-- Parts of the state memory and of MRAM that R495 reserves: reads return 0. -/
def reservedMem (a : Nat) : Bool :=
  (decide (0x10001000 ≤ a ∧ a < 0x10400000) && !decide (0x10010000 ≤ a ∧ a < 0x10026000))
    || (decide (0x40002000 ≤ a ∧ a < 0x40200000) && !decide (0x40100000 ≤ a ∧ a < 0x40110000))

/-- Acquisition memory that lies in retention or is waking (R353). -/
def State.asleep (s : State) (a : Nat) : Bool :=
  decide (0x20000000 ≤ a ∧ a < 0x21800000) && (s.bit ACQ_STAT_IN_RET || !s.bit ACQ_STAT_AWAKE)

/-! ### Slots (R29, R30, R32) -/

/-- The master produces the slot (R30). -/
def State.produces (s : State) (m : Master) (slot : Nat) : Bool :=
  if slot < 0x380 ∨ 0x3C0 ≤ slot then false
  else
    let j := slot - 0x380
    let own := tbit (if j < 32 then s.fld SEQ_SLOT_OWN0 else s.fld SEQ_SLOT_OWN1) (j % 32)
    match m with
    | .sequencer => own
    | .host => !own
    | _ => false

/-- STAGED_SLOT_WRITE: staged for cycle 0 of the next tick, or ignored with NOT_PRODUCER. -/
def slotWrite (s : State) (m : Master) (slot val : Nat) : State :=
  if s.produces m slot then s.mirrored m 1 (slot * 2 ^ 48 + val) fun s => s.stage slot val
  else s.send 0x0F0 0x04 (0x10000000 + 4 * slot)

/-- A write of n bytes to the signal bus: whole slots in rising order, or one byte of a slot. -/
def slotsWrite (s : State) (m : Master) (a n v : Nat) : State :=
  let slot := (a - 0x10000000) / 4
  match n with
  | 1 =>
    let old := s.rd (0x10000000 + 4 * slot) 4
    let sh := 256 ^ (a % 4)
    if s.produces m slot then slotWrite s m slot (old - old / sh % 256 * sh + v % 256 * sh) else s.send 0x0F0 0x04 a
  | 4 => slotWrite s m slot (v % 2 ^ 32)
  | _ => slotWrite (slotWrite s m slot (v % 2 ^ 32)) m (slot + 1) (v / 2 ^ 32 % 2 ^ 32)

/-! ### Accesses -/

/-- A read of n bytes by a fabric master: none is an error response. -/
def State.fabricRead (s : State) (m : Master) (a n : Nat) (k : AccessKind) : Option Nat × State :=
  if !s.regionOk m a n k then (none, s.regionRefused m a false)
  else if a < 0x10000000 then
    if 0x150000 ≤ a then (none, s.badAccess 0)
    else if n ≠ 4 ∨ a % 4 ≠ 0 then (none, s.blockSend a 0x01)
    else if debugOnly a ∧ m ≠ .debug then (none, s)
    else
      let (v, s) := s.readReg m a
      (some v, s)
  else if !inMemory a then (none, s.badAccess 0)
  else if n = 2 ∨ a % n ≠ 0 then (none, s.badAccess a)
  else if s.asleep a then (none, s.send 0x3C5 0x01 0)
  else if reservedMem a then (some 0, s)
  else if inMbox a then (s.inject 0x46 0).1.mboxRead (m == .host) a n
  else (s.inject 0x46 0).1.memRead a n

/-- A write to memory that has been allowed: what the memory's own rules make of it. While no MRAM write may start (R481) one gets an
error response (DESIGN CHOICE, log entry 133). -/
def State.memAccept (s : State) (m : Master) (a n v : Nat) : Bool × State :=
  if a < 0x10001000 then (true, slotsWrite s m a n v)
  else if reservedMem a then (true, s)
  else if a < 0x10020000 then (true, s.send 0x0F0 0x04 a)
  else if a < 0x10026000 then
    if s.op = 8 then s.memWrite a n v else (true, (s.flag CE_STAT_STATE_WR).send 0x270 0x16 0)
  else if 0x30000000 ≤ a ∧ a < 0x30100000 then
    let c := a % 0x80000 / 256
    if ¬(m = .loader ∧ (s.op = 1 ∨ s.op = 2)) ∧ c < 192 ∧ s.bankOf c = (a - 0x30000000) / 0x80000 ∧ s.op ≠ 4 ∧ s.op ≠ 8 then
      (true, (s.flag CE_STAT_BANK_WR).send 0x270 0x15 a)
    else s.memWrite a n v
  else if m = .sequencer ∧ s.role = 2 ∧ 0x38070000 ≤ a ∧ a < 0x38077000 then (true, s)
  else if inMbox a then s.mboxWrite (m == .host) a n v
  else if inMram a ∧ s.mramHeld then (false, s)
  else s.memWrite a n v

/-- A write of n bytes by a fabric master: false is an error response. -/
def State.fabricWrite (s : State) (m : Master) (a n v : Nat) : Bool × State :=
  if !s.regionOk m a n .write ∨ writeBarred m a then (false, s.regionRefused m a true)
  else if a < 0x10000000 then
    if 0x150000 ≤ a then (false, s.badAccess 0)
    else if n ≠ 4 ∨ a % 4 ≠ 0 then (false, s.blockSend a 0x01)
    else if debugOnly a ∧ m ≠ .debug then (false, s)
    else (true, s.writeReg m a (v % 2 ^ 32))
  else if !inMemory a then (false, s.badAccess 0)
  else if n = 2 ∨ a % n ≠ 0 then (false, s.badAccess a)
  else if s.asleep a then (false, s.send 0x3C5 0x01 0)
  else (s.inject 0x46 0).1.memAccept m a n v

def execStagedSlotWrite (m : Master) (slot : Fin 1024) (val : Word) (s : State) : Host.Outcome State Fault Refusal :=
  .next (slotWrite s m slot val.toNat)

/-! ### Corrected words (R452, R461) -/

/-- CORRECTED_WRITEBACK: the oldest corrected word is written back; a master write has already replaced it otherwise. -/
def correctedWriteback (s : State) : State :=
  match s.mem.wback with
  | [] => s
  | a :: t => { s with mem := { s.mem with wback := t, err := if (eccOf (s.synAt a)) = .ue then s.mem.err else mdel s.mem.err a } }

def execCorrectedWriteback (s : State) : Host.Outcome State Fault Refusal := .next (correctedWriteback s)

/-! ### Caver (R457 to R461) -/

/-- A word is copied into the save buffer: corrected where it can be. -/
def State.saveWord (s : State) (a : Nat) : State :=
  let (e, s) := s.checkedRead a
  if e.good then { s with mem := { s.mem with err := mdel s.mem.err a, wback := s.mem.wback.filter (· != a) } } else s

/-- The next region; a full cycle is counted. -/
def State.caverNext (s : State) : State :=
  let p := s.fld MEM_CAVER_STAT_POS
  if p = 15295 then (s.setFld MEM_CAVER_STAT_POS 0).setFld MEM_CAVER_STAT_CYCLES (min 65535 (s.fld MEM_CAVER_STAT_CYCLES + 1))
  else s.setFld MEM_CAVER_STAT_POS (p + 1)

/-- An expiry of PERIOD cannot come before a period has passed since the last (R457). -/
def State.caverDue (s : State) : Bool := s.mem.caverAt.all fun t => decide (t + s.fld MEM_CAVER_CFG_PERIOD ≤ s.now)

/-- CAVER_TEST_START: an expiry of PERIOD. -/
def caverStart (s : State) : State :=
  if !s.bit MEM_CAVER_CFG_EN ∨ s.op < 4 ∨ s.mem.caver.isSome ∨ !s.caverDue then s
  else
    let s := { s with mem := { s.mem with caverAt := some s.now } }
    let p := s.fld MEM_CAVER_STAT_POS
    if regionAcq p ∧ (s.bit ACQ_STAT_IN_RET ∨ !s.bit ACQ_STAT_AWAKE) then
      (s.count MEM_CNT_CAVER MEM_CNT_OVF 4 1).caverNext
    else
      let s := (upto 256).foldl (fun s i => s.saveWord (regionAddr p + 8 * i)) s
      { s.flag MEM_CAVER_STAT_BUSY with mem := { s.mem with caver := some ⟨p, s.now⟩ } }

/-- The save buffer is written back and the test is over; a retention that waited for it begins (R460). -/
def State.caverEnd (s : State) : State :=
  let acq := s.caverInAcq
  let s := { s.setFld MEM_CAVER_STAT_BUSY 0 with mem := { s.mem with caver := none } }
  if acq && s.bit ACQ_CTRL_RET then (s.flag ACQ_STAT_IN_RET).setFld ACQ_STAT_AWAKE 0 else s

/-- CAVER_TEST_DONE (R459): `mismatch` is the first failing word of the region. -/
def caverDone (s : State) (mismatch : Option Nat) : State :=
  match s.mem.caver with
  | none => s
  | some c =>
    let s := match mismatch with
      | none => s
      | some w =>
        let a := regionAddr c.region + 8 * (w % 256)
        ((s.flag MEM_CAVER_STAT_FAIL).setFld MEM_CAVER_FADDR a).send (0x080 + checkerOf a) 0x13 a
    s.caverEnd.caverNext

/-- CAVER_ABANDON: a test not complete 100 µs after its start is tried again at the next expiry. -/
def caverAbandon (s : State) : State :=
  match s.mem.caver with
  | some c => if c.tick + 100 ≤ s.now then (s.count MEM_CNT_CAVER MEM_CNT_OVF 4 1).caverEnd else s
  | none => s

def execCaverTestStart (s : State) : Host.Outcome State Fault Refusal := .next (caverStart s)
def execCaverTestDone (mismatch : Option Nat) (s : State) : Host.Outcome State Fault Refusal := .next (caverDone s mismatch)
def execCaverAbandon (s : State) : Host.Outcome State Fault Refusal := .next (caverAbandon s)

/-- An access that asks for no share of a CK_FAB cycle: it has one of its own unless the access before it shares its cycle (R456). -/
def State.mboxAlone {α : Type} (s : State) (a : Nat) (f : State → α × State) : α × State :=
  let r := f (s.mboxBegin a .no)
  (r.1, r.2.mboxOver a .no)

end Sys2Proof.Machine
end

