-- ==== Sys2Proof/Machine/SeqCode.lean ====
section
/-! DEFINITION. The words of the sequencer's instructions (R431, R432). -/
namespace Sys2Proof.Machine
open Sys2Proof

/-- An instruction word's register field: rd of formats R, I, J and U (ra of B) in [25:22], ra (rb of B) in [21:18], rb in
[17:14]. -/
def seqF1 (w : Word) : Fin 16 := (w.extractLsb' 22 4).toFin
def seqF2 (w : Word) : Fin 16 := (w.extractLsb' 18 4).toFin
def seqF3 (w : Word) : Fin 16 := (w.extractLsb' 14 4).toFin

/-- Immediate of formats I and B, of format U and offset of format J. -/
def seqImm (w : Word) : BitVec 18 := w.extractLsb' 0 18
def seqImmU (w : Word) : BitVec 14 := w.extractLsb' 8 14
def seqOff (w : Word) : BitVec 22 := w.extractLsb' 0 22

/-- The instruction of format R with [13:0] = 0. -/
def seqR (w : Word) (f : Fin 16 → Fin 16 → Fin 16 → Instr) : Option Instr :=
  if w.extractLsb' 0 14 = 0 then some (f (seqF1 w) (seqF2 w) (seqF3 w)) else none

/-- The instruction of format I, where its immediate is admitted. -/
def seqI (w : Word) (ok : Bool) (f : Fin 16 → Fin 16 → BitVec 18 → Instr) : Option Instr :=
  if ok then some (f (seqF1 w) (seqF2 w) (seqImm w)) else none

/-- Immediates that R432 and R437 admit. -/
def seqShiftOk (imm : BitVec 18) : Bool := imm.toNat < 32
def seqSlotOk (imm : BitVec 18) : Bool := imm.toNat < 1024
def seqFltOk (imm : BitVec 18) : Bool := imm.toNat < 64 && imm.toNat % 8 ≤ 4
def seqSrOk (imm : BitVec 18) : Bool := imm.toNat < 6

/-- The instruction that a word spells; none is an illegal instruction (R431). -/
def seqDecode (w : Word) : Option Instr :=
  let d := seqF1 w
  let a := seqF2 w
  let i := seqImm w
  match (w.extractLsb' 26 6).toNat with
  | 0x01 => seqR w .add | 0x02 => seqR w .sub | 0x03 => seqR w .and | 0x04 => seqR w .or | 0x05 => seqR w .xor
  | 0x06 => seqR w .sll | 0x07 => seqR w .srl | 0x08 => seqR w .sra | 0x09 => seqR w .slt | 0x0A => seqR w .sltu
  | 0x0B => seqR w .mul | 0x0C => seqR w .div
  | 0x10 => some (.addi d a i) | 0x11 => some (.andi d a i) | 0x12 => some (.ori d a i)
  | 0x13 => seqI w (seqShiftOk i) .slli | 0x14 => seqI w (seqShiftOk i) .srli | 0x15 => seqI w (seqShiftOk i) .srai
  | 0x16 => if w.extractLsb' 0 8 = 0 then some (.lui d (seqImmU w)) else none
  | 0x18 => some (.lw d a i) | 0x19 => some (.lbu d a i) | 0x1A => some (.sw d a i) | 0x1B => some (.sb d a i)
  | 0x20 => some (.beq d a i) | 0x21 => some (.bne d a i) | 0x22 => some (.blt d a i) | 0x23 => some (.bge d a i)
  | 0x24 => some (.bltu d a i) | 0x25 => some (.bgeu d a i)
  | 0x26 => some (.jal d (seqOff w)) | 0x27 => some (.jalr d a i)
  | 0x30 => if w.extractLsb' 18 8 = 0 then some (.wtick i) else none
  | 0x31 => seqR w .wevt
  | 0x32 => seqI w (seqSlotOk i) .srd | 0x33 => seqI w (seqSlotOk i) .swr
  | 0x34 => if w.extractLsb' 18 8 = 0 then some (.req i) else none
  | 0x35 => if w.extractLsb' 0 26 = 0 then some .blk else none
  | 0x36 => if d = 0 ∧ seqFltOk i then some (.flt a i) else none
  | 0x37 => seqR w .sign | 0x38 => seqR w .send
  | 0x39 => if seqSrOk i then some (.rdsr d i) else none
  | 0x3A => some .retn | 0x3B => some .kick
  | _ => none

/-- The words of the formats of R431. -/
def seqWR (op : BitVec 6) (rd ra rb : Fin 16) : Word :=
  op ++ (BitVec.ofFin rd : BitVec 4) ++ (BitVec.ofFin ra : BitVec 4) ++ (BitVec.ofFin rb : BitVec 4) ++ (0 : BitVec 14)
def seqWI (op : BitVec 6) (rd ra : Fin 16) (imm : BitVec 18) : Word :=
  op ++ (BitVec.ofFin rd : BitVec 4) ++ (BitVec.ofFin ra : BitVec 4) ++ imm
def seqWJ (op : BitVec 6) (rd : Fin 16) (off : BitVec 22) : Word := op ++ (BitVec.ofFin rd : BitVec 4) ++ off
def seqWU (op : BitVec 6) (rd : Fin 16) (imm : BitVec 14) : Word :=
  op ++ (BitVec.ofFin rd : BitVec 4) ++ imm ++ (0 : BitVec 8)

/-- The word of a sequencer instruction (R431, R432); none for any other command. -/
def seqEncode : Instr → Option Word
  | .add d a b => some (seqWR 0x01 d a b) | .sub d a b => some (seqWR 0x02 d a b) | .and d a b => some (seqWR 0x03 d a b)
  | .or d a b => some (seqWR 0x04 d a b) | .xor d a b => some (seqWR 0x05 d a b) | .sll d a b => some (seqWR 0x06 d a b)
  | .srl d a b => some (seqWR 0x07 d a b) | .sra d a b => some (seqWR 0x08 d a b) | .slt d a b => some (seqWR 0x09 d a b)
  | .sltu d a b => some (seqWR 0x0A d a b) | .mul d a b => some (seqWR 0x0B d a b) | .div d a b => some (seqWR 0x0C d a b)
  | .addi d a i => some (seqWI 0x10 d a i) | .andi d a i => some (seqWI 0x11 d a i) | .ori d a i => some (seqWI 0x12 d a i)
  | .slli d a i => some (seqWI 0x13 d a i) | .srli d a i => some (seqWI 0x14 d a i) | .srai d a i => some (seqWI 0x15 d a i)
  | .lui d i => some (seqWU 0x16 d i)
  | .lw d a i => some (seqWI 0x18 d a i) | .lbu d a i => some (seqWI 0x19 d a i) | .sw d a i => some (seqWI 0x1A d a i)
  | .sb d a i => some (seqWI 0x1B d a i)
  | .beq a b o => some (seqWI 0x20 a b o) | .bne a b o => some (seqWI 0x21 a b o) | .blt a b o => some (seqWI 0x22 a b o)
  | .bge a b o => some (seqWI 0x23 a b o) | .bltu a b o => some (seqWI 0x24 a b o) | .bgeu a b o => some (seqWI 0x25 a b o)
  | .jal d o => some (seqWJ 0x26 d o) | .jalr d a i => some (seqWI 0x27 d a i)
  | .wtick i => some (seqWI 0x30 0 0 i) | .wevt d a b => some (seqWR 0x31 d a b)
  | .srd d a i => some (seqWI 0x32 d a i) | .swr d a i => some (seqWI 0x33 d a i)
  | .req i => some (seqWI 0x34 0 0 i) | .blk => some (seqWI 0x35 0 0 0) | .flt a i => some (seqWI 0x36 0 a i)
  | .sign d a b => some (seqWR 0x37 d a b) | .send d a b => some (seqWR 0x38 d a b)
  | .rdsr d i => some (seqWI 0x39 d 0 i) | .retn => some (seqWI 0x3A 0 0 0) | .kick => some (seqWI 0x3B 0 0 0)
  | _ => none

/-- The commands that are instructions of the sequencer: the rows of the table of R432. -/
def seqInstr : Instr → Bool
  | .add .. | .sub .. | .and .. | .or .. | .xor .. | .sll .. | .srl .. | .sra .. | .slt .. | .sltu .. | .mul .. | .div .. => true
  | .addi .. | .andi .. | .ori .. | .slli .. | .srli .. | .srai .. | .lui .. => true
  | .lw .. | .lbu .. | .sw .. | .sb .. => true
  | .beq .. | .bne .. | .blt .. | .bge .. | .bltu .. | .bgeu .. | .jal .. | .jalr .. => true
  | .wtick .. | .wevt .. | .srd .. | .swr .. | .req .. | .blk | .flt .. | .sign .. | .send .. | .rdsr .. | .retn | .kick => true
  | _ => false

/-- The immediates that an instruction may carry: outside them its word is illegal (R432, R437, R430). -/
def seqLegal : Instr → Bool
  | .slli _ _ i => seqShiftOk i | .srli _ _ i => seqShiftOk i | .srai _ _ i => seqShiftOk i
  | .srd _ _ i => seqSlotOk i | .swr _ _ i => seqSlotOk i
  | .flt _ i => seqFltOk i | .rdsr _ i => seqSrOk i
  | _ => true

end Sys2Proof.Machine
end

