-- ==== Sys2Proof/Machine/Sequencer.lean ====
section
/-! DEFINITION. The station sequencer (R427 to R445): its instructions, entries, lockstep and watchdog. -/
namespace Sys2Proof.Machine
open Sys2Proof

/-! ### The instruction boundary -/

/-- The cores stand at an instruction boundary with nothing due before the next instruction: running, no wait, no halt, no
NMI, role entry or breakpoint (R434, R440, R444, R472). -/
def State.seqReady (s : State) : Bool :=
  s.seq.run && !s.seq.dead && !s.seq.halt && s.seq.wait.isNone && !s.seq.nmi && s.seq.role.isNone && s.breakHere.isNone

/-- An instruction ends at the next one or at a target. -/
def State.seqJump (s : State) (pc : Nat) : State := { s with seq := { s.seq with pc := pc % 2 ^ 32, pass := false } }
def State.seqNext (s : State) : State := s.seqJump (s.seq.pc + 4)

/-- An illegal instruction (R429, R431, R440): the message, and the start at the NMI or the reset vector. -/
def State.seqBad (s : State) : State :=
  let pc := s.seq.pc
  let s := (s.send 0x3E1 0x32 0).count SEQ_CNT_ILL SEQ_CNT_OVF 2 1
  if s.seq.masked then (s.setFld SEQ_EPC pc).seqStart seqResetVec 5 true else s.seqNmi pc 4

/-- An access that ends without effect (R433). -/
def State.seqAccess (s : State) (a : Nat) : State := s.send 0x3E1 0x31 a

/-- Instruction forms: a result from registers, with the 18-bit immediate extended by its sign or by zeros. -/
def State.seqSet (s : State) (rd : Fin 16) (v : Nat) : State := (s.setSx rd v).seqNext
def State.seqOp3 (s : State) (f : Nat → Nat → Nat) (rd ra rb : Fin 16) : State := s.seqSet rd (f (s.sx ra) (s.sx rb))
def seqSext (i : BitVec 18) : Nat := wrap i.toInt 32
def State.seqAddr (s : State) (ra : Fin 16) (i : BitVec 18) : Nat := (s.sx ra + seqSext i) % 2 ^ 32

/-- R432: shifts use five bits; comparisons give 1 or 0. -/
def seqSll (a b : Nat) : Nat := a * 2 ^ (b % 32)
def seqSrl (a b : Nat) : Nat := a / 2 ^ (b % 32)
def seqSra (a b : Nat) : Nat := wrap (floorShift (sext a 32) (b % 32)) 32
def seqSub (a b : Nat) : Nat := wrap ((a : Int) - b) 32
def seqSlt (a b : Nat) : Nat := b2n (decide (sext a 32 < sext b 32))
def seqSltu (a b : Nat) : Nat := b2n (decide (a < b))

/-- A load (R433): refused or unanswered, it gives 0. -/
def State.seqLoad (s : State) (rd : Fin 16) (a n : Nat) : State :=
  if n = 4 ∧ a % 4 ≠ 0 then (s.seqAccess a).seqSet rd 0
  else match s.mboxAlone a (·.fabricRead .sequencer a n .read) with
    | (some v, s) => s.seqSet rd v
    | (none, s) => (s.seqAccess a).seqSet rd 0

/-- A store (R433). -/
def State.seqStore (s : State) (a n v : Nat) : State :=
  if n = 4 ∧ a % 4 ≠ 0 then (s.seqAccess a).seqNext
  else match s.mboxAlone a (·.fabricWrite .sequencer a n v) with
    | (true, s) => s.seqNext
    | (false, s) => (s.seqAccess a).seqNext

/-- A branch (R432). -/
def State.seqBranch (s : State) (taken : Bool) (off : BitVec 18) : State :=
  if taken then s.seqJump (wrap ((s.seq.pc : Int) + 4 * off.toInt) 32) else s.seqNext

/-! ### Services -/

/-- WTICK (R434): pc stays at the instruction until it completes. -/
def State.seqWtick (s : State) (imm : BitVec 18) : State :=
  ({ s with seq := { s.seq with wait := some (.tick (imm.toNat + 1)) } }).showSeq

/-- WEVT (R434): completes at once where a masked event is pending. -/
def State.seqWevt (s : State) (rd ra rb : Fin 16) : State :=
  let mask := s.sx ra
  let hit := s.fld SEQ_EVT &&& mask
  if hit ≠ 0 then (s.setFld SEQ_EVT (s.fld SEQ_EVT - hit)).seqSet rd hit
  else
    let left := if s.sx rb = 0 then none else some (s.sx rb)
    ({ s with seq := { s.seq with wait := some (.evt mask rd left) } }).showSeq

/-- Address of the slot that SRD and SWR name (R432, R435). -/
def State.seqSlot (s : State) (ra : Fin 16) (imm : BitVec 18) : Nat :=
  0x10000000 + 4 * wrap ((s.sx ra : Int) + (imm.toNat % 1024 : Nat)) 10

/-- REQ (R436): the next boundary evaluates it. -/
def State.seqReq (s : State) (imm : BitVec 18) : State :=
  let tgt := imm.toNat % 16
  let s := { s with ctl := { s.ctl with seqReq := some tgt } }
  ((s.setFld SEQ_REQ_STAT_TARGET tgt).setFld SEQ_REQ_STAT_PEND 1).seqNext

/-- The body and the output of a SIGN lie where R438 allows. -/
def signAddrOk (a b : Nat) : Bool :=
  a % 8 == 0 && (decide (0x38000000 ≤ a ∧ a + 256 ≤ 0x38080000) || decide (0x3C000000 ≤ a ∧ a + 256 ≤ 0x3C010000))
    && decide (0x3C000000 ≤ b ∧ b + 2048 ≤ 0x3C008000)

/-- SIGN (R438). -/
def State.seqSign (s : State) (rd ra rb : Fin 16) : State :=
  let st := s.fld SEQ_SIGN_STAT_STATE
  if st = 1 ∨ st = 2 then s.seqSet rd 1
  else if !signAddrOk (s.sx ra) (s.sx rb) then s.seqSet rd 2
  else
    match ((s.setFld SEQ_SIGN_STAT_STATE 1).setFld SEQ_SIGN_STAT_RESULT 0).signRequest ⟨3, s.sx ra, s.sx rb, 0⟩ with
    | (true, t) => t.seqSet rd 0
    | (false, _) => (s.send 0x3E2 0x36 0).seqSet rd 3

/-- A block for SEND lies in the sequencer memory or in the mailbox (DEDUCED from R438, log entry 17). -/
def sendAddrOk (a n : Nat) : Bool :=
  decide (0x38000000 ≤ a ∧ a + n ≤ 0x38080000) || decide (0x3C000000 ≤ a ∧ a + n ≤ 0x3C010000)

/-- The station port of a port index (R439). -/
def ringPort (q : Nat) : Nat := if q = 2 then 3 else q

/-- SEND (R439): ra is the port index of the ring. The port, then the block, then the ring are looked at (log
entry 17); a block that cannot be read gives 3 (DESIGN CHOICE, log entry 130). -/
def State.seqSend (s : State) (rd ra rb : Fin 16) : State :=
  let a := s.sx rb
  let q := s.sx ra
  if 3 ≤ q ∨ !s.bit (STN_STAT_LINK (ringPort q)) then s.seqSet rd 2
  else if !sendAddrOk a 4 then s.seqSet rd 3
  else
    let (hd, s) := s.readBytes a 4
    let len := leNat (hd.getD [])
    if len = 0 ∨ 1024 < len ∨ !sendAddrOk a (4 + len) then s.seqSet rd 3
    else
      let wp := s.fld (SEQ_TX_WP q)
      if ringFull wp (s.fld (SEQ_TX_RP q)) then (s.send 0x3E2 0x35 0).seqSet rd 1
      else match s.readBytes (a + 4) len with
        | (none, s) => s.seqSet rd 3
        | (some body, s) =>
          let s := s.writeBytes (txEntry q wp) (leBytes 8 len ++ leBytes 8 s.now ++ body)
          (s.setFld (SEQ_TX_WP q) ((wp + 1) % 8)).seqSet rd 0

/-- The special registers of R430. -/
def State.seqSr (s : State) (i : Nat) : Nat × State :=
  match i with
  | 0 => (s.fld SEQ_EPC, s)
  | 1 => (s.fld SEQ_STAT_ENTRY, s)
  | 2 => s.readReg .sequencer 0x20
  | 3 => s.readReg .sequencer 0x24
  | 4 => (s.op + s.role * 16 + s.sub * 64 + b2n s.latched * 256, s)
  | _ => s.readReg .sequencer 0x1000C

/-- RDSR (R430). -/
def State.seqRdsr (s : State) (rd : Fin 16) (imm : BitVec 18) : State :=
  let (v, s) := s.seqSr imm.toNat
  s.seqSet rd v

/-- RETN (R440): NMI is unmasked, and one that was held is taken next. -/
def State.seqRetn (s : State) : State :=
  let q := s.seq
  let s := { s with seq := { q with masked := false, nmi := q.nmi || q.held, held := false } }
  (s.seqJump (s.fld SEQ_EPC)).showSeq

/-- DIV (R432): signed, toward zero. -/
def State.seqDiv (s : State) (rd ra rb : Fin 16) : State :=
  if s.sx rb = 0 then (s.send 0x3E1 0x33 0).seqSet rd 0
  else s.seqSet rd (wrap (Int.tdiv (sext (s.sx ra) 32) (sext (s.sx rb) 32)) 32)

/-! ### The instructions (R432): one effect for each -/

def seqIAdd (rd ra rb : Fin 16) (s : State) : State :=
  s.seqOp3 (fun a b => a + b) rd ra rb
def seqISub (rd ra rb : Fin 16) (s : State) : State :=
  s.seqOp3 seqSub rd ra rb
def seqIAnd (rd ra rb : Fin 16) (s : State) : State :=
  s.seqOp3 (fun a b => a &&& b) rd ra rb
def seqIOr (rd ra rb : Fin 16) (s : State) : State :=
  s.seqOp3 (fun a b => a ||| b) rd ra rb
def seqIXor (rd ra rb : Fin 16) (s : State) : State :=
  s.seqOp3 (fun a b => a ^^^ b) rd ra rb
def seqISll (rd ra rb : Fin 16) (s : State) : State :=
  s.seqOp3 seqSll rd ra rb
def seqISrl (rd ra rb : Fin 16) (s : State) : State :=
  s.seqOp3 seqSrl rd ra rb
def seqISra (rd ra rb : Fin 16) (s : State) : State :=
  s.seqOp3 seqSra rd ra rb
def seqISlt (rd ra rb : Fin 16) (s : State) : State :=
  s.seqOp3 seqSlt rd ra rb
def seqISltu (rd ra rb : Fin 16) (s : State) : State :=
  s.seqOp3 seqSltu rd ra rb
def seqIMul (rd ra rb : Fin 16) (s : State) : State :=
  s.seqOp3 (fun a b => a * b) rd ra rb
def seqIDiv (rd ra rb : Fin 16) (s : State) : State :=
  s.seqDiv rd ra rb
def seqIAddi (rd ra : Fin 16) (imm : BitVec 18) (s : State) : State :=
  s.seqSet rd (s.sx ra + seqSext imm)
def seqIAndi (rd ra : Fin 16) (imm : BitVec 18) (s : State) : State :=
  s.seqSet rd (s.sx ra &&& imm.toNat)
def seqIOri (rd ra : Fin 16) (imm : BitVec 18) (s : State) : State :=
  s.seqSet rd (s.sx ra ||| imm.toNat)
def seqISlli (rd ra : Fin 16) (imm : BitVec 18) (s : State) : State :=
  if seqShiftOk imm then s.seqSet rd (seqSll (s.sx ra) imm.toNat) else s.seqBad
def seqISrli (rd ra : Fin 16) (imm : BitVec 18) (s : State) : State :=
  if seqShiftOk imm then s.seqSet rd (seqSrl (s.sx ra) imm.toNat) else s.seqBad
def seqISrai (rd ra : Fin 16) (imm : BitVec 18) (s : State) : State :=
  if seqShiftOk imm then s.seqSet rd (seqSra (s.sx ra) imm.toNat) else s.seqBad
def seqILui (rd : Fin 16) (imm : BitVec 14) (s : State) : State :=
  s.seqSet rd (imm.toNat * 2 ^ 18)
def seqILw (rd ra : Fin 16) (imm : BitVec 18) (s : State) : State :=
  s.seqLoad rd (s.seqAddr ra imm) 4
def seqILbu (rd ra : Fin 16) (imm : BitVec 18) (s : State) : State :=
  s.seqLoad rd (s.seqAddr ra imm) 1
def seqISw (rd ra : Fin 16) (imm : BitVec 18) (s : State) : State :=
  s.seqStore (s.seqAddr ra imm) 4 (s.sx rd)
def seqISb (rd ra : Fin 16) (imm : BitVec 18) (s : State) : State :=
  s.seqStore (s.seqAddr ra imm) 1 (s.sx rd % 256)
def seqIBeq (ra rb : Fin 16) (off : BitVec 18) (s : State) : State :=
  s.seqBranch (s.sx ra == s.sx rb) off
def seqIBne (ra rb : Fin 16) (off : BitVec 18) (s : State) : State :=
  s.seqBranch (s.sx ra != s.sx rb) off
def seqIBlt (ra rb : Fin 16) (off : BitVec 18) (s : State) : State :=
  s.seqBranch (decide (sext (s.sx ra) 32 < sext (s.sx rb) 32)) off
def seqIBge (ra rb : Fin 16) (off : BitVec 18) (s : State) : State :=
  s.seqBranch (decide (sext (s.sx rb) 32 ≤ sext (s.sx ra) 32)) off
def seqIBltu (ra rb : Fin 16) (off : BitVec 18) (s : State) : State :=
  s.seqBranch (decide (s.sx ra < s.sx rb)) off
def seqIBgeu (ra rb : Fin 16) (off : BitVec 18) (s : State) : State :=
  s.seqBranch (decide (s.sx rb ≤ s.sx ra)) off
def seqIJal (rd : Fin 16) (off : BitVec 22) (s : State) : State :=
  (s.setSx rd (s.seq.pc + 4)).seqJump (wrap ((s.seq.pc : Int) + 4 * off.toInt) 32)
def seqIJalr (rd ra : Fin 16) (imm : BitVec 18) (s : State) : State :=
  (s.setSx rd (s.seq.pc + 4)).seqJump (s.seqAddr ra imm / 4 * 4)
def seqIWtick (imm : BitVec 18) (s : State) : State :=
  s.seqWtick imm
def seqIWevt (rd ra rb : Fin 16) (s : State) : State :=
  s.seqWevt rd ra rb
def seqISrd (rd ra : Fin 16) (imm : BitVec 18) (s : State) : State :=
  if seqSlotOk imm then s.seqLoad rd (s.seqSlot ra imm) 4 else s.seqBad
def seqISwr (rd ra : Fin 16) (imm : BitVec 18) (s : State) : State :=
  if seqSlotOk imm then s.seqStore (s.seqSlot ra imm) 4 (s.sx rd) else s.seqBad
def seqIReq (imm : BitVec 18) (s : State) : State :=
  s.seqReq imm
def seqIBlk (s : State) : State :=
  (s.blockCause .force).seqNext
def seqIFlt (ra : Fin 16) (imm : BitVec 18) (s : State) : State :=
  if seqFltOk imm then (s.send (0x3E3 + imm.toNat % 8) (0x38 + imm.toNat / 8 % 8) (s.sx ra)).seqNext else s.seqBad
def seqISign (rd ra rb : Fin 16) (s : State) : State :=
  s.seqSign rd ra rb
def seqISend (rd ra rb : Fin 16) (s : State) : State :=
  s.seqSend rd ra rb
def seqIRdsr (rd : Fin 16) (imm : BitVec 18) (s : State) : State :=
  if seqSrOk imm then s.seqRdsr rd imm else s.seqBad
def seqIRetn (s : State) : State :=
  s.seqRetn
def seqIKick (s : State) : State :=
  ({ s with seq := { s.seq with wd := 0 } }).seqNext

/-! An instruction command is one execution at pc, made when the cores stand ready for it (log entry 18). -/

def execAdd (rd ra rb : Fin 16) (s : State) : Host.Outcome State Fault Refusal :=
  .next (if s.seqReady then seqIAdd rd ra rb s else s)
def execSub (rd ra rb : Fin 16) (s : State) : Host.Outcome State Fault Refusal :=
  .next (if s.seqReady then seqISub rd ra rb s else s)
def execAnd (rd ra rb : Fin 16) (s : State) : Host.Outcome State Fault Refusal :=
  .next (if s.seqReady then seqIAnd rd ra rb s else s)
def execOr (rd ra rb : Fin 16) (s : State) : Host.Outcome State Fault Refusal :=
  .next (if s.seqReady then seqIOr rd ra rb s else s)
def execXor (rd ra rb : Fin 16) (s : State) : Host.Outcome State Fault Refusal :=
  .next (if s.seqReady then seqIXor rd ra rb s else s)
def execSll (rd ra rb : Fin 16) (s : State) : Host.Outcome State Fault Refusal :=
  .next (if s.seqReady then seqISll rd ra rb s else s)
def execSrl (rd ra rb : Fin 16) (s : State) : Host.Outcome State Fault Refusal :=
  .next (if s.seqReady then seqISrl rd ra rb s else s)
def execSra (rd ra rb : Fin 16) (s : State) : Host.Outcome State Fault Refusal :=
  .next (if s.seqReady then seqISra rd ra rb s else s)
def execSlt (rd ra rb : Fin 16) (s : State) : Host.Outcome State Fault Refusal :=
  .next (if s.seqReady then seqISlt rd ra rb s else s)
def execSltu (rd ra rb : Fin 16) (s : State) : Host.Outcome State Fault Refusal :=
  .next (if s.seqReady then seqISltu rd ra rb s else s)
def execMul (rd ra rb : Fin 16) (s : State) : Host.Outcome State Fault Refusal :=
  .next (if s.seqReady then seqIMul rd ra rb s else s)
def execDiv (rd ra rb : Fin 16) (s : State) : Host.Outcome State Fault Refusal :=
  .next (if s.seqReady then seqIDiv rd ra rb s else s)
def execAddi (rd ra : Fin 16) (imm : BitVec 18) (s : State) : Host.Outcome State Fault Refusal :=
  .next (if s.seqReady then seqIAddi rd ra imm s else s)
def execAndi (rd ra : Fin 16) (imm : BitVec 18) (s : State) : Host.Outcome State Fault Refusal :=
  .next (if s.seqReady then seqIAndi rd ra imm s else s)
def execOri (rd ra : Fin 16) (imm : BitVec 18) (s : State) : Host.Outcome State Fault Refusal :=
  .next (if s.seqReady then seqIOri rd ra imm s else s)
def execSlli (rd ra : Fin 16) (imm : BitVec 18) (s : State) : Host.Outcome State Fault Refusal :=
  .next (if s.seqReady then seqISlli rd ra imm s else s)
def execSrli (rd ra : Fin 16) (imm : BitVec 18) (s : State) : Host.Outcome State Fault Refusal :=
  .next (if s.seqReady then seqISrli rd ra imm s else s)
def execSrai (rd ra : Fin 16) (imm : BitVec 18) (s : State) : Host.Outcome State Fault Refusal :=
  .next (if s.seqReady then seqISrai rd ra imm s else s)
def execLui (rd : Fin 16) (imm : BitVec 14) (s : State) : Host.Outcome State Fault Refusal :=
  .next (if s.seqReady then seqILui rd imm s else s)
def execLw (rd ra : Fin 16) (imm : BitVec 18) (s : State) : Host.Outcome State Fault Refusal :=
  .next (if s.seqReady then seqILw rd ra imm s else s)
def execLbu (rd ra : Fin 16) (imm : BitVec 18) (s : State) : Host.Outcome State Fault Refusal :=
  .next (if s.seqReady then seqILbu rd ra imm s else s)
def execSw (rd ra : Fin 16) (imm : BitVec 18) (s : State) : Host.Outcome State Fault Refusal :=
  .next (if s.seqReady then seqISw rd ra imm s else s)
def execSb (rd ra : Fin 16) (imm : BitVec 18) (s : State) : Host.Outcome State Fault Refusal :=
  .next (if s.seqReady then seqISb rd ra imm s else s)
def execBeq (ra rb : Fin 16) (off : BitVec 18) (s : State) : Host.Outcome State Fault Refusal :=
  .next (if s.seqReady then seqIBeq ra rb off s else s)
def execBne (ra rb : Fin 16) (off : BitVec 18) (s : State) : Host.Outcome State Fault Refusal :=
  .next (if s.seqReady then seqIBne ra rb off s else s)
def execBlt (ra rb : Fin 16) (off : BitVec 18) (s : State) : Host.Outcome State Fault Refusal :=
  .next (if s.seqReady then seqIBlt ra rb off s else s)
def execBge (ra rb : Fin 16) (off : BitVec 18) (s : State) : Host.Outcome State Fault Refusal :=
  .next (if s.seqReady then seqIBge ra rb off s else s)
def execBltu (ra rb : Fin 16) (off : BitVec 18) (s : State) : Host.Outcome State Fault Refusal :=
  .next (if s.seqReady then seqIBltu ra rb off s else s)
def execBgeu (ra rb : Fin 16) (off : BitVec 18) (s : State) : Host.Outcome State Fault Refusal :=
  .next (if s.seqReady then seqIBgeu ra rb off s else s)
def execJal (rd : Fin 16) (off : BitVec 22) (s : State) : Host.Outcome State Fault Refusal :=
  .next (if s.seqReady then seqIJal rd off s else s)
def execJalr (rd ra : Fin 16) (imm : BitVec 18) (s : State) : Host.Outcome State Fault Refusal :=
  .next (if s.seqReady then seqIJalr rd ra imm s else s)
def execWtick (imm : BitVec 18) (s : State) : Host.Outcome State Fault Refusal :=
  .next (if s.seqReady then seqIWtick imm s else s)
def execWevt (rd ra rb : Fin 16) (s : State) : Host.Outcome State Fault Refusal :=
  .next (if s.seqReady then seqIWevt rd ra rb s else s)
def execSrd (rd ra : Fin 16) (imm : BitVec 18) (s : State) : Host.Outcome State Fault Refusal :=
  .next (if s.seqReady then seqISrd rd ra imm s else s)
def execSwr (rd ra : Fin 16) (imm : BitVec 18) (s : State) : Host.Outcome State Fault Refusal :=
  .next (if s.seqReady then seqISwr rd ra imm s else s)
def execReq (imm : BitVec 18) (s : State) : Host.Outcome State Fault Refusal :=
  .next (if s.seqReady then seqIReq imm s else s)
def execBlk (s : State) : Host.Outcome State Fault Refusal :=
  .next (if s.seqReady then seqIBlk s else s)
def execFlt (ra : Fin 16) (imm : BitVec 18) (s : State) : Host.Outcome State Fault Refusal :=
  .next (if s.seqReady then seqIFlt ra imm s else s)
def execSign (rd ra rb : Fin 16) (s : State) : Host.Outcome State Fault Refusal :=
  .next (if s.seqReady then seqISign rd ra rb s else s)
def execSend (rd ra rb : Fin 16) (s : State) : Host.Outcome State Fault Refusal :=
  .next (if s.seqReady then seqISend rd ra rb s else s)
def execRdsr (rd : Fin 16) (imm : BitVec 18) (s : State) : Host.Outcome State Fault Refusal :=
  .next (if s.seqReady then seqIRdsr rd imm s else s)
def execRetn (s : State) : Host.Outcome State Fault Refusal :=
  .next (if s.seqReady then seqIRetn s else s)
def execKick (s : State) : Host.Outcome State Fault Refusal :=
  .next (if s.seqReady then seqIKick s else s)

/-- The effect of a decoded instruction. -/
def State.seqEffect (s : State) (i : Instr) : State :=
  match i with
  | .add rd ra rb => seqIAdd rd ra rb s
  | .sub rd ra rb => seqISub rd ra rb s
  | .and rd ra rb => seqIAnd rd ra rb s
  | .or rd ra rb => seqIOr rd ra rb s
  | .xor rd ra rb => seqIXor rd ra rb s
  | .sll rd ra rb => seqISll rd ra rb s
  | .srl rd ra rb => seqISrl rd ra rb s
  | .sra rd ra rb => seqISra rd ra rb s
  | .slt rd ra rb => seqISlt rd ra rb s
  | .sltu rd ra rb => seqISltu rd ra rb s
  | .mul rd ra rb => seqIMul rd ra rb s
  | .div rd ra rb => seqIDiv rd ra rb s
  | .addi rd ra imm => seqIAddi rd ra imm s
  | .andi rd ra imm => seqIAndi rd ra imm s
  | .ori rd ra imm => seqIOri rd ra imm s
  | .slli rd ra imm => seqISlli rd ra imm s
  | .srli rd ra imm => seqISrli rd ra imm s
  | .srai rd ra imm => seqISrai rd ra imm s
  | .lui rd imm => seqILui rd imm s
  | .lw rd ra imm => seqILw rd ra imm s
  | .lbu rd ra imm => seqILbu rd ra imm s
  | .sw rd ra imm => seqISw rd ra imm s
  | .sb rd ra imm => seqISb rd ra imm s
  | .beq ra rb off => seqIBeq ra rb off s
  | .bne ra rb off => seqIBne ra rb off s
  | .blt ra rb off => seqIBlt ra rb off s
  | .bge ra rb off => seqIBge ra rb off s
  | .bltu ra rb off => seqIBltu ra rb off s
  | .bgeu ra rb off => seqIBgeu ra rb off s
  | .jal rd off => seqIJal rd off s
  | .jalr rd ra imm => seqIJalr rd ra imm s
  | .wtick imm => seqIWtick imm s
  | .wevt rd ra rb => seqIWevt rd ra rb s
  | .srd rd ra imm => seqISrd rd ra imm s
  | .swr rd ra imm => seqISwr rd ra imm s
  | .req imm => seqIReq imm s
  | .blk => seqIBlk s
  | .flt ra imm => seqIFlt ra imm s
  | .sign rd ra rb => seqISign rd ra rb s
  | .send rd ra rb => seqISend rd ra rb s
  | .rdsr rd imm => seqIRdsr rd imm s
  | .retn => seqIRetn s
  | .kick => seqIKick s
  | _ => s

/-! ### Entries (R429, R440, R444) -/

/-- SEQ_ILLEGAL. -/
def seqIllegal (s : State) : State := if s.seqReady then s.seqBad else s

/-- A role entry for a reason (R429): made at once where none of the halt states holds it. -/
def State.roleEntry (s : State) (reason : Nat) : State :=
  if s.seq.run && !s.seq.dead && !s.seq.halt && s.seq.role == some reason then
    ({ s with seq := { s.seq with role := none } }).seqStart seqRoleVec (6 + s.role * 16 + reason * 256) true
  else s

/-- NMI_ENTRY (R440): a role entry that is due comes first (R444); a breakpoint halts first (R474). -/
def nmiEntry (s : State) : State :=
  let s := match s.seq.role with
    | some r => s.roleEntry r
    | none => s
  if s.seq.run && !s.seq.dead && !s.seq.halt && s.seq.nmi && (s.seq.wait.isSome || s.breakHere.isNone) then
    let s := s.count SEQ_CNT_NMI SEQ_CNT_OVF 1 1
    ({ s with seq := { s.seq with nmi := false } }).seqNmi s.seq.pc 2
  else s

/-- LOCKSTEP (R441): a miscompare restarts both cores, or stops them until a function reset. -/
def lockstep (s : State) : State :=
  if !s.seq.run || s.seq.dead || s.seq.halt then s
  else
    let s := ((s.send 0x3E0 0x30 0).flag SEQ_STAT_LS_SEEN).count SEQ_CNT_LS SEQ_CNT_OVF 0 1
    if s.bit SEQ_CTRL_LS_RESTART then s.seqStart seqNmiVec 3 true
    else ({ s with seq := { s.seq with dead := true, wait := none } }).showSeq

/-- WDOG (R442): the count has reached TICKS. -/
def watchdog (s : State) : State :=
  let t := s.fld SEQ_WDOG_TICKS
  if t = 0 ∨ s.seq.wd < t then s
  else { (s.send 0x3E1 0x34 0).flag SEQ_STAT_WD_SEEN with seq := { s.seq with wd := 0 } }

def execSeqIllegal (s : State) : Host.Outcome State Fault Refusal := .next (seqIllegal s)
def execNmiEntry (s : State) : Host.Outcome State Fault Refusal := .next (nmiEntry s)
def execRoleVectorEntry (reason : Fin 4) (s : State) : Host.Outcome State Fault Refusal := .next (s.roleEntry reason)
def execLockstep (s : State) : Host.Outcome State Fault Refusal := .next (lockstep s)
def execWdog (s : State) : Host.Outcome State Fault Refusal := .next (watchdog s)

/-! ### Waits and boundaries (R434, R442) -/

/-- A wait ends with its result, at the next instruction. -/
def State.seqWaitEnd (s : State) (rd v : Nat) : State :=
  ((({ s with seq := { s.seq with wait := none } }).setSx rd v).seqNext).showSeq

/-- WAIT_COMPLETE (R434): a wait whose condition holds completes. A WEVT that has both its event and its timeout takes the
event (R444). An NMI or a role entry that is due takes the wait's place (R440); a debug halt holds it. -/
def waitComplete (s : State) : State :=
  if !s.seq.run || s.seq.dead || s.seq.halt || s.seq.nmi || s.seq.role.isSome then s
  else match s.seq.wait with
    | some (.tick 0) => s.seqWaitEnd 0 0
    | some (.evt mask rd left) =>
      let hit := s.fld SEQ_EVT &&& mask
      if hit ≠ 0 then (s.setFld SEQ_EVT (s.fld SEQ_EVT - hit)).seqWaitEnd rd hit
      else if left = some 0 then s.seqWaitEnd rd 0
      else s
    | _ => s

def execWaitComplete (s : State) : Host.Outcome State Fault Refusal := .next (waitComplete s)

/-- A boundary passes a wait. -/
def Wait.pass : Wait → Wait
  | .tick n => .tick (n - 1)
  | .evt m rd left => .evt m rd (left.map (· - 1))

/-- The sequencer at a boundary: the TICK event; waits and the watchdog count, but not during a debug halt. -/
def State.seqBoundary (s : State) : State :=
  let s := s.seqEvent 0
  if !s.seq.run || s.seq.halt then s
  else { s with seq := { s.seq with wd := if s.fld SEQ_WDOG_TICKS = 0 then s.seq.wd else s.seq.wd + 1,
                                    wait := s.seq.wait.map Wait.pass } }

/-! ### STEP (R472) -/

/-- One instruction of a halted sequencer: fetched at pc (R454), decoded and executed. A fetch that is refused or fails
ends without effect (R433). -/
def State.seqStepOne (s : State) : State :=
  if !s.seq.run || s.seq.dead || !s.seq.halt || s.seq.wait.isSome then s
  else
    let pc := s.seq.pc
    match s.fabricRead .sequencer pc 4 .fetch with
    | (none, s) => s.seqAccess pc
    | (some w, s) =>
      match seqDecode (BitVec.ofNat 32 w) with
      | some i => (s.seqEffect i).showSeq
      | none => s.seqBad

/-- SEQ_STEP: `DBG_SEQ.STEP` at level 2. -/
def execSeqStep (s : State) : Host.Outcome State Fault Refusal := .next (s.atLevel2 State.seqStepOne)

end Sys2Proof.Machine
end

