-- ==== Sys2Proof/Machine/HostPort.lean ====
section
/-! DEFINITION. Requests of the host port (R464 to R467) and of Knawick debug access (R470, R471). -/
namespace Sys2Proof.Machine
open Sys2Proof

/-! ### Request and response words (R464, R465) -/

/-- Fields of a request header. -/
def reqOp (h : BitVec 64) : Nat := (h.extractLsb' 60 4).toNat
def reqSize (h : BitVec 64) : Nat := (h.extractLsb' 58 2).toNat
def reqCount (h : BitVec 64) : Nat := (h.extractLsb' 53 5).toNat + 1
def reqTag (h : BitVec 64) : BitVec 8 := h.extractLsb' 40 8
def reqAddr (h : BitVec 64) : Nat := (h.extractLsb' 0 32).toNat

/-- Bytes of one access of the request. -/
def reqBytes (h : BitVec 64) : Nat := match reqSize h with | 0 => 1 | 1 => 4 | _ => 8

/-- A header whose OP, SIZE or a zero field is invalid (STATUS 3). -/
def reqBad (h : BitVec 64) : Bool :=
  (reqOp h != 1 && reqOp h != 2) || reqSize h == 3 || h.extractLsb' 48 5 != 0 || h.extractLsb' 32 8 != 0

/-- A request to register space of another shape than one 32-bit word (R464). -/
def reqShapeBad (h : BitVec 64) : Bool := decide (reqAddr h < 0x10000000) && (reqSize h != 1 || reqCount h != 1)

/-- The response header without UNDEF. -/
def respHdr (h : BitVec 64) (status : BitVec 4) : BitVec 64 :=
  (0xA : BitVec 4) ++ (0 : BitVec 12) ++ reqTag h ++ (0 : BitVec 4) ++ status ++ (0 : BitVec 32)

/-- A response with UNDEF, bit 36 of its header, when a mailbox read met the conflict of R456 (R465). -/
def undefResp (undef : Bool) (l : List (BitVec 64)) : List (BitVec 64) :=
  if undef then l.modifyHead (· ||| 0x1000000000) else l

/-- A data word of a response: the data in its low bits, the bits above open (log entry 20). -/
def State.respWord (s : State) (n v : Nat) : BitVec 64 × State :=
  if n = 8 then (BitVec.ofNat 64 v, s)
  else
    let (f, s) := s.draw 64
    (BitVec.ofNat 64 (v % 256 ^ n + f * 256 ^ n), s)

def State.respWords (s : State) (n : Nat) : List Nat → List (BitVec 64) × State
  | [] => ([], s)
  | v :: t =>
    let r := s.respWord n v
    let q := State.respWords r.2 n t
    (r.1 :: q.1, q.2)

/-- The data words of a READ that failed or is invalid: open values (log entry 20). -/
def State.openWords (s : State) : Nat → List (BitVec 64) × State
  | 0 => ([], s)
  | k + 1 =>
    let (f, s) := s.draw 64
    let q := s.openWords k
    (BitVec.ofNat 64 f :: q.1, q.2)

/-! ### Carrying a request out -/

/-- k reads of n bytes at rising addresses. Where one gets an error response no access is performed (R465): the state is
that of the failing access alone. -/
def readAll (rd : State → Nat → Nat → Option Nat × State) (s0 : State) (n : Nat) :
    Nat → Nat → State → Option (List Nat) × State
  | 0, _, s => (some [], s)
  | k + 1, a, s =>
    match rd s a n with
    | (none, _) => (none, (rd s0 a n).2)
    | (some v, s) =>
      match readAll rd s0 n k (a + n) s with
      | (some l, s) => (some (v :: l), s)
      | (none, s) => (none, s)

/-- Writes of n bytes at rising addresses, likewise. -/
def writeAll (wr : State → Nat → Nat → Nat → Bool × State) (s0 : State) (n : Nat) :
    List Nat → Nat → State → Bool × State
  | [], _, s => (true, s)
  | v :: t, a, s =>
    match wr s a n v with
    | (false, _) => (false, (wr s0 a n v).2)
    | (true, s) => writeAll wr s0 n t (a + n) s

/-- A READ that failed. -/
def State.readFailed (s : State) (h : BitVec 64) : List (BitVec 64) × State :=
  let (l, s) := s.openWords (reqCount h)
  (respHdr h 1 :: l, s)

/-- A complete request carried out: its response and the state. A data word that is none is uncorrectable. -/
def State.request (s : State) (rd : State → Nat → Nat → Option Nat × State)
    (wr : State → Nat → Nat → Nat → Bool × State) (h : BitVec 64) (data : List (Option (BitVec 64))) :
    List (BitVec 64) × State :=
  let a := reqAddr h
  let n := reqBytes h
  if reqBad h then
    if reqOp h ≠ 1 then ([respHdr h 3], s)
    else
      let (l, s) := s.openWords (reqCount h)
      (respHdr h 3 :: l, s)
  else if reqOp h = 1 then
    if reqShapeBad h then (rd s a 8).2.readFailed h
    else match readAll rd s n (reqCount h) a s with
      | (some vs, s) =>
        let (l, s) := s.respWords n vs
        (respHdr h 0 :: l, s)
      | (none, s) => s.readFailed h
  else
    let ws := (data.take (reqCount h)).filterMap id
    if (data.take (reqCount h)).any Option.isNone then ([respHdr h 2], s)
    else if reqShapeBad h then ([respHdr h 1], (wr s a 8 0).2)
    else match writeAll wr s n (ws.map fun w => w.toNat % 256 ^ n) a s with
      | (true, s) => ([respHdr h 0], s)
      | (false, s) => ([respHdr h 1], s)

/-- A word passes a port's checker (R451, R467): none is uncorrectable. -/
def State.portWord (s : State) (i : Nat) (w : ECWord) : Option (BitVec 64) × State :=
  let syn := syndrome w
  let (s, rep) := s.inject i syn
  let (e, d) := hsiaoDec w
  let s := match e with
    | .ok => s
    | .ue => s.sendIf (!rep) (0x080 + i) 0x11 0
    | _ => s.sendIf (!rep) (0x080 + i) 0x10 0
  (if e.good then some d else none, s)

def State.portWords (s : State) (i : Nat) : List ECWord → List (Option (BitVec 64)) × State
  | [] => ([], s)
  | w :: t =>
    let r := s.portWord i w
    let q := State.portWords r.2 i t
    (r.1 :: q.1, q.2)

/-! ### The host port -/

/-- The number of waiting requests as `HP_STAT` shows it. -/
def State.hostLevel (s : State) : State := s.setFld HP_STAT_LEVEL s.dbg.reqs.length

/-- BUSY_N is low because 8 requests wait (R466). -/
def State.hostFull (s : State) : Bool := decide (8 ≤ s.dbg.reqs.length)

/-- A request is answered: its accesses are performed and its response sent (R464, R465). -/
def State.hostServe (s : State) (q : HostReq) : State :=
  let a := reqAddr q.hdr
  let s := s.mboxBegin a q.sh
  let (l, s) := s.request (fun s a n => s.fabricRead .host a n .read) (fun s a n v => s.fabricWrite .host a n v) q.hdr q.data
  let undef := inMbox a && s.mem.mbox.undef
  let s := s.mboxOver a q.sh
  { s with dbg := { s.dbg with resp := ⟨(undefResp undef l).map hsiaoEnc, undef⟩ :: s.dbg.resp } }

/-- The oldest of the waiting requests are answered, in request order, until `left` of them remain (R466). -/
def State.hostAnswer (s : State) (left : Nat) : State :=
  let n := s.dbg.reqs.length - left
  ((s.dbg.reqs.take n).foldl State.hostServe { s with dbg := { s.dbg with reqs := s.dbg.reqs.drop n } }).hostLevel

/-- One request of the host, header and data words (R464 to R467). A WRITE whose data words have not all come performs
nothing; a request begun while 8 wait is discarded. Which of the waiting requests have been answered when it begins, and whether it
waits in its turn, its operands say; every one is answered by the next boundary (log entry 39). -/
def hostRequest (s : State) (hdr : ECWord) (data : List ECWord) (waiting : Nat) (wait : Bool) (sh : Share) : State :=
  if s.elec.inReset then s
  else
    let s := (s.flag HP_STAT_OPEN).hostAnswer waiting
    if s.hostFull then s.flag HP_STAT_OVF
    else
      let (h, s) := s.portWord 0x44 hdr
      match h with
      | none => s.flag HP_STAT_HDR_UE
      | some h =>
        let (ws, s) := s.portWords 0x44 data
        if reqOp h = 2 ∧ !reqBad h ∧ ws.length < reqCount h then s
        else
          let s := ({ s with dbg := { s.dbg with reqs := s.dbg.reqs ++ [HostReq.mk h ws sh] } }).hostLevel
          if wait then s else s.hostAnswer 0

def execHostRead (hdr : ECWord) (waiting : Nat) (wait : Bool) (sh : Share) (s : State) : Host.Outcome State Fault Refusal :=
  .next (hostRequest s hdr [] waiting wait sh)
def execHostWrite (hdr : ECWord) (data : List ECWord) (waiting : Nat) (wait : Bool) (sh : Share) (s : State) :
    Host.Outcome State Fault Refusal := .next (hostRequest s hdr data waiting wait sh)

/-! ### The pins of the host port (R463) -/

/-- What the output pins show in one CK_HOST cycle: HP_FRM_OUT, HP_DO at the rising and at the falling edge, BUSY_N. -/
structure HpCycle where
  frm   : Bool
  rise  : BitVec 4
  fall  : BitVec 4
  busyN : Bool
deriving DecidableEq, Repr

/-- The 9 bytes of a word on the line: data bits 63 to 56 first, the check byte last (R63). -/
def portBytes (w : ECWord) : List Byte :=
  (upto 8).map (fun i => w.extractLsb' (56 - 8 * i) 8) ++ [w.extractLsb' 64 8]

/-- A response as it leaves, one byte in each cycle. -/
def HostResp.cycles (r : HostResp) : List HpCycle :=
  r.words.flatMap fun w => (portBytes w).map fun b => HpCycle.mk true (b.extractLsb' 4 4) (b.extractLsb' 0 4) (!r.busy)

/-- The pins between responses. HP_DO has no meaning there. -/
def State.hpIdle (s : State) : HpCycle := ⟨false, 0, 0, !s.hostFull⟩

/-- HP_CK_OUT returns CK_HOST while that runs. -/
def State.hpClock (s : State) : Bool := !s.ctl.lost.contains 0x015

/-! ### Knawick debug access -/

/-- A read of the debug port. The debug port's own registers lie outside the region registers (log entry 21); a
live-inspect read changes nothing but the latches of master 1. -/
def kdaRead (s : State) (a n : Nat) : Option Nat × State :=
  if !s.kdaAllowed a false then (none, s.debugRefused)
  else
    let s := s.debugTouch
    if debugOnly a ∧ n = 4 ∧ a % 4 = 0 then
      let (v, s) := s.readReg .debug a
      (some v, s)
    else
      let (v, t) := s.fabricRead .debug a n .read
      if s.dbgLevel = 1 ∧ v.isSome then (v, { s with latches := t.latches, fresh := t.fresh }) else (v, t)

/-- A write of the debug port; the STEP of `DBG_SEQ` follows its HALT and RESUME. -/
def kdaWrite (s : State) (a n v : Nat) : Bool × State :=
  if !s.kdaAllowed a true then (false, s.debugRefused)
  else if debugOnly a ∧ n = 4 ∧ a % 4 = 0 then
    let s := s.debugTouch.writeReg .debug a v
    (true, if a = 0xF8030 ∧ tbit v 2 then s.seqStepOne else s)
  else s.debugTouch.fabricWrite .debug a n v

/-! ### Accesses of any master -/

/-- A read and a write by a master; those of the debug port need its level too (R454, R470). It fetches nothing. -/
def masterRead (s : State) (m : Master) (a n : Nat) (k : AccessKind) : Option Nat × State :=
  if m = .debug ∧ k = .read then kdaRead s a n else s.fabricRead m a n k
def masterWrite (s : State) (m : Master) (a n v : Nat) : Bool × State :=
  if m = .debug then kdaWrite s a n v else s.fabricWrite m a n v

/-- FABRIC_ACCESS: one access; an access to the mailbox may share its cycle with the last or the next one on the other
port (R456). -/
def fabricAccess (s : State) (m : Master) (a n : Nat) (kind : AccessKind) (val : Nat) (sh : Share) : State :=
  let s := s.mboxBegin a sh
  let s := match kind with
    | .write => (masterWrite s m a n val).2
    | k => (masterRead s m a n k).2
  s.mboxOver a sh

def execFabricAccess (m : Master) (addr : Word) (acc : Access) (kind : AccessKind) (val : DWord) (sh : Share) (s : State) :
    Host.Outcome State Fault Refusal :=
  .next (fabricAccess s m addr.toNat (Access.size acc) kind val.toNat sh)

def execRegisterWrite (m : Master) (addr : Word) (acc : Access) (val : Word) (s : State) :
    Host.Outcome State Fault Refusal := .next (s.mboxAlone addr.toNat (masterWrite · m addr.toNat (Access.size acc) val.toNat)).2

/-- COUNTER_LOW_READ (R14): a read that has been allowed; the debug port's needs its level. -/
def counterLowRead (s : State) (m : Master) (a : Nat) : State :=
  if m = .debug then (s.mboxAlone a (kdaRead · a 4)).2 else (s.readReg m a).2

def execCounterLowRead (m : Master) (addr : Word) (s : State) : Host.Outcome State Fault Refusal :=
  .next (counterLowRead s m addr.toNat)

/-! ### KDA scans -/

/-- A complete request of the debug port. -/
def State.kdaRequest (s : State) (h : BitVec 64) (ws : List (Option (BitVec 64))) : State :=
  let (l, s) := s.request (fun s a n => s.mboxAlone a (kdaRead · a n)) (fun s a n v => s.mboxAlone a (kdaWrite · a n v)) h ws
  { s with dbg := { s.dbg with kda := s.dbg.kda ++ l.map hsiaoEnc, kdaReq := none } }

/-- The oldest response word leaves; with none waiting, what is shifted out is open. -/
def State.kdaOut (s : State) : State :=
  match s.dbg.kda with
  | w :: t => { s with dbg := { s.dbg with tdo := w.toNat, kda := t } }
  | [] =>
    let (f, s) := s.draw 72
    { s with dbg := { s.dbg with tdo := f } }

/-- KDA_SCAN (R470): a response word out, a request word in. -/
def kdaScan (s : State) (w : ECWord) : State :=
  if s.dbg.ir ≠ 0x10 ∨ s.elec.inReset then s
  else
    let (d, s) := s.kdaOut.portWord 0x45 w
    match s.dbg.kdaReq with
    | some (h, ws) =>
      let ws := ws ++ [d]
      if ws.length < reqCount h then { s with dbg := { s.dbg with kdaReq := some (h, ws) } } else s.kdaRequest h ws
    | none =>
      match d with
      | none => s
      | some h =>
        if reqOp h = 2 ∧ !reqBad h then { s with dbg := { s.dbg with kdaReq := some (h, []) } } else s.kdaRequest h []

def execKdaScan (word : ECWord) (s : State) : Host.Outcome State Fault Refusal := .next (kdaScan s word)

end Sys2Proof.Machine
end

