-- ==== Sys2Proof/Machine/Tick.lean ====
section
/-! DEFINITION. The tick boundary (R43 to R48), and the phases of a tick that gather the work of several units: the input
phase, the composer phase and the launch of the frames. -/
namespace Sys2Proof.Machine
open Sys2Proof

/-! ### The boundary -/

/-- The length of the tick that ends in CK_CORE cycles (R44, R45, R59): as its crossing gives it, and outside realignment
and free-running ticks with the drift of a CK_CORE that is off frequency (R47). -/
def State.tickCycles (s : State) (drift : Int) : Nat :=
  if s.ctl.realign || s.timeLost then s.crossLen else ((s.crossLen : Int) + drift).toNat

/-- The length of the tick that ends is recorded (R45, R47). -/
def State.tickLen (s : State) (drift : Int) : State :=
  let cycles := s.tickCycles drift
  let s := s.setFld CLK_TICK_LEN_LAST (min cycles 2047)
  if s.ctl.realign then s.flag CLK_TICK_LEN_REALIGN
  else
    let s := s.when (cycles == 999) (·.flag CLK_TICK_LEN_SEEN_999)
    let s := s.when (cycles == 1001) (·.flag CLK_TICK_LEN_SEEN_1001)
    if 999 ≤ cycles ∧ cycles ≤ 1001 then s else (s.flag CLK_TICK_LEN_LEN_ERR).send 0x010 0x10 0

/-- What the tick that ends leaves behind, and the number of the tick that begins: the first boundary keeps 0 (R46), a
standby in JOIN may adopt its partner's (R304). -/
def State.tickCount (s : State) (drift : Int) : State :=
  if !s.ctl.started then { s with ctl := { s.ctl with started := true } }
  else
    let s := ((acqBoundary s).tickLen drift).pairBoundary
    let next := s.now + 1
    let (t, s) := (s.ckptBoundary next).adoptTick next
    { s with ctl := { s.ctl with tick := t % 2 ^ 64 } }

/-- The requests and causes that a boundary evaluates (R36, R40, R243, R307): a takeover, a release, then the transition
and what follows from it. DESIGN CHOICE (log 101): the transition is evaluated with the time mode in force before the
boundary's domain selection (R268). -/
def State.boundaryState (s : State) : State :=
  let s := if s.red.take then s.takeover 1 else s
  let s := if s.ctl.seqReq = some 5 ∧ s.op = 7 ∧ s.role ≠ 2 ∧ !s.bit CE_STAT_TURN_ERR then releaseRequest s else s
  let s := s.protBoundary
  let old := s.op
  let s := (loopbackEnd (portsStop s.transition)).timeBoundary old
  if s.ctl.realign then acqStep s else s

/-- The work of cycle 0 (R29, R31, R188, R398): staged slot writes in order, the device status slots of a unit that is
not STANDBY (R294), the pattern commit, the station setpoints. -/
def State.cycleZero (s : State) : State :=
  let st := s.ctl.staged
  let s := { s with ctl := { s.ctl with staged := [] } }
  let s := st.foldl (fun (s : State) x => s.setSlot x.slot x.val) s
  let s := if s.role = 2 then s else s.statusSlots
  setpointLatch (patternCommit s)

/-- The runs and records of a tick begin anew; the pipeline stands still in the ticks of a halt that no step releases
(R473). -/
def State.tickFresh (s : State) : State :=
  let s := (upto 4).foldl (fun s m => s.portInvalid m) s.snsTick
  let s := { s with eng := { s.eng with reads := [], done := [], aband := [], endCyc := 0, lastEnd := 0 } }
  if s.bit DBG_PIPE_HALTED then
    let left := s.fld DBG_PIPE_LEFT
    { s.setFld DBG_PIPE_LEFT (left - 1) with dbg := { s.dbg with frozen := decide (left = 0) } }
  else { s with dbg := { s.dbg with frozen := false } }

/-- TICK_BOUNDARY: control time reaches the next grid instant. The requests that wait at the host port have been answered, and the
sources that have been quiet leave their fault states before the release conditions are evaluated (R323, R242). -/
def tickBoundary (s : State) (drift : Int) : State :=
  if !s.ticksRun then s
  else ((((s.hostAnswer 0).tickCount drift).timeCross.quietAll.boundaryState.cycleZero).tickFresh).seqBoundary

def execTickBoundary (drift : Int) (s : State) : Host.Outcome State Fault Refusal := .next (tickBoundary s drift)

/-! ### Phases -/

/-- INPUT_PHASE (R48): alignment, the unpacker with the aggregates, metering and acquisition. -/
def inputPhase (s : State) : State := acqPhase (meterPhase (s.inPhase fun s => unpack (align s)))

def execInputPhase (s : State) : Host.Outcome State Fault Refusal := .next (inputPhase s)

/-- COMPOSER_PHASE: the frames for the next tick, and the acquisition's values of cycle 980 (R52, R337). -/
def execComposerPhase (s : State) : Host.Outcome State Fault Refusal := .next (acqCommit (composerPhase s))

/-- FRAME_LAUNCH (R53, R82): every port that is neither OFF nor told to stop launches its frame; during the block stream (R58) and while
boundary scan holds the pins (R469) none does. `lph` is the launch phase, `d` the turnarounds that the frames report. -/
def frameLaunch (s : State) (lph : Nat) (d : LaunchData) : State :=
  if s.ctl.stream ∨ s.dbg.scan then s
  else
    let s := { s with cmp := { s.cmp with lph := lph } }
    let on (s : State) (l : Nat) : Bool := s.portState l != 0 && !(s.lane l).stopping
    let s := s.each ((upto 32).filter (on s)) fun s n => s.launchCl lph n
    let s := s.each ((upto 4).filter fun m => on s (32 + m)) fun s m => s.launchSl lph m
    let s := s.pairPrepare lph
    let s := if on s 36 then s.launchPair 0 lph d.tp0.toNat else s
    let s := if on s 37 then s.launchPair 1 lph d.tp1.toNat else s
    let s := if on s 38 then s.launchBus 2 lph d.ta2.toNat else s
    let s := if on s 39 then s.launchBus 3 lph d.ta3.toNat else s
    s.busLaunched lph

def execFrameLaunch (lph : Fin 32) (d : LaunchData) (s : State) : Host.Outcome State Fault Refusal :=
  .next (frameLaunch s lph d)

end Sys2Proof.Machine
end

