-- ==== Sys2Proof/Machine/Dispatch.lean ====
section
/-! DEFINITION. One arm per command of the opcode table. -/
namespace Sys2Proof.Machine
open Sys2Proof

/-- The effect of a command on everything but the queue. -/
def exec (i : Instr) (s : State) : Host.Outcome State Fault Refusal :=
  match i with
  | .tickBoundary drift => Sys2Proof.Machine.execTickBoundary drift s
  | .stateRequest m val => Sys2Proof.Machine.execStateRequest m val s
  | .registerWrite m addr acc val => Sys2Proof.Machine.execRegisterWrite m addr acc val s
  | .counterClear m addr val => Sys2Proof.Machine.execCounterClear m addr val s
  | .counterLowRead m addr => Sys2Proof.Machine.execCounterLowRead m addr s
  | .stagedSlotWrite m slot val => Sys2Proof.Machine.execStagedSlotWrite m slot val s
  | .inputPhase => Sys2Proof.Machine.execInputPhase s
  | .auxTimeout g => Sys2Proof.Machine.execAuxTimeout g s
  | .selectionPass1 => Sys2Proof.Machine.execSelectionPass1 s
  | .cellEscalation => Sys2Proof.Machine.execCellEscalation s
  | .channelStep p => Sys2Proof.Machine.execChannelStep p s
  | .controlFence => Sys2Proof.Machine.execControlFence s
  | .plannerPhase => Sys2Proof.Machine.execPlannerPhase s
  | .selectionThreshold => Sys2Proof.Machine.execSelectionThreshold s
  | .selectionPass2 => Sys2Proof.Machine.execSelectionPass2 s
  | .composerPhase => Sys2Proof.Machine.execComposerPhase s
  | .frameLaunch lph d => Sys2Proof.Machine.execFrameLaunch lph d s
  | .priorityMarkerSend lane k w => Sys2Proof.Machine.execPriorityMarkerSend lane k w s
  | .frameMarkerRx lane word ui => Sys2Proof.Machine.execFrameMarkerRx lane word ui s
  | .frameMiss lane => Sys2Proof.Machine.execFrameMiss lane s
  | .los lane cause => Sys2Proof.Machine.execLos lane cause s
  | .losClear lane pin => Sys2Proof.Machine.execLosClear lane pin s
  | .lol lane cdrUnlock => Sys2Proof.Machine.execLol lane cdrUnlock s
  | .lolClear lane => Sys2Proof.Machine.execLolClear lane s
  | .faultedRecovery lane => Sys2Proof.Machine.execFaultedRecovery lane s
  | .portSilent lane => Sys2Proof.Machine.execPortSilent lane s
  | .portEnable m lane => Sys2Proof.Machine.execPortEnable m lane s
  | .portDisable m lane => Sys2Proof.Machine.execPortDisable m lane s
  | .loopbackSelect m lane lb => Sys2Proof.Machine.execLoopbackSelect m lane lb s
  | .cellFrameRx port line cyc rtt => Sys2Proof.Machine.execCellFrameRx port line cyc rtt s
  | .alertRx lane word => Sys2Proof.Machine.execAlertRx lane word s
  | .blockMarkerRx lane word => Sys2Proof.Machine.execBlockMarkerRx lane word s
  | .trigRx lane word ofs => Sys2Proof.Machine.execTrigRx lane word ofs s
  | .execOffsetWrite m val => Sys2Proof.Machine.execExecOffsetWrite m val s
  | .hubHeaderAccept hub u hdr ui => Sys2Proof.Machine.execHubHeaderAccept hub u hdr ui s
  | .hubWordForward hub u pos word crcOk => Sys2Proof.Machine.execHubWordForward hub u pos word crcOk s
  | .hubBlockRelay hub u word => Sys2Proof.Machine.execHubBlockRelay hub u word s
  | .hubAlert hub cause => Sys2Proof.Machine.execHubAlert hub cause s
  | .concAlert conc ch cstat => Sys2Proof.Machine.execConcAlert conc ch cstat s
  | .concFrameLaunch conc d => Sys2Proof.Machine.execConcFrameLaunch conc d s
  | .cellWordAccept g word mark inst => Sys2Proof.Machine.execCellWordAccept g word mark inst s
  | .cellMissingTick g xtick mark inst => Sys2Proof.Machine.execCellMissingTick g xtick mark inst s
  | .cellEdge g => Sys2Proof.Machine.execCellEdge g s
  | .cellReport g j vcap temp => Sys2Proof.Machine.execCellReport g j vcap temp s
  | .cellBlockMarker g word inst => Sys2Proof.Machine.execCellBlockMarker g word inst s
  | .shootThroughAttempt g sw inst => Sys2Proof.Machine.execShootThroughAttempt g sw inst s
  | .desat g sw inst => Sys2Proof.Machine.execDesat g sw inst s
  | .oc g inst => Sys2Proof.Machine.execOc g inst s
  | .uvloGate g sw inst => Sys2Proof.Machine.execUvloGate g sw inst s
  | .uvloAux g inst => Sys2Proof.Machine.execUvloAux g inst s
  | .capOv g vcap inst => Sys2Proof.Machine.execCapOv g vcap inst s
  | .autonomousBypass g cause inst => Sys2Proof.Machine.execAutonomousBypass g cause inst s
  | .bypassConfirm g => Sys2Proof.Machine.execBypassConfirm g s
  | .bypassFail g => Sys2Proof.Machine.execBypassFail g s
  | .selftestEnd g fails => Sys2Proof.Machine.execSelftestEnd g fails s
  | .nop g data => Sys2Proof.Machine.execNop g data s
  | .setAddr g data => Sys2Proof.Machine.execSetAddr g data s
  | .write g data => Sys2Proof.Machine.execWrite g data s
  | .commit g data => Sys2Proof.Machine.execCommit g data s
  | .enable g data => Sys2Proof.Machine.execEnable g data s
  | .dcomp g data => Sys2Proof.Machine.execDcomp g data s
  | .probe g data => Sys2Proof.Machine.execProbe g data s
  | .selftest g data => Sys2Proof.Machine.execSelftest g data s
  | .closeBypass g data => Sys2Proof.Machine.execCloseBypass g data s
  | .auxReqSetAddr m g data => Sys2Proof.Machine.execAuxReqSetAddr m g data s
  | .auxReqWrite m g data => Sys2Proof.Machine.execAuxReqWrite m g data s
  | .auxReqEnable m g data => Sys2Proof.Machine.execAuxReqEnable m g data s
  | .auxReqCloseBypass m g data => Sys2Proof.Machine.execAuxReqCloseBypass m g data s
  | .selftestPeriod arm => Sys2Proof.Machine.execSelftestPeriod arm s
  | .stestTimeout g => Sys2Proof.Machine.execStestTimeout g s
  | .exclude m g => Sys2Proof.Machine.execExclude m g s
  | .readmit m g => Sys2Proof.Machine.execReadmit m g s
  | .excludeForSelftest m g => Sys2Proof.Machine.execExcludeForSelftest m g s
  | .exclDenied g => Sys2Proof.Machine.execExclDenied g s
  | .patternCommitRequest m => Sys2Proof.Machine.execPatternCommitRequest m s
  | .swapRequest m val => Sys2Proof.Machine.execSwapRequest m val s
  | .bankSwap => Sys2Proof.Machine.execBankSwap s
  | .primeRequest m c => Sys2Proof.Machine.execPrimeRequest m c s
  | .slackClear m => Sys2Proof.Machine.execSlackClear m s
  | .tripPin p sampled => Sys2Proof.Machine.execTripPin p sampled s
  | .tripPinCfgWrite m val => Sys2Proof.Machine.execTripPinCfgWrite m val s
  | .comparatorSample n code valid => Sys2Proof.Machine.execComparatorSample n code valid s
  | .minblkExpiry => Sys2Proof.Machine.execMinblkExpiry s
  | .releaseRequest m val => Sys2Proof.Machine.execReleaseRequest m val s
  | .forceBlock m val => Sys2Proof.Machine.execForceBlock m val s
  | .sensorFrameRx port line cyc rtt => Sys2Proof.Machine.execSensorFrameRx port line cyc rtt s
  | .ptpSyncRx p msg => Sys2Proof.Machine.execPtpSyncRx p msg s
  | .announceRx p msg => Sys2Proof.Machine.execAnnounceRx p msg s
  | .pdelayReqRx p msg => Sys2Proof.Machine.execPdelayReqRx p msg s
  | .tp0Pulse t mhz => Sys2Proof.Machine.execTp0Pulse t mhz s
  | .busFrameRx ml line cyc rtt => Sys2Proof.Machine.execBusFrameRx ml line cyc rtt s
  | .domLost d => Sys2Proof.Machine.execDomLost d s
  | .hoExpired => Sys2Proof.Machine.execHoExpired s
  | .domainSrcWrite m d val => Sys2Proof.Machine.execDomainSrcWrite m d val s
  | .tp1Edge pps inst => Sys2Proof.Machine.execTp1Edge pps inst s
  | .clockLoss src clk => Sys2Proof.Machine.execClockLoss src clk s
  | .ckCoreLoss => Sys2Proof.Machine.execCkCoreLoss s
  | .ckTimeLoss => Sys2Proof.Machine.execCkTimeLoss s
  | .ckTimeReturn => Sys2Proof.Machine.execCkTimeReturn s
  | .blockStreamCreset => Sys2Proof.Machine.execBlockStreamCreset s
  | .pairFrameRx ml line cyc x => Sys2Proof.Machine.execPairFrameRx ml line cyc x s
  | .roleWaitExpiry => Sys2Proof.Machine.execRoleWaitExpiry s
  | .demoted => Sys2Proof.Machine.execDemoted s
  | .epochClear m => Sys2Proof.Machine.execEpochClear m s
  | .statLate => Sys2Proof.Machine.execStatLate s
  | .stateFollow stat => Sys2Proof.Machine.execStateFollow stat s
  | .mirroredRequestApply msgs => Sys2Proof.Machine.execMirroredRequestApply msgs s
  | .digestCompare => Sys2Proof.Machine.execDigestCompare s
  | .checkpointCycleStart => Sys2Proof.Machine.execCheckpointCycleStart s
  | .takeoverDecision => Sys2Proof.Machine.execTakeoverDecision s
  | .doublesAnnounce => Sys2Proof.Machine.execDoublesAnnounce s
  | .doublesRequest m val => Sys2Proof.Machine.execDoublesRequest m val s
  | .doublesCheck => Sys2Proof.Machine.execDoublesCheck s
  | .doublesSwap => Sys2Proof.Machine.execDoublesSwap s
  | .heartbeatToggle => Sys2Proof.Machine.execHeartbeatToggle s
  | .hbLost => Sys2Proof.Machine.execHbLost s
  | .sumpService => Sys2Proof.Machine.execSumpService s
  | .srcClear src => Sys2Proof.Machine.execSrcClear src s
  | .creset => Sys2Proof.Machine.execCreset s
  | .errClear m => Sys2Proof.Machine.execErrClear m s
  | .fresetDone fn idx => Sys2Proof.Machine.execFresetDone fn idx s
  | .fresetClPort n => Sys2Proof.Machine.execFresetClPort n s
  | .fresetSensor => Sys2Proof.Machine.execFresetSensor s
  | .fresetMlPort n => Sys2Proof.Machine.execFresetMlPort n s
  | .fresetStationPort n => Sys2Proof.Machine.execFresetStationPort n s
  | .fresetTimeDomain n => Sys2Proof.Machine.execFresetTimeDomain n s
  | .fresetAcquisition => Sys2Proof.Machine.execFresetAcquisition s
  | .fresetEnergy => Sys2Proof.Machine.execFresetEnergy s
  | .fresetSecurity => Sys2Proof.Machine.execFresetSecurity s
  | .fresetRedundancy => Sys2Proof.Machine.execFresetRedundancy s
  | .fresetSequencer => Sys2Proof.Machine.execFresetSequencer s
  | .fresetEngine => Sys2Proof.Machine.execFresetEngine s
  | .fresetPlanner => Sys2Proof.Machine.execFresetPlanner s
  | .fresetSelection => Sys2Proof.Machine.execFresetSelection s
  | .fresetComposer => Sys2Proof.Machine.execFresetComposer s
  | .fresetProtection => Sys2Proof.Machine.execFresetProtection s
  | .recorderArm m r => Sys2Proof.Machine.execRecorderArm m r s
  | .recorderStop m r => Sys2Proof.Machine.execRecorderStop m r s
  | .missedClear m r => Sys2Proof.Machine.execMissedClear m r s
  | .softTrigger m mask => Sys2Proof.Machine.execSoftTrigger m mask s
  | .segmentFree m r seg => Sys2Proof.Machine.execSegmentFree m r seg s
  | .recordHeaderWritten r => Sys2Proof.Machine.execRecordHeaderWritten r s
  | .holdOffEnd r => Sys2Proof.Machine.execHoldOffEnd r s
  | .retentionEnter m => Sys2Proof.Machine.execRetentionEnter m s
  | .retentionWake m => Sys2Proof.Machine.execRetentionWake m s
  | .retentionAwake => Sys2Proof.Machine.execRetentionAwake s
  | .recordCommit => Sys2Proof.Machine.execRecordCommit s
  | .signFail => Sys2Proof.Machine.execSignFail s
  | .recordResend => Sys2Proof.Machine.execRecordResend s
  | .recordAck p f => Sys2Proof.Machine.execRecordAck p f s
  | .recordReq p f => Sys2Proof.Machine.execRecordReq p f s
  | .attestReq p f => Sys2Proof.Machine.execAttestReq p f s
  | .energyClear m val => Sys2Proof.Machine.execEnergyClear m val s
  | .ownProg m ofs => Sys2Proof.Machine.execOwnProg m ofs s
  | .ownRevoke m ofs => Sys2Proof.Machine.execOwnRevoke m ofs s
  | .arbAdv m ofs => Sys2Proof.Machine.execArbAdv m ofs s
  | .portKey m ofs => Sys2Proof.Machine.execPortKey m ofs s
  | .attest m ofs => Sys2Proof.Machine.execAttest m ofs s
  | .getId m ofs => Sys2Proof.Machine.execGetId m ofs s
  | .dbgRaise m ofs => Sys2Proof.Machine.execDbgRaise m ofs s
  | .securityCommandEnd => Sys2Proof.Machine.execSecurityCommandEnd s
  | .signatureDone => Sys2Proof.Machine.execSignatureDone s
  | .entFail => Sys2Proof.Machine.execEntFail s
  | .idRegen => Sys2Proof.Machine.execIdRegen s
  | .keyStoreReload word => Sys2Proof.Machine.execKeyStoreReload word s
  | .debugAuth m val => Sys2Proof.Machine.execDebugAuth m val s
  | .challengeRead m => Sys2Proof.Machine.execChallengeRead m s
  | .debugSessionTimeout => Sys2Proof.Machine.execDebugSessionTimeout s
  | .trst => Sys2Proof.Machine.execTrst s
  | .linkDown p hiBer => Sys2Proof.Machine.execLinkDown p hiBer s
  | .setpoint p f => Sys2Proof.Machine.execSetpoint p f s
  | .request p f => Sys2Proof.Machine.execRequest p f s
  | .c0Late p => Sys2Proof.Machine.execC0Late p s
  | .status p => Sys2Proof.Machine.execStatus p s
  | .response p => Sys2Proof.Machine.execResponse p s
  | .powerOn => Sys2Proof.Machine.execPowerOn s
  | .resetRelease idBlobOk => Sys2Proof.Machine.execResetRelease idBlobOk s
  | .pllLock locked flashOk => Sys2Proof.Machine.execPllLock locked flashOk s
  | .porst low => Sys2Proof.Machine.execPorst low s
  | .chipReset => Sys2Proof.Machine.execChipReset s
  | .imageReadComplete => Sys2Proof.Machine.execImageReadComplete s
  | .imageVerify => Sys2Proof.Machine.execImageVerify s
  | .imageLoadRequest m val => Sys2Proof.Machine.execImageLoadRequest m val s
  | .flashRead m val => Sys2Proof.Machine.execFlashRead m val s
  | .flashProgram m val => Sys2Proof.Machine.execFlashProgram m val s
  | .flashErase m val => Sys2Proof.Machine.execFlashErase m val s
  | .flashDone => Sys2Proof.Machine.execFlashDone s
  | .flErr => Sys2Proof.Machine.execFlErr s
  | .portOffline m port => Sys2Proof.Machine.execPortOffline m port s
  | .portOnline m port => Sys2Proof.Machine.execPortOnline m port s
  | .offlineWithdraw port => Sys2Proof.Machine.execOfflineWithdraw port s
  | .add rd ra rb => Sys2Proof.Machine.execAdd rd ra rb s
  | .sub rd ra rb => Sys2Proof.Machine.execSub rd ra rb s
  | .and rd ra rb => Sys2Proof.Machine.execAnd rd ra rb s
  | .or rd ra rb => Sys2Proof.Machine.execOr rd ra rb s
  | .xor rd ra rb => Sys2Proof.Machine.execXor rd ra rb s
  | .sll rd ra rb => Sys2Proof.Machine.execSll rd ra rb s
  | .srl rd ra rb => Sys2Proof.Machine.execSrl rd ra rb s
  | .sra rd ra rb => Sys2Proof.Machine.execSra rd ra rb s
  | .slt rd ra rb => Sys2Proof.Machine.execSlt rd ra rb s
  | .sltu rd ra rb => Sys2Proof.Machine.execSltu rd ra rb s
  | .mul rd ra rb => Sys2Proof.Machine.execMul rd ra rb s
  | .div rd ra rb => Sys2Proof.Machine.execDiv rd ra rb s
  | .addi rd ra imm => Sys2Proof.Machine.execAddi rd ra imm s
  | .andi rd ra imm => Sys2Proof.Machine.execAndi rd ra imm s
  | .ori rd ra imm => Sys2Proof.Machine.execOri rd ra imm s
  | .slli rd ra imm => Sys2Proof.Machine.execSlli rd ra imm s
  | .srli rd ra imm => Sys2Proof.Machine.execSrli rd ra imm s
  | .srai rd ra imm => Sys2Proof.Machine.execSrai rd ra imm s
  | .lui rd imm => Sys2Proof.Machine.execLui rd imm s
  | .lw rd ra imm => Sys2Proof.Machine.execLw rd ra imm s
  | .lbu rd ra imm => Sys2Proof.Machine.execLbu rd ra imm s
  | .sw rd ra imm => Sys2Proof.Machine.execSw rd ra imm s
  | .sb rd ra imm => Sys2Proof.Machine.execSb rd ra imm s
  | .beq ra rb off => Sys2Proof.Machine.execBeq ra rb off s
  | .bne ra rb off => Sys2Proof.Machine.execBne ra rb off s
  | .blt ra rb off => Sys2Proof.Machine.execBlt ra rb off s
  | .bge ra rb off => Sys2Proof.Machine.execBge ra rb off s
  | .bltu ra rb off => Sys2Proof.Machine.execBltu ra rb off s
  | .bgeu ra rb off => Sys2Proof.Machine.execBgeu ra rb off s
  | .jal rd off => Sys2Proof.Machine.execJal rd off s
  | .jalr rd ra imm => Sys2Proof.Machine.execJalr rd ra imm s
  | .wtick imm => Sys2Proof.Machine.execWtick imm s
  | .wevt rd ra rb => Sys2Proof.Machine.execWevt rd ra rb s
  | .waitComplete => Sys2Proof.Machine.execWaitComplete s
  | .srd rd ra imm => Sys2Proof.Machine.execSrd rd ra imm s
  | .swr rd ra imm => Sys2Proof.Machine.execSwr rd ra imm s
  | .req imm => Sys2Proof.Machine.execReq imm s
  | .blk => Sys2Proof.Machine.execBlk s
  | .flt ra imm => Sys2Proof.Machine.execFlt ra imm s
  | .sign rd ra rb => Sys2Proof.Machine.execSign rd ra rb s
  | .send rd ra rb => Sys2Proof.Machine.execSend rd ra rb s
  | .rdsr rd imm => Sys2Proof.Machine.execRdsr rd imm s
  | .retn => Sys2Proof.Machine.execRetn s
  | .kick => Sys2Proof.Machine.execKick s
  | .seqIllegal => Sys2Proof.Machine.execSeqIllegal s
  | .nmiEntry => Sys2Proof.Machine.execNmiEntry s
  | .roleVectorEntry reason => Sys2Proof.Machine.execRoleVectorEntry reason s
  | .lockstep => Sys2Proof.Machine.execLockstep s
  | .wdog => Sys2Proof.Machine.execWdog s
  | .eventSet m val => Sys2Proof.Machine.execEventSet m val s
  | .fabricAccess m addr acc kind val sh => Sys2Proof.Machine.execFabricAccess m addr acc kind val sh s
  | .correctedWriteback => Sys2Proof.Machine.execCorrectedWriteback s
  | .caverTestStart => Sys2Proof.Machine.execCaverTestStart s
  | .caverTestDone mismatch => Sys2Proof.Machine.execCaverTestDone mismatch s
  | .caverAbandon => Sys2Proof.Machine.execCaverAbandon s
  | .hostRead hdr waiting wait sh => Sys2Proof.Machine.execHostRead hdr waiting wait sh s
  | .hostWrite hdr data waiting wait sh => Sys2Proof.Machine.execHostWrite hdr data waiting wait sh s
  | .extest pins tdi => Sys2Proof.Machine.execExtest pins tdi s
  | .samplePreload pins tdi => Sys2Proof.Machine.execSamplePreload pins tdi s
  | .idcode tdi => Sys2Proof.Machine.execIdcode tdi s
  | .clamp tdi => Sys2Proof.Machine.execClamp tdi s
  | .highz tdi => Sys2Proof.Machine.execHighz tdi s
  | .extestPulse pins tdi => Sys2Proof.Machine.execExtestPulse pins tdi s
  | .extestTrain pins tdi => Sys2Proof.Machine.execExtestTrain pins tdi s
  | .kda => Sys2Proof.Machine.execKda s
  | .bypass code tdi => Sys2Proof.Machine.execBypass code tdi s
  | .kdaScan word => Sys2Proof.Machine.execKdaScan word s
  | .seqHalt => Sys2Proof.Machine.execSeqHalt s
  | .seqResume => Sys2Proof.Machine.execSeqResume s
  | .seqStep => Sys2Proof.Machine.execSeqStep s
  | .breakpointHit => Sys2Proof.Machine.execBreakpointHit s
  | .pipeHalt => Sys2Proof.Machine.execPipeHalt s
  | .pipeResume => Sys2Proof.Machine.execPipeResume s
  | .pipeStep count => Sys2Proof.Machine.execPipeStep count s
  | .supplyExcursion rail kind => Sys2Proof.Machine.execSupplyExcursion rail kind s
  | .tempReading code => Sys2Proof.Machine.execTempReading code s
  | .tempMaxClear m => Sys2Proof.Machine.execTempMaxClear m s
  | .c0LatClear m p => Sys2Proof.Machine.execC0LatClear m p s
  | .clockReturn clk => Sys2Proof.Machine.execClockReturn clk s
  | .linkUp p => Sys2Proof.Machine.execLinkUp p s
  | .tripPinInactive p => Sys2Proof.Machine.execTripPinInactive p s
  | .concHeaderAccept conc u hdr d0 d1 mark => Sys2Proof.Machine.execConcHeaderAccept conc u hdr d0 d1 mark s
  | .hubFrameLaunch hub u j d => Sys2Proof.Machine.execHubFrameLaunch hub u j d s
  | .hubPowerUp hub => Sys2Proof.Machine.execHubPowerUp hub s
  | .cellPowerUp g => Sys2Proof.Machine.execCellPowerUp g s
  | .pdelayRespRx p msg => Sys2Proof.Machine.execPdelayRespRx p msg s
  | .entropyRecovery => Sys2Proof.Machine.execEntropyRecovery s
  | .keyStoreReloadDone blobOk => Sys2Proof.Machine.execKeyStoreReloadDone blobOk s
  | .debugBackoffEnd => Sys2Proof.Machine.execDebugBackoffEnd s
  | .supplyRecovery rail => Sys2Proof.Machine.execSupplyRecovery rail s
  | .gateSupplyRecovery g supply inst => Sys2Proof.Machine.execGateSupplyRecovery g supply inst s
  | .heartbeatEdgeRx => Sys2Proof.Machine.execHeartbeatEdgeRx s

end Sys2Proof.Machine
end

