-- ==== Sys2Proof/Safety.lean ====
section
/-! DEFINITION. The terms in which statements speak of what a command leaves unchanged and of what every state must
keep. -/
namespace Sys2Proof.Machine
open Sys2Proof

/-- Every register field reads as before, but for the listed ones. -/
def SameRegs (fs : List Fld) (s t : State) : Prop :=
  ∀ f : Fld, (∀ g ∈ fs, f.key ≠ g.key) → t.fld f = s.fld f

/-- Every byte of memory reads as before. -/
def SameMem (s t : State) : Prop := ∀ a, t.byteAt a = s.byteAt a

/-- Every byte of memory outside the n bytes from an address on reads as before. -/
def SameMemBut (a n : Nat) (s t : State) : Prop := ∀ b, (b < a ∨ a + n ≤ b) → t.byteAt b = s.byteAt b

/-- Every entry of a table reads as before, but for the listed keys. -/
def SameBut {α : Type} (d : α) (ks : List Nat) (m m' : NMap α) : Prop := ∀ k, k ∉ ks → mget d m' k = mget d m k

/-- Nothing but registers changes, and of these the listed fields alone. -/
def OnlyRegs (fs : List Fld) (s t : State) : Prop := t = { s with regs := t.regs } ∧ SameRegs fs s t

/-- Nothing changes but the sequencer's general registers, its pc and the breakpoint mark that an instruction clears. -/
def OnlySeqRegs (s t : State) : Prop :=
  t = { s with seq := { s.seq with x := t.seq.x, pc := t.seq.pc, pass := t.seq.pass } }

/-- A sequencer instruction has completed with a result: the pc is as given, register rd (unless it is s0) holds the
result cut to 32 bits, every other register and every byte of memory and all else is as before. -/
def SeqWrites (rd : Fin 16) (v pc : Nat) (s t : State) : Prop :=
  OnlySeqRegs s t ∧ t.seq.pc = pc % 2 ^ 32 ∧ (rd ≠ 0 → t.sx rd = v % 2 ^ 32)
    ∧ (∀ r : Fin 16, r ≠ rd → t.sx r = s.sx r) ∧ SameMem s t

/-- A sequencer instruction has completed without a result: the pc is as given and all else is as before. -/
def SeqGoes (pc : Nat) (s t : State) : Prop :=
  OnlySeqRegs s t ∧ t.seq.pc = pc % 2 ^ 32 ∧ (∀ r : Fin 16, t.sx r = s.sx r) ∧ SameMem s t

/-- Nothing changes but one cell controller. -/
def OnlyCell (g : Nat) (s t : State) : Prop := t = { s with cells := t.cells } ∧ ∀ k, k ≠ g → t.cell k = s.cell k

/-- Nothing changes but one hub. -/
def OnlyHub (n : Nat) (s t : State) : Prop := t = { s with hubs := t.hubs } ∧ ∀ k, k ≠ n → t.hub k = s.hub k

/-- Nothing changes but one concentrator. -/
def OnlyConc (n : Nat) (s t : State) : Prop := t = { s with concs := t.concs } ∧ ∀ k, k ≠ n → t.conc k = s.conc k

/-- A cell rests in BLOCK: every switch off or going off, nothing scheduled, nothing waiting. -/
def Cell.down (c : Cell) : Prop := c.on = 0 ∧ c.state = 0 ∧ c.sched = 0 ∧ c.edges = [] ∧ c.waitOn = []

/-- A fault turn-off from one cell state to another (R144, R146, R147): down, with the first fault code kept and no
self-test; a run of ENABLE 0 words goes on only if the cell was in BLOCK. -/
def FaultOff (code : Nat) (c c' : Cell) : Prop :=
  c'.down ∧ c'.latch = (if c.latch = 0 then code else c.latch) ∧ c'.stest = none ∧ c'.zeroRun = (if c.state = 0 then c.zeroRun else 0) ∧ c'.enable = c.enable
    ∧ c'.stagedSet = c.stagedSet ∧ c'.activeSet = c.activeSet ∧ c'.committed = c.committed

/-- A read of n bytes of memory meets no obstacle: allowed, in one memory, on its own boundary, awake, not reserved, through
checkers without an armed injection, over a word stored without error, in no conflict of the mailbox's ports. -/
def State.readable (s : State) (m : Master) (a n : Nat) (k : AccessKind) : Prop :=
  s.regionOk m a n k = true ∧ inMemory a = true ∧ (n = 1 ∨ n = 4 ∨ n = 8) ∧ a % n = 0 ∧ s.asleep a = false ∧ reservedMem a = false
    ∧ s.bit (FLT_INJ_ARM 0x46) = false ∧ s.bit (FLT_INJ_ARM (checkerOf a)) = false ∧ s.errAt a = 0
    ∧ (inMbox a && s.mem.mbox.wrote (m == .host) a) = false

/-- A read that has met no obstacle: in the mailbox its port notes it (R456). -/
def State.looked (s : State) (m : Master) (a : Nat) : State :=
  if inMbox a then s.setMbox (s.mem.mbox.note (m == .host) false a) else s

/-- What such a read in a cycle of its own leaves. -/
def State.lookedAlone (s : State) (m : Master) (a : Nat) : State := ((s.mboxBegin a .no).looked m a).mboxOver a .no

/-- A write of n bytes to the sequencer memory or the mailbox meets no obstacle. -/
def State.writable (s : State) (m : Master) (a n : Nat) : Prop :=
  s.regionOk m a n .write = true ∧ (0x38000000 ≤ a ∧ a < 0x38080000 ∨ 0x3C000000 ≤ a ∧ a < 0x3C010000)
    ∧ (n = 1 ∨ n = 4 ∨ n = 8) ∧ a % n = 0 ∧ s.bit (FLT_INJ_ARM 0x46) = false ∧ s.bit (FLT_INJ_ARM (checkerOf a)) = false
    ∧ s.errAt a = 0 ∧ ¬ (m = .sequencer ∧ s.role = 2 ∧ 0x38070000 ≤ a ∧ a < 0x38077000)
    ∧ (inMbox a && (m == .host) && s.mem.mbox.wrote true a) = false
    ∧ (inMbox a && s.mem.mbox.hasRead (m == .host) a) = false

/-- A write that has met no obstacle: the bytes and, in the mailbox, what its ports keep of a write (R456). -/
def State.stored (s : State) (m : Master) (a n v : Nat) : State :=
  if inMbox a then (s.setMbox (s.mem.mbox.note (m == .host) true a)).wr a n v else s.wr a n v

/-- Kind and detail of the message that waits in a source's slot (R318, R324). -/
def State.msgAt (s : State) (src : Nat) : Option (Nat × Nat) :=
  (s.sump.slots.find? fun p => decide (p.1 = src)).map fun p => (p.2.kind, p.2.detail)

/-- A message from a source waits with its kind and detail, if none waited before. -/
def Told (src kind detail : Nat) (s t : State) : Prop := s.msgAt src = none → t.msgAt src = some (kind, detail % 2 ^ 32)

/-- The registers that merged messages write (R324). -/
def msgFlds : List Fld := [FLT_CNT_MERGED, FLT_CNT_OVF]

/-- Nothing changes but the listed register fields, one lane, waiting messages and, when a CL port leaves RUNNING, the delays
and downloads of its cells (R116, R118, R138). -/
def OnlyLane (fs : List Fld) (l : Nat) (s t : State) : Prop :=
  t = { s with regs := t.regs, lanes := t.lanes, sump := t.sump, pdly := t.pdly, ccell := t.ccell, mem := t.mem }
    ∧ SameRegs fs s t ∧ (∀ k, k ≠ l → t.lane k = s.lane k)
    ∧ ((32 ≤ l ∨ s.portState l ≠ 4) → t.pdly = s.pdly ∧ t.ccell = s.ccell ∧ t.mem = s.mem)

/-- The registers that a block cause writes (R228, R229, R239, R247, R434). -/
def blockFlds : List Fld :=
  [PRT_STAT_LATCHED, CLK_STATE_LATCHED_BLOCK, PRT_CAUSE_FIRST, PRT_CAUSE_FIRST_TICK, PRT_CAUSE_ALL, PRT_CNT_SET, PRT_CNT_OVF,
   SEQ_EVT, PRT_STAT_BO]

/-- Block cause i has arrived (R228, R229, R239): the latched block is set and shown, the cause is added, the first cause
keeps its bit and tick, the minimum block time starts again, BLOCK_OUT is active unless boundary scan holds the pins. -/
def Blocked (i : Nat) (s t : State) : Prop :=
  t.latched = true ∧ tbit (t.fld PRT_CAUSE_ALL) i = true ∧ t.prot.setTick = s.now ∧ t.prot.minDone = false
    ∧ (s.latched = false → t.fld PRT_CAUSE_FIRST = i ∧ t.fld PRT_CAUSE_FIRST_TICK = s.now % 65536
        ∧ t.fld CLK_STATE_LATCHED_BLOCK = 1)
    ∧ (s.latched = true → t.fld PRT_CAUSE_FIRST = s.fld PRT_CAUSE_FIRST)
    ∧ (s.dbg.scan = false → t.fld PRT_STAT_BO = 1)

/-- Nothing changes but the registers that a block cause and a message write and the listed ones, the protection's and the
acquisition's own state, the marker requests of the lanes, and waiting messages. -/
def OnlyBlock (fs : List Fld) (s t : State) : Prop :=
  t = { s with regs := t.regs, prot := t.prot, acq := t.acq, lanes := t.lanes, sump := t.sump }
    ∧ SameRegs (blockFlds ++ msgFlds ++ fs) s t

/-- The canonical form that the tables and the memory keep. -/
def State.canonical (s : State) : Bool := s.mem.wf

/-- No stored word has inverted bits and no checker is armed: every read of a unit's memory delivers what stands there (R331, R451). -/
def State.cleanMem (s : State) : Prop := s.mem.err = [] ∧ ∀ i < 128, s.bit (FLT_INJ_ARM i) = false

/-- Keys strictly rising from a bound on, all below 4,096: each cell of an image is listed once, under its global index. -/
def cellKeys {α : Type} : Nat → NMap α → Bool
  | _, [] => true
  | b, (k, _) :: t => decide (b ≤ k ∧ k < 4096) && cellKeys (k + 1) t

/-- The cell maps of the image in force and of the image being read are such tables (R409). -/
def State.imageOk (s : State) : Prop := cellKeys 0 s.ld.img.cells = true ∧ cellKeys 0 s.ld.trial.cells = true

/-- A checked read of the word at an address finds it stored without error and meets no armed injection. -/
def State.cleanWord (s : State) (a : Nat) : Prop := s.errAt a = 0 ∧ s.bit (FLT_INJ_ARM (checkerOf a)) = false

/-- Every word of the state memory is stored without error, and none of its checkers is armed. -/
def State.cleanBus (s : State) : Prop := ∀ a, 0x10000000 ≤ a → a < 0x10400000 → s.cleanWord a

end Sys2Proof.Machine
end

