-- ==== Sys2Proof/Certificates/Slice0/Obligations.lean ====
section
/-! DEFINITION. The statements for the provers. -/
open Sys2Proof Sys2Proof.Machine

/-- O1. For every state, command and queue rest, the step of the state whose queue begins with the command answers what exec answers for that command on the state with the queue's rest; every command of the table, with every operand and in every state, answers a next state; with an empty queue the step answers the same state (the model's choice, log entry 1), and no word of the opcode table spells a command, so that withFetchWord changes nothing. -/
def Obligations.StepRunsFrontCommand : Prop :=
  (∀ (s : State) (c : Instr) (rest : List Instr),
    Sys2Proof.Machine.step { s with pending := c :: rest } = exec c { s with pending := rest }) ∧
  (∀ (s : State) (c : Instr), ∃ t, exec c s = .next t) ∧
  (∀ s : State, s.pending = [] → Sys2Proof.Machine.step s = .next s) ∧
  (∀ (s : State) (nbits w : Nat), s.withFetchWord nbits w = s)

/-- O2. In State.reset every register field reads its Reset column value, the unit is in RESET with the chip reset asserted, BLOCK_OUT is held active by the always-on domain and PRT_STAT.BO reads 1, every slot and every sequencer register reads 0, every channel state has PRIME_PEND set (R217), ERR_A and ERR_B are asserted, the queue is empty and the memory has its canonical form. That memory without a reset value reads 0 is the model's choice (log entry 2). -/
def Obligations.ResetState : Prop :=
  (∀ f : Fld, State.reset.fld f = f.rst) ∧ State.reset.op = 0 ∧ State.reset.elec.inReset = true ∧
  State.reset.prot.boHold = true ∧ State.reset.fld PRT_STAT_BO = 1 ∧ (∀ i, State.reset.slot i = 0) ∧
  (∀ i, State.reset.sx i = 0) ∧ (∀ c, c < 192 → State.reset.rd (0x10020000 + 128 * c + 80) 4 = 0x100000) ∧
  State.reset.elec.errA = true ∧ State.reset.elec.errB = true ∧ State.reset.pending = [] ∧ State.reset.canonical = true ∧
  State.reset.fld CLK_CHIP_ID_PART = 0x9600 ∧ State.reset.fld CLK_CHIP_ID_STEP_MAJOR = 0xB

/-- O3. For all integers and widths, sat and clamp bound the value as R16 says, usat gives 0 to 2^w - 1, round_shift is floor((x + 2^(s-1)) / 2^s), floor_shift floor(x / 2^s), floor_div floor(a / b), wrap the residue below 2^w, bits the field, and sext the low w bits read as signed: congruent to x modulo 2^w and between -2^(w-1) and 2^(w-1) - 1; assignment to a field of w bits keeps the low w bits. -/
def Obligations.HelpersOfR16 : Prop :=
  (∀ x lo hi : Int, lo ≤ hi → (x < lo → clampI x lo hi = lo) ∧ (hi < x → clampI x lo hi = hi) ∧
    (lo ≤ x → x ≤ hi → clampI x lo hi = x)) ∧
  (∀ (x : Int) (w : Nat), 0 < w → sat x w = clampI x (-(2 ^ (w - 1) : Int)) (2 ^ (w - 1) - 1)) ∧
  (∀ (x : Int) (w : Nat), (usat x w : Int) = clampI x 0 (2 ^ w - 1)) ∧
  (∀ (x : Int) (k : Nat), roundShift x 0 = x ∧ roundShift x (k + 1) = ⌊((x : ℚ) + 2 ^ k) / 2 ^ (k + 1)⌋ ∧
    floorShift x k = ⌊(x : ℚ) / 2 ^ k⌋) ∧
  (∀ (a : Int) (b : Nat), 0 < b → floorDiv a b = ⌊(a : ℚ) / b⌋) ∧
  (∀ (x : Int) (w : Nat), (wrap x w : Int) = x % 2 ^ w ∧ wrap x w < 2 ^ w) ∧
  (∀ x m l i : Nat, l ≤ m → (bitsOf x m l).testBit i = (decide (i ≤ m - l) && x.testBit (l + i))) ∧
  (∀ x w : Nat, 0 < w → (sext x w - x) % 2 ^ w = 0 ∧ -(2 ^ (w - 1) : Int) ≤ sext x w ∧ sext x w < 2 ^ (w - 1)) ∧
  (∀ (s : State) (f : Fld) (v : Nat), (s.setFld f v).fld f = v % 2 ^ f.w)

/-- O4. For every counter and overflow field in different places, a content below 2^w and any increment k, counting leaves min(content + k, 2^w - 1); the counter's overflow bit i is set when and only when it was set or the sum passes 2^w - 1, no other overflow bit changes, and every other register and all else is unchanged. -/
def Obligations.CountersStopAtTop : Prop :=
  ∀ (s : State) (c o : Fld) (i k : Nat), o.key ≠ c.key → s.fld c < 2 ^ c.w → s.fld o < 2 ^ o.w → i < o.w →
    (s.count c o i k).fld c = min (s.fld c + k) (2 ^ c.w - 1) ∧
    (∀ j, j < o.w → tbit ((s.count c o i k).fld o) j =
      (tbit (s.fld o) j || (decide (j = i) && decide (2 ^ c.w - 1 < s.fld c + k)))) ∧
    OnlyRegs [c, o] s (s.count c o i k)

/-- O5. The columns the model uses are those of the rule (weight 3 in rising value, then the first 8 of weight 5), the first and last eight are the listed ones, check bit j is the exclusive or of the data bits whose column has bit j set, and inverting check bit j alone gives the syndrome 2^j. -/
def Obligations.HsiaoColumns : Prop :=
  hsiaoCols = hsiaoRule ∧ hsiaoCols.take 8 = [0x07, 0x0B, 0x0D, 0x0E, 0x13, 0x15, 0x16, 0x19] ∧
  hsiaoCols.drop 56 = [0x1F, 0x2F, 0x37, 0x3B, 0x3D, 0x3E, 0x4F, 0x57] ∧
  (∀ (d : BitVec 64) (j : Nat), j < 8 → (hsiaoChk d).getLsbD j =
    ((upto 64).map fun i => d.getLsbD i && tbit (hsiaoCols.getD i 0) j).foldl xor false) ∧
  (∀ (d : BitVec 64) (j : Nat), j < 8 → syndrome (hsiaoEnc d ^^^ (1#72 <<< (64 + j))) = 1#8 <<< j)

/-- O6. For every 64 data bits, the encoded word decodes without error; with any one of its data bits inverted it decodes to the same data with that bit named as corrected; with any one check bit inverted it counts as corrected and delivers the data; with any two different bits of the 72 inverted it is uncorrectable. -/
def Obligations.HsiaoDecoding : Prop :=
  ∀ d : BitVec 64, hsiaoDec (hsiaoEnc d) = (.ok, d) ∧
    (∀ i, i < 64 → hsiaoDec (hsiaoEnc d ^^^ (1#72 <<< i)) = (.data i, d)) ∧
    (∀ i, 64 ≤ i → i < 72 → hsiaoDec (hsiaoEnc d ^^^ (1#72 <<< i)) = (.check, d)) ∧
    (∀ i j, i < j → j < 72 → (hsiaoDec (hsiaoEnc d ^^^ (1#72 <<< i) ^^^ (1#72 <<< j))).1 = .ue)

/-- O7. A command has a word exactly when it is one of the 43 instructions of the table, with every register and immediate; decoding the word gives the instruction back where the table admits its immediate, and nothing where it does not (an illegal instruction), so that no field is dropped; and whatever word is decoded, the answer is an instruction of the table with an admitted immediate. -/
def Obligations.SeqDecodeEncode : Prop :=
  (∀ i : Instr, (∃ w, seqEncode i = some w) ↔ seqInstr i = true) ∧
  (∀ (i : Instr) (w : Word), seqEncode i = some w → seqDecode w = if seqLegal i then some i else none) ∧
  (∀ (w : Word) (i : Instr), seqDecode w = some i → seqInstr i = true ∧ seqLegal i = true)

/-- O8. One word of each format, written out bit by bit from R431 and R432, decodes to its instruction: ADD s1,s2,s3; ADDI s3,s0,100; LUI s1; BEQ; JAL; SRD; and the words 0 and SLLI with shift 32 are illegal. -/
def Obligations.SeqWordsOfTheTable : Prop :=
  seqDecode (0b000001_0001_0010_0011_00000000000000#32) = some (.add 1 2 3) ∧
  seqDecode (0b010000_0011_0000_000000000001100100#32) = some (.addi 3 0 100) ∧
  seqDecode (0b010110_0001_10000000000001_00000000#32) = some (.lui 1 0x2001) ∧
  seqDecode (0b100000_0001_0010_111111111111111111#32) = some (.beq 1 2 0x3FFFF) ∧
  seqDecode (0b100110_1111_0000000000000000000101#32) = some (.jal 15 5) ∧
  seqDecode (0b110010_0100_0000_000000000110000101#32) = some (.srd 4 0 0x185) ∧
  seqDecode (0b110101_0000_0000_000000000000000000#32) = some .blk ∧
  seqDecode 0#32 = none ∧ seqDecode (0b010011_0000_0000_000000000000100000#32) = none

/-- O9. For every choice of fields that fit their widths, decoding the encoded command word gives the fields back; and for every 64-bit word, encoding its decoded fields gives the word back, so that no bit of it is dropped or shared. -/
def Obligations.CommandWordRoundTrip : Prop :=
  (∀ c : CmdWord, c.cell < 128 → c.stA < 8 → c.eA < 1024 → c.stB < 8 → c.eB < 1024 → c.seq < 256 → c.gp < 4 → c.code < 8 →
    c.data < 65536 → cmdDecode (cmdEncode c) = c) ∧
  (∀ w : BitVec 64, cmdEncode (cmdDecode w) = w)

/-- O10. For every state and drift of CK_CORE over the ending tick. While ticks do not run (CK_CORE lost, or PLL_SYS or PLL_TIME not yet locked since power-on) the boundary changes nothing. Otherwise the host requests that still wait are answered (log entry 39), and then, with no takeover due: the first boundary keeps the tick number; every later one, on a unit that is not STANDBY, adds 1 modulo 2^64, uses up the staged slot writes and raises the sequencer's TICK event. With the latched block set, no release pending, no automatic release and no request pending, a unit that is not STANDBY goes from ARMED or RUNNING to BLOCKED with CAUSE 4 and PREV the state it left. A host request for BENCH in PARKED with no latched block and no sequencer request is taken: state BENCH, CAUSE 2, PREV 4. -/
def Obligations.TickBoundaries : Prop :=
  ∀ (s : State) (drift : Int),
    let u := s.hostAnswer 0
    (s.ticksRun = false → exec (.tickBoundary drift) s = .next s) ∧
    (s.ticksRun = true → u.red.take = false → u.ctl.started = false →
      ∃ t, exec (.tickBoundary drift) s = .next t ∧ t.now = u.now ∧ t.ctl.started = true) ∧
    (s.ticksRun = true → u.red.take = false → u.ctl.started = true → u.role ≠ 2 → ∃ t, exec (.tickBoundary drift) s = .next t ∧
      t.now = (u.now + 1) % 2 ^ 64 ∧ t.ctl.staged = [] ∧ tbit (t.fld SEQ_EVT) 0 = true ∧
      (u.latched = true → (u.op = 5 ∨ u.op = 6) → u.prot.relReq = false → u.bit PRT_REL_CFG_AUTO = false → u.ctl.seqReq = none →
        u.ctl.hostReq = none → t.op = 7 ∧ t.fld CLK_STATE_CAUSE = 4 ∧ t.fld CLK_STATE_PREV = u.op) ∧
      (u.latched = false → u.op = 4 → u.ctl.seqReq = none → u.ctl.hostReq = some 8 →
        t.op = 8 ∧ t.fld CLK_STATE_CAUSE = 2 ∧ t.fld CLK_STATE_PREV = 4 ∧ t.ctl.hostReq = none))

/-- O11. For every state and master. A write of CLK_STATE_REQ with key 0xA5C3 for a target that lies on a host transition of the table from the present state is kept for the next boundary and changes nothing else. Any other write sets REQ_REJ, sends BAD_TRANSITION from the chip control source 0x000 and leaves the operating state and any earlier request as they were. At the boundary a request for ARMED from PARKED is rejected with the latched block set, and one for RUNNING unless the planner is enabled, the time mode is 1 to 3 and every configured arm has at least MIN_AVAIL cells. -/
def Obligations.StateRequests : Prop :=
  ∀ (s : State) (m : Master) (val : Word),
    let tgt := val.toNat % 16
    let allowed := (s.op = 4 ∧ (tgt = 5 ∨ tgt = 8)) ∨ (s.op = 5 ∧ (tgt = 4 ∨ tgt = 6)) ∨ (s.op = 6 ∧ tgt = 5) ∨ (s.op = 8 ∧ tgt = 4)
    (val.toNat / 2 ^ 16 = 0xA5C3 → allowed →
      exec (.stateRequest m val) s = .next { s with ctl := { s.ctl with hostReq := some tgt } }) ∧
    (¬ (val.toNat / 2 ^ 16 = 0xA5C3 ∧ allowed) → ∃ t, exec (.stateRequest m val) s = .next t ∧
      t = { s with regs := t.regs, sump := t.sump } ∧ SameRegs [CLK_STATE_REQ_REJ, FLT_CNT_MERGED, FLT_CNT_OVF] s t ∧
      t.fld CLK_STATE_REQ_REJ = 1 ∧ Told 0x000 0x14 0 s t) ∧
    (s.op = 4 → s.latched = true → ∀ host, s.rejection host 5 ≠ 0) ∧
    (s.op = 5 → s.role ≠ 2 → ∀ host, s.rejection host 6 = 0 ↔ s.latched = false ∧ s.bit PLN_CTRL_EN = true ∧ 1 ≤ s.time.mode ∧ s.time.mode ≤ 3 ∧
      ∀ a ∈ s.arms, s.fld (SEL_ARM_MIN_MIN_AVAIL a) ≤ (s.slot (0x181 + 8 * a)).toNat)

/-- O12. A write by a master other than the debug port whose regions allow the access, and one by the debug port that its session level allows, writes the register; a debug write that the level or policy does not allow changes nothing and sends BAD_ACCESS from 0x0F0. For every register whose write does no more than write its fields, with no function reset of its block in progress: an RW field takes a legal value and keeps its content for a reserved one; an RWL field does so outside the locked states and keeps its content within them; a W1C field loses the bits written as 1 and a W1S field gains them; RO and WO fields keep their content. The LOG bits of FLT_SRCn_CFG1 are taken as 1 whatever is written. Every other field of every register keeps its content, but for CFG_STAT.MODIFIED and the counts of merged messages. A locked field sends LOCKED_WRITE and, where no field is locked, a reserved value sends BAD_VALUE, each from the source of the block; that the blocks without a source of their own, the debug block among them, send from 0x0F0 is the model's choice (log entry 8). With every value legal and no field locked no message is sent. -/
def Obligations.RegisterWritesByAccessCode : Prop :=
  (∀ (s : State) (m : Master) (addr val : Word), let a := addr.toNat
    a < 0x150000 → a % 4 = 0 →
    (m ≠ .debug → debugOnly a = false → s.regionOk m a 4 .write = true →
      exec (.registerWrite m addr .word val) s = .next (s.writeReg m a val.toNat)) ∧
    (m = .debug → s.kdaAllowed a true = true → (debugOnly a = true ∨ s.regionOk m a 4 .write = true) → a ≠ 0xF8030 →
      exec (.registerWrite m addr .word val) s = .next ({ s with sec := { s.sec with dbgTick := s.now } }.writeReg m a val.toNat)) ∧
    (m = .debug → s.kdaAllowed a true = false → ∃ t, exec (.registerWrite m addr .word val) s = .next t ∧
      t = { s with regs := t.regs, sump := t.sump } ∧ SameRegs msgFlds s t ∧ Told 0x0F0 0x01 0 s t)) ∧
  (∀ (s : State) (m : Master) (a val : Nat) (r : RegDef),
    let v (f : FldDef) := heldOnes a f.lo (val / 2 ^ f.lo % 2 ^ f.w)
    let old (f : FldDef) := s.fld (fldAt a f)
    let lock := ∃ f ∈ r.flds, f.acc = .rwl ∧ s.locked = true
    let bad := ∃ f ∈ r.flds, (f.acc = .rw ∨ (f.acc = .rwl ∧ s.locked = false)) ∧ legalVal f (v f) = false
    let t := s.writeReg m a val
    val < 2 ^ 32 → regAt a = some r → s.inFreset a = false → t = s.regWrite m a val →
      t = { s with regs := t.regs, sump := t.sump } ∧
      (∀ f ∈ r.flds,
        (f.acc = .rw → t.fld (fldAt a f) = if legalVal f (v f) then v f else old f) ∧
        (f.acc = .rwl → t.fld (fldAt a f) = if s.locked = false ∧ legalVal f (v f) = true then v f else old f) ∧
        (f.acc = .w1c → ∀ i, i < f.w → tbit (t.fld (fldAt a f)) i = (tbit (old f) i && !tbit (v f) i)) ∧
        (f.acc = .w1s → ∀ i, i < f.w → tbit (t.fld (fldAt a f)) i = (tbit (old f) i || tbit (v f) i)) ∧
        (f.acc = .ro ∨ f.acc = .wo → t.fld (fldAt a f) = old f)) ∧
      SameRegs (r.flds.map (fldAt a) ++ [CFG_STAT_MODIFIED, FLT_CNT_MERGED, FLT_CNT_OVF]) s t ∧
      (lock → Told (blockSrc a) 0x02 0 s t) ∧ (¬ lock → bad → Told (blockSrc a) 0x03 0 s t) ∧ (¬ lock → ¬ bad → t.sump = s.sump))

/-- O13. For every state and lane. A write of the lane's counter clear register clears exactly the counters whose bits are 1 and their overflow flags, the received frames' two words together, and changes nothing else. A read of CLK_TICK_LO by a master latches the high word for that master: any later read of CLK_TICK_HI by it, in any state that holds the same latches, gives the tick's upper 32 bits of that instant, and the machine changes in nothing but the latches (and, for the debug port, whose session must allow the read, the start of its idle time). A slot written by its producer on an unpaired unit is staged behind those already staged and nothing else changes; any other slot write sends NOT_PRODUCER with the slot's address. A legal CMP_EXEC.OFS outside the locked states is stored. -/
def Obligations.CountersLatchesAndSlots : Prop :=
  (∀ (s : State) (m : Master) (l : Fin 40) (val : Word), s.inFreset (lineBase l + 0x80) = false →
    let cs := [CL_CNT_LOS l, CL_CNT_LOL l, CL_CNT_MISS l, CL_CNT_STUFF l, CL_CNT_MFIX l, CL_CNT_MBAD l, CL_CNT_DEFER l, CL_CNT_LB l]
    ∃ t, exec (.counterClear m (BitVec.ofNat 32 (lineBase l + 0x80)) val) s = .next t ∧
      OnlyRegs (cs ++ [CL_CNT_RXFRM_LO l, CL_CNT_RXFRM_HI l, CL_CNT_OVF l]) s t ∧
      (∀ i : Fin 8, t.fld (cs.getD i (CL_CNT_LOS l)) = if val.getLsbD i then 0 else s.fld (cs.getD i (CL_CNT_LOS l))) ∧
      t.fld (CL_CNT_RXFRM_LO l) = (if val.getLsbD 8 then 0 else s.fld (CL_CNT_RXFRM_LO l)) ∧
      t.fld (CL_CNT_RXFRM_HI l) = (if val.getLsbD 8 then 0 else s.fld (CL_CNT_RXFRM_HI l)) ∧
      (∀ i : Fin 9, tbit (t.fld (CL_CNT_OVF l)) i = (tbit (s.fld (CL_CNT_OVF l)) i && !val.getLsbD i))) ∧
  (∀ (s : State) (m : Master), (m = .debug → s.kdaAllowed 0x20 false = true ∧ s.regionOk m 0x20 4 .read = true) →
    ∃ t, exec (.counterLowRead m 0x20) s = .next t ∧
    t = { s with latches := t.latches, sec := { s.sec with dbgTick := if m = .debug then s.now else s.sec.dbgTick } } ∧
    (s.readReg m 0x20).1 = s.now % 2 ^ 32 ∧
    ∀ u : State, u.latches = t.latches → (u.readReg m 0x24).1 = s.now / 2 ^ 32 % 2 ^ 32) ∧
  (∀ (s : State) (m : Master) (i : Fin 1024) (v : Word),
    (s.produces m i = true → s.bit RED_CFG_PAIR = false → exec (.stagedSlotWrite m i v) s =
      .next { s with ctl := { s.ctl with staged := s.ctl.staged ++ [⟨i.val, v.toInt⟩] } }) ∧
    (s.produces m i = false → ∃ t, exec (.stagedSlotWrite m i v) s = .next t ∧ t = { s with regs := t.regs, sump := t.sump } ∧
      SameRegs msgFlds s t ∧ Told 0x0F0 0x04 (0x10000000 + 4 * i) s t)) ∧
  (∀ (s : State) (m : Master) (val : Word), s.locked = false → 200 ≤ val.toNat % 1024 → val.toNat % 1024 ≤ 900 →
    ∃ t, exec (.execOffsetWrite m val) s = .next t ∧ t.fld CMP_EXEC_OFS = val.toNat % 1024 ∧ t.op = s.op ∧ t.cells = s.cells)

/-- O14. For every state and every master but the debug port. An unhindered read of memory changes nothing (in the mailbox, but for what its ports keep) and an unhindered write stores exactly its bytes. A read of a mailbox word that meets a write of the other port in the same cycle is counted, changes no byte and sends MBOX_CONFLICT with the address; so is a write that meets a read of the other port (the model's choice, log entry 131); of two writes to one word in one cycle port H's is lost. An access that no region allows stores nothing, records its address, master and direction, counts, and sends REGION with the 16-byte aligned address and the master; an allowed access to an address outside the memories sends BAD_ACCESS with detail 0. An access of the debug port that its level does not allow changes nothing and sends BAD_ACCESS. The oldest corrected word owed is written back without its inverted bits. A background test that starts, at an expiry of PERIOD, marks its region; one that ends without a mismatch clears BUSY and moves to the next region, with the cycle counted after the last; one with a mismatch sets FAIL with the word's address (in the key store an address that the model gives it, log entry 62) and sends its message; and one that is not complete after 100 ticks is abandoned and counted (its time in ticks: log entry 51). -/
def Obligations.MemoryAccessesAndCaver : Prop :=
  (∀ (s : State) (m : Master) (addr : Word) (acc : Access) (val : DWord) (k : AccessKind) (sh : Share), k ≠ .write → m ≠ .debug →
    (s.mboxBegin addr.toNat sh).readable m addr.toNat (Access.size acc) k →
    ∃ t, exec (.fabricAccess m addr acc k val sh) s = .next t ∧ t = { s with mem := { s.mem with mbox := t.mem.mbox } } ∧
      (inMbox addr.toNat = false → t = s)) ∧
  (∀ (s : State) (m : Master) (addr : Word) (acc : Access) (val : DWord) (sh : Share), m ≠ .debug →
    (s.mboxBegin addr.toNat sh).writable m addr.toNat (Access.size acc) →
    ∃ t, exec (.fabricAccess m addr acc .write val sh) s = .next t ∧ t = { s with mem := t.mem } ∧ (∀ b, t.errAt b = s.errAt b) ∧
      (inMbox addr.toNat = true → addr.toNat / 8 * 8 ∈ (if m = .host then t.mem.mbox.hw else t.mem.mbox.fw)) ∧
      SameMemBut addr.toNat (Access.size acc) s t ∧ t.rd addr.toNat (Access.size acc) = val.toNat % 256 ^ Access.size acc) ∧
  (∀ (s : State) (m : Master) (addr : Word) (acc : Access) (val : DWord) (sh : Share), m ≠ .debug → inMbox addr.toNat = true →
    addr.toNat % Access.size acc = 0 → Access.size acc ≠ 2 → s.bit (FLT_INJ_ARM 0x46) = false →
    ((s.mboxBegin addr.toNat sh).mem.mbox.wrote (m == .host) addr.toNat = true → s.regionOk m addr.toNat (Access.size acc) .read = true →
      ∃ t, exec (.fabricAccess m addr acc .read val sh) s = .next t ∧
      t.fld MEM_CNT_MBOX = (s.count MEM_CNT_MBOX MEM_CNT_OVF 3 1).fld MEM_CNT_MBOX ∧ SameMem s t ∧ Told 0x0F0 0x14 addr.toNat s t) ∧
    (s.regionOk m addr.toNat (Access.size acc) .write = true →
      ((s.mboxBegin addr.toNat sh).mem.mbox.hasRead (m == .host) addr.toNat = true → s.cleanWord addr.toNat →
        ∃ t, exec (.fabricAccess m addr acc .write val sh) s = .next t ∧
          t.fld MEM_CNT_MBOX = (s.count MEM_CNT_MBOX MEM_CNT_OVF 3 1).fld MEM_CNT_MBOX ∧ SameMemBut addr.toNat (Access.size acc) s t ∧
          Told 0x0F0 0x14 addr.toNat s t) ∧
      (m = .host → (s.mboxBegin addr.toNat sh).mem.mbox.wrote true addr.toNat = true →
        (s.mboxBegin addr.toNat sh).mem.mbox.hasRead true addr.toNat = false →
        ∃ t, exec (.fabricAccess m addr acc .write val sh) s = .next t ∧ t = { s with mem := { s.mem with mbox := t.mem.mbox } }))) ∧
  (∀ (s : State) (m : Master) (addr : Word) (acc : Access) (val : DWord) (k : AccessKind) (sh : Share), m ≠ .debug →
    s.regionOk m addr.toNat (Access.size acc) k = false → ∃ t, exec (.fabricAccess m addr acc k val sh) s = .next t ∧
      t = { s with regs := t.regs, sump := t.sump, mem := { s.mem with mbox := t.mem.mbox } } ∧ t.fld MEM_REGION_ADDR = addr.toNat ∧ t.fld MEM_REGION_M_M = Master.num m ∧
      t.fld MEM_REGION_M_WR = (if k = .write then 1 else 0) ∧
      t.fld MEM_CNT_REGION = (s.count MEM_CNT_REGION MEM_CNT_OVF 2 1).fld MEM_CNT_REGION ∧
      Told 0x0F0 0x12 (addr.toNat / 16 * 16 + Master.num m) s t) ∧
  (∀ (s : State) (m : Master) (addr : Word) (acc : Access) (val : DWord) (k : AccessKind) (sh : Share), m ≠ .debug →
    s.regionOk m addr.toNat (Access.size acc) k = true → writeBarred m addr.toNat = false → 0x10000000 ≤ addr.toNat → inMemory addr.toNat = false →
    ∃ t, exec (.fabricAccess m addr acc k val sh) s = .next t ∧ t = { s with regs := t.regs, sump := t.sump } ∧ SameRegs msgFlds s t ∧
      Told 0x0F0 0x01 0 s t) ∧
  (∀ (s : State) (addr : Word) (acc : Access) (val : DWord) (k : AccessKind) (sh : Share), k ≠ .fetch →
    s.kdaAllowed addr.toNat (k == .write) = false → ∃ t, exec (.fabricAccess .debug addr acc k val sh) s = .next t ∧
      t = { s with regs := t.regs, sump := t.sump, mem := { s.mem with mbox := t.mem.mbox } } ∧ SameRegs msgFlds s t ∧ Told 0x0F0 0x01 0 s t) ∧
  (∀ (s : State) (a : Nat) (rest : List Nat), s.mem.wback = a :: rest → ∃ t, exec .correctedWriteback s = .next t ∧
    t = { s with mem := t.mem } ∧ t.mem.wback = rest ∧ t.mem.bytes = s.mem.bytes ∧
    (eccOf (s.synAt a) ≠ .ue → mget 0 t.mem.err a = 0) ∧ (eccOf (s.synAt a) = .ue → t.mem.err = s.mem.err)) ∧
  (∀ s : State, let p := s.fld MEM_CAVER_STAT_POS
    s.bit MEM_CAVER_CFG_EN = true → 4 ≤ s.op → s.mem.caver = none → (∀ a, s.errAt a = 0) → (∀ i : Fin 256, s.bit (FLT_INJ_ARM i) = false) →
      s.caverDue = true → (regionAcq p = true → s.bit ACQ_STAT_IN_RET = false ∧ s.bit ACQ_STAT_AWAKE = true) →
      ∃ t, exec .caverTestStart s = .next t ∧ t.mem.caver = some ⟨p, s.now⟩ ∧ t.mem.caverAt = some s.now ∧ t.fld MEM_CAVER_STAT_BUSY = 1 ∧ t.mem.bytes = s.mem.bytes ∧
        SameRegs [MEM_CAVER_STAT_BUSY] s t) ∧
  (∀ (s : State) (c : CaverRun), s.mem.caver = some c → s.bit ACQ_CTRL_RET = false →
    let p := s.fld MEM_CAVER_STAT_POS
    (∃ t, exec (.caverTestDone none) s = .next t ∧ t = { s with regs := t.regs, mem := t.mem } ∧ t.mem = { s.mem with caver := none } ∧
      t.fld MEM_CAVER_STAT_BUSY = 0 ∧ t.fld MEM_CAVER_STAT_FAIL = s.fld MEM_CAVER_STAT_FAIL ∧
      (p < 15295 → t.fld MEM_CAVER_STAT_POS = p + 1 ∧ t.fld MEM_CAVER_STAT_CYCLES = s.fld MEM_CAVER_STAT_CYCLES) ∧
      (p = 15295 → t.fld MEM_CAVER_STAT_POS = 0 ∧ t.fld MEM_CAVER_STAT_CYCLES = min 65535 (s.fld MEM_CAVER_STAT_CYCLES + 1))) ∧
    (∀ w, w < 256 → ∃ t, exec (.caverTestDone (some w)) s = .next t ∧ t.mem = { s.mem with caver := none } ∧
      t.fld MEM_CAVER_STAT_FAIL = 1 ∧ t.fld MEM_CAVER_FADDR = (regionAddr c.region + 8 * w) % 2 ^ 32 ∧
      Told (0x080 + checkerOf (regionAddr c.region + 8 * w)) 0x13 (regionAddr c.region + 8 * w) s t) ∧
    (c.tick + 100 ≤ s.now → ∃ t, exec .caverAbandon s = .next t ∧ t.mem = { s.mem with caver := none } ∧ t.fld MEM_CAVER_STAT_BUSY = 0 ∧
      t.fld MEM_CNT_CAVER = (s.count MEM_CNT_CAVER MEM_CNT_OVF 4 1).fld MEM_CNT_CAVER ∧ t.fld MEM_CAVER_STAT_POS = p) ∧
    (s.now < c.tick + 100 → exec .caverAbandon s = .next s))

/-- O15. For every state and lane whose port is not OFF. LOS for a cause that counts (no transition; an amplitude below 20 + 10 x AMP mV; the LANE_LOS pin at its loss level with LOS_PIN_EN), not asserted before: CL_STAT.LOS set, MISS_RUN 0, the LOS counter counts, SEEKING and LOCKED go to DARK and RUNNING to FAULTED (by a loss, at this tick), each with a LOS message, DARK and FAULTED stay. Any other cause changes no register. LOS clearing with no loss left at the pin: the bit clears, DARK goes to SEEKING, or on to LOCKED where LOL is clear. LOL, by an unlock of the CDR or with MISS_RUN at 3 (otherwise nothing changes), not asserted before: CL_STAT.LOL set and counted, LOCKED goes to SEEKING and RUNNING to FAULTED, each with a LOL message; an unlock of the CDR clears CDR_LOCK. LOL clearing with the CDR locked and two spaced FRAME markers: LOL clear, SEEKING goes to LOCKED; without either nothing changes. A missing FRAME marker with LOS clear counts in MISS_RUN, and the third in a row asserts LOL. FAULTED by a loss at least 1000 ticks old, with LOS clear and AUTO_REC set, goes to SEEKING (LOCKED) and starts the silent timer; the silent timer running out sets PORT_SILENT with its message. Only the lane, its registers, waiting messages and, where a CL port leaves RUNNING, the delays and downloads of its cells change. That SEEKING goes on to LOCKED at once where LOL is clear is the model's reading (log entry 22). -/
def Obligations.LaneLossDetectors : Prop :=
  ∀ (s : State) (l : Fin 40), s.portState l ≠ 0 →
    let st := s.portState l
    let src := lineSrc l
    let seekTo := if s.bit (CL_STAT_LOL l) then 2 else 3
    let fs := [CL_STAT_STATE l, CL_STAT_LOS l, CL_STAT_LOL l, CL_STAT_MISS_RUN l, CL_STAT_CDR_LOCK l, CL_STAT_PORT_SILENT l,
               CL_CNT_LOS l, CL_CNT_LOL l, CL_CNT_MISS l, CL_CNT_OVF l, FLT_CNT_MERGED, FLT_CNT_OVF]
    let counts (c : LosCause) : Prop := match c with
      | .still => True
      | .amp mv => mv < 20 + 10 * s.fld (CL_LOS_CFG_AMP l)
      | .pin high => s.bit (CL_CTRL_LOS_PIN_EN l) = true ∧ high ≠ s.bit (CL_CTRL_LOS_PIN_POL l)
    (∀ c, ¬ counts c → ∃ t, exec (.los l c) s = .next t ∧ OnlyLane [] l s t ∧ t.regs = s.regs ∧ t.sump = s.sump) ∧
    (∀ c, counts c → s.bit (CL_STAT_LOS l) = false → ∃ t, exec (.los l c) s = .next t ∧ OnlyLane fs l s t ∧
      t.fld (CL_STAT_LOS l) = 1 ∧ t.fld (CL_STAT_MISS_RUN l) = 0 ∧
      t.fld (CL_CNT_LOS l) = (s.count (CL_CNT_LOS l) (CL_CNT_OVF l) 0 1).fld (CL_CNT_LOS l) ∧
      (st = 2 ∨ st = 3 → t.portState l = 1 ∧ Told src 0x10 0 s t) ∧
      (st = 4 → t.portState l = 5 ∧ (t.lane l).faultedBy = .loss ∧ (t.lane l).faultedAt = s.now ∧ Told src 0x10 0 s t) ∧
      (st = 1 ∨ st = 5 → t.portState l = st ∧ t.sump = s.sump)) ∧
    (∀ pin, (s.bit (CL_CTRL_LOS_PIN_EN l) = false ∨ pin = s.bit (CL_CTRL_LOS_PIN_POL l)) →
      ∃ t, exec (.losClear l pin) s = .next t ∧ OnlyLane fs l s t ∧ t.fld (CL_STAT_LOS l) = 0 ∧ t.sump = s.sump ∧
      (st = 1 → t.portState l = seekTo) ∧ (st ≠ 1 → t.portState l = st)) ∧
    (s.fld (CL_STAT_MISS_RUN l) ≠ 3 → exec (.lol l false) s = .next s) ∧
    (∀ u, s.bit (CL_STAT_LOL l) = false → (u = true ∨ s.fld (CL_STAT_MISS_RUN l) = 3) → ∃ t, exec (.lol l u) s = .next t ∧ OnlyLane fs l s t ∧
      t.fld (CL_STAT_LOL l) = 1 ∧ (u = true → t.fld (CL_STAT_CDR_LOCK l) = 0) ∧
      t.fld (CL_CNT_LOL l) = (s.count (CL_CNT_LOL l) (CL_CNT_OVF l) 1 1).fld (CL_CNT_LOL l) ∧
      (st = 3 → t.portState l = 2 ∧ Told src 0x11 0 s t) ∧
      (st = 4 → t.portState l = 5 ∧ (t.lane l).faultedBy = .loss ∧ (t.lane l).faultedAt = s.now ∧ Told src 0x11 0 s t) ∧
      (st ≠ 3 → st ≠ 4 → t.portState l = st ∧ t.sump = s.sump)) ∧
    (((s.lane l).spaced = false ∨ s.bit (CL_STAT_CDR_LOCK l) = false) → exec (.lolClear l) s = .next s) ∧
    ((s.lane l).spaced = true → s.bit (CL_STAT_CDR_LOCK l) = true → s.bit (CL_STAT_LOL l) = true → ∃ t, exec (.lolClear l) s = .next t ∧ OnlyLane fs l s t ∧ t.fld (CL_STAT_LOL l) = 0 ∧
      t.sump = s.sump ∧ (st = 2 → t.portState l = 3) ∧ (st ≠ 2 → t.portState l = st)) ∧
    (s.bit (CL_STAT_LOS l) = false → ∃ t, exec (.frameMiss l) s = .next t ∧ OnlyLane fs l s t ∧
      t.fld (CL_STAT_MISS_RUN l) = min (s.fld (CL_STAT_MISS_RUN l) + 1) 3 ∧
      (s.fld (CL_STAT_MISS_RUN l) < 2 → t.portState l = st ∧ t.fld (CL_STAT_LOL l) = s.fld (CL_STAT_LOL l) ∧ t.sump = s.sump) ∧
      (2 ≤ s.fld (CL_STAT_MISS_RUN l) → t.bit (CL_STAT_LOL l) = true)) ∧
    (st = 5 → (s.lane l).faultedBy = .loss → (s.lane l).faultedAt + 1000 ≤ s.now → s.bit (CL_STAT_LOS l) = false →
      s.bit (CL_CTRL_AUTO_REC l) = true → ∃ t, exec (.faultedRecovery l) s = .next t ∧ OnlyLane fs l s t ∧ t.portState l = seekTo ∧
        (t.lane l).silentFrom = some s.now ∧ t.sump = s.sump) ∧
    (∀ t0, (s.lane l).silentFrom = some t0 → t0 + s.fld (CL_SILENT_TO_MS l) * 1000 ≤ s.now →
      ∃ t, exec (.portSilent l) s = .next t ∧ OnlyLane fs l s t ∧ t.fld (CL_STAT_PORT_SILENT l) = 1 ∧ t.portState l = st ∧
        (t.lane l).silentFrom = none ∧ Told src 0x13 0 s t)

/-- O16. For every state and lane. Before PARKED a write of EN, and afterwards a write of the value that EN has where it is allowed, changes nothing. In PARKED or a later state, EN = 1 on a port that is disabled sets CL_CTRL.EN and takes an OFF port to DARK with the silent timer from this tick and no message; a port that is still to stop keeps its state (log entry 119). EN = 0 in such a state, where it is allowed (PARKED and BENCH always, otherwise a free CL port or ML2 and ML3), clears EN of an enabled port and stops its transmitter; where it is not, it changes nothing and sends OFFLINE_DENIED. A loopback that R85 allows, or LB = 0, sets CL_CTRL.LB and LB_ACTIVE; any other nonzero one, on every lane and in every state, changes no register of the port and sends LOOP_DENIED. -/
def Obligations.PortAndLoopbackRequests : Prop :=
  ∀ (s : State) (m : Master) (l : Fin 40),
    let fs := [CL_CTRL_EN l, CL_CTRL_LB l, CL_STAT_STATE l, CL_STAT_LOS l, CL_STAT_LOL l, CL_STAT_LB_ACTIVE l, FLT_CNT_MERGED, FLT_CNT_OVF]
    let free := (l < 32 ∧ (tbit (s.fld CFG_OFF_STAT) l = true ∨ s.armOfPort l = none)) ∨ 38 ≤ l.val
    let allowed (lb : Fin 4) := (l < 32 ∧ (s.op = 4 ∨ s.op = 8 ∨ s.armOfPort l = none ∨ (lb ≠ 3 ∧ tbit (s.fld CFG_OFF_STAT) l = true)))
        ∨ ((l.val = 36 ∨ l.val = 37) ∧ s.op = 8) ∨ (32 ≤ l.val ∧ l.val ≠ 36 ∧ l.val ≠ 37 ∧ (s.op = 4 ∨ s.op = 8))
    (s.op < 4 → exec (.portEnable m l) s = .next s ∧ exec (.portDisable m l) s = .next s) ∧
    (s.bit (CL_CTRL_EN l) = true → exec (.portEnable m l) s = .next s) ∧
    (4 ≤ s.op → s.bit (CL_CTRL_EN l) = false → ∃ t, exec (.portEnable m l) s = .next t ∧ OnlyLane fs l s t ∧
      t.fld (CL_CTRL_EN l) = 1 ∧ t.sump = s.sump ∧
      (s.portState l = 0 → t.portState l = 1 ∧ (t.lane l).silentFrom = some s.now ∧ (t.lane l).stopping = false) ∧
      (s.portState l ≠ 0 → t.portState l = s.portState l ∧ t.lanes = s.lanes)) ∧
    (s.bit (CL_CTRL_EN l) = false → (s.op = 4 ∨ s.op = 8 ∨ (4 ≤ s.op ∧ free)) → exec (.portDisable m l) s = .next s) ∧
    (4 ≤ s.op → s.bit (CL_CTRL_EN l) = true → (s.op = 4 ∨ s.op = 8 ∨ free) → ∃ t, exec (.portDisable m l) s = .next t ∧
      OnlyLane fs l s t ∧ t.fld (CL_CTRL_EN l) = 0 ∧ (t.lane l).stopping = true ∧ t.portState l = s.portState l ∧ t.sump = s.sump) ∧
    (4 < s.op → s.op ≠ 8 → ¬ free → ∃ t, exec (.portDisable m l) s = .next t ∧
      t = { s with regs := t.regs, sump := t.sump } ∧ SameRegs msgFlds s t ∧ Told (lineSrc l) 0x16 0 s t) ∧
    (∀ lb : Fin 4, (lb = 0 ∨ allowed lb) →
      ∃ t, exec (.loopbackSelect m l lb) s = .next t ∧ OnlyRegs [CL_CTRL_LB l, CL_STAT_LB_ACTIVE l] s t ∧ t.fld (CL_CTRL_LB l) = lb ∧
        t.fld (CL_STAT_LB_ACTIVE l) = if lb = 0 then 0 else 1) ∧
    (∀ lb : Fin 4, lb ≠ 0 → ¬ allowed lb →
      ∃ t, exec (.loopbackSelect m l lb) s = .next t ∧ t = { s with regs := t.regs, sump := t.sump } ∧ SameRegs msgFlds s t ∧
        Told (lineSrc l) 0x17 0 s t)

/-- O17. For every state and lane whose port is not OFF. A good FRAME marker resets MISS_RUN, counts a received frame, shows the CDR locked (log entry 94) and notes whether it came 12,400 to 12,600 UI after a last one. A good BLOCK marker on ML0 or ML1 with PRT_CTRL.RX01 (ML2 or ML3 with RX23) sets the latched block with cause MIRROR and sends BLOCK_RX with the ML port; with the enable clear nothing changes; on a CL or SL lane it counts as a bad marker (in CL_CNT_MBAD by the model's choice, log entry 118); a bad one whose preamble is a run of ones and then of zeros acts as BLOCK, on whichever command it comes, and counts once. A good ALERT marker on a CL lane sets ALERT_SEEN, sends ALERT_RX and, on a RUNNING port of an arm with PRT_CTRL.ALERT_BLK, sets the block with cause CELL; on an SL lane it sets ALERT_SEEN and sends the sensor port's message; on ML0 and ML1 the redundancy manager notes its tick. A good TRIG marker on ML0 or ML1 changes nothing, and on ML2 or ML3 with its receive enable clear only the note that one was seen; with the enable set it triggers, at its arrival less the ingress asymmetry and the bus delay, every ARMED recorder that selects the bus and whose capture has begun by then, leaves the recorders that do not select it alone, and waits for its message. A word that is no marker changes nothing. -/
def Obligations.MarkersAtReceivers : Prop :=
  ∀ (s : State) (l : Fin 40), s.portState l ≠ 0 →
    (∀ ui, ∃ t, exec (.frameMarkerRx l 0x001FFCD6 ui) s = .next t ∧
      OnlyLane [CL_STAT_MISS_RUN l, CL_STAT_CDR_LOCK l, CL_CNT_RXFRM_LO l, CL_CNT_RXFRM_HI l, CL_CNT_OVF l] l s t ∧ t.fld (CL_STAT_MISS_RUN l) = 0 ∧
      t.fld (CL_STAT_CDR_LOCK l) = 1 ∧ (t.lane l).spaced = ((s.lane l).seen && decide (12400 ≤ ui ∧ ui ≤ 12600)) ∧
      (s.fld (CL_CNT_RXFRM_LO l) + 1 < 2 ^ 32 → t.fld (CL_CNT_RXFRM_LO l) = s.fld (CL_CNT_RXFRM_LO l) + 1 ∧
        t.fld (CL_CNT_RXFRM_HI l) = s.fld (CL_CNT_RXFRM_HI l))) ∧
    (36 ≤ l.val → (if l.val < 38 then s.bit PRT_CTRL_RX01 else s.bit PRT_CTRL_RX23) = true →
      ∃ t, exec (.blockMarkerRx l 0xFFE00329) s = .next t ∧ Blocked 3 s t ∧ OnlyBlock [] s t ∧
        (s.msgAt 0x331 = none → t.msgAt 0x331 = some (0x17, (l.val - 36) * 2 ^ 30))) ∧
    (36 ≤ l.val → (if l.val < 38 then s.bit PRT_CTRL_RX01 else s.bit PRT_CTRL_RX23) = false →
      exec (.blockMarkerRx l 0xFFE00329) s = .next s) ∧
    (l < 36 → ∃ t, exec (.blockMarkerRx l 0xFFE00329) s = .next t ∧ OnlyRegs [CL_CNT_MBAD l, CL_CNT_OVF l] s t ∧
      t.fld (CL_CNT_MBAD l) = (s.count (CL_CNT_MBAD l) (CL_CNT_OVF l) 5 1).fld (CL_CNT_MBAD l)) ∧
    (l < 32 → ∃ t, exec (.alertRx l 0xFFE002C3) s = .next t ∧ t.fld (CL_STAT_ALERT_SEEN l) = 1 ∧ OnlyBlock [CL_STAT_ALERT_SEEN l] s t ∧
      Told (0x101 + 4 * l) 0x30 0 s t ∧
      (s.bit PRT_CTRL_ALERT_BLK = true → s.portState l = 4 → (s.armOfPort l).isSome = true → Blocked 2 s t) ∧
      (s.bit PRT_CTRL_ALERT_BLK = false ∨ s.portState l ≠ 4 ∨ s.armOfPort l = none →
        SameRegs [CL_STAT_ALERT_SEEN l, FLT_CNT_MERGED, FLT_CNT_OVF] s t ∧ t.prot = s.prot)) ∧
    (32 ≤ l.val → l < 36 → ∃ t, exec (.alertRx l 0xFFE002C3) s = .next t ∧ t.fld (CL_STAT_ALERT_SEEN l) = 1 ∧
      t = { s with regs := t.regs, sump := t.sump } ∧ Told (0x181 + 8 * (l.val - 32)) 0x30 0 s t) ∧
    (36 ≤ l.val → l < 38 → exec (.alertRx l 0xFFE002C3) s = .next { s with red := { s.red with alertAt := some s.now } }) ∧
    (∀ ofs, l < 38 → exec (.trigRx l 0x001FFD3C ofs) s = .next s) ∧
    (∀ ofs, 38 ≤ l.val → tbit (s.fld ACQ_BUS_CFG_RX) (l.val - 38) = false →
      exec (.trigRx l 0x001FFD3C ofs) s = .next { s with acq := { s.acq with trigSeen := true } }) ∧
    (∀ ofs, 38 ≤ l.val → tbit (s.fld ACQ_BUS_CFG_RX) (l.val - 38) = true →
      let rel : Int := ((ofs * 80 * 65536 / 1000 : Nat) : Int)
      let arr : Int := (s.ctl.btime : Int) * 65536 + rel
      let d := s.busD (l.val - 36) + asym16 (s.fld (TIM_ASYM_ING (l.val - 32)))
      ∃ t, exec (.trigRx l 0x001FFD3C ofs) s = .next t ∧ t.acq.trigSeen = true ∧
        (∃ mine, t.acq.wait = s.acq.wait ++ [⟨l, arr, arr - d, 65536000 * (s.now : Int) + rel - d, mine⟩]) ∧
        ∀ r : Fin 4, (s.bit (ACQ_R_TMASK_BUS r) = false → t.recd r = s.recd r ∧ t.recSt r = s.recSt r) ∧
          (s.bit (ACQ_R_TMASK_BUS r) = true → s.recSt r = 1 → (s.recd r).t0 ≤ 65536000 * (s.now : Int) + rel - d → t.recSt r = 2)) ∧
    (∀ w, markerOf w = some (.bad true) → 38 ≤ l.val → s.bit PRT_CTRL_RX23 = true → ∀ (c : Instr) (ui ofs : Nat),
      (c = .blockMarkerRx l w ∨ c = .alertRx l w ∨ c = .frameMarkerRx l w ui ∨ c = .trigRx l w ofs) →
      ∃ t, exec c s = .next t ∧ Blocked 3 s t ∧ t.fld (CL_CNT_MBAD l) = (s.count (CL_CNT_MBAD l) (CL_CNT_OVF l) 5 1).fld (CL_CNT_MBAD l)) ∧
    (∀ word ui ofs, markerOf word = none → exec (.frameMarkerRx l word ui) s = .next s ∧ exec (.blockMarkerRx l word) s = .next s ∧
      exec (.alertRx l word) s = .next s ∧ exec (.trigRx l word ofs) s = .next s)

/-- O18. For every state and cell: SHOOT_THROUGH_ATTEMPT (code 0x08), UVLO_GATE of a supply the cell has (0x0A, GSUP bit set), UVLO_AUX (0x0B, GSUP bit 4), OC (0x05, or 0x06 while a conducting switch is blanked), DESAT of a conducting switch outside its blanking with no earlier trip (1 + switch) and CAP_OV at or above four times V_CAP_OV in a cell with active settings (0x0C) take the cell to BLOCK with every switch off and nothing scheduled; the code is latched where none was; settings and enable stay, and no other cell and no other part of the machine changes. -/
def Obligations.CellFaultTurnOff : Prop :=
  ∀ (s : State) (g : Fin 4096) (inst : Int),
    (∀ sw : Fin 4, ∃ t, exec (.shootThroughAttempt g sw inst) s = .next t ∧ FaultOff 0x08 (s.cell g) (t.cell g) ∧ OnlyCell g s t) ∧
    (∀ sw : Fin 4, ((s.cell g).fb = true ∨ sw < 2) → ∃ t, exec (.uvloGate g sw inst) s = .next t ∧
      FaultOff 0x0A (s.cell g) (t.cell g) ∧ (t.cell g).gsup = (s.cell g).gsup ||| BitVec.ofNat 5 (2 ^ sw.val) ∧ OnlyCell g s t) ∧
    (∃ t, exec (.uvloAux g inst) s = .next t ∧ FaultOff 0x0B (s.cell g) (t.cell g) ∧
      (t.cell g).gsup = (s.cell g).gsup ||| 0b10000#5 ∧ OnlyCell g s t) ∧
    (let c := (s.cell g).settle inst
     let blanked := ∃ i, i < 4 ∧ c.on.getLsbD i = true ∧ c.blanking i inst = true
     ∃ t, exec (.oc g inst) s = .next t ∧ OnlyCell g s t ∧
      (¬ blanked → FaultOff 0x05 (s.cell g) (t.cell g)) ∧ (blanked → FaultOff 0x06 (s.cell g) (t.cell g))) ∧
    (∀ sw : Fin 4, ((s.cell g).settle inst).on.getLsbD sw = true → ((s.cell g).settle inst).blanking sw inst = false →
      (s.cell g).desat = none → ∃ t, exec (.desat g sw inst) s = .next t ∧ FaultOff (1 + sw) (s.cell g) (t.cell g) ∧
        (t.cell g).desat = some (sw.val / 2, inst) ∧ OnlyCell g s t) ∧
    (∀ v : BitVec 14, (s.cell g).activeSet ≠ [] → 4 * (s.cell g).setting 8 ≤ v.toNat →
      ∃ t, exec (.capOv g v inst) s = .next t ∧ FaultOff 0x0C (s.cell g) (t.cell g) ∧ (t.cell g).vcap = v.toNat ∧ OnlyCell g s t)

/-- O19. For every state and cell, with c the cell before: NOP changes no field but the mark of the last word; SET_ADDR selects the settings address; WRITE stages a value in the range of the selected setting and refuses one outside it with code 0x33; COMMIT with 0xA5 in BLOCK or STARTING, every setting staged, T_MINP at least T_DEAD + 10, V_CAP_OV below V_CAP_BYP and the cell's own type makes the staged settings the ones that become active at the next origin, and commits the cell; ENABLE 0 in BLOCK lowers the enable and counts a run, ENABLE 1 in BLOCK raises it; DCOMP keeps the compensation for the next origin; PROBE marks the last word; SELFTEST in BLOCK, enabled and with no fault latched begins the test if the last accepted word has TEST = 1, and refuses it with code 0x32 otherwise (bits [15:10] of its mask are dropped: log entry 98); CLOSE_BYPASS with 0x5A5A takes the cell to BLOCK and drives the switch from the acceptance of its word on. No other cell and no other part of the machine changes. -/
def Obligations.CellManagementItems : Prop :=
  ∀ (s : State) (g : Fin 4096) (d : BitVec 16),
    let c := s.cell g
    (∃ t, exec (.nop g d) s = .next t ∧ t.cell g = { c with res := (t.cell g).res } ∧ OnlyCell g s t) ∧
    (∃ t, exec (.setAddr g d) s = .next t ∧ t.cell g = { c with selAddr := d.toNat, res := (t.cell g).res } ∧ OnlyCell g s t) ∧
    (∀ lo hi, c.selAddr ≠ 0xFF → settingRange c.selAddr = some (lo, hi) → ∃ t, exec (.write g d) s = .next t ∧ OnlyCell g s t ∧
      (lo ≤ d.toNat ∧ d.toNat ≤ hi → (t.cell g).staged c.selAddr = some d.toNat ∧
        (∀ a, a ≠ c.selAddr → (t.cell g).staged a = c.staged a) ∧ (t.cell g).activeSet = c.activeSet) ∧
      (¬ (lo ≤ d.toNat ∧ d.toNat ≤ hi) → (t.cell g).stagedSet = c.stagedSet ∧
        ∀ r l, c.res = r :: l → (t.cell g).res.map WordRes.rej = 0x33 :: l.map WordRes.rej)) ∧
    (d.toNat = 0xA5 → (c.stateCode = 0 ∨ c.stateCode = 0xA) → (∀ a ∈ settingAddrs, (c.staged a).isSome = true) →
      (c.staged 2).getD 0 + 10 ≤ (c.staged 3).getD 0 → (c.staged 8).getD 0 < (c.staged 9).getD 0 →
      (c.staged 1).getD 0 = (if c.fb then 1 else 0) → ∃ t, exec (.commit g d) s = .next t ∧ OnlyCell g s t ∧
        (t.cell g).committed = true ∧ (∃ m, (t.cell g).setNext = some m ∧ ∀ a ∈ settingAddrs, mget 0 m a = (c.staged a).getD 0) ∧
        (t.cell g).activeSet = c.activeSet ∧ (t.cell g).enable = c.enable ∧ (t.cell g).stagedSet = c.stagedSet) ∧
    (c.stateCode = 0 → ∃ t, exec (.enable g d) s = .next t ∧ OnlyCell g s t ∧
      (d.toNat % 2 = 0 → (t.cell g).enable = false ∧ (t.cell g).zeroRun = c.zeroRun + 1 ∧ (t.cell g).latch = c.latch) ∧
      (d.toNat % 2 = 1 → (t.cell g).enable = true ∧ (t.cell g).zeroRun = 0 ∧ (c.zeroRun < 2 → c.latch ≠ 0 → (t.cell g).latch = c.latch))) ∧
    (∃ t, exec (.dcomp g d) s = .next t ∧ t.cell g = { c with dcompNext := some d.toNat, res := (t.cell g).res } ∧ OnlyCell g s t) ∧
    (∃ t, exec (.probe g d) s = .next t ∧ t.cell g = { c with res := (t.cell g).res } ∧ OnlyCell g s t ∧
      ∀ r l, c.res = r :: l → (t.cell g).res = { r with probe := true } :: l) ∧
    (∀ r l, c.res = r :: l → c.stateCode = 0 → c.enable = true → c.latch = 0 → ∃ t, exec (.selftest g d) s = .next t ∧ OnlyCell g s t ∧
      (r.test = true → t.cell g = { c with stest := some (d.toNat % 1024, 33) }) ∧
      (r.test = false → t.cell g = { c with res := { r with rej := 0x32 } :: l })) ∧
    (d.toNat = 0x5A5A → ∃ t, exec (.closeBypass g d) s = .next t ∧ OnlyCell g s t ∧ (t.cell g).down ∧
      (t.cell g).bypDrive = (if c.bypDrive.isSome then c.bypDrive else some c.accAt) ∧ (t.cell g).stest = none)

/-- O20. A word that the hub forwarded, whose check bits pass (corrected or not), that names the cell, carries the SEQ of the relayed XTICK and meets a tick that is not closed is accepted: the origin is set from the timing mark, the compensation (a waiting one first), OFS launch phase and 24,000 ps where the hub has relayed a mark since the last origin, or 1,000 ns after the last origin where no mark came, the tick is closed, SEQ and HOLD_OK are kept and the missing count is cleared. A malformed word is refused with 0x30 and schedules nothing. A well-formed word without an item, whose states the cell has, allowed if it drives and within the minimum pulse appends exactly its present edges that are not KEEP at the execution reference, with result 0. A word that the hub did not forward, or forwarded for a tick more than 256 away, that fails its check bits, names another cell, carries another SEQ or meets a closed tick changes nothing. No other cell changes. -/
def Obligations.CellWordAcceptance : Prop :=
  ∀ (s : State) (g : Fin 4096) (word : ECWord) (mark inst : Int),
    let c := s.cell g
    let w := cmdDecode (hsiaoDec word).2
    (mget none (s.hub (g / 128)).words (g % 128) = none → exec (.cellWordAccept g word mark inst) s = .next s) ∧
    ∀ (d : BitVec 64) (f : HubHdr), mget none (s.hub (g / 128)).words (g % 128) = some (d, f) →
    let good := (hsiaoDec word).1.good = true ∧ w.cell = g % 128 ∧ (w.seq : Int) = f.tick % 256 ∧ c.closed.contains f.tick = false
    let org := if (s.hub (g / 128)).marks = c.marks then c.origin + 1000000
      else mark - (c.dcompNext.getD c.dcomp : Nat) * 250 - (24000 + (f.lph : Int) * 80)
    let ref := org + 1000000 + (f.ofs : Int) * 1000
    (256 < (f.tick - s.now).natAbs → exec (.cellWordAccept g word mark inst) s = .next s) ∧
    ((f.tick - s.now).natAbs ≤ 256 → good → ∃ t, exec (.cellWordAccept g word mark inst) s = .next t ∧ OnlyCell g s t ∧
      (w.malformed = true → (t.cell g).edges = c.edges ∧ (t.cell g).sched = c.sched ∧
        (t.cell g).origin = org ∧ (t.cell g).closed.contains f.tick = true ∧ (t.cell g).holdOk = w.holdOk ∧ (t.cell g).missing = 0 ∧
        (t.cell g).accAt = inst ∧ (t.cell g).res = (⟨f.tick, 0x30, false, w.test⟩ :: c.res).take 4) ∧
      (∀ st tp, w.malformed = false → w.code = 0 → c.bypassed = false →
        (c.fb = true ∨ ∀ p ∈ w.present, p.2 ≠ 3 ∧ p.2 ≠ 4) →
        (w.driven = true → c.enable = true ∧ c.latch = 0 ∧ c.committed = true ∧ c.bypDrive = none ∧ c.markBlk = false ∧ c.stest = none) →
        c.checkEdges ref w = some (st, tp) →
        (t.cell g).edges = c.edges ++ (w.present.filter fun p => p.2 != 7).map (fun p => ⟨ref + p.1 * 1000, p.2, w.gp⟩) ∧
        (t.cell g).sched = st ∧ (t.cell g).tLast = tp ∧ (t.cell g).origin = org ∧ (t.cell g).seq = w.seq ∧
        (t.cell g).holdOk = w.holdOk ∧ (t.cell g).missing = 0 ∧ (t.cell g).on = c.on ∧ (t.cell g).state = c.state ∧
        (t.cell g).closed.contains f.tick = true ∧ (t.cell g).res = (⟨f.tick, 0, false, w.test⟩ :: c.res).take 4)) ∧
    ((f.tick - s.now).natAbs ≤ 256 → ¬ good → ∃ t, exec (.cellWordAccept g word mark inst) s = .next t ∧ OnlyCell g s t ∧ t.cell g = c)

/-- O21. For every state and cell: a missing tick moves the origin on by 1,000 ns, or to where a timing mark that the hub has relayed since the last origin puts it (with the launch phase of the last one, log entry 116), and closes the tick; within the hold of an accepted HOLD_OK word it only counts besides, a further one takes the cell to BLOCK once and remembers an expired hold, and a tick that is closed changes nothing. The earliest scheduled edge takes the cell to its state with its gate profile unless a fault is latched or the enable is low; an edge to BLOCK turns every switch off. The report, made after the gate-ons due at its origin, carries index, VCAP, temperature, SEQ_E, fault code, GSUP, state and flags in their places, and the settings of an accepted commit become active. A BLOCK marker blocks the cell. The bypass is driven on VCAP at or above four times VCAP_BYP with active settings or on an auxiliary supply under lock-out, is confirmed by the auxiliary contact, and a failed one latches 0x0E. The end of a self-test latches 0x10 plus the first failing selected comparator. Power-up leaves a starting cell of the same type; a recovered supply clears its GSUP bit and gives the gate-on of its switch that was held off. No other cell and nothing else changes. -/
def Obligations.CellTicksAndBypass : Prop :=
  ∀ (s : State) (g : Fin 4096) (inst : Int),
    let c := s.cell g
    (∀ (x : Fin 512) (mark : Int), ∃ t, exec (.cellMissingTick g x mark inst) s = .next t ∧ OnlyCell g s t ∧
      (c.closed.contains (nearTick s.now x) = true → t.cell g = c) ∧
      (c.closed.contains (nearTick s.now x) = false → (t.cell g).missing = c.missing + 1 ∧
        (t.cell g).origin = (if (s.hub (g / 128)).marks = c.marks then c.origin + 1000000
          else mark - (c.dcompNext.getD c.dcomp : Nat) * 250 - (24000 + (c.lph : Int) * 80)) ∧
        (t.cell g).closed.contains (nearTick s.now x) = true ∧
        (c.holdOk = true ∧ c.missing + 1 ≤ (s.hub (g / 128)).hold → (t.cell g).edges = c.edges ∧ (t.cell g).state = c.state ∧ (t.cell g).on = c.on) ∧
        (¬ (c.holdOk = true ∧ c.missing + 1 ≤ (s.hub (g / 128)).hold) → c.bypassed = false → c.ended = false →
          (t.cell g).down ∧ (t.cell g).ended = true ∧ (t.cell g).holdExp = c.holdOk ∧ (t.cell g).latch = c.latch ∧ (t.cell g).tLast = some inst))) ∧
    (∀ e rest, popEdge c.edges = some (e, rest) → ∃ t, exec (.cellEdge g) s = .next t ∧ OnlyCell g s t ∧ (t.cell g).edges = rest ∧
      (e.st ≠ 0 → (c.latch ≠ 0 ∨ c.enable = false) → (t.cell g).state = c.state) ∧
      (c.latch = 0 → c.bypassed = false → (c.enable = true ∨ e.st = 0) → e.st ≠ c.state → (t.cell g).state = e.st ∧ (t.cell g).gp = e.gp ∧ (t.cell g).sched = c.sched) ∧
      (e.st = 0 → c.state ≠ 0 → (t.cell g).on = 0 ∧ (t.cell g).waitOn = [])) ∧
    (∀ (j : Fin 512) (v : BitVec 14) (temp : BitVec 8), c.stest = none → ∃ t, exec (.cellReport g j v temp) s = .next t ∧ OnlyCell g s t ∧
      let prev := nearTick s.now j - 1
      let r := c.res.find? fun r => r.xtick == prev
      let code := (c.settle (c.origin + 1000000)).stateCode
      (t.cell g).vcap = v.toNat ∧ (t.cell g).edges = c.edges ∧ (t.cell g).activeSet = c.setNext.getD c.activeSet ∧ (t.cell g).setNext = none ∧
      (∀ x, r = some x → (t.cell g).report = BitVec.ofNat 64 (g % 128 * 2 ^ 57 +
        v.toNat * 2 ^ 43 + temp.toNat * 2 ^ 35 + (prev % 256).toNat * 2 ^ 27 +
        (if c.latch ≠ 0 then c.latch else if x.rej ≠ 0 then x.rej else if c.holdExp then 0x20 else 0) * 2 ^ 21 +
        c.gsup.toNat * 2 ^ 16 + code * 2 ^ 4 + (if x.rej ≠ 0 then 2 else 0))) ∧
      (r = none → (t.cell g).report = BitVec.ofNat 64 (g % 128 * 2 ^ 57 +
        v.toNat * 2 ^ 43 + temp.toNat * 2 ^ 35 + c.seq * 2 ^ 27 +
        (if c.latch ≠ 0 then c.latch else if c.holdExp then 0x20 else 0) * 2 ^ 21 +
        c.gsup.toNat * 2 ^ 16 + code * 2 ^ 4 + 1))) ∧
    (∃ t, exec (.cellBlockMarker g 0xFFE00329 inst) s = .next t ∧ OnlyCell g s t ∧ (t.cell g).down ∧ (t.cell g).markBlk = true ∧
      (t.cell g).tLast = some inst) ∧
    (∀ word, markerOf word = none → ∃ t, exec (.cellBlockMarker g word inst) s = .next t ∧ t = s) ∧
    (∀ v : BitVec 14, c.activeSet ≠ [] → 4 * c.setting 9 ≤ v.toNat → ∃ t, exec (.autonomousBypass g (.vcap v) inst) s = .next t ∧
      OnlyCell g s t ∧ (t.cell g).down ∧ (t.cell g).bypDrive = (if c.bypDrive.isSome then c.bypDrive else some inst)) ∧
    (c.gsup.getLsbD 4 = true → ∃ t, exec (.autonomousBypass g .aux2ms inst) s = .next t ∧
      OnlyCell g s t ∧ (t.cell g).down ∧ (t.cell g).bypDrive = (if c.bypDrive.isSome then c.bypDrive else some inst)) ∧
    (c.bypDrive.isSome = true → ∃ t, exec (.bypassConfirm g) s = .next t ∧ OnlyCell g s t ∧ t.cell g = { c with bypassed := true }) ∧
    (c.bypDrive.isSome = true → c.bypassed = false → ∃ t, exec (.bypassFail g) s = .next t ∧ OnlyCell g s t ∧
      t.cell g = { c with latch := if c.latch = 0 then 0x0E else c.latch }) ∧
    (∀ (m n i : Nat) (fails : BitVec 10), c.stest = some (m, n) → n ≤ 1 → c.fb = true → i < 10 → tbit m i = true → tbit fails.toNat i = true →
      (∀ k, k < i → tbit m k = false ∨ tbit fails.toNat k = false) → ∃ t, exec (.selftestEnd g fails) s = .next t ∧ OnlyCell g s t ∧
      t.cell g = { c with stest := none, latch := if c.latch = 0 then 0x10 + i else c.latch }) ∧
    (∃ t, exec (.cellPowerUp g) s = .next t ∧ OnlyCell g s t ∧ t.cell g = { fb := c.fb, marks := (s.hub (g / 128)).marks } ∧ (t.cell g).stateCode = 0xA) ∧
    (∀ k : Fin 5, let q := c.settle inst
      ∃ t, exec (.gateSupplyRecovery g k inst) s = .next t ∧ OnlyCell g s t ∧
      t.cell g = { q with gsup := (t.cell g).gsup, held := (t.cell g).held, on := (t.cell g).on, onAt := (t.cell g).onAt, srcI := (t.cell g).srcI } ∧
      (∀ i : Fin 5, (t.cell g).gsup.getLsbD i = (c.gsup.getLsbD i && i != k)) ∧
      (∀ i : Fin 4, (t.cell g).held.getLsbD i = (q.held.getLsbD i && i.val != k.val)) ∧
      (q.held.getLsbD k = true → q.enable = true → (t.cell g).on = q.on ||| BitVec.ofNat 4 (2 ^ k.val) ∧ mget none (t.cell g).onAt k = some inst) ∧
      (q.held.getLsbD k = false → (t.cell g).on = q.on ∧ (t.cell g).onAt = q.onAt ∧ (t.cell g).srcI = q.srcI))

/-- O22. For every state, hub, uplink and header word that decodes with TYPE 1 and VER 1, whose FRAME marker arrived in UI ui. With the hub's identity, TOKEN set and EPOCH at least 1 and either above E_acc or equal to it on the uplink U_acc, E_acc and U_acc become those of the frame, and its words are forwarded from here on, with its tick, OFS and LPH, where no frame of the tick was accepted before, or the one accepted came on the other uplink, has had no word forwarded and its marker came later, or in the same UI on uplink 1, which then is forwarded no longer; a second frame of the tick is not forwarded otherwise. With the hub's identity and otherwise, the uplink's refused count counts modulo 256, nothing of the frame is forwarded, and E_acc, U_acc and the other uplink's frame stay. A header with an uncorrectable word, another TYPE or another VER only ends the forwarding of the frame before it. A good command word of the frame being forwarded reaches its cell's place with the header fields, and marks its tick as forwarded; the hub word H0 of a frame whose CRC passes sets the hold limit where it is 2 to 8; a word of an uplink whose frame is not forwarded changes nothing. A BLOCK marker on an uplink is relayed to the cells; a new latched cell code 0x01 to 0x0E and a new nonzero hub fault each commit one ALERT marker; power-up clears all but the identity and the count of timing marks. The FRAME marker before any header on U_acc, whatever the header, is relayed to the cells as one more timing mark. No other hub and nothing else changes. -/
def Obligations.HubAcceptanceAndForwarding : Prop :=
  ∀ (s : State) (n : Fin 32) (u : Fin 2) (w : ECWord) (ui : Nat),
    let h := s.hub n
    let d := (hsiaoDec w).2.toNat
    let ep := d / 2 ^ 24 % 2 ^ 24
    let tk := nearTick s.now (d % 512)
    let named := (hsiaoDec w).1.good = true ∧ d / 2 ^ 58 = 0b000101
    let mine := d / 2 ^ 50 % 256 = h.ident
    let accept := tbit d 48 = true ∧ 1 ≤ ep ∧ (h.eAcc < ep ∨ (ep = h.eAcc ∧ u.val = h.uAcc))
    let seen := h.ticks.find? fun k => k.tick == tk
    let takes := ∀ k, seen = some k → k.sent = false ∧ k.u ≠ u.val ∧ (ui < k.ui ∨ (ui = k.ui ∧ u = 0))
    (named → mine → accept → ∃ t, exec (.hubHeaderAccept n u w ui) s = .next t ∧ OnlyHub n s t ∧ (t.hub n).eAcc = ep ∧ (t.hub n).uAcc = u ∧
      (t.hub n).refused0 = h.refused0 ∧ (t.hub n).refused1 = h.refused1 ∧ (t.hub n).words = h.words ∧
      (takes → (t.hub n).fwd u = some ⟨tk, d / 2 ^ 14 % 1024, d / 2 ^ 9 % 32⟩ ∧ (t.hub n).fwd (1 - u.val) ≠ some ((t.hub n).fwd u |>.getD {}) ∧
        (t.hub n).ticks.head? = some ⟨tk, u, ui, false⟩) ∧
      (¬ takes → (t.hub n).fwd u = none ∧ (t.hub n).ticks = h.ticks ∧ (t.hub n).fwd (1 - u.val) = h.fwd (1 - u.val))) ∧
    (named → mine → ¬ accept → ∃ t, exec (.hubHeaderAccept n u w ui) s = .next t ∧ OnlyHub n s t ∧ (t.hub n).eAcc = h.eAcc ∧
      (t.hub n).uAcc = h.uAcc ∧ (t.hub n).fwd u = none ∧ (t.hub n).fwd (1 - u.val) = h.fwd (1 - u.val) ∧ (t.hub n).words = h.words ∧
      (if u = 0 then (t.hub n).refused0 = (h.refused0 + 1) % 256 ∧ (t.hub n).refused1 = h.refused1
       else (t.hub n).refused1 = (h.refused1 + 1) % 256 ∧ (t.hub n).refused0 = h.refused0)) ∧
    (¬ named → ∃ t, exec (.hubHeaderAccept n u w ui) s = .next t ∧ OnlyHub n s t ∧
      t.hub n = { h.setFwd u none with marks := (t.hub n).marks }) ∧
    (∃ t, exec (.hubHeaderAccept n u w ui) s = .next t ∧ (t.hub n).marks = h.marks + (if h.uAcc = u.val then 1 else 0)) ∧
    (∀ (pos : Fin 133) (crcOk : Bool) (f : HubHdr), h.fwd u = some f → (hsiaoDec w).1.good = true →
      ∃ t, exec (.hubWordForward n u pos w crcOk) s = .next t ∧ OnlyHub n s t ∧ (t.hub n).fwd u = some f ∧
        (1 ≤ pos.val → pos.val ≤ 128 → mget none (t.hub n).words (pos.val - 1) = some ((hsiaoDec w).2, f) ∧ (t.hub n).hold = h.hold ∧
          ((∃ k ∈ h.ticks, k.tick = f.tick) → (t.hub n).sentFor f.tick = true)) ∧
        (pos.val = 129 → crcOk = true → 2 ≤ d / 2 ^ 60 → d / 2 ^ 60 ≤ 8 → (t.hub n).hold = d / 2 ^ 60 ∧ (t.hub n).words = h.words) ∧
        (129 ≤ pos.val → crcOk = false → t.hub n = h)) ∧
    (∀ (pos : Fin 133) (crcOk : Bool), h.fwd u = none →
      ∃ t, exec (.hubWordForward n u pos w crcOk) s = .next t ∧ OnlyHub n s t ∧ t.hub n = h) ∧
    (∃ t, exec (.hubBlockRelay n u 0xFFE00329) s = .next t ∧ OnlyHub n s t ∧ t.hub n = { h with blocks := h.blocks + 1 }) ∧
    (∀ (c : Fin 128) (f : BitVec 6), ∃ t, exec (.hubAlert n (.cell c f)) s = .next t ∧ OnlyHub n s t ∧ mget 0 (t.hub n).fcodes c = f.toNat ∧
      (t.hub n).alerts = h.alerts + (if 1 ≤ f.toNat ∧ f.toNat ≤ 0x0E ∧ f.toNat ≠ mget 0 h.fcodes c then 1 else 0)) ∧
    (∀ f : BitVec 8, ∃ t, exec (.hubAlert n (.own f)) s = .next t ∧ OnlyHub n s t ∧ (t.hub n).flt = f.toNat ∧
      (t.hub n).alerts = h.alerts + (if f.toNat ≠ 0 ∧ f.toNat ≠ h.flt then 1 else 0)) ∧
    (∃ t, exec (.hubPowerUp n) s = .next t ∧ OnlyHub n s t ∧ t.hub n = { ident := h.ident, marks := h.marks })

/-- O23. For every state. A hub's frame has 133 words: a header with TYPE 2, VER 1, its identity, the uplink and the tick, and HOLDING exactly when no word of that tick was forwarded; the report of each cell whose link is up and that echoed no probe, with RXT and FLAGS.PROBE in the word of a cell that did, and the no-report word of each cell whose link is down; and a status word S0 with T_HUB, L_H and the refused counts. A concentrator accepts a header of TYPE 4, VER 1 and its identity from the token holder of the highest epoch, of which the first of a tick, or one on the other input whose marker came in an earlier UI, or in the same UI on input 0, sets the timebase input, the compensation and the origin 24 ns and LPH × 80 ps and D × 250 ps before the mark, and from words that pass their check bits the time and the rate for the next tick (from which tick the rate counts is the model's inference, log 108); any other frame of its identity counts as refused, and frames of other identities change nothing. Its frame carries TYPE 3, its identity, the rate in force, the tick before the present one and the samples of that rate in order, clipped to 32,767 either way, with missing ones as 0x8000, and SYNC exactly when a header was accepted since the last launch; without one the origin advances by 1,000 ns. The status of a channel is its fault bits, with OVR exactly when a result of it was clipped. A channel status whose bits 1 to 4 become nonzero from 0 commits an ALERT marker. -/
def Obligations.HubAndConcentratorFrames : Prop :=
  (∀ (s : State) (n : Fin 32) (u : Fin 2) (j : Fin 512) (d : HubData),
    ∃ t, exec (.hubFrameLaunch n u j d) s = .next t ∧ OnlyHub n s t ∧
      let f := if u = 0 then (t.hub n).up0 else (t.hub n).up1
      f.length = 133 ∧ (f.getD 0 0).toNat / 2 ^ 58 = 0b001001 ∧ (f.getD 0 0).toNat / 2 ^ 50 % 256 = (s.hub n).ident % 256 ∧
      (f.getD 0 0).toNat / 2 ^ 49 % 2 = u ∧ (f.getD 0 0).toNat % 512 = j ∧
      (f.getD 0 0).toNat / 2 ^ 15 % 2 = (if (s.hub n).sentFor (nearTick s.now j) then 0 else 1) ∧
      (∀ c : Fin 128, d.up.getLsbD c = true → (∀ p ∈ d.rtts, p.1 ≠ c) → f.getD (1 + c) 0 = (s.cell (128 * n + c)).report) ∧
      (∀ (c : Fin 128) (r : Nat), d.up.getLsbD c = true → d.rtts = [(c, r)] →
        f.getD (1 + c) 0 = (s.cell (128 * n + c)).report ||| BitVec.ofNat 64 (r % 256 * 2 ^ 8 + 4)) ∧
      (∀ c : Fin 128, d.up.getLsbD c = false → f.getD (1 + c) 0 = BitVec.ofNat 64 (c * 2 ^ 57 + 8)) ∧
      (f.getD 129 0).toNat / 2 ^ 48 = d.thub.toNat ∧ (f.getD 129 0).toNat / 2 ^ 32 % 2 ^ 16 = d.lh.toNat ∧
      (f.getD 129 0).toNat / 2 ^ 24 % 256 = (s.hub n).refused0 % 256 ∧ (f.getD 129 0).toNat / 2 ^ 16 % 256 = (s.hub n).refused1 % 256) ∧
  (∀ (s : State) (m : Fin 4) (u : Fin 2) (w d0 d1 : ECWord) (mark : Int),
    let c := s.conc m
    let d := (hsiaoDec w).2.toNat
    let ep := d / 2 ^ 25 % 2 ^ 24
    let mine := (hsiaoDec w).1.good = true ∧ d / 2 ^ 58 = 0b010001 ∧ d / 2 ^ 50 % 256 = c.ident
    let accept := tbit d 49 = true ∧ 1 ≤ ep ∧ (c.eAcc < ep ∨ (ep = c.eAcc ∧ u.val = c.uAcc))
    let first := ∀ v, c.fwd = some v → v ≠ u.val ∧ (mark / 80 < c.mark / 80 ∨ (mark / 80 = c.mark / 80 ∧ u = 0))
    (mine → accept → ∃ t, exec (.concHeaderAccept m u w d0 d1 mark) s = .next t ∧ OnlyConc m s t ∧ (t.conc m).eAcc = ep ∧ (t.conc m).uAcc = u ∧
      (t.conc m).refused = c.refused ∧ (t.conc m).rate = c.rate ∧
      (first → (t.conc m).mark = mark ∧ (t.conc m).fwd = some u.val ∧ (t.conc m).tbin = u ∧ (t.conc m).dcomp = d / 2 ^ 5 % 2 ^ 15 ∧
        (t.conc m).origin = mark - 250 * (d / 2 ^ 5 % 2 ^ 15 : Nat) - (24000 + 80 * (d / 2 ^ 20 % 32 : Nat)) ∧
        ((hsiaoDec d0).1.good = true → (t.conc m).time = (hsiaoDec d0).2.toNat) ∧
        ((hsiaoDec d1).1.good = true → (t.conc m).rateNext = (hsiaoDec d1).2.toNat / 2 ^ 61 ∧ (t.conc m).advNext = (hsiaoDec d1).2.toNat / 2 ^ 51 % 1024)) ∧
      (¬ first → (t.conc m).fwd = c.fwd ∧ (t.conc m).mark = c.mark ∧ (t.conc m).tbin = c.tbin ∧ (t.conc m).origin = c.origin ∧ (t.conc m).dcomp = c.dcomp ∧ (t.conc m).rateNext = c.rateNext)) ∧
    (mine → ¬ accept → ∃ t, exec (.concHeaderAccept m u w d0 d1 mark) s = .next t ∧ OnlyConc m s t ∧
      t.conc m = { c with refused := (c.refused + 1) % 256 }) ∧
    (¬ mine → ∃ t, exec (.concHeaderAccept m u w d0 d1 mark) s = .next t ∧ OnlyConc m s t ∧ t.conc m = c)) ∧
  (∀ (s : State) (m : Fin 4) (d : ConcData),
    let c := s.conc m
    let n := 2 * rateOf c.rate
    ∃ t, exec (.concFrameLaunch m d) s = .next t ∧ OnlyConc m s t ∧ (t.conc m).sync = c.fwd.isSome ∧ (t.conc m).fwd = none ∧
      (t.conc m).origin = (if c.fwd.isSome then c.origin else c.origin + 1000000) ∧ (t.conc m).rate = c.rateNext ∧
      (t.conc m).up.length = n + 3 ∧ ((t.conc m).up.getD 0 0).toNat / 2 ^ 58 = 0b001101 ∧
      ((t.conc m).up.getD 0 0).toNat / 2 ^ 50 % 256 = c.ident % 256 ∧ ((t.conc m).up.getD 0 0).toNat / 2 ^ 47 % 8 = c.rate % 8 ∧
      ((t.conc m).up.getD 0 0).toNat % 512 = (s.now + 511) % 512 ∧
      ((t.conc m).up.getD (n + 2) 0).toNat / 2 ^ 30 % 2 = (if c.fwd.isSome then 1 else 0) ∧
      (∀ i, i < 4 * n → ((t.conc m).up.getD (1 + i / 4) 0).toNat / 2 ^ (48 - 16 * (i % 4)) % 2 ^ 16 =
        (match d.samples.getD i none with | some v => wrap (clampI v (-32767) 32767) 16 | none => 0x8000)) ∧
      ∀ ch : Fin 8, ((t.conc m).up.getD (n + 1) 0).toNat / 2 ^ (8 * ch.val) % 256 = (t.conc m).cstat.getD ch 0 ∧
        (t.conc m).cstat.getD ch 0 / 2 = (d.faults.getD ch 0).toNat ∧
        ((t.conc m).cstat.getD ch 0 % 2 = 1 ↔ ∃ i v, i % 8 = ch.val ∧ d.samples[i]? = some (some v) ∧ (v < -32767 ∨ 32767 < v))) ∧
  (∀ (s : State) (m : Fin 4) (ch : Fin 8) (cs : BitVec 8), ∃ t, exec (.concAlert m ch cs) s = .next t ∧ OnlyConc m s t ∧
    (t.conc m).cstat.getD ch 0 = cs.toNat ∧ (t.conc m).origin = (s.conc m).origin ∧
    (t.conc m).alerts = (s.conc m).alerts + (if (s.conc m).cstat.getD ch 0 / 2 % 16 = 0 ∧ cs.toNat / 2 % 16 ≠ 0 then 1 else 0))

/-- O24. For every state. While the block stream runs or boundary scan holds the pins, FRAME_LAUNCH sends nothing. Otherwise a CL port that is neither OFF nor told to stop, in no far-end loopback and has its frame composed sends its header, with the tick that follows, and the composer's words, of which every word of a configured cell takes the compensation item of a takeover that waits for it, and the BLOCK form while the latched block is set; with no marker left over from the frame before, the frame's only marker is a BLOCK marker where the block is set with PRT_CTRL.REPEAT; a port that is OFF or told to stop sends nothing new. A frame that arrives at a port that is not LOCKED, RUNNING or FAULTED with signal and lock changes nothing, and at a FAULTED one without loopback it counts its stuffing violations alone. At a RUNNING port without loopback or an armed injection, a frame without stuffing violations whose header decodes, whose CRC passes, that names the expected hub and is in time is kept for unpacking, and CL_HUB_STAT shows the hub's epoch and token; a late one is not kept, changes neither and sends TLM_LATE; one whose CRC fails counts as such, sends CRC_ERR and is not kept. A BLOCK marker that a lane from 32 on holds, committed for a line word boundary of a frame without markers, is placed there (at the first after the FRAME marker at the earliest) and no longer held; one committed for a boundary of the next frame is carried over to it. -/
def Obligations.FramesAtPorts : Prop :=
  (∀ (s : State) (lph : Fin 32) (d : LaunchData), (s.ctl.stream = true ∨ s.dbg.scan = true) → exec (.frameLaunch lph d) s = .next s) ∧
  (∀ (s : State) (lph : Fin 32) (d : LaunchData), s.ctl.stream = false → s.dbg.scan = false →
    ∃ t, exec (.frameLaunch lph d) s = .next t ∧
      ∀ n : Fin 32, (s.portState n = 0 ∨ (s.lane n).stopping = true → t.lane n = s.lane n) ∧
        (s.portState n ≠ 0 → (s.lane n).stopping = false → s.fld (CL_CTRL_LB n) ≠ 3 → (s.cmp.frames.any fun p => p.1 == n.val) = true →
          let ws := mget [] s.cmp.frames n
          ((s.lane n).carry = [] → (s.lane n).commits = [] → (t.lane n).marks =
            frameMarks ({ s with cmp := { s.cmp with lph := lph.val } } : State).frameWords (if s.latched = true ∧ s.bit PRT_CTRL_REPEAT = true then [(0, Marker.block)] else [])) ∧
          (t.lane n).txWords.getD 0 0 = s.cellHeader n lph ∧ ((t.lane n).txWords.getD 0 0).toNat % 512 = (s.now + 1) % 512 ∧
          (t.lane n).txWords.length = ws.length + 1 ∧
          ∀ i, i < ws.length → (t.lane n).txWords.getD (i + 1) 0 =
            (if i < 128 ∧ s.isConf (128 * n + i) = true then
              let w := match (s.cc (128 * n + i)).adopt with
                | some (v, none) => cmdEncode { cmdDecode (ws.getD i 0) with code := 4, data := v }
                | _ => ws.getD i 0
              if s.latched = true then blockForm (s.fld PLN_STG_GP_BLK) w else w
             else ws.getD i 0))) ∧
  (∀ (s : State) (n : Fin 32) (line : List Bool) (cyc rtt : Nat),
    (s.portState n < 3 ∨ (s.portState n = 5 ∧ (s.bit (CL_STAT_LOS n) = true ∨ s.bit (CL_STAT_LOL n) = true)) → exec (.cellFrameRx n line cyc rtt) s = .next s) ∧
    (s.portState n = 5 → s.bit (CL_STAT_LOS n) = false → s.bit (CL_STAT_LOL n) = false → s.fld (CL_CTRL_LB n) = 0 →
      ∃ t, exec (.cellFrameRx n line cyc rtt) s = .next t ∧ t = { s with regs := t.regs, sump := t.sump } ∧
        SameRegs [CL_CNT_STUFF n, CL_CNT_OVF n, FLT_CNT_MERGED, FLT_CNT_OVF] s t ∧
        t.fld (CL_CNT_STUFF n) = (s.count (CL_CNT_STUFF n) (CL_CNT_OVF n) 3 (frameIn 132 line).stuffV).fld (CL_CNT_STUFF n))) ∧
  (∀ (s : State) (n : Fin 32) (line : List Bool) (cyc rtt : Nat), s.portState n = 4 → s.fld (CL_CTRL_LB n) = 0 →
    s.bit (FLT_INJ_ARM (0x48 + n)) = false → (frameIn 132 line).stuffV = 0 → (frameIn 132 line).hdrEcc.good = true →
    let f := frameIn 132 line
    let due := s.fullJ (f.hdr.toNat % 512) + 1 + s.fld (CL_HUB_TLAG n)
    (f.crcOk = true → s.expectHub n f.hdr = true → (s.now < due ∨ (s.now = due ∧ cyc ≤ 80)) →
      ∃ t, exec (.cellFrameRx n line cyc rtt) s = .next t ∧ ((t.lane n).rx.head?.map RxFrame.hdr) = some f.hdr ∧
        t.fld (CL_HUB_STAT_EPOCH n) = f.hdr.toNat / 2 ^ 24 % 2 ^ 24 ∧ t.fld (CL_HUB_STAT_TOKEN n) = f.hdr.toNat / 2 ^ 48 % 2 ∧
        t.portState n = 4 ∧ t.mem = s.mem) ∧
    (f.crcOk = true → s.expectHub n f.hdr = true → (due < s.now ∨ (s.now = due ∧ 80 < cyc)) →
      ∃ t, exec (.cellFrameRx n line cyc rtt) s = .next t ∧ t.lane n = s.lane n ∧ t = { s with regs := t.regs, sump := t.sump } ∧
        SameRegs [CL_FCNT_HFIX n, CL_FCNT_WFIX n, CL_FCNT_WUE n, CL_FCNT_LATE n, CL_FCNT_OVF n, FLT_CNT_MERGED, FLT_CNT_OVF] s t ∧
        Told (0x101 + 4 * n) 0x1B (f.hdr.toNat % 512 * 2 ^ 23) s t) ∧
    (f.crcOk = false → ∃ t, exec (.cellFrameRx n line cyc rtt) s = .next t ∧ t.lane n = s.lane n ∧
      t = { s with regs := t.regs, sump := t.sump } ∧
      t.fld (CL_FCNT_CRC n) = (s.count (CL_FCNT_CRC n) (CL_FCNT_OVF n) 0 1).fld (CL_FCNT_CRC n) ∧
      Told (0x101 + 4 * n) 0x19 (f.hdr.toNat % 512 * 2 ^ 23) s t)) ∧
  (∀ (s : State) (l : Fin 40) (w : Nat), 32 ≤ l.val → s.portState l ≠ 0 → s.dbg.scan = false → s.ctl.stream = false → (s.lane l).blockReq = true →
    (s.lane l).commits = [] → (s.lane l).carry = [] →
    (w < s.frameWords → 1 < s.frameWords → ∃ t, exec (.priorityMarkerSend l .block w) s = .next t ∧ t = { s with lanes := t.lanes } ∧
      t.lane l = { s.lane l with commits := [(w, .block)], marks := [(max w 1, .block)], blockReq := false } ∧ ∀ k, k ≠ l.val → t.lane k = s.lane k) ∧
    (s.frameWords ≤ w → ∃ t, exec (.priorityMarkerSend l .block w) s = .next t ∧ t = { s with lanes := t.lanes } ∧
      t.lane l = { s.lane l with carry := [.block], blockReq := false } ∧ ∀ k, k ≠ l.val → t.lane k = s.lane k))

/-- O25. For every state and pin with VDD_IO33 within limits. A pin that is not active and enters its active level with its enable set sets the latched block with cause PIN: sampled, PRT_PIN_STAT shows it active and seen and the pin's source sends TRIP_PIN; missed by the sampler, only source 0x333 tells, with bit 31 of the detail. With its enable clear it is only shown. A pin that leaves its active level is shown inactive and nothing else changes. A write of PRT_PIN_CFG outside the locked states sets EN and POL, and where no enabled pin is active under the new setting no block arises; an enabled pin that was not enabled and is active sets the block. A write of PRT_FORCE with key 0x5AC3 and BLK set sets the block with cause FORCE and no message; with another key the write is voided with BAD_VALUE. -/
def Obligations.TripPinsAndForce : Prop :=
  ∀ (s : State) (p : Fin 16) (m : Master),
    (s.pinActive p = false → s.elec.below.contains 10 = false → tbit (s.fld PRT_PIN_CFG_EN) p = true →
      (∃ t, exec (.tripPin p true) s = .next t ∧ Blocked 0 s t ∧ OnlyBlock [PRT_PIN_STAT_ACTIVE, PRT_PIN_STAT_SEEN] s t ∧
        t.pinActive p = true ∧ tbit (t.fld PRT_PIN_STAT_ACTIVE) p = true ∧
        (tbit (s.fld PRT_PIN_STAT_ACTIVE) p = false → tbit (t.fld PRT_PIN_STAT_SEEN) p = true) ∧
        Told (0x300 + p) 0x10 0 s t) ∧
      (∃ t, exec (.tripPin p false) s = .next t ∧ Blocked 0 s t ∧ OnlyBlock [] s t ∧ t.prot.pins = s.prot.pins ∧ Told 0x333 0x10 (2 ^ 31) s t)) ∧
    (s.pinActive p = false → s.elec.below.contains 10 = false → tbit (s.fld PRT_PIN_CFG_EN) p = false →
      ∃ t, exec (.tripPin p true) s = .next t ∧ t = { s with regs := t.regs, prot := t.prot, acq := t.acq } ∧
        SameRegs [PRT_PIN_STAT_ACTIVE, PRT_PIN_STAT_SEEN] s t ∧ tbit (t.fld PRT_PIN_STAT_ACTIVE) p = true) ∧
    (∃ t, exec (.tripPinInactive p) s = .next t ∧ t = { s with regs := t.regs, prot := t.prot, acq := t.acq } ∧
      SameRegs [PRT_PIN_STAT_ACTIVE, PRT_PIN_STAT_SEEN] s t ∧ tbit (t.fld PRT_PIN_STAT_ACTIVE) p = false ∧
      ∀ q : Fin 16, q ≠ p → t.pinActive q = s.pinActive q) ∧
    (∀ val : Word, s.locked = false → s.elec.below.contains 10 = false →
      ((∀ q : Fin 16, val.getLsbD q = true → s.prot.pins.getLsbD q = val.getLsbD (16 + q)) →
        ∃ t, exec (.tripPinCfgWrite m val) s = .next t ∧ t.fld PRT_PIN_CFG_EN = val.toNat % 2 ^ 16 ∧ t.fld PRT_PIN_CFG_POL = val.toNat / 2 ^ 16 ∧
          t.latched = s.latched ∧ t.sump = s.sump) ∧
      (val.getLsbD p = true → tbit (s.fld PRT_PIN_CFG_EN) p = false → s.prot.pins.getLsbD p ≠ val.getLsbD (16 + p) →
        ∃ t, exec (.tripPinCfgWrite m val) s = .next t ∧ t.fld PRT_PIN_CFG_EN = val.toNat % 2 ^ 16 ∧ t.fld PRT_PIN_CFG_POL = val.toNat / 2 ^ 16 ∧
          t.latched = true ∧ tbit (t.fld PRT_CAUSE_ALL) 0 = true)) ∧
    (∀ val : Word, val.toNat / 2 ^ 16 = 0x5AC3 → val.getLsbD 0 = true →
      ∃ t, exec (.forceBlock m val) s = .next t ∧ Blocked 7 s t ∧ OnlyBlock [] s t ∧ t.sump = s.sump) ∧
    (∀ val : Word, val.toNat / 2 ^ 16 ≠ 0x5AC3 →
      ∃ t, exec (.forceBlock m val) s = .next t ∧ t = { s with regs := t.regs, sump := t.sump } ∧ SameRegs msgFlds s t ∧ Told 0x300 0x03 0 s t)

/-- O26. For every comparator with an enable set, once comparators act and its channel's port is RUNNING. A valid sample above the high limit (below the low one) that completes PERSIST samples in a run trips an untripped comparator: TRIP, the run, HI_SEEN (LO_SEEN), the comparator's bit in PRT_CMP_SEEN, the latched block with cause CMP and its message with the sample; before that it only lengthens the run. A valid sample within the limits, with no rate limit enabled and PERSIST at least 1, clears run and trip. An invalid sample with BADTRIP clear leaves run and trip as they are. In a tick with one FCODE change of a code that PRT_CELL_ESC.CODES selects, the escalation sets the block with cause CELL and sends CELL_ESC with the cell and the code, and the change is used up; with no change nothing but the window changes. -/
def Obligations.ComparatorsAndEscalation : Prop :=
  (∀ (s : State) (n : Fin 32) (x : BitVec 16),
    s.cmpUsed n = true → s.prot.cmpOn = true → s.portState (32 + s.fld (PRT_CMP_CFG_SRC n) / 8) = 4 →
    let hi := s.bit (PRT_CMP_CFG_EN_HI n) = true ∧ sext (s.fld (PRT_CMP_HL_HI n)) 16 < sext x.toNat 16
    let lo := s.bit (PRT_CMP_CFG_EN_LO n) = true ∧ sext x.toNat 16 < sext (s.fld (PRT_CMP_HL_LO n)) 16
    let run := s.fld (PRT_CMP_STAT_RUN n) + 1
    let fs := [PRT_CMP_STAT_TRIP n, PRT_CMP_STAT_RUN n, PRT_CMP_STAT_HI_SEEN n, PRT_CMP_STAT_LO_SEEN n, PRT_CMP_SEEN]
    (hi ∨ lo → run ≤ 15 → s.fld (PRT_CMP_CFG_PERSIST n) ≤ run → s.bit (PRT_CMP_STAT_TRIP n) = false →
      ∃ t, exec (.comparatorSample n x true) s = .next t ∧ Blocked 1 s t ∧ OnlyBlock fs s t ∧ t.fld (PRT_CMP_STAT_TRIP n) = 1 ∧
        t.fld (PRT_CMP_STAT_RUN n) = run ∧ tbit (t.fld PRT_CMP_SEEN) n = true ∧
        (hi → t.fld (PRT_CMP_STAT_HI_SEEN n) = 1 ∧ Told (0x310 + n) 0x11 (x.toNat * 2 ^ 16) s t) ∧
        (¬ hi → t.fld (PRT_CMP_STAT_LO_SEEN n) = 1 ∧ Told (0x310 + n) 0x12 (x.toNat * 2 ^ 16) s t)) ∧
    (hi ∨ lo → run ≤ 15 → run < s.fld (PRT_CMP_CFG_PERSIST n) →
      ∃ t, exec (.comparatorSample n x true) s = .next t ∧ t = { s with regs := t.regs, prot := t.prot } ∧
        SameRegs [PRT_CMP_STAT_TRIP n, PRT_CMP_STAT_RUN n] s t ∧ t.fld (PRT_CMP_STAT_RUN n) = run ∧ t.fld (PRT_CMP_STAT_TRIP n) = 0) ∧
    (¬ hi → ¬ lo → s.bit (PRT_CMP_CFG_EN_RATE n) = false → 1 ≤ s.fld (PRT_CMP_CFG_PERSIST n) →
      ∃ t, exec (.comparatorSample n x true) s = .next t ∧ t = { s with regs := t.regs, prot := t.prot } ∧
        SameRegs [PRT_CMP_STAT_TRIP n, PRT_CMP_STAT_RUN n] s t ∧ t.fld (PRT_CMP_STAT_RUN n) = 0 ∧ t.fld (PRT_CMP_STAT_TRIP n) = 0) ∧
    (s.bit (PRT_CMP_CFG_BADTRIP n) = false → ∃ t, exec (.comparatorSample n x false) s = .next t ∧ t = { s with prot := t.prot } ∧
      t.prot = { s.prot with cmps := t.prot.cmps })) ∧
  (∀ (s : State) (c : FChange) (b : Nat), s.dbg.frozen = false → s.prot.changes = [c] → escBit c.code = some b →
    tbit (s.fld PRT_CELL_ESC_CODES) b = true → c.cell < 4096 → ∃ t, exec .cellEscalation s = .next t ∧ Blocked 2 s t ∧ OnlyBlock [] s t ∧
      t.prot.changes = [] ∧ Told 0x330 0x15 (c.cell * 2 ^ 20 + c.code * 2 ^ 14) s t) ∧
  (∀ s : State, s.dbg.frozen = false → s.prot.changes = [] → ∃ t, exec .cellEscalation s = .next t ∧
    t = { s with prot := { s.prot with window := t.prot.window } } ∧
    ∀ e, e ∈ t.prot.window ↔ e ∈ s.prot.window ∧ s.now < e.2.2 + s.fld PRT_CELL_ESC_MWIN)

/-- O27. For every state. A write of PRT_REL with key 0x5AC3 and GO set: without a latched block nothing changes; with one and REL_READY the request is kept for the boundary and nothing else changes; with one and REL_READY clear REL_REJ is set, the rejected releases count, and RELEASE_REJ is sent with the unmet conditions in bits 31 to 24. With another key the write is voided with BAD_VALUE. The minimum block time is noted as expired exactly when a block is latched and MINBLK times 10 ticks have passed since the tick of the last cause; that the time counts whole ticks is the model's choice (log 23). The unmet conditions have bit 0 set within that time, bit 1 while an enabled pin is active and bit 2 while a comparator is tripped. -/
def Obligations.ReleaseRequests : Prop :=
  ∀ (s : State) (m : Master),
    (∀ val : Word, val.toNat / 2 ^ 16 = 0x5AC3 → val.getLsbD 0 = true →
      (s.latched = false → exec (.releaseRequest m val) s = .next s) ∧
      (s.latched = true → s.bit PRT_STAT_REL_READY = true →
        exec (.releaseRequest m val) s = .next { s with prot := { s.prot with relReq := true } }) ∧
      (s.latched = true → s.bit PRT_STAT_REL_READY = false → ∃ t, exec (.releaseRequest m val) s = .next t ∧
        t = { s with regs := t.regs, sump := t.sump } ∧
        SameRegs [PRT_STAT_REL_REJ, PRT_CNT_RELREJ, PRT_CNT_OVF, FLT_CNT_MERGED, FLT_CNT_OVF] s t ∧ t.fld PRT_STAT_REL_REJ = 1 ∧
        t.fld PRT_CNT_RELREJ = (s.count PRT_CNT_RELREJ PRT_CNT_OVF 1 1).fld PRT_CNT_RELREJ ∧ Told 0x332 0x1A (s.unmet * 2 ^ 24) s t)) ∧
    (∀ val : Word, val.toNat / 2 ^ 16 ≠ 0x5AC3 → ∃ t, exec (.releaseRequest m val) s = .next t ∧
      t = { s with regs := t.regs, sump := t.sump } ∧ SameRegs msgFlds s t ∧ Told 0x300 0x03 0 s t) ∧
    (s.latched = true → s.prot.setTick + s.fld PRT_REL_CFG_MINBLK * 10 ≤ s.now →
      exec .minblkExpiry s = .next { s with prot := { s.prot with minDone := true } }) ∧
    (s.latched = false ∨ s.now < s.prot.setTick + s.fld PRT_REL_CFG_MINBLK * 10 → exec .minblkExpiry s = .next s) ∧
    (s.unmet < 256 ∧ (tbit s.unmet 0 = false → s.prot.setTick + s.fld PRT_REL_CFG_MINBLK * 10 ≤ s.now) ∧
      (tbit s.unmet 1 = true ↔ ∃ p : Fin 16, tbit (s.fld PRT_PIN_CFG_EN) p = true ∧ s.pinActive p = true) ∧
      (tbit s.unmet 2 = true ↔ ∃ n : Fin 32, s.bit (PRT_CMP_STAT_TRIP n) = true))

/-- O28. For every state. A Sync and Follow_Up at a station port whose PTP path is on, with a token in its bucket and one domain that follows the port's PTP domain, gives the domain a sample when they come from its grandmaster, whose Announces go on: a domain in state 1 goes to state 2 with the time difference corrected for the port's asymmetry; a Sync of another grandmaster, or of one that has fallen silent, only takes the token. An Announce of a master that is not the domain's grandmaster is only noted until a second one within four intervals qualifies it (log 75, from IEEE 1588); a qualified one becomes the grandmaster, with its UTC values, where there is none, where the present one has fallen silent, or where its data set ranks better. A Pdelay_Req is answered with the corrected receive timestamp and a follow-up, both counted as sent; a Pdelay_Resp sets the mean link delay. Without a token the frame is dropped and counted. A TP0 pulse adds 1 to the own second and gives a domain that follows TP0 in state 1 a sample. A write of a domain's SRC outside the locked states restarts the domain, in state 1, or 0 for no source; a domain without a sample for LOSS_N intervals goes to state 1 and tells DOM_LOST; holdover that lasts LIMIT seconds ends in FREERUN with HO_EXPIRED. TP1's 1PPS output rises at a whole second of control time that the present tick reaches and falls 100 ms later, its 10 MHz output rises at each multiple of 100 ns and falls 50 ns later, each placed earlier by the egress asymmetry; a disabled or gated output begins no pulse, and a pulse in progress ends in its time. What counts as a sample is read as log 74 says. -/
def Obligations.TimeSources : Prop :=
  (∀ (s : State) (p : Fin 4) (d : Fin 2), s.bit (STN_CTRL_EN p) = true → s.bit (STN_CTRL_PTP_EN p) = true → (s.takeToken p 4).1 = true →
    (∀ msg : PtpSync, s.ptpDoms p msg.pdom.toNat = [d.val] → ∀ gm ds at_, (s.dom d).gm = some (gm, ds, at_) →
      (gm ≠ msg.src.toNat ∨ s.gmSilent at_ = true → ∃ t, exec (.ptpSyncRx p msg) s = .next t ∧ t = { s with stn := t.stn }) ∧
      (gm = msg.src.toNat → s.gmSilent at_ = false → s.domSt d = 1 → s.timeLost = false → ∃ t, exec (.ptpSyncRx p msg) s = .next t ∧ t.domSt d = 2 ∧
        (t.dom d).ld = msg.ls ∧ (t.dom d).first = false ∧ t.sump = s.sump ∧
        (t.dom d).th = swrap (((msg.sec.toNat * 1000000000 + msg.ns.toNat : Nat) : Int) * 65536 + msg.corr + (s.dom d).mld + asym16 (s.fld (TIM_ASYM_ING p))
          - (msg.ls : Int) * 65536) 64)) ∧
    (∀ msg : PtpAnnounce, s.ptpDoms p msg.pdom.toNat = [d.val] → ∃ t, exec (.announceRx p msg) s = .next t ∧
      t = { s with regs := t.regs, stn := t.stn, time := t.time } ∧ SameRegs [TIM_UTC_OFS, TIM_UTC_VALID] s t ∧
      (s.qualified (s.dom d) msg = false → (∀ g ∈ (s.dom d).gm, g.1 ≠ msg.src.toNat) → (t.dom d).gm = (s.dom d).gm ∧ t.regs = s.regs) ∧
      (s.qualified (s.dom d) msg = true → (∀ g ∈ (s.dom d).gm, s.gmSilent g.2.2 = true ∨ announceRank msg < g.2.1) →
        (t.dom d).gm = some (msg.src.toNat, announceRank msg, s.now) ∧ t.fld TIM_UTC_OFS = msg.utc.toNat ∧
        t.fld TIM_UTC_VALID = (if msg.utcValid then 1 else 0))) ∧
    (∀ msg : PtpPdelayResp, s.ptpDoms p msg.pdom.toNat = [d.val] → ∃ t, exec (.pdelayRespRx p msg) s = .next t ∧
      t = { s with stn := t.stn, time := t.time } ∧ (t.dom d).th = (s.dom d).th ∧
      (t.dom d).mld = floorDiv ((msg.t4 - asym16 (s.fld (TIM_ASYM_ING p)) - (msg.t1 + asym16 (s.fld (TIM_ASYM_EGR p)))) - (msg.t3 - msg.t2) - msg.corr) 2) ∧
    (∀ msg : PtpPdelayReq, ∃ t, exec (.pdelayReqRx p msg) s = .next t ∧ SameRegs [STN_CNT p 8, STN_CNT_OVF p] s t ∧
      t.fld (STN_CNT p 8) = (((s.count (STN_CNT p 8) (STN_CNT_OVF p) 8 1).count (STN_CNT p 8) (STN_CNT_OVF p) 8 1).fld (STN_CNT p 8)) ∧ (t.time.ptpTx.map PtpTx.type).take 2 = [0xA, 3] ∧
      t.time.ptpTx[1]? = some ⟨p, 3, msg.pdom.toNat, msg.src.toNat, msg.seq.toNat, ((msg.t2 : Int) - asym16 (s.fld (TIM_ASYM_ING p)) / 4096).toNat⟩)) ∧
  (∀ (s : State) (p : Fin 4) (msg : PtpPdelayReq), s.bit (STN_CTRL_EN p) = true → s.bit (STN_CTRL_PTP_EN p) = true → (s.takeToken p 4).1 = false →
    ∃ t, exec (.pdelayReqRx p msg) s = .next t ∧ t.time = s.time ∧
      t.fld (STN_CNT p 9) = (s.count (STN_CNT p 9) (STN_CNT_OVF p) 9 1).fld (STN_CNT p 9)) ∧
  (∀ (s : State) (x : Nat) (mhz : Option Nat), (∀ d : Fin 2, s.fld (TIM_D_CFG_SRC d) ≠ 2) → ∃ t, exec (.tp0Pulse x mhz) s = .next t ∧
    OnlyRegs [TIM_TP0_SEC_LO, TIM_TP0_SEC_HI] s t ∧
    t.fld TIM_TP0_SEC_LO + t.fld TIM_TP0_SEC_HI * 2 ^ 32 = (s.fld TIM_TP0_SEC_LO + s.fld TIM_TP0_SEC_HI * 2 ^ 32 + 1) % 2 ^ 64) ∧
  (∀ (s : State) (x : Nat) (mhz : Option Nat), s.fld (TIM_D_CFG_SRC 0) = 2 → s.fld (TIM_D_CFG_SRC 1) ≠ 2 → s.domSt 0 = 1 → s.timeLost = false →
    s.bit TIM_TP0_SECSRC = true → ∃ t, exec (.tp0Pulse x mhz) s = .next t ∧ t.domSt 0 = 2 ∧ (t.dom 0).first = false ∧
      (t.dom 0).th = swrap (((s.fld TIM_TP0_SEC_LO + s.fld TIM_TP0_SEC_HI * 2 ^ 32 : Nat) : Int) * 1000000000 * 65536 + asym16 (s.fld (TIM_ASYM_ING 4)) - s.localAt x) 64) ∧
  (∀ (s : State) (m : Master) (d : Fin 2) (val : Word), s.locked = false → val.toNat % 8 ≤ 4 → ∃ t, exec (.domainSrcWrite m d val) s = .next t ∧
    t.fld (TIM_D_CFG_SRC d) = val.toNat % 8 ∧ t.domSt d = (if val.toNat % 8 = 0 then 0 else 1) ∧ (t.dom d).first = true ∧ (t.dom d).gm = none ∧
    t.dom (1 - d.val) = s.dom (1 - d.val)) ∧
  (∀ (s : State) (m : Master) (d : Fin 2) (val : Word), s.locked = true → ∃ t, exec (.domainSrcWrite m d val) s = .next t ∧
    t = { s with regs := t.regs, sump := t.sump } ∧ SameRegs msgFlds s t ∧ Told 0x340 0x02 0 s t) ∧
  (∀ (s : State) (d : Fin 2), (s.domSt d = 2 ∨ s.domSt d = 3) → s.timeLost = false →
    (s.dom d).ld + s.fld (TIM_D_QUAL_LOSS_N d) * s.sampleIntv d ≤ s.time.l16 / 65536 →
    ∃ t, exec (.domLost d) s = .next t ∧ t.domSt d = 1 ∧ (t.dom d).qt = 0 ∧ Told (0x341 + d) 0x17 0 s t ∧ t.dom (1 - d.val) = s.dom (1 - d.val)) ∧
  (∀ s : State, s.time.mode = 3 → s.fld TIM_HO_LIMIT * 1000000000 ≤ s.time.hoNs → ∃ t, exec .hoExpired s = .next t ∧
    t.time = { s.time with mode := 0, sUse := 0, stepPend := false } ∧ Told 0x340 0x11 0 s t ∧ SameRegs msgFlds s t) ∧
  (∀ (s : State) (pps : Bool) (inst : BitVec 64),
    let o := if pps then s.time.pps else s.time.mhz
    let put (o : Tp1Out) : State := { s with time := if pps then { s.time with pps := o } else { s.time with mhz := o } }
    let at_ := (inst.toNat : Int) * 16 - asym16 (s.fld (TIM_ASYM_EGR 5)) / 4096
    let reached := s.time.ct0 ≤ inst.toNat ∧ inst.toNat < s.ctl.nextB
    let begins := s.bit TIM_CTRL_TP1_EN = true ∧ (s.bit TIM_CTRL_TP1_GATE = false ∨ s.time.mode ≠ 0) ∧ inst.toNat % (if pps then 1000000000 else 100) = 0
    (reached → o.high = true → o.fall = inst.toNat → exec (.tp1Edge pps inst) s = .next (put { o with high := false, at_ := at_ })) ∧
    (reached → o.high = false → begins → exec (.tp1Edge pps inst) s =
      .next (put { high := true, fall := (inst.toNat + (if pps then 100000000 else 50)) % 2 ^ 64, at_ := at_ })) ∧
    (¬ reached ∨ (o.high = true ∧ o.fall ≠ inst.toNat) ∨ (o.high = false ∧ ¬ begins) → exec (.tp1Edge pps inst) s = .next s))

/-- O29. For every state with the reset released. A clock that is lost for the first time, by its own monitor, sets its sticky loss flag, sends CLOCK_LOST from the monitor's source, joins the clocks that are lost, and: CK_FAB, CK_LTX and CK_AON set the latched block with cause CLOCK, CK_FAB with ERR_B and CK_AON with ERR_A and ERR_B asserted; CK_CORE starts the block stream with BLOCK_OUT active, ERR_B asserted and no latched block (that none is set is the model's inference, log 47); CK_TIME goes to FREERUN with the ticks running free; CK_STN takes the station links down; CK_HOST closes the host port it was watched through. A frequency error or a lost lock has its own flag and message and reacts as the loss of the clock, a lost lock as the loss of every clock that the PLL makes, where they are not yet lost. A clock that another monitor found lost before still sets its loss flag and tells, without a second reaction; one whose own monitor has told does nothing more. CKCORELOSS and CKTIMELOSS are those two clocks' losses. A clock that returns is no longer lost and its PLL shows lock; the domains with a source start afresh in state 2 when CK_TIME returns. After 10 µs of block stream the chip is reset with CAUSE 7; without the stream nothing happens. -/
def Obligations.ClocksLostAndReturned : Prop :=
  let reacts (c : Nat) (s t : State) : Prop := (0x010 + c) ∈ t.ctl.lost ∧
    (c = 1 ∨ c = 2 ∨ c = 6 → Blocked 5 s t ∧ (0x010 + c) ∈ t.prot.clkSrc) ∧
    (c = 0 ∨ c = 1 ∨ c = 6 → t.elec.errB = true) ∧ (c = 6 → t.elec.errA = true ∧ t.fld FLT_STAT_ERR = 1) ∧
    (c = 0 → t.ctl.stream = true ∧ (s.dbg.scan = false → t.fld PRT_STAT_BO = 1)) ∧
    (c = 3 → t.time.mode = 0 ∧ t.time.sUse = 0 ∧ t.fld CLK_MON_TIME_FREERUN = 1) ∧
    (c = 4 → ∀ p : Fin 4, t.fld (STN_STAT_LINK p) = 0) ∧ (c = 5 → t.fld HP_STAT_OPEN = 0)
  (∀ (s : State) (c x : Fin 7), s.elec.inReset = false → s.ctl.dead.contains (0x010 + c) = false → s.ctl.lost.contains (0x010 + c) = false → (c = 5 → s.bit HP_STAT_OPEN = true) →
    ∃ t, exec (.clockLoss ⟨c, by omega⟩ x) s = .next t ∧ t.fld (lossFld c) = 1 ∧ Told (0x010 + c) 0x11 0 s t ∧
      t.ctl.lost = s.ctl.lost ++ [0x010 + c.val] ∧ t.mem = s.mem ∧ t.now = s.now ∧ t.op = s.op ∧ reacts c s t ∧
      (c = 0 ∨ c = 3 ∨ c = 4 ∨ c = 5 → t.latched = s.latched)) ∧
  (∀ (s : State) (mon : Fin 9) (c : Fin 7) (f : Fld), s.elec.inReset = false → 7 ≤ mon.val → pllFld c = some f →
    (∀ k ∈ clocksOf mon c, s.ctl.lost.contains (0x010 + k) = false) → ∃ t, exec (.clockLoss mon c) s = .next t ∧ t.mem = s.mem ∧
      (mon = 7 → t.fld CLK_MON_FREQ_ERR = 1 ∧ Told 0x017 0x12 0 s t) ∧ (mon = 8 → t.fld f = 0 ∧ Told 0x018 0x13 0 s t) ∧
      (∀ k ∈ clocksOf mon c, reacts k s t) ∧ (clocksOf mon c = [c.val] → c = 0 ∨ c = 3 ∨ c = 4 → t.latched = s.latched)) ∧
  (∀ (s : State) (c x : Fin 7), s.elec.inReset = false → s.ctl.dead.contains (0x010 + c) = false → s.ctl.lost.contains (0x010 + c) = true →
    (c = 5 → s.bit HP_STAT_OPEN = true) → ∃ t, exec (.clockLoss ⟨c, by omega⟩ x) s = .next t ∧
      t = { s with regs := t.regs, sump := t.sump, ctl := { s.ctl with dead := s.ctl.dead ++ [0x010 + c.val] } } ∧
      SameRegs (lossFld c :: msgFlds) s t ∧ t.fld (lossFld c) = 1 ∧ Told (0x010 + c) 0x11 0 s t) ∧
  (∀ (s : State) (c x : Fin 7), s.ctl.dead.contains (0x010 + c) = true → exec (.clockLoss ⟨c, by omega⟩ x) s = .next s) ∧
  (∀ s : State, s.elec.inReset = false → s.ctl.dead.contains 0x010 = false → s.ctl.lost.contains 0x010 = false → ∃ t, exec .ckCoreLoss s = .next t ∧ t.ctl.stream = true ∧
    t.fld CLK_MON_LOSS_CORE = 1 ∧ t.latched = s.latched ∧ Told 0x010 0x11 0 s t) ∧
  (∀ s : State, s.elec.inReset = false → s.ctl.dead.contains 0x013 = false → s.timeLost = false → ∃ t, exec .ckTimeLoss s = .next t ∧ t.timeLost = true ∧ t.time.mode = 0 ∧
    t.time.stepPend = false ∧ t.fld CLK_MON_LOSS_TIME = 1 ∧ t.fld CLK_MON_TIME_FREERUN = 1 ∧ Told 0x013 0x11 0 s t) ∧
  (∀ (s : State), s.elec.inReset = false → s.ctl.lost.contains 0x013 = true →
    (∃ t, exec (.clockLoss 7 3) s = .next t ∧ t = { s with regs := t.regs, sump := t.sump } ∧ t.fld CLK_MON_FREQ_ERR = 1 ∧ Told 0x017 0x12 0 s t) ∧
    (∃ t, exec (.clockLoss 8 3) s = .next t ∧ t = { s with regs := t.regs, sump := t.sump } ∧ t.fld CLK_MON_TIME_LOCK = 0 ∧ Told 0x018 0x13 0 s t) ∧
    (s.ctl.dead.contains 0x013 = true → exec .ckTimeLoss s = .next s)) ∧
  (∀ (s : State) (c : Fin 7), s.ctl.lost.contains (0x010 + c) = true → ∃ t, exec (.clockReturn c) s = .next t ∧
    t.ctl.lost = s.ctl.lost.filter (· != 0x010 + c.val) ∧ t.ctl.dead = s.ctl.dead.filter (· != 0x010 + c.val) ∧ t.mem = s.mem ∧ t.latched = s.latched ∧ t.sump = s.sump ∧
    (s.elec.inReset = false → s.op ≠ 0 → ∀ f, pllFld c = some f → t.fld f = 1) ∧ (c = 5 → t.fld HP_STAT_OPEN = 1)) ∧
  (∀ (s : State) (c : Fin 7), s.ctl.lost.contains (0x010 + c) = false → exec (.clockReturn c) s = .next s) ∧
  (∀ s : State, s.timeLost = true → ∃ t, exec .ckTimeReturn s = .next t ∧ t.timeLost = false ∧ t.fld CLK_MON_TIME_FREERUN = 0 ∧
    ∀ d : Fin 2, (s.fld (TIM_D_CFG_SRC d) ≠ 0 → t.domSt d = 2 ∧ (t.dom d).first = true ∧ (t.dom d).qt = 0) ∧
      (s.fld (TIM_D_CFG_SRC d) = 0 → t.domSt d = s.domSt d)) ∧
  (∀ s : State, s.ctl.stream = true → ∃ t, exec .blockStreamCreset s = .next t ∧ t.op = 0 ∧ t.fld CLK_STATE_CAUSE = 7 ∧ t.elec.inReset = true ∧
    t.ctl.stream = false) ∧
  (∀ s : State, s.ctl.stream = false → exec .blockStreamCreset s = .next s)

/-- O30. For every state. A chip reset, by its command, by a low PORST_N or by a CRESET that is due (CAUSE 7), leaves state RESET with the reset asserted, every register at its Reset column value but those of the always-on domain and the OTP (an anti-rollback advance that it cuts short leaves a value between the old and the new) and TIME_FREERUN, which shows whether CK_TIME is lost, CLK_STATE.CAUSE at the cause, MRAM, acquisition memory and the fault log as they were and every other memory at its reset content, and the waiting commands in place; a region in the background test, but one of acquisition memory, is left undefined. What a reset keeps beside that, what unwritten memory reads as, the tick counter, and that a chip reset lasts until its release are the model's choices (log 2, 36, 41, 42). A power-on leaves MRAM and the OTP's registers only. The release with every rail good, PORST_N high, the oscillator of CK_AON running and no heat shows the supplies good, samples UNIT_SEL and pulses XSPI_RST_N; without these conditions nothing happens, and PORST_N going high changes nothing but the pin. PLL_LOCK in RESET with the reset released shows the locks that it brings; ticks run from the locks of PLL_SYS and PLL_TIME on, and with all four LOAD is entered. A rail's first excursion sets its EXC bit, clears its GOOD bit and tells; one below 10 % under the nominal value resets the chip and tells after it; its end shows it good again. A temperature is kept with its maximum, crosses HI with one message, and from 122 °C resets the chip; MAX_CLR makes the maximum the present reading. -/
def Obligations.ResetsSuppliesAndTemperature : Prop :=
  let advances (s : State) : Prop := ∃ j, s.sec.job = some j ∧ j.op = 3 ∧ j.stage = 1 ∧ j.res = none
  let resetBy (cause : Nat) (s t : State) : Prop := t.op = 0 ∧ t.fld CLK_STATE_CAUSE = cause ∧ t.elec.inReset = true ∧ t.pending = s.pending ∧
    t.ctl.tick = 0 ∧ t.cells = s.cells ∧ t.sump = {} ∧
    (∀ f ∈ aonFlds ++ otpFlds, f ≠ SEC_STAT_ARB ∨ ¬ advances s → t.fld f = s.fld f) ∧
    (∃ n, s.fld SEC_STAT_ARB ≤ n ∧ n ≤ s.arbTarget ∧ (advances s → t.fld SEC_STAT_ARB = n % 256)) ∧
    t.fld CLK_MON_TIME_FREERUN = (if s.timeLost then 1 else 0) ∧
    (∀ f : Fld, (∀ g ∈ CLK_MON_TIME_FREERUN :: CLK_STATE_CAUSE :: (aonFlds ++ otpFlds), f.key ≠ g.key) → t.fld f = f.rst) ∧
    (∀ a, (∀ c, s.mem.caver = some c → regionAcq c.region = true ∨ a < regionAddr c.region ∨ regionAddr c.region + 2048 ≤ a) →
      t.byteAt a = if keptAddr a then s.byteAt a else memDefault a)
  (∀ s : State, ∃ t, exec .chipReset s = .next t ∧ resetBy 0 s t) ∧
  (∀ s : State, (∃ t, exec (.porst true) s = .next t ∧ resetBy 0 s t ∧ t.elec.porst = true) ∧
    exec (.porst false) s = .next { s with elec := { s.elec with porst := false } }) ∧
  (∀ (s : State) (src at_ : Nat), s.sump.creset = some (src, at_) → at_ ≤ s.now → ∃ t, exec .creset s = .next t ∧ resetBy 7 s t) ∧
  (∀ s : State, s.sump.creset = none → exec .creset s = .next s) ∧
  (∀ s : State, ∃ t, exec .powerOn s = .next t ∧ t.op = 0 ∧ t.elec.inReset = true ∧ (∀ f ∈ otpFlds, f ≠ SEC_STAT_ARB ∨ ¬ advances s → t.fld f = s.fld f) ∧
    (∀ f : Fld, (∀ g ∈ otpFlds, f.key ≠ g.key) → t.fld f = f.rst) ∧ ∀ a, t.byteAt a = if inMram a then s.byteAt a else memDefault a) ∧
  (∀ (s : State) (ok : Bool), (s.elec.inReset = true ∧ s.railsGood = true ∧ s.elec.porst = false ∧ s.ctl.lost.contains 0x016 = false ∧ s.elec.hot = false →
      ∃ t, exec (.resetRelease ok) s = .next t ∧
      t.elec.inReset = false ∧ t.fld CLK_PWR_GOOD = 0x7FF ∧ t.fld RED_ID_UNIT = (if s.red.unitSel then 1 else 0) ∧ t.fld SEC_STAT_ENT_OK = 1 ∧ t.ld.rstPulse = true ∧ t.op = s.op) ∧
    (s.elec.inReset = false ∨ s.railsGood = false ∨ s.elec.porst = true ∨ s.ctl.lost.contains 0x016 = true ∨ s.elec.hot = true → exec (.resetRelease ok) s = .next s)) ∧
  (∀ (s : State) (k : BitVec 4) (ok : Bool), s.op = 0 → s.elec.inReset = false → s.ctl.lost.contains 0x016 = false →
    let locked (i : Nat) : Bool := k.getLsbD i || s.bit (lockFlds.getD i CLK_MON_SYS_LOCK)
    ((∀ i < 4, locked i = true) → ∃ t, exec (.pllLock k ok) s = .next t ∧ (∀ f ∈ lockFlds, t.fld f = 1) ∧ t.fld CFG_CTRL_NEXT = 0 ∧ t.op ≠ 0) ∧
    ((∃ i < 4, locked i = false) → s.timeLost = false ∨ k.getLsbD 1 = false → ∃ t, exec (.pllLock k ok) s = .next t ∧ t = { s with regs := t.regs, ctl := t.ctl } ∧ SameRegs lockFlds s t ∧
      (∀ i < 4, t.bit (lockFlds.getD i CLK_MON_SYS_LOCK) = locked i) ∧ (locked 0 = true → locked 1 = true → k ≠ 0 → t.ctl.clocked = true))) ∧
  (∀ (s : State) (r : Fin 16), r.val < 11 → s.elec.inReset = false →
    (s.elec.low.contains r.val = false → ∃ t, exec (.supplyExcursion r .low) s = .next t ∧ tbit (t.fld CLK_PWR_EXC) r = true ∧
      tbit (t.fld CLK_PWR_GOOD) r = false ∧ Told (0x020 + r) 0x15 0 s t ∧ t.elec.low = s.elec.low ++ [r.val] ∧ t.op = s.op) ∧
    (s.elec.high.contains r.val = false → ∃ t, exec (.supplyExcursion r .high) s = .next t ∧ tbit (t.fld CLK_PWR_EXC) r = true ∧
      tbit (t.fld CLK_PWR_GOOD) r = false ∧ Told (0x020 + r) 0x16 0 s t ∧ t.elec.high = s.elec.high ++ [r.val] ∧ t.op = s.op) ∧
    (∃ t, exec (.supplyExcursion r .below10) s = .next t ∧ t.op = 0 ∧ t.elec.inReset = true ∧ t.elec.below.contains r.val = true ∧
      (s.elec.low.contains r.val = false → t.msgAt (0x020 + r) = some (0x15, 0) ∧ tbit (t.fld CLK_PWR_EXC) r = true)) ∧
    (∃ t, exec (.supplyRecovery r) s = .next t ∧ tbit (t.fld CLK_PWR_GOOD) r = true ∧ t.elec.low.contains r.val = false ∧
      t.elec.high.contains r.val = false ∧ t.elec.below.contains r.val = false ∧
      (s.rd epochAddr 4 = s.fld RED_EPOCH_EPOCH → t.sump = s.sump ∧ t.mem = s.mem))) ∧
  (∀ (s : State) (code : BitVec 8), s.elec.inReset = false →
    (code.toNat < 162 → ∃ t, exec (.tempReading code) s = .next t ∧ t.fld CLK_TEMP_NOW = code.toNat ∧ t.fld CLK_TEMP_MAX = max (s.fld CLK_TEMP_MAX) code.toNat % 256 ∧
      t.op = s.op ∧ (s.fld CLK_TEMP_HI ≤ code.toNat → t.fld CLK_TEMP_HI_SEEN = 1 ∧ (s.elec.tempHi = false → Told 0x030 0x17 0 s t)) ∧
      (code.toNat < s.fld CLK_TEMP_HI ∨ s.elec.tempHi = true → t.sump = s.sump)) ∧
    (162 ≤ code.toNat → ∃ t, exec (.tempReading code) s = .next t ∧ t.op = 0 ∧ t.elec.inReset = true ∧ t.elec.hot = true ∧ t.fld CLK_TEMP_TRIP_SEEN = 1)) ∧
  (∀ (s : State) (m : Master), ∃ t, exec (.tempMaxClear m) s = .next t ∧ OnlyRegs [CLK_TEMP_MAX] s t ∧ t.fld CLK_TEMP_MAX = s.fld CLK_TEMP_NOW % 256)

/-- O31. For every state. On an unpaired unit a write of SEL_EXCL_REQ to a configured cell replaces the same cell's request of the same window and is recorded with its ACT and tick, PENDING counting each cell with a request that is not a readmission once; for a cell that is not configured it sets BAD and tells. A request still ungranted 1,000 ticks after it was written is withdrawn with DENIED and its message. A write of CMP_AUX_REQ to a configured cell queues the item with its code and data when fewer than 32 wait and, for WRITE and ENABLE, the cell is excluded and reports BLOCK; otherwise it sets REJ or DROP and queues nothing. A pattern commit request sets COMMIT_PEND alone. A due self-test period of an enabled schedule excludes the next available cell of the arm for a test; a test without an end 48 ticks after its confirmation ends as failed and timed out; an item or a probe unconfirmed 64 ticks after its first word is dropped with its message. From which tick those 64 count, and DROP before REJ where both apply, are the model's choices (log 70, 103). In HOLD_FOR_HOST each of these requests is refused with SVC_DENIED and changes nothing else (which requests are refused so is the model's choice, log 134). -/
def Obligations.SelectionAndItemRequests : Prop :=
  let asked (act g : Nat) (s t : State) : Prop := t = { s with regs := t.regs, excl := t.excl } ∧ SameRegs [SEL_EXCL_STAT_PENDING] s t ∧
    t.excl = (s.excl.filter fun r => !(r.cell == g && r.fresh)) ++ [⟨g, act, s.now, true⟩] ∧
    t.fld SEL_EXCL_STAT_PENDING = t.exclCells.length % 2 ^ 13 ∧ t.exclCells.Nodup ∧
    ∀ k, k ∈ t.exclCells ↔ ∃ r ∈ t.excl, r.cell = k ∧ r.act ≠ 1
  let bad (g : Nat) (s t : State) : Prop := t = { s with regs := t.regs, sump := t.sump } ∧ SameRegs (SEL_EXCL_STAT_BAD :: msgFlds) s t ∧
    t.fld SEL_EXCL_STAT_BAD = 1 ∧ Told 0x2A8 0x18 (g * 2 ^ 20) s t
  let queued (code g : Nat) (data : BitVec 16) (s t : State) : Prop := t = { s with regs := t.regs, cmp := t.cmp } ∧
    SameRegs [CMP_AUX_STAT_LEVEL, CMP_AUX_STAT_FULL] s t ∧
    t.cmp = { s.cmp with queue := s.cmp.queue ++ [⟨s.cmp.nextId, g, code, data.toNat⟩], nextId := s.cmp.nextId + 1 } ∧
    t.fld CMP_AUX_STAT_LEVEL = s.cmp.queue.length + 1 ∧ t.fld CMP_AUX_STAT_FULL = if s.cmp.queue.length = 31 then 1 else 0
  let turned (f : Fld) (kind : Nat) (s t : State) : Prop := t = { s with regs := t.regs, sump := t.sump } ∧ SameRegs (f :: msgFlds) s t ∧
    t.fld f = 1 ∧ Told 0x2C0 kind 0 s t
  (∀ (s : State) (m : Master) (g : Fin 4096), s.op ≠ 3 → s.bit RED_CFG_PAIR = false → s.isConf g = true →
    (∃ t, exec (.exclude m g) s = .next t ∧ asked 0 g s t) ∧ (∃ t, exec (.readmit m g) s = .next t ∧ asked 1 g s t) ∧
    (∃ t, exec (.excludeForSelftest m g) s = .next t ∧ asked 2 g s t)) ∧
  (∀ (s : State) (m : Master) (g : Fin 4096), s.op ≠ 3 → s.bit RED_CFG_PAIR = false → s.isConf g = false →
    (∃ t, exec (.exclude m g) s = .next t ∧ bad g s t) ∧ (∃ t, exec (.readmit m g) s = .next t ∧ bad g s t) ∧
    (∃ t, exec (.excludeForSelftest m g) s = .next t ∧ bad g s t)) ∧
  (∀ (s : State) (g : Fin 4096), (s.excl.any fun r => r.cell == g.val && !r.fresh && r.act != 1 && decide (r.tick + 1000 ≤ s.now)) = true →
    (s.cc g).stest ≠ 1 → ∃ t, exec (.exclDenied g) s = .next t ∧ t = { s with regs := t.regs, excl := t.excl, sump := t.sump } ∧
    SameRegs (SEL_EXCL_STAT_PENDING :: SEL_EXCL_STAT_DENIED :: msgFlds) s t ∧ t.excl = s.excl.filter (fun q => q.cell != g.val) ∧
    t.fld SEL_EXCL_STAT_DENIED = 1 ∧ Told 0x2A8 0x19 (g * 2 ^ 20) s t) ∧
  (∀ (s : State) (g : Fin 4096), (∀ r ∈ s.excl, r.cell = g.val → s.now < r.tick + 1000) → exec (.exclDenied g) s = .next s) ∧
  (∀ (s : State) (m : Master) (g : Fin 4096) (data : BitVec 16), s.op ≠ 3 → s.bit RED_CFG_PAIR = false → s.isConf g = true → s.cmp.queue.length < 32 →
    (∃ t, exec (.auxReqSetAddr m g data) s = .next t ∧ queued 1 g data s t) ∧
    (∃ t, exec (.auxReqCloseBypass m g data) s = .next t ∧ queued 7 g data s t) ∧
    (s.ceBit g ceExcl = true → s.ce g ceState = 0 → (∃ t, exec (.auxReqWrite m g data) s = .next t ∧ queued 2 g data s t) ∧
      (∃ t, exec (.auxReqEnable m g data) s = .next t ∧ queued 3 g data s t)) ∧
    (s.ceBit g ceExcl = false ∨ s.ce g ceState ≠ 0 → ∀ c : Instr, c = .auxReqWrite m g data ∨ c = .auxReqEnable m g data →
      ∃ t, exec c s = .next t ∧ OnlyRegs [CMP_AUX_STAT_REJ] s t ∧ t.fld CMP_AUX_STAT_REJ = 1)) ∧
  (∀ (s : State) (m : Master) (g : Fin 4096) (data : BitVec 16) (c : Instr), s.op ≠ 3 → s.bit RED_CFG_PAIR = false →
    (c = .auxReqSetAddr m g data ∨ c = .auxReqWrite m g data ∨ c = .auxReqEnable m g data ∨ c = .auxReqCloseBypass m g data) →
    (s.isConf g = false → ∃ t, exec c s = .next t ∧ turned CMP_AUX_STAT_REJ 0x1A s t) ∧
    (s.isConf g = true → 32 ≤ s.cmp.queue.length → ∃ t, exec c s = .next t ∧ turned CMP_AUX_STAT_DROP 0x1B s t)) ∧
  (∀ (s : State) (m : Master) (g : Fin 4096) (data : BitVec 16), s.op = 3 →
    ∀ c ∈ [Instr.exclude m g, .readmit m g, .excludeForSelftest m g, .auxReqSetAddr m g data, .auxReqWrite m g data, .auxReqEnable m g data,
      .auxReqCloseBypass m g data], ∃ t, exec c s = .next t ∧ t = { s with regs := t.regs, sump := t.sump } ∧ SameRegs msgFlds s t ∧
      Told 0x3DB 0x2F 0 s t) ∧
  (∀ (s : State) (m : Master), s.op ≠ 3 → s.bit RED_CFG_PAIR = false →
    ∃ t, exec (.patternCommitRequest m) s = .next t ∧ OnlyRegs [PLN_STAT_COMMIT_PEND] s t ∧ t.fld PLN_STAT_COMMIT_PEND = 1) ∧
  (∀ (s : State) (a : Fin 6), (s.op = 4 ∨ s.op = 5 ∨ s.op = 6) → s.bit CMP_STEST_CFG_EN = true →
    mget 0 s.cmp.stestNext a + s.fld CMP_STEST_CFG_PERIOD * 1000000 ≤ s.now → tbit (s.fld CMP_STEST_STAT_ACTIVE) a = false →
    ∀ g : Nat, (((s.armCells a).filter fun k => mget 0 s.cmp.stestLast a ≤ k) ++ (s.armCells a).filter fun k => k < mget 0 s.cmp.stestLast a).find?
      (fun k => s.ceBit k ceAvail) = some g →
    ∃ t, exec (.selftestPeriod a) s = .next t ∧ t = { s with regs := t.regs, excl := t.excl, cmp := t.cmp, ccell := t.ccell } ∧
      SameRegs [CMP_STEST_STAT_ACTIVE, SEL_EXCL_STAT_PENDING] s t ∧ (t.cc g).stest = 1 ∧ (∀ k, k ≠ g → t.cc k = s.cc k) ∧
      tbit (t.fld CMP_STEST_STAT_ACTIVE) a = true ∧ t.excl = (s.excl.filter fun r => !(r.cell == g && r.fresh)) ++ [⟨g, 2, s.now, true⟩] ∧
      t.cmp.queue = s.cmp.queue) ∧
  (∀ (s : State) (a : Fin 6), s.bit CMP_STEST_CFG_EN = false → exec (.selftestPeriod a) s = .next s) ∧
  (∀ (s : State) (g : Fin 4096), ((s.cc g).stest = 3 ∨ (s.cc g).stest = 4) → (s.cc g).stestAt + 48 ≤ s.now →
    ∃ t, exec (.stestTimeout g) s = .next t ∧ t = { s with regs := t.regs, ccell := t.ccell, sump := t.sump } ∧
      SameRegs ([CMP_STEST_STAT_ACTIVE, CMP_STEST_STAT_LAST, CMP_STEST_CNT_FAIL, CMP_STEST_STAT_FAIL_OVF, CMP_STEST_STAT_TIMEOUT] ++ msgFlds) s t ∧
      (t.cc g).stest = 0 ∧ (∀ k, k ≠ g.val → t.cc k = s.cc k) ∧ t.fld CMP_STEST_STAT_TIMEOUT = 1 ∧ t.fld CMP_STEST_STAT_LAST = g ∧
      (s.fld CMP_STEST_CNT_FAIL < 65535 → t.fld CMP_STEST_CNT_FAIL = s.fld CMP_STEST_CNT_FAIL + 1) ∧ Told 0x2C0 0x1D (g * 2 ^ 20) s t) ∧
  (∀ (s : State) (g : Fin 4096), s.now < (s.cc g).stestAt + 48 → exec (.stestTimeout g) s = .next s) ∧
  (∀ (s : State) (g : Fin 4096) (i : ItemRun) (x : Nat), (s.cc g).cur = some i → i.sent.getLast? = some x → x + 62 ≤ s.now →
    ∃ t, exec (.auxTimeout g) s = .next t ∧ t = { s with regs := t.regs, ccell := t.ccell, cmp := t.cmp, sump := t.sump } ∧ (t.cc g).cur = none ∧
      (∀ k, k ≠ g.val → t.cc k = s.cc k) ∧ (i.src = .host → t.cmp.queue = s.cmp.queue.filter (fun q => q.id != i.id)) ∧
      (i.src ≠ .host → t.cmp = s.cmp) ∧ Told (0x102 + 4 * (g / 128)) 0x25 (g * 2 ^ 20) s t) ∧
  (∀ (s : State) (g : Fin 4096) (x : Nat), (s.cc g).cur = none → (s.cc g).probe = some x → x + 62 ≤ s.now → ∃ t, exec (.auxTimeout g) s = .next t ∧
    t = { s with regs := t.regs, ccell := t.ccell, sump := t.sump } ∧ SameRegs msgFlds s t ∧ t.cc g = { s.cc g with probe := none } ∧
      (∀ k, k ≠ g.val → t.cc k = s.cc k) ∧ Told (0x102 + 4 * (g / 128)) 0x25 (g * 2 ^ 20) s t) ∧
  (∀ (s : State) (g : Fin 4096), (s.cc g).cur = none → (∀ x, (s.cc g).probe = some x → s.now < x + 62) → exec (.auxTimeout g) s = .next s)

/-- O32. For every state whose image lists each cell once under its index and whose pipeline is not halted. The input phase ages the entry of a cell whose port delivers nothing and makes it unavailable, keeping its voltage, and takes voltage, temperature, fault code and state from an accepted report, with age 0. Pass 1 advances every cell's dwell by one up to 65,535, bins its voltage and classifies it: none when unavailable, locked below its minimum dwell, drain when draining, free otherwise; the number of draining cells shows per arm. The threshold phase of a selected arm sets CHARGE by the predicted current outside the deadband, clamps the demand to ±1,024, and swaps no more than QUOTA; an arm that is not selected keeps all of it. Pass 2 gives every cell its target by its class and the arm's achieved count its slot, SHORT showing a difference; in an arm that is not selected every target is BLK. A halted pipeline leaves the three selection phases without effect. Each phase completes in every state and keeps the operating state, the tick and the cells; what it computes is said for a state memory without errors and armed checkers. -/
def Obligations.InputAndSelectionPhases : Prop :=
  let kept (s t : State) : Prop := t.op = s.op ∧ t.now = s.now ∧ t.latched = s.latched ∧ t.cells = s.cells ∧ t.pending = s.pending ∧
    t.ld.img = s.ld.img
  (∀ s : State, s.imageOk → s.dbg.frozen = false → ∃ t, exec .inputPhase s = .next t ∧ kept s t ∧
    (s.cleanBus → ∀ g, s.isConf g = true → s.delivers (g / 128) = false → t.ce g ceAge = min (s.ce g ceAge + 1) 255 ∧ t.ce g ceAvail = 0 ∧
      t.ce g ceVcap = s.ce g ceVcap) ∧
    (s.cleanBus → ∀ (g : Nat) (f : RxFrame) (w : BitVec 64), s.isConf g = true → s.delivers (g / 128) = true → 1 + s.fld (CL_HUB_TLAG (g / 128)) ≤ s.now →
      ((s.lane (g / 128)).rx.find? fun f => f.isFor (s.now - (1 + s.fld (CL_HUB_TLAG (g / 128))))) = some f →
      f.words.getD (g % 128) none = some w → bitsOf w.toNat 63 57 = g % 128 → tbit w.toNat 3 = false →
      t.ce g ceVcap = bitsOf w.toNat 56 43 ∧ t.ce g ceTemp = bitsOf w.toNat 42 35 ∧ t.ce g ceFcode = bitsOf w.toNat 26 21 ∧
      t.ce g ceState = bitsOf w.toNat 7 4 ∧ t.ce g ceAge = 0)) ∧
  (∀ s : State, s.imageOk → s.dbg.frozen = false → ∃ t, exec .selectionPass1 s = .next t ∧ kept s t ∧ (s.cleanBus →
    t = { s with regs := t.regs, sel := t.sel, selArm := t.selArm, excl := t.excl, ld := t.ld } ∧
    ∀ a ∈ s.arms, t.fld (SEL_ARM_STAT_DRAIN a) = t.draining a % 2 ^ 11 ∧ ∀ g ∈ s.armCells a,
      let low := if (s.selRec g).prev.ins then (t.selRec g).dwell < s.fld (SEL_DWELL_ON_MIN (s.cellCfg g).prof)
        else (t.selRec g).dwell < s.fld (SEL_DWELL_OFF_MIN (s.cellCfg g).prof)
      (t.selRec g).dwell = min ((s.selRec g).dwell + 1) 65535 ∧ (t.selRec g).bin = s.binOf a g ∧ (t.selRec g).prev = (s.selRec g).prev ∧
      (t.selRec g).cls = if s.ceBit g ceAvail = false then .none else if low then .locked else if (t.selRec g).drain then .drain else .free)) ∧
  (∀ s : State, s.imageOk → s.dbg.frozen = false → ∃ t, exec .selectionThreshold s = .next t ∧ kept s t ∧ (s.cleanBus →
    t = { s with regs := t.regs, sel := t.sel, selArm := t.selArm } ∧ SameRegs ((upto 6).map SEL_ARM_STAT_CHARGE) s t ∧
    ∀ a ∈ s.arms, (s.selOn a = false → t.selA a = s.selA a ∧ t.fld (SEL_ARM_STAT_CHARGE a) = s.fld (SEL_ARM_STAT_CHARGE a)) ∧
      (s.selOn a = true → (0 < s.idir a → t.fld (SEL_ARM_STAT_CHARGE a) = 1) ∧ (s.idir a < 0 → t.fld (SEL_ARM_STAT_CHARGE a) = 0) ∧
        (s.idir a = 0 → t.fld (SEL_ARM_STAT_CHARGE a) = s.fld (SEL_ARM_STAT_CHARGE a)) ∧
        (t.selA a).n = clampI (s.plnA a).n (-1024) 1024 ∧ (t.selA a).neg = decide ((s.plnA a).n < 0) ∧
        (t.selA a).low = (t.bit (SEL_ARM_STAT_CHARGE a) != (t.selA a).neg) ∧
        (t.selA a).sw ≤ s.fld (SEL_ARM_BAND_QUOTA a) ∧ (t.selA a).sw ≤ (t.selA a).s))) ∧
  (∀ s : State, s.imageOk → s.dbg.frozen = false → ∃ t, exec .selectionPass2 s = .next t ∧ kept s t ∧ (s.cleanBus →
    t = { s with regs := t.regs, sel := t.sel, selArm := t.selArm, mem := t.mem, sump := t.sump } ∧
    ∀ a ∈ s.arms, (∀ g ∈ s.armCells a, (t.selRec g).was = (s.selRec g).prev ∧ (t.selRec g).prev = (t.selRec g).tgt) ∧
      (s.selOn a = false → t.slot (0x1E0 + 4 * a) = 0 ∧ t.fld (SEL_ARM_STAT_SHORT a) = 0 ∧ ∀ g ∈ s.armCells a, (t.selRec g).tgt = .blk) ∧
      (s.selOn a = true →
        t.slot (0x1E0 + 4 * a) = (s.armCells a).foldl (fun n g => if (s.plnA a).pip = some g then n else n + (t.selRec g).tgt.num) 0 ∧
        t.fld (SEL_ARM_STAT_SHORT a) = (if t.slot (0x1E0 + 4 * a) = (s.selA a).n then 0 else 1) ∧
        ∀ g ∈ s.armCells a, ((s.selRec g).cls = .none → (t.selRec g).tgt = .blk) ∧ ((s.selRec g).cls = .locked → (t.selRec g).tgt = (s.selRec g).prev) ∧
          ((s.selRec g).cls = .drain → (t.selRec g).tgt = .out) ∧
          ((s.selRec g).cls = .free → (t.selRec g).tgt = .out ∨ (t.selRec g).tgt = if (s.selA a).neg then .neg else .pos)))) ∧
  (∀ s : State, s.dbg.frozen = true → exec .selectionPass1 s = .next s ∧ exec .selectionThreshold s = .next s ∧ exec .selectionPass2 s = .next s)

/-- O33. For every state. Outside RUNNING the planner phase, unless the pipeline is halted, puts every arm into its safe state with its status at zero. In RUNNING with the planner off it does the same, sets OFF_SEEN, tells, and sets the latched block. In RUNNING with it on every arm leaves its safe state, shows count, limits and pip, advances its pattern counter round the active period, moves the count by no more than DN_MAX where neither the first tick nor the availability limits it, and keeps a pip's balance within EMAX. The composer phase samples OFS and builds, for exactly the ports that are not OFF, 128 cell words and four hub words with HOLD, the hub management word, the launch time and zero, an unconfigured position getting the no-change word; it records the command digest of the tick. What a word without a change carries is the model's inference (log 66). -/
def Obligations.PlannerAndComposerPhases : Prop :=
  (∀ s : State, s.dbg.frozen = false → s.op ≠ 6 → ∃ t, exec .plannerPhase s = .next t ∧
    t = { s with regs := t.regs, pln := t.pln, mem := t.mem, red := t.red } ∧
    ∀ a ∈ s.arms, (t.plnA a).act = false ∧ (t.plnA a).n = 0 ∧ (t.plnA a).pip = none ∧ (t.plnA a).nprev = (s.plnA a).nprev ∧
      t.fld (PLN_ARM_OUT_N a) = 0 ∧ t.fld (PLN_ARM_PIP_VALID a) = 0 ∧ t.slot (0x1B0 + 8 * a) = 0) ∧
  (∀ s : State, s.dbg.frozen = false → s.op = 6 → s.bit PLN_CTRL_EN = false → ∃ t, exec .plannerPhase s = .next t ∧ t.op = 6 ∧ t.latched = true ∧
    t.prot.plnOff = true ∧ t.fld PLN_STAT_OFF_SEEN = 1 ∧ Told 0x288 0x14 0 s t ∧ 0x288 ∈ t.prot.sumpSrc ∧
    ∀ a ∈ s.arms, (t.plnA a).act = false ∧ t.fld (PLN_ARM_OUT_N a) = 0) ∧
  (∀ s : State, s.dbg.frozen = false → s.op = 6 → s.bit PLN_CTRL_EN = true → ∃ t, exec .plannerPhase s = .next t ∧
    t = { s with regs := t.regs, pln := t.pln, mem := t.mem, red := t.red, sump := t.sump, fresh := t.fresh } ∧
    ∀ a ∈ s.arms, (t.plnA a).act = true ∧ (t.plnA a).first = false ∧ (t.plnA a).nprev = (t.plnA a).n ∧
      (t.plnA a).pc = ((s.plnA a).pc + 1) % max (s.fld PLN_PAT_ACT_PER) 1 ∧
      t.fld (PLN_ARM_OUT_N a) = wrap (t.plnA a).n 12 ∧ t.fld (PLN_ARM_OUT_NOPIP a) = (if (t.plnA a).pip.isNone then 1 else 0) ∧
      t.fld (PLN_ARM_PIP_VALID a) = (if (t.plnA a).pip.isSome then 1 else 0) ∧
      ((s.plnA a).first = false → t.fld (PLN_ARM_OUT_LIM a) = 0 →
        (s.plnA a).nprev - s.fld (PLN_ARM_LIM_DN_MAX a) ≤ (t.plnA a).n ∧ (t.plnA a).n ≤ (s.plnA a).nprev + s.fld (PLN_ARM_LIM_DN_MAX a)) ∧
      ((t.plnA a).pip.isSome = true → -(256000 * (s.fld (PLN_ARM_LIM_EMAX a) : Int)) ≤ (t.plnA a).bal ∧
        (t.plnA a).bal ≤ 256000 * s.fld (PLN_ARM_LIM_EMAX a))) ∧
  (∀ s : State, s.dbg.frozen = true → exec .plannerPhase s = .next s) ∧
  (∀ s : State, ∃ t, exec .composerPhase s = .next t ∧ t.cmp.ofs = s.fld CMP_EXEC_OFS ∧ t.op = s.op ∧ t.now = s.now ∧ t.cells = s.cells ∧
    t.red.digs = ((s.now, t.cmp.digest) :: s.red.digs).take 8 ∧
    (∀ n : Nat, 32 ≤ n ∨ s.portState n = 0 → mget [] t.cmp.frames n = []) ∧
    (∀ n : Fin 32, s.portState n ≠ 0 → (mget [] t.cmp.frames n).length = 132 ∧
      (mget [] t.cmp.frames n).getD 128 0 = BitVec.ofNat 64 (s.fld CMP_CTRL_HOLD * 2 ^ 60) ∧
      (mget [] t.cmp.frames n).getD 129 0 = BitVec.ofNat 64 (s.fld (CL_HUB_MW_HI n) * 2 ^ 32 + s.fld (CL_HUB_MW_LO n)) ∧
      (mget [] t.cmp.frames n).getD 130 0 = BitVec.ofNat 64 (s.ctl.btime + 2000) ∧ (mget [] t.cmp.frames n).getD 131 0 = 0 ∧
      (∀ c : Fin 128, s.isConf (128 * n + c) = false → (mget [] t.cmp.frames n).getD c 0 =
        cmdEncode { cell := c, stA := 7, eA := 1023, stB := 7, eB := 1023, seq := s.now + 2, gp := 0, holdOk := false, test := false,
                    code := 0, data := 0 })))

/-- O34. For every state. A Turn Order position without a due channel, or any position of a halted pipeline, has no effect. A due channel with valid parameters and undisturbed words runs once in its slot of four cycles: its output slot holds UR clamped to the bank's limits, its priming and bump are over, it joins the channels that ran with its end cycle, and memory outside its state block and two slots is as before. With an invalid parameter set it is abandoned with one message and writes nothing. One that could not complete by cycle 867 writes nothing and holds the engine to its end; one whose start would lie past it has no effect. The fence marks every due channel that neither ran nor was abandoned in CE_OVR, shows the last end and the least slack, and clears the tick's records. An accepted GO, immediate or at a named tick 2 to 2^31 ahead, copies the selection; a second GO is rejected with its message; a value without GO changes no pending swap. At its tick the pending swap moves every selected channel with a valid inactive set to its other bank with a bump pending and leaves the others where they are. What a run that only primes reads is the model's inference (log 73). In HOLD_FOR_HOST a GO and a priming request are refused with SVC_DENIED (log 134). A priming request sets the channel's pending priming alone; SLACK_CLEAR returns the least slack to its reset value. -/
def Obligations.ChannelsAndSwaps : Prop :=
  (∀ (s : State) (p : Fin 192), s.dbg.frozen = true ∨ s.chanAt p = none → exec (.channelStep p) s = .next s) ∧
  (∀ (s : State) (p : Fin 192) (c : Nat), s.dbg.frozen = false → s.chanAt p = some c → max (100 + 4 * p.val) s.eng.endCyc + 4 ≤ 868 →
    s.eng.done.contains c = false → s.eng.aband.contains c = false → (∀ k < 512, s.cleanWord (0x10000000 + 8 * k)) → (∀ k < 16, s.cleanWord (chanAddr c k)) →
    (∀ b < 2, ∀ k < 23, s.cleanWord (coefAddr b c k)) →
    (s.paramOk (s.bankOf c) c = true → ∃ t, exec (.channelStep p) s = .next t ∧ t = { s with regs := t.regs, mem := t.mem, eng := t.eng, sump := t.sump } ∧
      t.slot (0x200 + 2 * c) = clampI (sext ((t.wordAt (chanAddr c 8)).toNat / 2 ^ 32) 32) (s.param (s.bankOf c) c 17) (s.param (s.bankOf c) c 16) ∧
      (t.chan c).prime = false ∧ (t.chan c).bump = false ∧ t.eng.done = s.eng.done ++ [c] ∧ t.eng.aband = s.eng.aband ∧
      t.eng.lastEnd = max (100 + 4 * p.val) s.eng.endCyc + 4 ∧ t.eng.endCyc = max (100 + 4 * p.val) s.eng.endCyc + 4 ∧
      (∀ a, (a < chanAddr c 0 ∨ chanAddr c 0 + 96 ≤ a) →
        (a < 0x10000000 + 4 * ((0x200 + 2 * c) % 1024) ∨ 0x10000000 + 4 * ((0x200 + 2 * c) % 1024) + 8 ≤ a) → t.byteAt a = s.byteAt a)) ∧
    (s.paramOk (s.bankOf c) c = false → ∃ t, exec (.channelStep p) s = .next t ∧ t = { s with regs := t.regs, eng := t.eng, sump := t.sump } ∧
      t.eng.done = s.eng.done ∧ t.eng.aband = s.eng.aband ++ [c] ∧
      (s.eng.badRun.contains c = false → Told (0x200 + s.fld (CE_CH_CFG_FSRC c)) 0x19 (c * 2 ^ 24) s t))) ∧
  (∀ (s : State) (p : Fin 192) (c : Nat), s.dbg.frozen = false → s.chanAt p = some c → s.eng.done.contains c = false → s.eng.aband.contains c = false →
    let start := max (100 + 4 * p.val) s.eng.endCyc
    (868 ≤ start → exec (.channelStep p) s = .next s) ∧
    (864 < start → start < 868 → (∀ k < 512, s.cleanWord (0x10000000 + 8 * k)) → (∀ k < 16, s.cleanWord (chanAddr c k)) → (∀ b < 2, ∀ k < 23, s.cleanWord (coefAddr b c k)) →
      s.paramOk (s.bankOf c) c = true → ∃ t, exec (.channelStep p) s = .next t ∧ t = { s with regs := t.regs, eng := t.eng } ∧ t.eng.endCyc = start + 4 ∧
        t.eng.done = s.eng.done ∧ t.eng.aband = s.eng.aband)) ∧
  (∀ s : State, s.dbg.frozen = false → (∀ p : Fin 192, s.fld (CE_TURN_CH p) < 192) → ∃ t, exec .controlFence s = .next t ∧ t = { s with regs := t.regs, eng := t.eng, sump := t.sump } ∧
    t.eng = { s.eng with done := [], aband := [], endCyc := 0, lastEnd := 0 } ∧
    SameRegs ([CE_SLACK_LAST_END, CE_SLACK_MIN_SLACK] ++ (upto 8).map CE_OVR ++ msgFlds) s t ∧
    t.fld CE_SLACK_LAST_END = (if s.eng.done = [] then 0 else s.eng.lastEnd % 2048) ∧
    t.fld CE_SLACK_MIN_SLACK = (if s.eng.done = [] then s.fld CE_SLACK_MIN_SLACK else min (s.fld CE_SLACK_MIN_SLACK) (868 - s.eng.lastEnd)) ∧
    ∀ (p : Fin 192) (c : Nat), s.chanAt p = some c → s.eng.done.contains c = false → s.eng.aband.contains c = false →
      tbit (t.fld (CE_OVR (c / 32))) (c % 32) = true) ∧
  (∀ s : State, s.dbg.frozen = true → exec .controlFence s = .next s) ∧
  (∀ (s : State) (m : Master) (val : Word), s.inFreset 0x40080 = false →
    let sel := (upto 192).filter fun c => tbit (s.fld (CE_SWAP_SEL (c / 32))) (c % 32)
    let ahead := wrap ((s.fld CE_SWAP_TICK : Int) - (s.now % 2 ^ 32 : Nat)) 32
    let flds := [CE_SWAP_CTRL_AT, CE_SWAP_CTRL_PEND, CE_SWAP_CTRL_REJ, CE_SWAP_CTRL_SWAP_BAD]
    (tbit val.toNat 0 = true → s.op = 3 → ∃ t, exec (.swapRequest m val) s = .next t ∧ t = { s with regs := t.regs, sump := t.sump } ∧
      SameRegs (flds ++ msgFlds) s t ∧ Told 0x3DB 0x2F 0 s t) ∧
    (tbit val.toNat 0 = true → s.op ≠ 3 → s.eng.swap = none → s.role = 0 → (tbit val.toNat 1 = true → 2 ≤ ahead ∧ ahead ≤ 2 ^ 31) →
      ∃ t, exec (.swapRequest m val) s = .next t ∧ t = { s with regs := t.regs, eng := t.eng } ∧ SameRegs flds s t ∧ t.fld CE_SWAP_CTRL_PEND = 1 ∧
        t.eng = { s.eng with swap := some ⟨sel, if tbit val.toNat 1 then s.now + ahead else s.now + 1⟩ }) ∧
    (tbit val.toNat 0 = true → s.op ≠ 3 → s.eng.swap ≠ none → ∃ t, exec (.swapRequest m val) s = .next t ∧ t = { s with regs := t.regs, sump := t.sump } ∧
      SameRegs (flds ++ msgFlds) s t ∧ t.fld CE_SWAP_CTRL_REJ = 1 ∧ Told 0x270 0x17 0 s t) ∧
    (tbit val.toNat 0 = false → ∃ t, exec (.swapRequest m val) s = .next t ∧ OnlyRegs flds s t)) ∧
  (∀ (s : State) (w : Swap), s.eng.swap = some w → w.tick ≤ s.now → w.sel.Nodup → (∀ c ∈ w.sel, c < 192) →
    ∃ t, exec .bankSwap s = .next t ∧ t = { s with regs := t.regs, mem := t.mem, eng := t.eng, sump := t.sump } ∧
      t.eng = { s.eng with swap := none } ∧ t.fld CE_SWAP_CTRL_PEND = 0 ∧
      (∀ c ∈ w.sel, (s.paramOk (1 - s.bankOf c) c = true → t.bankOf c = 1 - s.bankOf c ∧ (t.chan c).bump = true) ∧
        (s.paramOk (1 - s.bankOf c) c = false → t.bankOf c = s.bankOf c ∧ t.fld CE_SWAP_CTRL_SWAP_BAD = 1)) ∧
      (∀ c < 192, c ∉ w.sel → t.bankOf c = s.bankOf c)) ∧
  (∀ s : State, (∀ w, s.eng.swap = some w → s.now < w.tick) → exec .bankSwap s = .next s) ∧
  (∀ (s : State) (m : Master) (c : Fin 192), s.op = 3 → ∃ t, exec (.primeRequest m c) s = .next t ∧ t = { s with regs := t.regs, sump := t.sump } ∧
    SameRegs msgFlds s t ∧ Told 0x3DB 0x2F 0 s t) ∧
  (∀ (s : State) (m : Master) (c : Fin 192), s.op ≠ 3 → s.bit RED_CFG_PAIR = false → ∃ t, exec (.primeRequest m c) s = .next t ∧
    t = { s with mem := t.mem } ∧ SameMemBut (chanAddr c 10) 8 s t ∧ t.rd (chanAddr c 10) 8 = setBit (s.rd (chanAddr c 10) 8) 20) ∧
  (∀ (s : State) (m : Master), ∃ t, exec (.slackClear m) s = .next t ∧ OnlyRegs [CE_SLACK_MIN_SLACK] s t ∧ t.fld CE_SLACK_MIN_SLACK = 0x300)

/-- O35. State.reset's memory has its canonical form and its image tables list each cell at most once, under a global index below 4,096 (the tables are empty, since no image is loaded). -/
def Obligations.ResetMeetsInvariants : Prop :=
  State.reset.canonical = true ∧ State.reset.imageOk ∧ State.reset.ld.img.cells = [] ∧ State.reset.mem.bytes = []

/-- O36. Whatever command stands at the front of the queue, a step that answers a next state keeps the cell tables of the image in force and of the image being read in order: each cell listed at most once, under a global index below 4,096 (R20, R409). Other statements take this as a premise. -/
def Obligations.StepKeepsImageTables : Prop :=
  ∀ s t : State, s.imageOk → Sys2Proof.Machine.step s = .next t → t.imageOk

/-- O37. Whatever command stands at the front of the queue, a step that answers a next state keeps the memory's canonical form: addresses strictly rising and no byte listed that equals what its address reads as unlisted, so that equal memories are equal data. The form is the model's own; what an unlisted byte reads as is log entry 2. -/
def Obligations.StepKeepsMemoryCanonical : Prop :=
  ∀ s t : State, s.canonical = true → Sys2Proof.Machine.step s = .next t → t.canonical = true

/-- O38. For every state. A frame at a sensor, pair or bus port whose receiver has no frame alignment (it is neither LOCKED, RUNNING, nor FAULTED with signal and lock present) changes nothing. At a RUNNING port without loopback, with no injection armed and no stuffing violation: a sensor frame whose header names the configured concentrator and rate, whose CRC passes and which is in time is kept for alignment, the port staying RUNNING, while one whose CRC fails is counted and not kept; a usable pair frame of a paired unit that is not yet synchronised, from the other unit of its pair and with the same configuration hash, leaves the partner's epoch, role, sub-state, token and unit with its launch tick, and makes a unit waiting for its role a STANDBY in JOIN when the partner is ACTIVE; another hash sets CFG_MIS and tells, the partner's last header staying, and a frame with an uncorrectable hash word leaves a known mismatch in force, noting only that a pair frame came; a bus frame of the configured peer counts as received in the tick. A pair or bus frame whose CRC fails is told as such. A LOCKED pair port that meets its expected partner is RUNNING. -/
def Obligations.SensorPairAndBusFrames : Prop :=
  (∀ (s : State) (m : Fin 4) (line : List Bool) (cyc rtt : Nat), s.aligned (32 + m) = false →
    exec (.sensorFrameRx m line cyc rtt) s = .next s) ∧
  (∀ (s : State) (m : Fin 2) (line : List Bool) (cyc : Nat) (x : Int), s.aligned (36 + m) = false →
    exec (.pairFrameRx m line cyc x) s = .next s) ∧
  (∀ (s : State) (m : Fin 2) (line : List Bool) (cyc rtt : Nat), s.aligned (38 + m) = false →
    exec (.busFrameRx m line cyc rtt) s = .next s) ∧
  (∀ (s : State) (m : Fin 4) (line : List Bool) (cyc rtt : Nat),
    let f := s.sensorWords m line
    let at_ := s.fullJ (f.hdr.toNat % 512) + 2 + s.fld SNS_CFG_SLAG
    s.portState (32 + m) = 4 → s.fld (CL_CTRL_LB (32 + m)) = 0 → s.bit (FLT_INJ_ARM (0x68 + m)) = false → f.stuffV = 0 → f.hdrEcc.good = true →
    (f.crcOk = true → s.expectConc m f.hdr = (true, true) → (s.now < at_ ∨ s.now = at_ ∧ cyc ≤ 80) →
      ∃ t, exec (.sensorFrameRx m line cyc rtt) s = .next t ∧ ((t.lane (32 + m)).rx.head?.map fun r => (r.tick, r.cyc, r.hdr)) = some (s.now, cyc, f.hdr) ∧
        (t.lane (32 + m)).rx.tail = (s.lane (32 + m)).rx.take 3 ∧ t.portState (32 + m) = 4 ∧ t.mem = s.mem) ∧
    (f.crcOk = false → ∃ t, exec (.sensorFrameRx m line cyc rtt) s = .next t ∧ (t.lane (32 + m)).rx = (s.lane (32 + m)).rx ∧ t.mem = s.mem ∧
      (s.fld (SNS_P_CNT_CRC m) < 2 ^ 32 - 1 → t.fld (SNS_P_CNT_CRC m) = s.fld (SNS_P_CNT_CRC m) + 1))) ∧
  (∀ (s : State) (m : Fin 2) (line : List Bool) (cyc : Nat) (x : Int),
    let f := frameIn 138 line
    let h := f.hdr.toNat
    let hash := (f.words[0]?).bind fun p => if p.1.good then some (p.2.toNat % 2 ^ 32) else none
    s.portState (36 + m) = 4 → s.fld (CL_CTRL_LB (36 + m)) = 0 → s.bit (FLT_INJ_ARM (0x6C + m)) = false → f.stuffV = 0 → f.hdrEcc.good = true →
    (f.crcOk = true → s.expectPair f.hdr = true → s.bit RED_CFG_PAIR = true → (hash = some (s.fld (CFG_HASH 0)) ∨ hash = none ∧ s.red.badHash = false) → s.role ≠ 1 → s.red.adopted = false →
      ∃ t, exec (.pairFrameRx m line cyc x) s = .next t ∧ t.portState (36 + m) = 4 ∧
        t.red.hdr = some { epoch := bitsOf h 47 24, role := bitsOf h 23 22, sub := bitsOf h 21 20, token := tbit h 48, unit := bitsOf h 49 49,
                           tick := if cyc ≤ 80 then s.now - 1 else s.now } ∧
        mget 0 t.red.lanesJ m = (if cyc ≤ 80 then s.now - 1 else s.now) ∧
        (s.role = 0 → s.red.waitFrom.isSome = true → bitsOf h 23 22 = 1 → t.role = 2 ∧ t.sub = 0)) ∧
    (f.crcOk = true → s.expectPair f.hdr = true → s.bit RED_CFG_PAIR = true → hash ≠ none → hash ≠ some (s.fld (CFG_HASH 0)) →
      ∃ t, exec (.pairFrameRx m line cyc x) s = .next t ∧ t.red.hdr = s.red.hdr ∧ t.red.badHash = true ∧ t.fld RED_STAT_CFG_MIS = 1 ∧
        (s.red.badHash = false → Told 0x380 0x10 0 s t)) ∧
    (f.crcOk = true → s.expectPair f.hdr = true → s.bit RED_CFG_PAIR = true → hash = none → s.red.badHash = true →
      ∃ t, exec (.pairFrameRx m line cyc x) s = .next t ∧ t.red = { s.red with heardAt := some s.now }) ∧
    (f.crcOk = false → ∃ t, exec (.pairFrameRx m line cyc x) s = .next t ∧ t = { s with regs := t.regs, sump := t.sump } ∧
      Told (0x1A1 + 8 * m) 0x19 0 s t)) ∧
  (∀ (s : State) (m : Fin 2) (line : List Bool) (cyc : Nat) (x : Int), s.portState (36 + m) = 3 → s.fld (CL_CTRL_LB (36 + m)) = 0 →
    (frameIn 138 line).hdrEcc.good = true → (frameIn 138 line).crcOk = true → s.expectPair (frameIn 138 line).hdr = true →
    ∃ t, exec (.pairFrameRx m line cyc x) s = .next t ∧ t.portState (36 + m) = 4) ∧
  (∀ (s : State) (m : Fin 2) (line : List Bool) (cyc rtt : Nat),
    let f := frameIn 6 line
    s.portState (38 + m) = 4 → s.fld (CL_CTRL_LB (38 + m)) = 0 → s.bit (FLT_INJ_ARM (0x6E + m)) = false → f.stuffV = 0 → f.hdrEcc.good = true →
    (f.crcOk = true → bitsOf f.hdr.toNat 63 58 = 0b011101 →
      bitsOf f.hdr.toNat 57 50 = (if m = 0 then s.fld ACQ_BUS_PEER_ML2 else s.fld ACQ_BUS_PEER_ML3) →
      ∃ t, exec (.busFrameRx m line cyc rtt) s = .next t ∧ t.acq.busGot = s.acq.busGot ++ [38 + m.val] ∧ t.portState (38 + m) = 4 ∧ t.mem = s.mem) ∧
    (f.crcOk = false → ∃ t, exec (.busFrameRx m line cyc rtt) s = .next t ∧ t.acq.busGot = s.acq.busGot ∧
      Told (0x1A1 + 8 * (2 + m)) 0x19 0 s t))

/-- O39. For every state. A unit whose wait for a role is over, no usable pair frame having come for as long (the model's choice, log entry 109), becomes STANDBY in sub-state 2 when more than half of its RUNNING ports show the other TOKEN, and otherwise ACTIVE with the next epoch, above the stored one that it reads, in force and stored (where the epoch stands in MRAM is the model's choice, log 82), or, with the epochs exhausted, keeps its role and tells. Three boundaries of R287 in a row demote an ACTIVE unit with DEMOTED and its message. EPOCH_CLEAR in PARKED while no pair frame is received clears the epoch, its stored copy and EPOCH_EXH. A missed deadline of R293 sets STAT_LATE on a STANDBY, ends its clean cycles, tells once per run and takes CURRENT to STALE. A STANDBY outside BENCH takes the operating state 5 to 7 of a usable STAT word and writes its device status slot; a word of another configuration sets CFG_MIS, and neither it nor an uncorrectable one after it changes the operating state. At the end of a tick the ACTIVE unit applies the requests that its frame carried. On a paired ACTIVE unit a mirrored request of the host or the sequencer enters the queue with its kind and body and has no other effect; a full queue refuses it with MIRQ_FULL; a STANDBY ignores it with NOT_ACTIVE. -/
def Obligations.RolesEpochAndFollowing : Prop :=
  (∀ (s : State) (t0 : Nat), s.red.waitFrom = some t0 → s.role = 0 → t0 + s.fld RED_CFG_WAIT * 10000 ≤ s.now →
    (∀ h, s.red.hdr = some h → h.tick + s.fld RED_CFG_WAIT * 10000 ≤ s.now) →
    (s.majority s.otherToken = true → ∃ t, exec .roleWaitExpiry s = .next t ∧ t.role = 2 ∧ t.sub = 2 ∧ t.red.waitFrom = none ∧
      t.fld RED_EPOCH_EPOCH = s.fld RED_EPOCH_EPOCH ∧ SameMem s t) ∧
    (s.majority s.otherToken = false → s.cleanWord epochAddr → s.nextEpoch (s.rd epochAddr 4) ≤ 0xFFFFFF → ∃ t, exec .roleWaitExpiry s = .next t ∧ t.role = 1 ∧ t.sub = 0 ∧
      t.red.waitFrom = none ∧ t.fld RED_EPOCH_EPOCH = s.nextEpoch (s.rd epochAddr 4) ∧ SameMemBut epochAddr 4 s t ∧
      (s.mramHeld = false → s.fld RED_EPOCH_EPOCH ≠ s.nextEpoch (s.rd epochAddr 4) → t.rd epochAddr 4 = s.nextEpoch (s.rd epochAddr 4))) ∧
    (s.majority s.otherToken = false → s.cleanWord epochAddr → 0xFFFFFF < s.nextEpoch (s.rd epochAddr 4) → ∃ t, exec .roleWaitExpiry s = .next t ∧
      t = { s with regs := t.regs, sump := t.sump } ∧ SameRegs (RED_STAT_EPOCH_EXH :: msgFlds) s t ∧ t.fld RED_STAT_EPOCH_EXH = 1 ∧
      Told 0x380 0x12 0 s t)) ∧
  (∀ s : State, (s.role ≠ 0 ∨ s.red.waitFrom = none ∨ ∃ h, s.red.hdr = some h ∧ s.now < h.tick + s.fld RED_CFG_WAIT * 10000) →
    exec .roleWaitExpiry s = .next s) ∧
  (∀ s : State, s.role = 1 → 3 ≤ s.red.demRun → ∃ t, exec .demoted s = .next t ∧ t.role = 2 ∧ t.sub = 2 ∧ t.fld RED_STAT_DEMOTED = 1 ∧
    Told 0x380 0x11 0 s t ∧ t.fld RED_EPOCH_EPOCH = s.fld RED_EPOCH_EPOCH ∧ SameMem s t) ∧
  (∀ s : State, (s.role ≠ 1 ∨ s.red.demRun < 3) → exec .demoted s = .next s) ∧
  (∀ (s : State) (m : Master), s.op = 4 → s.pairHeard = false → ∃ t, exec (.epochClear m) s = .next t ∧
    t.fld RED_EPOCH_EPOCH = 0 ∧ t.fld RED_STAT_EPOCH_EXH = 0 ∧ SameMemBut epochAddr 4 s t ∧
    (s.cleanWord epochAddr → t = { s with regs := t.regs, mem := t.mem } ∧ SameRegs [RED_EPOCH_EPOCH, RED_STAT_EPOCH_EXH] s t ∧
      (s.mramHeld = false → t.rd epochAddr 4 = 0))) ∧
  (∀ (s : State) (m : Master), (s.op ≠ 4 ∨ s.pairHeard = true) → exec (.epochClear m) s = .next s) ∧
  (∀ s : State, s.role = 2 → ∃ t, exec .statLate s = .next t ∧ t = { s with regs := t.regs, red := { s.red with lateNow := true, clean := 0 }, sump := t.sump } ∧
    SameRegs ([RED_STAT_STAT_LATE, RED_STAT_ROLE, RED_STAT_SUB, SEQ_EVT] ++ msgFlds) s t ∧ t.fld RED_STAT_STAT_LATE = 1 ∧ t.role = 2 ∧
    t.sub = (if s.sub = 1 then 2 else s.sub) ∧ (s.red.lateRun = false → s.red.lateNow = false → Told 0x383 0x19 0 s t)) ∧
  (∀ s : State, s.role ≠ 2 → exec .statLate s = .next s ∧ ∀ w, exec (.stateFollow w) s = .next s) ∧
  (∀ (s : State) (w : ECWord), s.role = 2 → s.op ≠ 8 →
    let st := (hsiaoDec w).2.toNat
    ((hsiaoDec w).1.good = true → st % 2 ^ 32 = s.fld (CFG_HASH 0) → 5 ≤ bitsOf st 63 60 → bitsOf st 63 60 ≤ 7 →
      ∃ t, exec (.stateFollow w) s = .next t ∧ t.op = bitsOf st 63 60 ∧ t.red.stat = some (statOf st s.now) ∧ t.role = 2 ∧
        t.rd (0x10000000 + 4 * 0x3C0) 4 = t.devstat % 2 ^ 32) ∧
    ((hsiaoDec w).1.good = false → s.red.badHash = true → ∃ t, exec (.stateFollow w) s = .next t ∧ t = { s with mem := t.mem } ∧
      t.rd (0x10000000 + 4 * 0x3C0) 4 = s.devstat % 2 ^ 32) ∧
    ((hsiaoDec w).1.good = true → st % 2 ^ 32 ≠ s.fld (CFG_HASH 0) → ∃ t, exec (.stateFollow w) s = .next t ∧
      t = { s with mem := t.mem, regs := t.regs, sump := t.sump, red := { s.red with badHash := true } } ∧ SameRegs (RED_STAT_CFG_MIS :: msgFlds) s t ∧
      t.fld RED_STAT_CFG_MIS = 1 ∧ t.rd (0x10000000 + 4 * 0x3C0) 4 = t.devstat % 2 ^ 32)) ∧
  (∀ (s : State) (ws : List ECWord), s.role = 1 → ∃ t, exec (.mirroredRequestApply ws) s = .next t ∧ t.red.now = [] ∧ t.red.applied = s.red.now ∧
    (s.red.now = [] → t = { s with red := { s.red with applied := [] } }) ∧
    ∀ (slot : Fin 1024) (v : Word), s.red.now = [⟨1, slot * 2 ^ 48 + v.toNat⟩] → t.ctl = { s.ctl with staged := s.ctl.staged ++ [⟨slot, v.toInt⟩] } ∧
      t.regs = s.regs ∧ t.mem = s.mem) ∧
  (∀ (s : State) (m : Master) (g : Fin 4096) (d : BitVec 16) (ch : Fin 192) (c : Instr) (k b : Nat), s.op ≠ 3 → s.bit RED_CFG_PAIR = true →
    (m = .host ∨ m = .sequencer) →
    (c, k, b) ∈ [(Instr.exclude m g, 3, g.val), (.readmit m g, 3, g + 2 ^ 12), (.excludeForSelftest m g, 3, g + 2 * 2 ^ 12),
      (.auxReqSetAddr m g d, 2, g + 2 ^ 12 + d.toNat * 2 ^ 16), (.auxReqWrite m g d, 2, g + 2 * 2 ^ 12 + d.toNat * 2 ^ 16),
      (.auxReqEnable m g d, 2, g + 3 * 2 ^ 12 + d.toNat * 2 ^ 16), (.auxReqCloseBypass m g d, 2, g + 7 * 2 ^ 12 + d.toNat * 2 ^ 16),
      (.patternCommitRequest m, 5, 4 * 2 ^ 32 + 1), (.primeRequest m ch, 4, ch.val)] →
    (s.role = 1 → s.red.queue.length < 64 → exec c s = .next { s with red := { s.red with queue := s.red.queue ++ [⟨k, b⟩] } }) ∧
    (s.role = 1 → 64 ≤ s.red.queue.length → ∃ t, exec c s = .next t ∧ t = { s with regs := t.regs, sump := t.sump } ∧
      SameRegs (RED_STAT_MIRQ_FULL :: msgFlds) s t ∧ t.fld RED_STAT_MIRQ_FULL = 1 ∧ Told 0x380 0x14 0 s t) ∧
    (s.role = 2 → ∃ t, exec c s = .next t ∧ t = { s with regs := t.regs, sump := t.sump } ∧
      SameRegs (RED_STAT_NOT_ACTIVE :: msgFlds) s t ∧ t.fld RED_STAT_NOT_ACTIVE = 1 ∧ Told 0x380 0x13 0 s t))

/-- O40. For every state. Without a pair DIGEST_COMPARE only shows that there is no partner; on a paired unit PARTNER shows whether a usable frame was heard and the silent ticks are counted or begin anew; in every role, with the partner's digest of two ticks ago at hand an equal one changes no count, a different one is counted and told, a missing one is counted and told once per run, and trouble takes a CURRENT standby to STALE. A checkpoint cycle starts only on a unit that takes part, without a cycle in progress, at a multiple of 64 ticks, over two lanes as NEXT2 said or both lanes run, ONE_LANE showing it. The takeover decision asks for a takeover exactly of a standby that may take over and is handed the role, meets SILENT silent ticks, sees most of its ports HOLDING in RUNNING for two ticks, has met an ALERT from an ACTIVE partner, or, in compatibility mode, misses the heartbeat and the pair frames of 1,000 ticks. Doubles announces a swap 1,000 ticks ahead when its interval is over or on request with the key, confirms it two ticks before or aborts it with DBL_ABORT, and at its tick the ACTIVE unit becomes the STANDBY in CURRENT and the STANDBY the ACTIVE unit with the next epoch. The heartbeat pin is low in native mode and toggles in compatibility mode once 125 ticks have passed and the tick pipeline runs; an edge is noted; a heartbeat lost for 1,000 ticks tells once until the next edge. Which requests a standby refuses, its releases, and when a cycle uses both lanes are read as log 80 says; that HOLD_FOR_HOST refuses the Doubles request is log 134. -/
def Obligations.DigestsTakeoverAndDoubles : Prop :=
  let announced (s t : State) : Prop := t = { s with regs := t.regs, red := t.red, sump := t.sump } ∧
    SameRegs ([RED_STAT_DBL_PEND, RED_DBL_NEXT] ++ msgFlds) s t ∧ t.fld RED_STAT_DBL_PEND = 1 ∧ t.fld RED_DBL_NEXT = (s.now + 1000) % 2 ^ 32 ∧
    t.red = { s.red with dbl := some (s.now + 1000), dblOk := false, queue := s.red.queue ++ [⟨6, (s.now + 1000) % 2 ^ 32⟩] } ∧ Told 0x384 0x1C 0 s t
  let stale (s t : State) : Prop := t.role = s.role ∧ t.sub = if s.role = 2 ∧ s.sub = 1 then 2 else s.sub
  (∀ s : State, s.bit RED_CFG_PAIR = false → exec .digestCompare s = .next (s.setFld RED_STAT_PARTNER 0)) ∧
  (∀ s : State, s.bit RED_CFG_PAIR = true →
    let heard := s.red.lanesJ.any fun p => p.2 + 1 == s.now || p.2 == s.now
    ∃ t, exec .digestCompare s = .next t ∧ t = { s with regs := t.regs, red := t.red, sump := t.sump } ∧
      t.fld RED_STAT_PARTNER = (if heard = true then 1 else 0) ∧ t.red.silent = (if heard = true then 0 else s.red.silent + 1) ∧
      (s.bit RED_CFG_MODE = false → 2 ≤ s.now → ∀ v, (s.red.pdigs.find? fun p => p.1 == 0 && p.2.1 == s.now - 2).map (·.2.2) = some v →
        (((s.red.digs.find? fun p => p.1 == s.now - 2).map (·.2)) = some v → t.fld RED_CNT_DMIS = s.fld RED_CNT_DMIS ∧
          t.fld RED_CNT_DMISS = s.fld RED_CNT_DMISS ∧ t.sub = s.sub ∧ t.red.missRun = 0) ∧
        (((s.red.digs.find? fun p => p.1 == s.now - 2).map (·.2)) ≠ some v → stale s t ∧ t.red.dirty = true ∧ Told 0x381 0x15 0 s t ∧
          (s.fld RED_CNT_DMIS < 2 ^ 32 - 1 → t.fld RED_CNT_DMIS = s.fld RED_CNT_DMIS + 1))) ∧
      (s.bit RED_CFG_MODE = false → 2 ≤ s.now → (∀ p ∈ s.red.pdigs, p.2.1 ≠ s.now - 2) → t.red.missRun = s.red.missRun + 1 ∧ t.red.dirty = true ∧
        (s.red.missRun = 0 → Told 0x381 0x16 0 s t) ∧ (2 ≤ s.red.missRun → stale s t) ∧ (s.red.missRun < 2 → t.sub = s.sub) ∧
        (s.fld RED_CNT_DMISS < 2 ^ 32 - 1 → t.fld RED_CNT_DMISS = s.fld RED_CNT_DMISS + 1))) ∧
  (∀ s : State, s.inCkpt = true → s.red.cyc = none → s.now % 64 = 0 →
    let two := s.red.next2.getD (s.portState 36 == 4 && s.portState 37 == 4)
    ∃ t, exec .checkpointCycleStart s = .next t ∧ t = { s with regs := t.regs, red := t.red } ∧ SameRegs [RED_STAT_ONE_LANE] s t ∧
      t.fld RED_STAT_ONE_LANE = (if two = true then 0 else 1) ∧
      t.red = { s.red with cyc := some (s.now, two), seqNo := if s.role = 1 then (s.red.seqNo + 1) % 65536 else s.red.seqNo }) ∧
  (∀ s : State, (s.inCkpt = false ∨ s.red.cyc ≠ none ∨ s.now % 64 ≠ 0) → exec .checkpointCycleStart s = .next s) ∧
  (∀ s : State, ∃ t, exec .takeoverDecision s = .next t ∧ t = { s with red := { s.red with alertAt := none, take := t.red.take } } ∧
    (t.red.take = true ↔ s.red.take = true ∨ ((s.role = 2 ∧ (s.sub = 1 ∨ s.sub = 2 ∧ s.bit RED_CFG_TAKE_STALE = true)) ∧
      ((∃ p, s.red.stat = some p ∧ p.handover = true) ∨ (s.bit RED_CFG_MODE = false ∧ (s.fld RED_CFG_SILENT ≤ s.red.silent ∨
        ((∃ p, s.red.stat = some p ∧ p.state = 6) ∧ s.majority (fun n => decide (2 ≤ mget 0 s.red.hold n)) = true) ∨
        (s.red.alertAt ≠ none ∧ ∃ h, s.red.hdr = some h ∧ h.role = 1))) ∨
        (s.bit RED_CFG_MODE = true ∧ s.red.hbGone = true ∧ 1000 ≤ s.red.silent))))) ∧
  (∀ s : State, s.canSwap = true → s.red.queue.length < 64 →
    (s.fld RED_DBL_INT ≠ 0 → s.red.dblNext ≤ s.now → ∃ t, exec .doublesAnnounce s = .next t ∧ announced s t) ∧
    (∀ (m : Master) (val : Word), s.op ≠ 3 → wbits val.toNat RED_DBL_REQ_KEY = 0x3C5A → wbits val.toNat RED_DBL_REQ_GO = 1 →
      ∃ t, exec (.doublesRequest m val) s = .next t ∧ announced s t)) ∧
  (∀ s : State, (s.canSwap = false ∨ s.fld RED_DBL_INT = 0 ∨ s.now < s.red.dblNext) → exec .doublesAnnounce s = .next s) ∧
  (∀ (s : State) (m : Master) (val : Word), s.op = 3 → wbits val.toNat RED_DBL_REQ_KEY = 0x3C5A → wbits val.toNat RED_DBL_REQ_GO = 1 →
    ∃ t, exec (.doublesRequest m val) s = .next t ∧ t = { s with regs := t.regs, sump := t.sump } ∧ SameRegs msgFlds s t ∧ Told 0x3DB 0x2F 0 s t) ∧
  (∀ (s : State) (m : Master) (val : Word), wbits val.toNat RED_DBL_REQ_KEY ≠ 0x3C5A → ∃ t, exec (.doublesRequest m val) s = .next t ∧
    t = { s with regs := t.regs, sump := t.sump } ∧ SameRegs msgFlds s t ∧ Told 0x380 0x03 0 s t) ∧
  (∀ (s : State) (at_ : Nat), s.red.dbl = some at_ → at_ ≤ s.now + 2 →
    let ok := (if s.role = 2 then s.sub == 1 else s.partnerCurrent) && !s.latched && !(match s.red.stat with | some p => p.latched | none => false)
      && !(match s.eng.swap with | some w => decide (at_ ≤ w.tick + 2 ∧ w.tick ≤ at_) | none => false) && !s.red.take
    (ok = true → exec .doublesCheck s = .next { s with red := { s.red with dblOk := true } }) ∧
    (ok = false → ∃ t, exec .doublesCheck s = .next t ∧ t = { s with regs := t.regs, red := t.red, sump := t.sump } ∧
      SameRegs ([RED_STAT_DBL_ABORT, RED_STAT_DBL_PEND] ++ msgFlds) s t ∧ t.fld RED_STAT_DBL_ABORT = 1 ∧ t.fld RED_STAT_DBL_PEND = 0 ∧
      t.red = { s.red with dbl := none, dblOk := false, dblNext := s.now + 60000000 } ∧ Told 0x384 0x1D 0 s t)) ∧
  (∀ (s : State) (at_ : Nat), s.red.dbl = some at_ → at_ ≤ s.now → s.red.dblOk = true → s.red.take = false →
    (s.role = 1 → ∃ t, exec .doublesSwap s = .next t ∧ t.role = 2 ∧ t.sub = 1 ∧ t.red.dbl = none ∧ t.fld RED_STAT_DBL_PEND = 0 ∧ SameMem s t ∧
      t.fld RED_EPOCH_EPOCH = s.fld RED_EPOCH_EPOCH ∧ (s.fld RED_CNT_DBL < 2 ^ 32 - 1 → t.fld RED_CNT_DBL = s.fld RED_CNT_DBL + 1)) ∧
    (s.role = 2 → s.bit RED_CFG_MODE = false → s.cleanWord epochAddr → s.nextEpoch (s.rd epochAddr 4) ≤ 0xFFFFFF → ∃ t, exec .doublesSwap s = .next t ∧ t.role = 1 ∧ t.sub = 0 ∧ t.red.dbl = none ∧
      t.fld RED_STAT_TAKEOVER = 1 ∧ t.fld RED_EPOCH_EPOCH = s.nextEpoch (s.rd epochAddr 4))) ∧
  (∀ s : State, s.red.dbl = none → exec .doublesCheck s = .next s ∧ exec .doublesSwap s = .next s) ∧
  (∀ s : State, (s.bit RED_CFG_MODE = true → s.dbg.frozen = false → s.ticksRun = true → s.red.hbAt + 125 ≤ s.now →
      exec .heartbeatToggle s = .next { s with red := { s.red with hbOwn := !s.red.hbOwn, hbAt := s.now } }) ∧
    (s.bit RED_CFG_MODE = false ∨ s.dbg.frozen = true ∨ s.ticksRun = false ∨ s.now < s.red.hbAt + 125 → exec .heartbeatToggle s = .next s) ∧
    (s.bit RED_CFG_MODE = false → s.hbPin = false)) ∧
  (∀ s : State, exec .heartbeatEdgeRx s = .next (if s.bit RED_CFG_MODE then { s with red := { s.red with hbSeen := s.now, hbGone := false } } else s)) ∧
  (∀ s : State, s.bit RED_CFG_MODE = true → s.red.hbGone = false → s.red.hbSeen + 1000 ≤ s.now → ∃ t, exec .hbLost s = .next t ∧
    t = { s with regs := t.regs, red := { s.red with hbGone := true }, sump := t.sump } ∧ SameRegs msgFlds s t ∧ Told 0x385 0x1E 0 s t) ∧
  (∀ s : State, (s.bit RED_CFG_MODE = false ∨ s.red.hbGone = true ∨ s.now < s.red.hbSeen + 1000) → exec .hbLost s = .next s)

/-- O41. For every state, each of SUMP_SERVICE, SRC_CLEAR, ERR_CLEAR and FRESET_DONE answers a next state. With nothing waiting SUMP_SERVICE has no effect. Otherwise the slot after the last one served, in rising order and round again, becomes free. A direct message takes its source to SEVERE with its last kind, and sets the latched block where the severe mask asks for it and the pending bit where it asks for that; a note, and an INJECTED message that is not counted, changes no classification. Where the log takes an entry, its words stand at the write pointer, which moves on. A source in a fault state whose quiet period is over returns to CLEAR with one more recovery and a note; before that SRC_CLEAR has no effect. ERR_CLEAR is held back with ERR_HELD while a source whose reactions included the pin is in its fault state or CK_CORE or CK_AON is lost, has no effect while CK_FAB is lost, and otherwise releases the pins to the state's own assertion. A function reset that completes leaves the list of those in progress; one that was performed changes nothing else and tells, one that no command performed, as that of an SL port's line, is performed by it; one that was not in progress does nothing. -/
def Obligations.FaultServiceAndClearing : Prop :=
  (∀ s : State, s.sump.slots = [] → exec .sumpService s = .next s) ∧
  (∀ (s : State) (n : Nat) (x : SumpSlot), n < 1024 →
    ((s.sump.slots.find? fun p => decide (s.sump.last < p.1)) = some (n, x) ∨
      ((s.sump.slots.find? fun p => decide (s.sump.last < p.1)) = none ∧ s.sump.slots.head? = some (n, x))) →
    ∃ t, exec .sumpService s = .next t ∧ t.sump.last = n ∧ t.cells = s.cells ∧ t.op = s.op ∧ t.now = s.now ∧
      (∀ k, k ≠ n → k ≠ 1 → t.msgAt k = (mdel s.sump.slots n |>.find? fun p => decide (p.1 = k)).map fun p => (p.2.kind, p.2.detail)) ∧
      ((s.fld FLT_LOG_WP_PTR + 1) % 16384 ≠ s.fld FLT_LOG_RP_PTR → s.fld FLT_LOG_WP_PTR < 16384 → x.m = 0 →
        t.fld FLT_LOG_WP_PTR = (s.fld FLT_LOG_WP_PTR + 1) % 16384 ∧ t.fld FLT_LOG_RP_PTR = s.fld FLT_LOG_RP_PTR ∧
        t.rd (0x3D000000 + 16 * s.fld FLT_LOG_WP_PTR) 8 = (n * 2 ^ 54 + x.kind * 2 ^ 48 + x.detail * 2 ^ 16 + x.tick) % 2 ^ 64 ∧
        SameMemBut (0x3D000000 + 16 * s.fld FLT_LOG_WP_PTR) 16 s t) ∧
      (x.cls = 2 → x.inj ≠ 1 → t.fld (FLT_SRC_STAT_ST n) = 2 ∧ t.fld (FLT_SRC_STAT_SEV_SEEN n) = 1 ∧ t.fld (FLT_SRC_STAT_LAST_KIND n) = x.kind % 64 ∧
        (tbit (s.severeMask n) 4 = true → t.latched = true ∧ n ∈ t.prot.sumpSrc) ∧
        (tbit (s.severeMask n) 1 = true → tbit (t.fld (FLT_PEND (n / 32))) (n % 32) = true)) ∧
      (x.cls = 0 ∨ x.inj = 1 → x.m = 0 → t.fld (FLT_SRC_STAT_ST n) = s.fld (FLT_SRC_STAT_ST n) ∧ t.fld (FLT_SRC_STAT_CNT n) = s.fld (FLT_SRC_STAT_CNT n) ∧
        t.latched = s.latched)) ∧
  (∀ (s : State) (n : Fin 1024), s.fld (FLT_SRC_STAT_ST n) ≠ 0 → (s.sumpSrc n).tl + s.srcQuiet n ≤ s.now →
    ∃ t, exec (.srcClear n) s = .next t ∧ t = { s with regs := t.regs, sump := t.sump } ∧
      SameRegs ([FLT_SRC_STAT_ST n, FLT_SRC_STAT_CNT n, FLT_SRC_REC_REC n, FLT_SRC_STAT_REC_OVF n] ++ msgFlds) s t ∧
      t.fld (FLT_SRC_STAT_ST n) = 0 ∧ t.fld (FLT_SRC_STAT_CNT n) = 0 ∧ (t.sumpSrc n).err = false ∧ Told 0x001 0x18 (n * 2 ^ 22) s t ∧
      (s.fld (FLT_SRC_REC_REC n) < 0xFFFF → t.fld (FLT_SRC_REC_REC n) = s.fld (FLT_SRC_REC_REC n) + 1) ∧
      (s.fld (FLT_SRC_REC_REC n) = 0xFFFF → t.fld (FLT_SRC_STAT_REC_OVF n) = 1)) ∧
  (∀ (s : State) (n : Fin 1024), (s.fld (FLT_SRC_STAT_ST n) = 0 ∨ s.now < (s.sumpSrc n).tl + s.srcQuiet n) → exec (.srcClear n) s = .next s) ∧
  (∀ (s : State) (m : Master), s.ctl.lost.contains 0x011 = true → exec (.errClear m) s = .next s) ∧
  (∀ (s : State) (m : Master), s.ctl.lost.contains 0x011 = false →
    let held := (s.sump.srcs.any fun p => p.2.err && s.fld (FLT_SRC_STAT_ST p.1) != 0) || s.ctl.lost.contains 0x010 || s.ctl.lost.contains 0x016
    (held = true → ∃ t, exec (.errClear m) s = .next t ∧ OnlyRegs [FLT_STAT_ERR_HELD] s t ∧ t.fld FLT_STAT_ERR_HELD = 1) ∧
    (held = false → ∃ t, exec (.errClear m) s = .next t ∧ t.sump = { s.sump with errHold := false, aonA := false, aonB := false } ∧
      SameRegs [FLT_STAT_ERR] s t ∧ t.fld FLT_STAT_ERR = (if s.sump.errState = true then 1 else 0) ∧
      t.elec = { s.elec with errA := s.sump.errState, errB := s.sump.errState })) ∧
  (∀ (s : State) (fn idx : Fin 32) (src : Nat), s.sump.fresetRun.contains (64 * fn.val + idx.val) = true →
    (s.sump.fresets.find? fun p => p.1 == 64 * fn.val + idx.val) = some (64 * fn.val + idx.val, src) →
    ∃ t, exec (.fresetDone fn idx) s = .next t ∧ t = { s with regs := t.regs, sump := t.sump } ∧ SameRegs msgFlds s t ∧
      t.sump.fresets = s.sump.fresets.filter (fun p => p.1 != 64 * fn.val + idx.val) ∧ Told 0x001 0x1A (src * 2 ^ 22) s t) ∧
  (∀ (s : State) (idx : Fin 4) (src : Nat), s.sump.fresetRun.contains (1024 + idx.val) = false →
    (s.sump.fresets.find? fun p => p.1 == 1024 + idx.val) = some (1024 + idx.val, src) →
    ∃ t, exec (.fresetDone 16 ⟨idx, by omega⟩) s = .next t ∧ t.sump.fresets = s.sump.fresets.filter (fun p => p.1 != 1024 + idx.val) ∧ t.mem = s.mem ∧
      t.fld (CL_CNT_MISS (32 + idx)) = 0 ∧ (s.fld (CL_CTRL_EN (32 + idx)) = 1 → t.portState (32 + idx) = 1) ∧ Told 0x001 0x1A (src * 2 ^ 22) s t) ∧
  (∀ (s : State) (fn idx : Fin 32), (∃ p ∈ s.sump.fresets, p.1 = 64 * fn.val + idx.val) → ∃ t, exec (.fresetDone fn idx) s = .next t ∧
    ∀ p ∈ t.sump.fresets, p.1 ≠ 64 * fn.val + idx.val) ∧
  (∀ (s : State) (fn idx : Fin 32), (∀ p ∈ s.sump.fresets, p.1 ≠ 64 * fn.val + idx.val) → exec (.fresetDone fn idx) s = .next s)

/-- O42. For every state (for the composer, one whose image lists each cell once) each of the fifteen function reset commands answers a next state, under no other condition. The function reset is in progress afterwards, and one of the engine, planner, selection, composer or protection that was not in progress before sets the latched block. A CL or ML port is OFF, or DARK with loss of signal and of lock (log 29) when it is enabled, with its counters at zero and its enable kept; the sensor ports have their counters and histories cleared and their configuration and the lanes kept; a station port has its link down, its counters cleared and its enable kept; a time domain with a source is in state 2 with its model cleared, one without in state 0, the other domain as it was; every recorder is IDLE, the trigger units are unarmed and the bus delays 0; metering's queue, signed and offered records are gone and its interval is kept; the security unit's session ends and its key store reloads, with no key loaded, a command in progress ended by RESET, and memory and the OTP fields kept; the redundancy manager's counters and the partner's words are cleared, with unit, queue and, of a paired unit, the epoch kept; an ACTIVE one keeps its role and sub-state, as does any before PARKED, and any other paired one from PARKED on is undecided, waits for its role afresh and is resynchronised (what it keeps is read as log 45 says); the sequencer's counters are cleared and, from PARKED on, it stands at the reset vector; word 10 of every channel is at its reset value with bank, pending swap and the tick's record of the channels that have run kept; every arm is in its safe state without a pending commit; exclusions are dropped and CHARGE is set; the item queue is empty and no cell's delay is valid; every comparator is untripped. -/
def Obligations.FunctionResets : Prop :=
  let on (code : Nat) (t : State) : Prop := t.sump.fresets.any (fun p => p.1 == code) = true
  let esc (code : Nat) (s t : State) : Prop := on code t ∧ (s.sump.fresets.any (fun p => p.1 == code) = false → t.latched = true)
  let port (l : Nat) (s t : State) : Prop := t.fld (CL_CNT_LOS l) = 0 ∧ t.fld (CL_CNT_MISS l) = 0 ∧ t.fld (CL_CNT_STUFF l) = 0 ∧ (s.fld (CL_CTRL_EN l) = 0 → t.fld (CL_CTRL_EN l) = 0 ∧ t.portState l = 0) ∧
    (s.fld (CL_CTRL_EN l) = 1 → t.fld (CL_CTRL_EN l) = 1 ∧ t.portState l = 1 ∧ t.fld (CL_STAT_LOS l) = 1 ∧ t.fld (CL_STAT_LOL l) = 1)
  (∀ (s : State) (n : Fin 32), ∃ t, exec (.fresetClPort n) s = .next t ∧ on (64 + n.val) t ∧ port n s t) ∧
  (∀ (s : State) (n : Fin 4), ∃ t, exec (.fresetMlPort n) s = .next t ∧ on (192 + n.val) t ∧ port (36 + n) s t ∧ t.mem = s.mem) ∧
  (∀ s : State, ∃ t, exec .fresetSensor s = .next t ∧ on 128 t ∧ t.sns = [] ∧ t.lanes = s.lanes ∧ t.mem = s.mem ∧
    ∀ m : Fin 4, t.fld (SNS_P_CNT_CRC m) = 0 ∧ t.fld (SNS_P_CNT_MISS m) = 0 ∧ t.fld (SNS_P_CNT_LATE m) = 0 ∧ t.fld (SNS_P_CFG_ID m) = s.fld (SNS_P_CFG_ID m)) ∧
  (∀ (s : State) (n : Fin 4), ∃ t, exec (.fresetStationPort n) s = .next t ∧ on (256 + n.val) t ∧ t.fld (STN_STAT_LINK n) = 0 ∧
    (∀ i : Fin 10, t.fld (STN_CNT n i) = 0) ∧ t.fld (STN_CTRL_EN n) = s.fld (STN_CTRL_EN n) ∧ t.mem = s.mem) ∧
  (∀ (s : State) (d : Fin 2), ∃ t, exec (.fresetTimeDomain d) s = .next t ∧ on (320 + d.val) t ∧ t.domSt d = (if s.fld (TIM_D_CFG_SRC d) = 0 then 0 else 2) ∧
    t.fld (TIM_D_FREQ d) = 0 ∧ t.fld (TIM_D_OFS d) = 0 ∧ t.dom d = { ld := s.time.l16 / 65536 } ∧ t.dom (1 - d.val) = s.dom (1 - d.val) ∧ t.domSt (1 - d.val) = s.domSt (1 - d.val)) ∧
  (∀ s : State, ∃ t, exec .fresetAcquisition s = .next t ∧ on 384 t ∧ t.acq.units = [] ∧ t.acq.wait = [] ∧ t.fld ACQ_BUS_DLY_D2 = 0 ∧
    t.fld ACQ_BUS_DLY_D3 = 0 ∧ ∀ r : Fin 4, t.recSt r = 0) ∧
  (∀ s : State, ∃ t, exec .fresetEnergy s = .next t ∧ on 448 t ∧ t.nrg = { s.nrg with queue := [], signed := [], offered := [] } ∧
    t.fld NRG_STAT_QUEUE = 0 ∧ t.fld NRG_STAT_SIGN_PEND = 0 ∧ (s.sec.job = none → s.sec.wait = [] → t.mem = s.mem)) ∧
  (∀ s : State, ∃ t, exec .fresetSecurity s = .next t ∧ on 512 t ∧ t.fld SEC_STAT_DBG_LEVEL = 0 ∧ t.sec.reload = true ∧ t.sec.cur = none ∧
    t.sec.job = none ∧ t.fld SEC_STAT_READY = 0 ∧ t.fld SEC_STAT_KEYS_LOADED = 0 ∧ t.mem = s.mem ∧ (∀ f ∈ otpFlds, t.fld f = s.fld f) ∧
    (s.sec.job ≠ none → t.fld SEC_CMD_STAT_DONE = 1 ∧ t.fld SEC_CMD_STAT_RESULT = 6)) ∧
  (∀ s : State, ∃ t, exec .fresetRedundancy s = .next t ∧ on 576 t ∧ t.fld RED_ID_UNIT = s.fld RED_ID_UNIT ∧ t.red.queue = s.red.queue ∧
    t.red.hdr = none ∧ t.red.rx = none ∧ t.red.adopted = false ∧ t.fld RED_CNT_TAKE = 0 ∧
    (s.role = 1 ∨ s.op < 4 ∨ s.bit RED_CFG_PAIR = true → t.fld RED_EPOCH_EPOCH = s.fld RED_EPOCH_EPOCH ∧ t.mem = s.mem) ∧
    (s.role = 1 ∨ s.op < 4 → t.role = s.role % 4 ∧ t.sub = s.sub % 4) ∧
    (s.role ≠ 1 → 4 ≤ s.op → s.bit RED_CFG_PAIR = true → t.role = 0 ∧ t.sub = 0 ∧ t.red.waitFrom = some s.now)) ∧
  (∀ s : State, ∃ t, exec .fresetSequencer s = .next t ∧ on 640 t ∧ t.fld SEQ_CNT_LS = 0 ∧ t.fld SEQ_CNT_NMI = 0 ∧ t.fld SEQ_CNT_ILL = 0 ∧
    t.mem = s.mem ∧ (4 ≤ s.op → t.seq.pc = 0x38000000 ∧ t.seq.run = true ∧ t.seq.dead = false ∧ t.seq.wait = none ∧ t.fld SEQ_STAT_ENTRY = 1 ∧
      ∀ r : Fin 16, t.sx r = 0)) ∧
  (∀ s : State, ∃ t, exec .fresetEngine s = .next t ∧ esc 704 s t ∧ t.eng = { s.eng with badRun := [] } ∧ t.fld CE_SWAP_CTRL_PEND = (if s.eng.swap.isSome then 1 else 0) ∧
    (∀ c : Fin 192, t.rd (chanAddr c 10) 8 = 0x100000 ∧ t.bankOf c = s.bankOf c)) ∧
  (∀ s : State, ∃ t, exec .fresetPlanner s = .next t ∧ esc 768 s t ∧ t.fld PLN_STAT_COMMIT_PEND = 0 ∧ t.pat.lo = s.pat.lo ∧ t.pat.hi = s.pat.hi ∧
    ∀ a : Fin 6, (t.plnA a).act = false ∧ (t.plnA a).n = 0 ∧ (t.plnA a).pip = none ∧ t.fld (PLN_ARM_PIP_VALID a) = 0) ∧
  (∀ s : State, ∃ t, exec .fresetSelection s = .next t ∧ esc 832 s t ∧ t.sel = [] ∧ t.excl = [] ∧ t.fld SEL_EXCL_STAT_PENDING = 0 ∧
    ∀ a : Fin 6, t.fld (SEL_ARM_STAT_CHARGE a) = 1) ∧
  (∀ s : State, s.imageOk → ∃ t, exec .fresetComposer s = .next t ∧ esc 896 s t ∧ t.cmp.queue = [] ∧ t.fld CMP_AUX_STAT_LEVEL = 0 ∧ t.pdly = [] ∧
    ∀ g, s.isConf g = true → t.ce g ceDlyOk = 0 ∧ t.ce g ceDmv = 0 ∧ (t.cc g).cur = none ∧ (t.cc g).stest = 0) ∧
  (∀ s : State, ∃ t, exec .fresetProtection s = .next t ∧ esc 960 s t ∧ t.prot.cmps = [] ∧ t.mem = s.mem ∧ ∀ n : Fin 32, t.fld (PRT_CMP_STAT_TRIP n) = 0)

/-- O43. For every state and recorder, each of the twelve commands of the recorders, segments and retention answers a next state under the conditions given, which are on the state and the operands alone. ARM of an IDLE recorder whose settings are accepted takes its next free segment: ARMED, no rows, the sequence number kept, the first row on its grid at or after now; rejected settings set REJ and tell ARM_REJ; without a free segment it is FULL and tells; an ARM in any other state has no effect. STOP leaves IDLE; an open record, and one in CLOSE, gets its header of 16 words at the head of its segment, with ABORT set for the open one and for one whose trigger came in the same tick, and the segment holds a record (its free fields are log 77, the layout of a row log 55). RECORD_HEADER_WRITTEN writes the header of a record in CLOSE and enters HOLD, which HMODE 0 ends at once, with REARM 1 into ARMED or FULL. HOLD_OFF_END ends a HOLD of HMODE 1 only when it has lasted. MISSED_CLEAR clears MISSED, its flag and FMISS, except during a function reset. A soft trigger starts POST in every ARMED recorder of its mask with the boundary time as its instant, and is missed by a FULL one; recorders outside the mask stay as they are. A freed segment is free, unless it is in use, and a FULL recorder of which it is a segment arms. Retention is entered only with every recorder IDLE and denied otherwise; a wake starts from it and lasts 20 µs. In HOLD_FOR_HOST an arming, a soft trigger and an entry into retention are refused with SVC_DENIED (log 134). -/
def Obligations.RecordersSegmentsAndRetention : Prop :=
  let head (r : Fin 4) (abort : Bool) (s t : State) : Prop := SameMemBut (s.segAddr r) 128 s t ∧
    t.rd (s.segAddr r) 8 = 0x4C4E * 2 ^ 48 + 2 ^ 40 + r * 2 ^ 38 + (s.recd r).seq % 2 ^ 32 ∧
    ((∀ x, (s.recd r).trig = some x → x.tsrc < 256) → tbit (t.rd (s.segAddr r + 40) 8) 57 = abort) ∧
    (s.fld (ACQ_R_STAT_SEG r) < 15 → tbit (t.fld (ACQ_R_STAT_CLOSED r)) (s.fld (ACQ_R_STAT_SEG r)) = true) ∧
    (t.recd r).seq = ((s.recd r).seq + 1) % 2 ^ 32 ∧ Told (0x3C0 + r) 0x16 0 s t
  let others (r : Fin 4) (s t : State) : Prop := ∀ q : Fin 4, q ≠ r → t.recd q = s.recd q ∧ t.recSt q = s.recSt q
  (∀ (s : State) (m : Master) (r : Fin 4) (mask : BitVec 4), s.op = 3 → ∀ c ∈ [Instr.recorderArm m r, .softTrigger m mask, .retentionEnter m],
    ∃ t, exec c s = .next t ∧ t = { s with regs := t.regs, sump := t.sump } ∧ SameRegs msgFlds s t ∧ Told 0x3DB 0x2F 0 s t) ∧
  (∀ (s : State) (m : Master) (r : Fin 4), s.op ≠ 3 → s.recSt r ≠ 0 → exec (.recorderArm m r) s = .next s) ∧
  (∀ (s : State) (m : Master) (r : Fin 4), s.op ≠ 3 → s.recSt r = 0 →
    (s.armBad r = true → ∃ t, exec (.recorderArm m r) s = .next t ∧ t = { s with regs := t.regs, sump := t.sump } ∧
      SameRegs (ACQ_R_STAT_REJ r :: msgFlds) s t ∧ t.fld (ACQ_R_STAT_REJ r) = 1 ∧ Told (0x3C0 + r) 0x12 0 s t) ∧
    (s.armBad r = false → s.freeSeg r (s.recd r).next = none → ∃ t, exec (.recorderArm m r) s = .next t ∧
      SameRegs (ACQ_R_STAT_STATE r :: msgFlds) s t ∧ t.recSt r = 5 ∧ Told (0x3C0 + r) 0x11 0 s t ∧ t.mem = s.mem ∧ others r s t) ∧
    (∀ g, s.armBad r = false → s.freeSeg r (s.recd r).next = some g → ∃ t, exec (.recorderArm m r) s = .next t ∧
      t = { s with regs := t.regs, acq := { s.acq with recs := t.acq.recs } } ∧ others r s t ∧
      SameRegs [ACQ_R_STAT_STATE r, ACQ_R_STAT_SEG r, ACQ_R_STAT_CLOSED r] s t ∧
      t.recSt r = 1 ∧ t.fld (ACQ_R_STAT_SEG r) = g % 16 ∧ tbit (t.fld (ACQ_R_STAT_CLOSED r)) g = false ∧
      t.recd r = { next := g + 1, seq := (s.recd r).seq, t0 := (t.recd r).t0, armTick := s.now } ∧
      (s.bit (ACQ_R_CFG_MODE r) = false → (t.recd r).t0 = 65536 * (1000 * (s.now : Int) - s.fld SNS_CFG_ADV)) ∧
      (s.bit (ACQ_R_CFG_MODE r) = true → ∃ k : Nat, (t.recd r).t0 = 65536000 * (k : Int) ∧ k % 2 ^ s.fld (ACQ_R_CFG_DIV r) = 0 ∧
        s.now ≤ k ∧ k < s.now + 2 ^ s.fld (ACQ_R_CFG_DIV r)))) ∧
  (∀ (s : State) (m : Master) (r : Fin 4),
    (s.recSt r = 1 ∨ s.recSt r = 2 ∨ s.recSt r = 3 → ∃ t, exec (.recorderStop m r) s = .next t ∧
      t = { s with regs := t.regs, acq := t.acq, mem := t.mem, sump := t.sump, fresh := t.fresh } ∧ others r s t ∧
      SameRegs ([ACQ_R_STAT_STATE r, ACQ_R_STAT_CLOSED r] ++ msgFlds) s t ∧ t.recSt r = 0 ∧ head r (decide (s.recSt r ≠ 3) || (s.recd r).trig.any fun x => x.seen == s.now) s t) ∧
    (s.recSt r = 0 ∨ s.recSt r = 4 ∨ s.recSt r = 5 → ∃ t, exec (.recorderStop m r) s = .next t ∧ OnlyRegs [ACQ_R_STAT_STATE r] s t ∧ t.recSt r = 0)) ∧
  (∀ (s : State) (r : Fin 4), s.recSt r ≠ 3 → exec (.recordHeaderWritten r) s = .next s) ∧
  (∀ (s : State) (r : Fin 4), s.recSt r = 3 → ∃ t, exec (.recordHeaderWritten r) s = .next t ∧ others r s t ∧
    t = { s with regs := t.regs, acq := t.acq, mem := t.mem, sump := t.sump, fresh := t.fresh } ∧ SameMemBut (s.segAddr r) 128 s t ∧
    (s.fld (ACQ_R_CFG_HMODE r) ≠ 0 → t.recSt r = 4 ∧ (t.recd r).holdAt = s.now ∧ (t.recd r).holdN = 0 ∧ head r false s t) ∧
    (s.fld (ACQ_R_CFG_HMODE r) = 0 → s.bit (ACQ_R_CFG_REARM r) = false → t.recSt r = 0 ∧ head r false s t) ∧
    (s.fld (ACQ_R_CFG_HMODE r) = 0 → s.bit (ACQ_R_CFG_REARM r) = true → t.recSt r = 1 ∨ t.recSt r = 5)) ∧
  (∀ (s : State) (r : Fin 4), (s.recSt r ≠ 4 ∨ s.fld (ACQ_R_CFG_HMODE r) = 1 ∧ s.now < (s.recd r).holdAt + s.fld (ACQ_R_HOLD r)) →
    exec (.holdOffEnd r) s = .next s) ∧
  (∀ (s : State) (r : Fin 4), s.recSt r = 4 → s.fld (ACQ_R_CFG_HMODE r) = 1 → (s.recd r).holdAt + s.fld (ACQ_R_HOLD r) ≤ s.now →
    ∃ t, exec (.holdOffEnd r) s = .next t ∧ t.mem = s.mem ∧ others r s t ∧
      (s.bit (ACQ_R_CFG_REARM r) = false → OnlyRegs [ACQ_R_STAT_STATE r] s t ∧ t.recSt r = 0) ∧
      (s.bit (ACQ_R_CFG_REARM r) = true → t.recSt r = (if (s.freeSeg r (s.recd r).next).isSome = true then 1 else 5))) ∧
  (∀ (s : State) (m : Master) (r : Fin 4), s.inFreset (0x91024 + 256 * r) = true → exec (.missedClear m r) s = .next s) ∧
  (∀ (s : State) (m : Master) (r : Fin 4), s.inFreset (0x91024 + 256 * r) = false → ∃ t, exec (.missedClear m r) s = .next t ∧
    OnlyRegs [ACQ_R_MISSED r, ACQ_R_STAT_MOVF r, ACQ_R_FMISS_LO r, ACQ_R_FMISS_HI r] s t ∧ t.fld (ACQ_R_MISSED r) = 0 ∧
    t.fld (ACQ_R_STAT_MOVF r) = 0 ∧ t.fld (ACQ_R_FMISS_LO r) = 0 ∧ t.fld (ACQ_R_FMISS_HI r) = 0) ∧
  (∀ (s : State) (m : Master) (mask : BitVec 4), s.op ≠ 3 → ∃ t, exec (.softTrigger m mask) s = .next t ∧
    t = { s with regs := t.regs, acq := t.acq, lanes := t.lanes, sump := t.sump } ∧
    ∀ r : Fin 4,
      (mask.getLsbD r = false → t.recd r = s.recd r ∧ t.recSt r = s.recSt r ∧ t.fld (ACQ_R_MISSED r) = s.fld (ACQ_R_MISSED r)) ∧
      (mask.getLsbD r = true → s.recSt r = 1 → (s.recd r).t0 ≤ 65536000 * (s.now : Int) ∨ (s.recd r).armTick < s.now → t.recSt r = 2 ∧
        ∃ x, (t.recd r).trig = some x ∧ x.tsrc = 9 ∧ x.inst = (s.ctl.btime : Int) * 65536 ∧ x.g = 65536000 * (s.now : Int) ∧ (t.recd r).rows = (s.recd r).rows) ∧
      (mask.getLsbD r = true → s.recSt r = 1 → 65536000 * (s.now : Int) < (s.recd r).t0 → s.now ≤ (s.recd r).armTick → t.recd r = s.recd r ∧ t.recSt r = 1) ∧
      (mask.getLsbD r = true → s.recSt r = 5 → s.fld (ACQ_R_MISSED r) < 2 ^ 32 - 1 → t.recSt r = 5 ∧ t.fld (ACQ_R_MISSED r) = s.fld (ACQ_R_MISSED r) + 1 ∧
        (s.fld (ACQ_R_MISSED r) = 0 → t.fld (ACQ_R_FMISS_LO r) = s.ctl.btime % 2 ^ 32))) ∧
  (∀ (s : State) (m : Master) (r : Fin 4) (g : Fin 16), (g.val = 15 ∨ (s.recSt r = 1 ∨ s.recSt r = 2 ∨ s.recSt r = 3) ∧ s.fld (ACQ_R_STAT_SEG r) = g) →
    exec (.segmentFree m r g) s = .next s) ∧
  (∀ (s : State) (m : Master) (r : Fin 4) (g : Fin 16), g.val < 15 → ¬((s.recSt r = 1 ∨ s.recSt r = 2 ∨ s.recSt r = 3) ∧ s.fld (ACQ_R_STAT_SEG r) = g) →
    ∃ t, exec (.segmentFree m r g) s = .next t ∧ tbit (t.fld (ACQ_R_STAT_CLOSED r)) g = false ∧ t.mem = s.mem ∧ others r s t ∧
      (s.recSt r ≠ 5 → OnlyRegs [ACQ_R_STAT_CLOSED r] s t ∧
        ∀ i : Fin 15, i.val ≠ g.val → tbit (t.fld (ACQ_R_STAT_CLOSED r)) i = tbit (s.fld (ACQ_R_STAT_CLOSED r)) i) ∧
      (s.recSt r = 5 → g.val < s.fld (ACQ_R_CFG_NSEG r) → t.recSt r = 1)) ∧
  (∀ (s : State) (m : Master), s.op ≠ 3 → (∀ r : Fin 4, s.recSt r = 0) → ∃ t, exec (.retentionEnter m) s = .next t ∧
    t = { s with regs := t.regs, acq := { s.acq with wake := none } } ∧ SameRegs [ACQ_CTRL_RET, ACQ_STAT_IN_RET, ACQ_STAT_AWAKE] s t ∧
    t.fld ACQ_CTRL_RET = 1 ∧ (s.caverInAcq = false → t.fld ACQ_STAT_IN_RET = 1 ∧ t.fld ACQ_STAT_AWAKE = 0) ∧
    (s.caverInAcq = true → t.fld ACQ_STAT_IN_RET = s.fld ACQ_STAT_IN_RET ∧ t.fld ACQ_STAT_AWAKE = s.fld ACQ_STAT_AWAKE)) ∧
  (∀ (s : State) (m : Master) (r : Fin 4), s.op ≠ 3 → s.recSt r ≠ 0 → ∃ t, exec (.retentionEnter m) s = .next t ∧
    t = { s with regs := t.regs, sump := t.sump } ∧ SameRegs msgFlds s t ∧ Told 0x3C5 0x15 0 s t) ∧
  (∀ (s : State) (m : Master), ∃ t, exec (.retentionWake m) s = .next t ∧ t.fld ACQ_CTRL_RET = 0 ∧
    (s.bit ACQ_STAT_AWAKE = true → OnlyRegs [ACQ_CTRL_RET] s t) ∧
    (s.bit ACQ_STAT_AWAKE = false → s.acq.wake = none → SameRegs [ACQ_CTRL_RET, ACQ_STAT_IN_RET] s t ∧
      t = { s with regs := t.regs, acq := { s.acq with wake := some s.now } } ∧ t.fld ACQ_STAT_IN_RET = 0)) ∧
  (∀ (s : State) (k : Nat), s.acq.wake = some k → k + 20 ≤ s.now → ∃ t, exec .retentionAwake s = .next t ∧
    t = { s with regs := t.regs, acq := { s.acq with wake := none } } ∧ SameRegs [ACQ_STAT_AWAKE] s t ∧ t.fld ACQ_STAT_AWAKE = 1) ∧
  (∀ s : State, (s.acq.wake = none ∨ ∃ k, s.acq.wake = some k ∧ s.now < k + 20) → exec .retentionAwake s = .next s)

/-- O44. For every state, where a clause reads the memory of a unit: for every state whose stored words have no inverted bits and whose checkers are not armed. A signed record goes to its ring slot, body, the 1,280 signature bytes and zeros before the commit word, with no other byte of memory changed, and is offered on SP2 at once in two RECORD frames; an unacknowledged record of the slot is told as overwritten; nothing is committed while MRAM writes are held back or nothing is signed. SIGN_FAIL sets SIGN_PEND once the oldest body has waited more than 60 s and tells once per 60 s. A record on offer is dropped when acknowledged or overwritten, sent again after its period, and otherwise left. An accepted RECORD_ACK sets NRG_ACK and ends the offer of every record up to it; an accepted RECORD_REQ is answered with the record or with NOT_HELD; an accepted ATTEST_REQ waits in the last class or is answered ATTEST_FAIL, with code 2 in RESET and LOAD and with 5 when four requests wait. ENERGY_CLEAR with GO, its key and in PARKED clears both energy registers, the residue and the SAT flags, writes a journal entry and tells; with another key, and with GO in another state, it tells BAD_VALUE and changes nothing (log entry 85); with the key and without GO it has no effect. That a waiting ATTEST_REQ is taken up at once by a free unit that can sign follows R371; the inner layout of the key store that it reads is the model's (log entry 62). -/
def Obligations.RecordsJournalAndMeteringFrames : Prop :=
  let sent (s t : State) : Prop := s.bit (STN_CTRL_EN 2) = true → s.bit (STN_STAT_LINK 2) = true → ((t.stnP 2).tx.take 2).map (·.type) = [0x10, 0x10]
  let last (ty : Nat) (body : List Byte) (t : State) : Prop := ((t.stnP 2).tx.head?.map fun x => (x.type, x.body)) = some (ty, body)
  let held (q : Nat) (s : State) : Prop := (s.ringRseq q).1 = some q
  (∀ s : State, (s.mramHeld = true ∨ s.nrg.signed = []) → exec .recordCommit s = .next s) ∧
  (∀ (s : State) (rseq : Nat) (ws : List (BitVec 64)) (sig : List Byte) (rest : List (Nat × List (BitVec 64) × List Byte)), s.mramHeld = false → s.cleanMem →
    s.nrg.signed = (rseq, ws, sig) :: rest → ws.length = 32 → sig.length = 1280 → rseq < 2 ^ 32 →
    let a := 0x40200000 + 2048 * (rseq % 1024)
    ∃ t, exec .recordCommit s = .next t ∧ SameMemBut a 2048 s t ∧ t.nrg = { s.nrg with signed := rest, offered := t.nrg.offered } ∧
      (∀ i : Fin 32, t.rd (a + 8 * i) 8 = (ws.getD i 0).toNat) ∧ (∀ i : Fin 1280, t.byteAt (a + 0x100 + i) = sig.getD i 0) ∧ t.rd (a + 0x600) 504 = 0 ∧
      t.rd (a + 0x7F8) 8 = Nat.xor rseq 0xC0DE000000000000 ∧ held rseq t ∧ mget 0 t.nrg.offered rseq = s.now ∧ sent s t ∧
      (∀ q, (s.ringRseq rseq).1 = some q → s.recAcked q = false → Told 0x3CA 0x1E 0 s t) ∧
      t.cells = s.cells ∧ t.sec = s.sec ∧ t.op = s.op) ∧
  (∀ s : State, (s.nrg.queue = [] ∨ ∃ b l, s.nrg.queue = b :: l ∧ s.now ≤ b.tick + 60000000) → exec .signFail s = .next s) ∧
  (∀ (s : State) (b : Body) (l : List Body), s.nrg.queue = b :: l → b.tick + 60000000 < s.now →
    ∃ t, exec .signFail s = .next t ∧ t.fld NRG_STAT_SIGN_PEND = 1 ∧ SameRegs (NRG_STAT_SIGN_PEND :: msgFlds) s t ∧ t.mem = s.mem ∧
      ((s.nrg.failAt = none ∨ ∃ x, s.nrg.failAt = some x ∧ x + 60000000 ≤ s.now) → Told 0x3CA 0x1C 0 s t ∧ t.nrg = { s.nrg with failAt := some s.now }) ∧
      (∀ x, s.nrg.failAt = some x → s.now < x + 60000000 → OnlyRegs [NRG_STAT_SIGN_PEND] s t)) ∧
  (∀ s : State, (s.nrg.offered = [] → exec .recordResend s = .next s) ∧
    (s.cleanMem → ∃ t, exec .recordResend s = .next t ∧ t = { s with regs := t.regs, nrg := { s.nrg with offered := t.nrg.offered }, stn := t.stn, fresh := t.fresh } ∧
    ∀ q k, s.nrg.offered = [(q, k)] →
      ((s.recAcked q = true ∨ ¬ held q s) → t = { s with nrg := { s.nrg with offered := [] } }) ∧
      (s.recAcked q = false → held q s → s.now < k + s.fld NRG_CFG_RESEND * 1000000 → t = s) ∧
      (s.recAcked q = false → held q s → k + s.fld NRG_CFG_RESEND * 1000000 ≤ s.now → t.nrg.offered = [(q, s.now)] ∧ sent s t))) ∧
  (∀ (s : State) (p : Fin 4) (f : StnFrame) (cls seq : Nat) (body : List Byte), s.cleanMem →
    ((s.stnCheck p f).2 = some (cls, 0x11, seq, body) → ∃ t, exec (.recordAck p f) s = .next t ∧ t.fld NRG_ACK = beNat body % 2 ^ 32 ∧ t.mem = s.mem ∧
      t.nrg = { s.nrg with acked := true, offered := s.nrg.offered.filter fun q => serialAfter 32 q.1 (beNat body % 2 ^ 32) }) ∧
    ((s.stnCheck p f).2 = some (cls, 0x12, seq, body) → ∃ t, exec (.recordReq p f) s = .next t ∧ t.nrg = s.nrg ∧ t.mem = s.mem ∧
      (held (beNat body) s → sent s t) ∧ (¬ held (beNat body) s → last 0x13 (beBytes 4 (beNat body)) t)) ∧
    ((s.stnCheck p f).2 = some (cls, 0x14, seq, body) → ∃ t, exec (.attestReq p f) s = .next t ∧ t.nrg = s.nrg ∧ SameMem s t ∧
      ((s.op = 0 ∨ s.op = 1) → last 0x16 (body ++ [2]) t ∧ t.sec = s.sec) ∧
      (2 ≤ s.op → 4 ≤ s.sec.wait.length → last 0x16 (body ++ [5]) t ∧ t.sec = s.sec) ∧
      (2 ≤ s.op → s.sec.wait.length < 4 → (s.secServing = true ∨ s.sec.imgWait = true ∨ s.canSign = false ∧ s.sec.job = none) →
        t.sec = { s.sec with wait := s.sec.wait ++ [⟨2, 0, 0, leNat body⟩] }) ∧
      (2 ≤ s.op → s.sec.wait = [] → s.nrg.queue = [] → s.sec.job = none → s.secServing = false → s.sec.imgWait = false → s.canSign = true → 8 ∉ s.mem.keyUe →
        t.sec.wait = [] ∧ ∃ ws, t.sec.cur = some (⟨2, 0, 0, leNat body⟩, ws) ∧ ws.length = 32))) ∧
  (∀ (s : State) (m : Master) (v : Word), wbits v.toNat NRG_CLR_GO = 0 → wbits v.toNat NRG_CLR_KEY = 0x7E81 → exec (.energyClear m v) s = .next s) ∧
  (∀ (s : State) (m : Master) (v : Word), (wbits v.toNat NRG_CLR_KEY ≠ 0x7E81 ∨ wbits v.toNat NRG_CLR_GO = 1 ∧ s.op ≠ 4) →
    ∃ t, exec (.energyClear m v) s = .next t ∧ t = { s with regs := t.regs, sump := t.sump } ∧ SameRegs msgFlds s t ∧ Told 0x3C8 0x03 0 s t) ∧
  (∀ (s : State) (m : Master) (v : Word), wbits v.toNat NRG_CLR_GO = 1 → wbits v.toNat NRG_CLR_KEY = 0x7E81 → s.op = 4 →
    let q := s.fld NRG_JSEQ
    ∃ t, exec (.energyClear m v) s = .next t ∧ t.energy NRG_IMP = 0 ∧ t.energy NRG_EXP = 0 ∧ t.fld NRG_STAT_SAT_IMP = 0 ∧ t.fld NRG_STAT_SAT_EXP = 0 ∧
      t.nrg = { s.nrg with res := 0, cleared := true } ∧ Told 0x3C8 0x1F 0 s t ∧ t.fld NRG_RSEQ = s.fld NRG_RSEQ ∧
      (s.mramHeld = false → q < 2 ^ 32 → t.fld NRG_JSEQ = (q + 1) % 2 ^ 32 ∧ SameMemBut (0x40000000 + 64 * (q % 64)) 64 s t ∧
        t.rd (0x40000000 + 64 * (q % 64)) 8 = 0x4A4E * 2 ^ 48 + 2 ^ 40 + q ∧ t.rd (0x40000000 + 64 * (q % 64) + 8) 32 = 0))

/-- O45. For every state, master and block offset. A command submitted while one is in progress only sets the offset; an offset that is not a multiple of 8 tells BAD_VALUE and leaves the offset that stands to the command (log entry 113). Otherwise BUSY rises; while the unit serves a signature or a reload, or the loader's verification holds it, the command waits (R371) and nothing else changes. Where the unit is free and its memory reads clean it takes the block at once, shows the operation, and: a wrong tag or length gives FORMAT, a state that the operation does not allow gives STATE, and for an operation that needs authorisation, and for no other (log entry 112), a key that is no unrevoked owner slot with the use, or a signature that does not verify, gives AUTH; an OTP operation that passes with VPP_OTP out of range gives OTP. ATTEST queues its nonce, or gives QUEUE_FULL with four waiting. At SECURITY_COMMAND_END a command whose result is known, or whose operation is then performed, ends with BUSY 0, DONE 1 and the result, every result but OK being told and counted, the nonce replaced only where the authorisation check was reached. OWN_PROG programs a free slot with digest and use and clears BLANK, and gives OTP for a programmed slot; OWN_REVOKE revokes its slot, and gives OTP when no other live slot has PROV use; ARB_ADV raises ARB to the SVN in force and never lowers it; PORT_KEY loads a key into the slot not selected for sending and writes its blob, waits while MRAM writes are held back, and gives STATE for the selected slot; GET_ID copies the identity public key and the certificate, or waits for the key; DBG_RAISE raises the debug policy and gives OTP for a value not higher. Nothing else changes. The layouts of block, store and security area and FORMAT for a response beyond the mailbox are the model's choices (DESIGN CHOICE, log entries 14 and 62); the two steps of a command and the two points marked above are its readings (log entries 83, 112, 113). -/
def Obligations.SecurityCommands : Prop :=
  let a (ofs : BitVec 16) : Nat := 0x3C000000 + ofs.toNat
  let w (i : Nat) (ofs : BitVec 16) (s : State) : Nat := s.rd (a ofs + 8 * i) 8
  let open_ (ofs : BitVec 16) (s : State) : Prop := s.bit SEC_CMD_STAT_BUSY = false ∧ ofs.toNat % 8 = 0
  let free (ofs : BitVec 16) (s : State) : Prop := open_ ofs s ∧ s.sec.cur = none ∧ s.sec.reload = false ∧ s.sec.imgWait = false ∧
    (s.canSign = false ∨ s.nrg.queue = []) ∧ s.cleanMem ∧ s.mem.mbox.shares = false
  let blk (op len : Nat) (ofs : BitVec 16) (s : State) : Prop := free ofs s ∧ bitsOf (w 0 ofs s) 63 48 = 0x5343 ∧
    bitsOf (w 0 ofs s) 47 40 = op ∧ w 0 ofs s % 2 ^ 32 = len ∧ ofs.toNat + len ≤ 65536
  let vpp (s : State) : Prop := 11 ∈ s.elec.low ∨ 11 ∈ s.elec.high
  let pk (len : Nat) (ofs : BitVec 16) (s : State) : List Byte := s.rdBytes (a ofs + len - 3073) 1793
  let good (len : Nat) (ofs : BitVec 16) (s : State) : Bool := Config.falconVerify (pk len ofs s)
    (leBytes 32 (shake256 (leBytes 8 s.serial ++ s.rdBytes (a ofs + 16) (len - 3089) ++ leBytes 32 (s.wide SEC_NONCE)) 256).toNat)
    (s.rdBytes (a ofs + len - 1280) 1280)
  let taken (op : Nat) (r : Option Nat) (auth : Bool) (stage : Nat) (ofs : BitVec 16) (s t : State) : Prop := t.fld SEC_CMD_STAT_BUSY = 1 ∧
    t.fld SEC_CMD_OFS = ofs.toNat ∧ t.fld SEC_CMD_STAT_OP = op ∧
    t.sec.job.map (fun j => (j.ofs, j.op, j.res, j.auth, j.stage)) = some (ofs.toNat, op, r, auth, stage) ∧
    SameRegs ([SEC_CMD_OFS, SEC_CMD_STAT_BUSY, SEC_CMD_STAT_OP] ++ (if auth = true then [SEC_CNT_VERIFY, SEC_CNT_OVF] else [])) s t ∧
    t = { s with regs := t.regs, sec := t.sec, mem := t.mem, fresh := t.fresh } ∧ t.mem = { s.mem with mbox := t.mem.mbox }
  let only (s t : State) : Prop := t.fresh = s.fresh ∧ t.sec = { s.sec with job := t.sec.job }
  let block (len : Nat) (ofs : BitVec 16) (s t : State) : Prop := t.sec.job.map (·.block) = some (s.rdBytes (a ofs) len)
  let cmds (m : Master) (ofs : BitVec 16) : List Instr :=
    [.ownProg m ofs, .ownRevoke m ofs, .arbAdv m ofs, .portKey m ofs, .attest m ofs, .getId m ofs, .dbgRaise m ofs]
  let authd : List (Nat × Nat × Nat × List Nat) := [(1, 3129, 2, [3, 4]), (2, 3097, 2, [3, 4]), (3, 3089, 0, [4]), (4, 3129, 2, [4, 5, 6, 7]), (7, 3097, 2, [4])]
  let rest (s : State) : Prop := s.sec.cur = none ∧ s.sec.reload = false ∧ (s.sec.imgWait = true ∨ s.canSign = false ∨ s.nrg.queue = [] ∧ s.sec.wait = []) ∧ s.cleanMem
  let ended (op r : Nat) (auth : Bool) (fs : List Fld) (s t : State) : Prop := t.fld SEC_CMD_STAT_BUSY = 0 ∧ t.fld SEC_CMD_STAT_DONE = 1 ∧
    t.fld SEC_CMD_STAT_RESULT = r % 16 ∧ t.fld SEC_CMD_STAT_OP = op % 256 ∧ tbit (t.fld SEQ_EVT) 10 = true ∧ t.sec = { s.sec with job := none, roots := t.sec.roots } ∧
    SameRegs ([SEC_CMD_STAT_BUSY, SEC_CMD_STAT_DONE, SEC_CMD_STAT_RESULT, SEC_CMD_STAT_OP, SEQ_EVT] ++ fs ++ (if r = 0 then [] else [SEC_CNT_DENIED, SEC_CNT_OVF] ++ msgFlds)
      ++ (if auth = true then (List.range 8).map SEC_NONCE else [])) s t ∧
    (r ≠ 0 → Told 0x3D1 0x23 (op * 2 ^ 24 + r * 2 ^ 20) s t ∧ t.mem = s.mem ∧ t.sec.roots = s.sec.roots ∧ (s.fld SEC_CNT_DENIED < 2 ^ 32 - 1 → t.fld SEC_CNT_DENIED = s.fld SEC_CNT_DENIED + 1))
  let run (op : Nat) (j : SecJob) (s : State) : Prop := s.sec.job = some j ∧ j.stage = 1 ∧ j.res = none ∧ j.op = op ∧ rest s
  let bw (j : SecJob) (i : Nat) : Nat := leNat ((j.block.drop (8 * i)).take 8)
  (∀ (s : State) (m : Master) (ofs : BitVec 16), ∀ c ∈ cmds m ofs,
    (s.bit SEC_CMD_STAT_BUSY = true → ofs.toNat % 8 = 0 → ∃ t, exec c s = .next t ∧ OnlyRegs [SEC_CMD_OFS] s t ∧ t.fld SEC_CMD_OFS = ofs.toNat) ∧
    (s.bit SEC_CMD_STAT_BUSY = true → ofs.toNat % 8 ≠ 0 → ∃ t, exec c s = .next t ∧ t = { s with regs := t.regs, sump := t.sump } ∧
      SameRegs msgFlds s t ∧ Told 0x3D0 0x03 0 s t) ∧
    (s.bit SEC_CMD_STAT_BUSY = false → ofs.toNat % 8 ≠ 0 → s.fld SEC_CMD_OFS % 8 = 0 → s.fld SEC_CMD_OFS < 65536 →
      ∃ t u, exec c s = .next t ∧ exec (.getId m (BitVec.ofNat 16 (s.fld SEC_CMD_OFS))) s = .next u ∧ Told 0x3D0 0x03 0 s t ∧
        t.fld SEC_CMD_OFS = s.fld SEC_CMD_OFS ∧ t.sec = u.sec ∧ t.mem = u.mem ∧ t.nrg = u.nrg) ∧
    (open_ ofs s → (s.sec.cur.isSome = true ∨ s.sec.reload = true ∨ s.sec.imgWait = true) → ∃ t, exec c s = .next t ∧ t.fld SEC_CMD_STAT_BUSY = 1 ∧ t.fld SEC_CMD_OFS = ofs.toNat ∧
      SameRegs [SEC_CMD_OFS, SEC_CMD_STAT_BUSY] s t ∧ t = { s with regs := t.regs, sec := { s.sec with job := some { ofs := ofs.toNat } } }) ∧
    (free ofs s → bitsOf (w 0 ofs s) 63 48 ≠ 0x5343 → ∃ t, exec c s = .next t ∧ taken (bitsOf (w 0 ofs s) 47 40) (some 1) false 1 ofs s t ∧ only s t) ∧
    (∀ op len u st, ((op, len, u, st) ∈ authd ∧ (op = 1 → s.bit SEC_STAT_BLANK = false)) →
      (blk op (len + 1) ofs s → ∃ t, exec c s = .next t ∧ taken op (some 1) false 1 ofs s t ∧ only s t) ∧
      (blk op len ofs s → s.op ∉ st → ∃ t, exec c s = .next t ∧ taken op (some 2) false 1 ofs s t ∧ only s t) ∧
      (blk op len ofs s → s.op ∈ st → s.ownerBut (if op = 2 then w 2 ofs s % 4 else 4) (pk len ofs s) u = none →
        ∃ t, exec c s = .next t ∧ taken op (some 3) true 1 ofs s t ∧ only s t) ∧
      (blk op len ofs s → s.op ∈ st → ∀ i, s.ownerBut (if op = 2 then w 2 ofs s % 4 else 4) (pk len ofs s) u = some i → ∃ t, exec c s = .next t ∧ only s t ∧ block len ofs s t ∧
        (good len ofs s = false → taken op (some 3) true 1 ofs s t) ∧ (good len ofs s = true → op ≠ 4 → vpp s → taken op (some 4) true 1 ofs s t) ∧
        (good len ofs s = true → (op = 4 ∨ ¬vpp s) → taken op none true 1 ofs s t))) ∧
    (blk 1 56 ofs s → s.bit SEC_STAT_BLANK = true → (s.op = 3 ∨ s.op = 4) → ∃ t, exec c s = .next t ∧ only s t ∧ block 56 ofs s t ∧
      (vpp s → taken 1 (some 4) false 1 ofs s t) ∧ (¬vpp s → taken 1 none false 1 ofs s t)) ∧
    (blk 6 16 ofs s → s.op ≠ 0 → ∃ t, exec c s = .next t ∧ only s t ∧
      (65536 < w 1 ofs s % 65536 + (1793 + 3081) → taken 6 (some 1) false 1 ofs s t) ∧
      (w 1 ofs s % 65536 + (1793 + 3081) ≤ 65536 → taken 6 none false 1 ofs s t ∧ block 16 ofs s t)) ∧
    (blk 5 48 ofs s → 2 ≤ s.op → w 1 ofs s % 65536 + 2048 ≤ 65536 →
      (4 ≤ s.sec.wait.length → ∃ t, exec c s = .next t ∧ taken 5 (some 5) false 1 ofs s t ∧ only s t) ∧
      (s.sec.wait.length < 4 → s.canSign = false → ∃ t, exec c s = .next t ∧ taken 5 none false 2 ofs s t ∧
        t.sec = { s.sec with job := t.sec.job, wait := s.sec.wait ++ [⟨1, w 1 ofs s % 65536, 0, s.rd (a ofs + 16) 32⟩] }) ∧
      (s.sec.wait = [] → s.canSign = true → 8 ∉ s.mem.keyUe → ∃ t ws, exec c s = .next t ∧ t.fld SEC_CMD_STAT_BUSY = 1 ∧ t.sec.wait = [] ∧
        t.sec.cur = some (⟨1, w 1 ofs s % 65536, 0, s.rd (a ofs + 16) 32⟩, ws) ∧ ws.length = 32))) ∧
  (∀ s : State, (s.sec.job = none ∨ ∃ j, s.sec.job = some j ∧ j.stage ≠ 1) → exec .securityCommandEnd s = .next s) ∧
  (∀ (s : State) (j : SecJob) (r : Nat), s.sec.job = some j → j.stage = 1 → j.res = some r → rest s → ∃ t, exec .securityCommandEnd s = .next t ∧
    ended j.op r j.auth [] s t ∧ t.mem = s.mem ∧ t.sec.roots = s.sec.roots) ∧
  (∀ (s : State) (j : SecJob), run 1 j s →
    let i := bw j 2 % 4
    ∃ t, exec .securityCommandEnd s = .next t ∧ t.mem = s.mem ∧ (tbit (s.fld SEC_OWN_PROG) i = true → ended 1 4 j.auth [] s t) ∧
      (tbit (s.fld SEC_OWN_PROG) i = false → ended 1 0 j.auth [SEC_OWN_PROG, SEC_OWN_USE, SEC_STAT_BLANK] s t ∧ tbit (t.fld SEC_OWN_PROG) i = true ∧ t.fld SEC_STAT_BLANK = 0 ∧
        t.ownerRoot i = leNat ((j.block.drop 24).take 32) ∧
        (∀ b : Fin 3, t.ownerUse i b = (s.ownerUse i b || tbit (bw j 2 / 256) b)) ∧
        ∀ k : Fin 4, k.val ≠ i → tbit (t.fld SEC_OWN_PROG) k = tbit (s.fld SEC_OWN_PROG) k ∧ t.ownerRoot k = s.ownerRoot k ∧ ∀ b : Fin 3, t.ownerUse k b = s.ownerUse k b)) ∧
  (∀ (s : State) (j : SecJob), run 2 j s →
    let i := bw j 2 % 4
    let left : Prop := ∃ k : Fin 4, k.val ≠ i ∧ s.ownerLive k = true ∧ s.ownerUse k 2 = true
    ∃ t, exec .securityCommandEnd s = .next t ∧ t.mem = s.mem ∧ t.sec.roots = s.sec.roots ∧ (¬left → ended 2 4 j.auth [] s t) ∧
      (left → ended 2 0 j.auth [SEC_OWN_REVOKED] s t ∧ ∀ k : Fin 4, tbit (t.fld SEC_OWN_REVOKED) k = (tbit (s.fld SEC_OWN_REVOKED) k || k.val == i))) ∧
  (∀ (s : State) (j : SecJob), run 3 j s → ∃ t, exec .securityCommandEnd s = .next t ∧ t.mem = s.mem ∧ t.sec.roots = s.sec.roots ∧ ended 3 0 j.auth [SEC_STAT_ARB] s t ∧
    t.fld SEC_STAT_ARB = max (s.fld SEC_STAT_ARB) (s.fld SEC_STAT_SVN)) ∧
  (∀ (s : State) (j : SecJob), run 4 j s → s.mramHeld = true → exec .securityCommandEnd s = .next s) ∧
  (∀ (s : State) (j : SecJob), run 4 j s → s.mramHeld = false →
    let p := bw j 2 % 4
    let slot := bw j 2 / 256 % 2
    let n := 2 * p + slot
    let id := if slot = 0 then SEC_PKID_ID0 p else SEC_PKID_ID1 p
    let key := (j.block.drop 24).take 32
    let clash := tbit (s.fld SEC_PKEY_TX) p = (slot == 1)
    ∃ t, exec .securityCommandEnd s = .next t ∧ t.sec.roots = s.sec.roots ∧ (clash → ended 4 2 j.auth [] s t) ∧
      (¬clash → key.length = 32 → ended 4 0 j.auth [SEC_PKEY_VALID, id] s t ∧ tbit (t.fld SEC_PKEY_VALID) n = true ∧ t.fld id = bw j 2 / 65536 % 65536 ∧
        t.rd (keyAddr n) 32 = leNat key ∧ (t.openBlob (portBlobAddr n) 40).1 = some (leBytes 8 (bw j 2 / 65536 % 65536) ++ key) ∧ t.mem.keyUe = s.mem.keyUe.filter (· != n) ∧
        ∀ b, (b < keyAddr n ∨ keyAddr n + 32 ≤ b) → (b < portBlobAddr n ∨ portBlobAddr n + 72 ≤ b) → t.byteAt b = s.byteAt b)) ∧
  (∀ (s : State) (j : SecJob), run 6 j s → (s.bit SEC_STAT_READY = false ∨ 8 ∈ s.mem.keyUe) →
    exec .securityCommandEnd s = .next { s with sec := { s.sec with job := some { j with stage := 0 } } }) ∧
  (∀ (s : State) (j : SecJob), run 6 j s → s.bit SEC_STAT_READY = true → 8 ∉ s.mem.keyUe → s.mem.mbox.shares = false →
    let b := 0x3C000000 + bw j 1 % 65536
    ∃ t, exec .securityCommandEnd s = .next t ∧ ended 6 0 j.auth [] s t ∧ SameMemBut b (1793 + 3081) s t ∧
      (∀ i, i < 1793 → t.byteAt (b + i) = s.byteAt (publicAddr + i)) ∧ (∀ i, i < 3081 → t.byteAt (b + 1793 + i) = s.byteAt (certAddr + i))) ∧
  (∀ (s : State) (j : SecJob), run 7 j s →
    let v := bw j 2 % 4
    let up := s.fld SEC_STAT_DBG_POLICY < v ∧ v ≠ 3
    ∃ t, exec .securityCommandEnd s = .next t ∧ t.mem = s.mem ∧ t.sec.roots = s.sec.roots ∧ (¬up → ended 7 4 j.auth [] s t) ∧
      (up → ended 7 0 j.auth [SEC_STAT_DBG_POLICY] s t ∧ t.fld SEC_STAT_DBG_POLICY = v))

/-- O46. For every state, and where a clause reads the memory of the unit for every state whose stored words have no inverted bits and whose checkers are not armed. A completed signature is counted, made with the secret key in the key store and the 256-byte body, and goes to its requester: a settlement record leaves the queue signed, an attestation by command stands in the mailbox with body, 1,280 signature bytes and zeros and its command is OK, one over SP2 is sent in two ATTEST_RSP frames, a sequencer body stands at its address likewise with its event; with nothing in progress and nothing waiting SIGNATURE_DONE has no effect. ENT_FAIL clears ENT_OK, re-queues the signature in progress and tells once per episode; recovery sets ENT_OK. ID_REGEN, where regeneration is in progress and MRAM writes are not held back, rewrites the blob, puts the pair that comes from DEV_SEED into the key store, sets READY and the digest of the public key and tells. An uncorrectable key store word counts and tells ECC_UE, makes its key unusable and holds requests until the reload is done; the reload waits for the request in progress, then restores every slot that has a blob with a good tag, empties the others and unwraps the identity again. A reserved level in DBG_AUTH tells BAD_VALUE (from a source that is the model's choice, log entry 8); under policy 1, GO outside the back-off opens the session at its level when an unrevoked slot with debug use signed the challenge in force, and otherwise fails, tells and starts the back-off; every other write has no effect but that it is a debug access. A read of the challenge draws fresh values, which the key store holds. Policy 2 refuses both with BAD_ACCESS. A session ends when TO minutes passed without an access, and the back-off ends after 1 s. Where keys, blobs and the challenge stand, and which word belongs to which key, is the model's layout (DESIGN CHOICE, log entry 62). -/
def Obligations.SignaturesKeysAndDebugSessions : Prop :=
  let has (a : Nat) (l : List Byte) (t : State) : Prop := ∀ i, i < l.length → t.byteAt (a + i) = l.getD i 0
  let touched (s : State) : State := { s with sec := { s.sec with dbgTick := s.now } }
  (∀ s : State, s.sec.cur = none → s.nrg.queue = [] → s.sec.wait = [] → (∀ j, s.sec.job = some j → j.stage ≠ 0) → exec .signatureDone s = .next s) ∧
  (∀ (s : State) (r : SigReq) (ws : List (BitVec 64)), s.sec.cur = some (r, ws) → ws.length = 32 → s.cleanMem → s.mem.mbox.shares = false →
    let sig := sigBytes s.secretKey s.fresh ws
    let whole (a : Nat) (t : State) : Prop := SameMemBut a 2048 s t ∧ (∀ i : Fin 32, t.rd (a + 8 * i) 8 = (ws.getD i 0).toNat) ∧ has (a + 256) sig t ∧ t.rd (a + 1536) 512 = 0
    sig.length = 1280 ∧ ∃ t, exec .signatureDone s = .next t ∧ t.cells = s.cells ∧ t.ctl = s.ctl ∧ t.op = s.op ∧
      (s.fld SEC_CNT_SIGN < 2 ^ 32 - 1 → t.fld SEC_CNT_SIGN = s.fld SEC_CNT_SIGN + 1) ∧
      (r.kind = 0 → SameMem s t ∧ t.nrg = { s.nrg with queue := s.nrg.queue.filter (fun b => b.rseq != r.arg), signed := s.nrg.signed ++ [(r.arg, ws, sig)] } ∧
        t.fld NRG_STAT_QUEUE = t.nrg.queue.length % 32) ∧
      (r.kind = 1 → whole (0x3C000000 + r.arg) t ∧ t.nrg = s.nrg ∧ ∀ j, s.sec.job = some j → t.sec = { s.sec with cur := none, job := some { j with res := some 0, stage := 1 } }) ∧
      (r.kind = 2 → SameMem s t ∧ t.nrg = s.nrg ∧ (s.bit (STN_CTRL_EN 2) = true → s.bit (STN_STAT_LINK 2) = true → ((t.stnP 2).tx.take 2).map (·.type) = [0x15, 0x15])) ∧
      (r.kind = 3 → whole r.arg2 t ∧ t.nrg = s.nrg ∧ t.fld SEQ_SIGN_STAT_RESULT = 0 ∧ tbit (t.fld SEQ_EVT) 9 = true ∧
        (s.nrg.queue = [] → s.sec.wait = [] → s.sec.job = none → t.fld SEQ_SIGN_STAT_STATE = 3 ∧ t.sec.cur = none))) ∧
  (∀ s : State, ∃ t, exec .entFail s = .next t ∧ t = { s with regs := t.regs, sec := t.sec, sump := t.sump } ∧
    SameRegs (SEC_STAT_ENT_OK :: SEQ_SIGN_STAT_STATE :: msgFlds) s t ∧ t.fld SEC_STAT_ENT_OK = 0 ∧
    t.sec = { s.sec with cur := none, wait := t.sec.wait, entFail := true } ∧ t.canSign = false ∧
    (∀ r ws, s.sec.cur = some (r, ws) → t.sec.wait = (if r.kind = 0 then s.sec.wait else r :: s.sec.wait) ∧
      t.fld SEQ_SIGN_STAT_STATE = if r.kind = 3 then 1 else s.fld SEQ_SIGN_STAT_STATE) ∧
    (s.sec.cur = none → t.sec.wait = s.sec.wait ∧ t.fld SEQ_SIGN_STAT_STATE = s.fld SEQ_SIGN_STAT_STATE) ∧
    (s.sec.entFail = false → Told 0x3D2 0x25 0 s t) ∧ (s.sec.entFail = true → t.sump = s.sump)) ∧
  (∀ s : State, ∃ t, exec .entropyRecovery s = .next t ∧ t.fld SEC_STAT_ENT_OK = 1 ∧ t.sec.entFail = false ∧ t.mem.bytes = s.mem.bytes ∧
    (s.nrg.queue = [] → s.sec.wait = [] → s.sec.job = none → t.mem = s.mem ∧ SameRegs [SEC_STAT_ENT_OK] s t ∧ t.sec = { s.sec with entFail := false })) ∧
  (∀ s : State, (s.sec.regen = false ∨ s.mramHeld = true) → exec .idRegen s = .next s) ∧
  (∀ s : State, s.sec.regen = true → s.mramHeld = false → s.cleanMem → ∃ t, exec .idRegen s = .next t ∧ t.fld SEC_STAT_READY = 1 ∧ t.sec.regen = false ∧
    seedSecret.length = 2305 ∧ has (keyAddr 8) seedSecret t ∧ has publicAddr (publicOf seedSecret) t ∧ (t.openBlob idBlobAddr 2305).1 = some seedSecret ∧
    (∀ b, (b < idBlobAddr ∨ idBlobAddr + 2337 ≤ b) → b < 0xFFFF0000 → t.byteAt b = s.byteAt b) ∧ t.mem.keyUe = s.mem.keyUe.filter (· != 8) ∧
    t.wide SEC_IDH = (shake256 (publicOf seedSecret) 256).toNat ∧ Told 0x3D2 0x24 0 s t) ∧
  (∀ (s : State) (w : Fin 8192), ∃ t, exec (.keyStoreReload w) s = .next t ∧
    t = { s with regs := t.regs, sump := t.sump, mem := { s.mem with keyUe := t.mem.keyUe }, sec := { s.sec with reload := true } } ∧
    SameRegs ([MEM_CNT_UE, MEM_CNT_OVF] ++ msgFlds) s t ∧ (s.fld MEM_CNT_UE < 2 ^ 32 - 1 → t.fld MEM_CNT_UE = s.fld MEM_CNT_UE + 1) ∧
    Told 0x0C2 0x11 (0xFFFF0000 + 8 * w) s t ∧ t.secServing = true ∧
    let n := if w.val < 1024 then some 8 else if w.val < 1056 then some ((w.val - 1024) / 4) else if 1536 ≤ w.val ∧ w.val < 1540 then some 9 else none
    (∀ k, k ∈ t.mem.keyUe ↔ k ∈ s.mem.keyUe ∨ n = some k) ∧ (n = some 8 → t.signKey.1 = false) ∧
      (∀ k, n = some k → k < 8 → (t.portKey (k / 2) (k % 2)).1 = none)) ∧
  (∀ (s : State) (ok : BitVec 8), (s.sec.reload = false ∨ s.sec.cur.isSome = true ∨ ∃ j, s.sec.job = some j ∧ j.stage = 1) → exec (.keyStoreReloadDone ok) s = .next s) ∧
  (∀ (s : State) (ok : BitVec 8), s.sec.reload = true → s.sec.cur = none → (∀ j, s.sec.job = some j → j.stage ≠ 1) → s.cleanMem →
    ∃ t, exec (.keyStoreReloadDone ok) s = .next t ∧ t.fld SEC_STAT_KEYS_LOADED = 1 ∧
    t.mem.keyUe = [] ∧ t.sec.reload = false ∧ t.sec.chal = false ∧ t.sec.roots = s.sec.roots ∧ (∀ b, b < 0xFFFF0000 → t.byteAt b = s.byteAt b) ∧
    (s.sec.regen = false → (∀ sk, (s.openBlob idBlobAddr 2305).1 = some sk → t.fld SEC_STAT_READY = 1 ∧ t.sec.regen = false ∧ has (keyAddr 8) sk t) ∧
      ((s.openBlob idBlobAddr 2305).1 = none → t.fld SEC_STAT_READY = 0 ∧ t.sec.regen = true)) ∧
    ∀ n : Fin 8,
      (s.rd (portBlobAddr n) 72 = 0 → tbit (t.fld SEC_PKEY_VALID) n = false) ∧
      (s.rd (portBlobAddr n) 72 ≠ 0 → ∀ l, (s.openBlob (portBlobAddr n) 40).1 = some l → ok.getLsbD n = true →
        tbit (t.fld SEC_PKEY_VALID) n = true ∧ (t.portKey (n / 2) (n % 2)).1 = some (l.drop 8) ∧
          t.fld (if n.val % 2 = 0 then SEC_PKID_ID0 (n / 2) else SEC_PKID_ID1 (n / 2)) = leNat (l.take 2)) ∧
      (s.rd (portBlobAddr n) 72 ≠ 0 → ((s.openBlob (portBlobAddr n) 40).1 = none ∨ ok.getLsbD n = false) →
        tbit (t.fld SEC_PKEY_VALID) n = false ∧ (t.portKey (n / 2) (n % 2)).1 = none ∧ Told 0x3D2 0x26 0 s t)) ∧
  (∀ (s : State) (m : Master) (v : Word), s.fld SEC_STAT_DBG_POLICY < 2 → (wbits v.toNat DBG_AUTH_LVL = 0 ∨ wbits v.toNat DBG_AUTH_LVL = 3) →
    ∃ t, exec (.debugAuth m v) s = .next t ∧ t = { touched s with regs := t.regs, sump := t.sump } ∧ SameRegs msgFlds s t ∧ Told (blockSrc 0xF8004) 0x03 0 s t) ∧
  (∀ (s : State) (m : Master) (v : Word), (wbits v.toNat DBG_AUTH_LVL = 1 ∨ wbits v.toNat DBG_AUTH_LVL = 2) →
    ((wbits v.toNat DBG_AUTH_GO = 0 ∨ s.bit DBG_SESS_WAIT = true ∨ s.fld SEC_STAT_DBG_POLICY = 0) → s.fld SEC_STAT_DBG_POLICY < 2 → exec (.debugAuth m v) s = .next (touched s)) ∧
    (wbits v.toNat DBG_AUTH_GO = 1 → s.bit DBG_SESS_WAIT = false → s.fld SEC_STAT_DBG_POLICY = 1 → s.cleanMem →
      let pk := s.authBytes 0 1793
      let good := s.sec.chal && !s.mem.keyUe.contains 9 && (s.ownerOf pk 1).isSome && Config.falconVerify pk
        (leBytes 32 (shake256 (leBytes 8 s.serial ++ s.rdBytes (keyAddr 9) 32 ++ leBytes 1 (wbits v.toNat DBG_AUTH_LVL)) 256).toNat) (s.authBytes 1793 1280)
      ∃ t, exec (.debugAuth m v) s = .next t ∧ t.mem = s.mem ∧ t.seq = s.seq ∧
        (good = true → t.fld SEC_STAT_DBG_LEVEL = wbits v.toNat DBG_AUTH_LVL ∧ t.dbgLevel = wbits v.toNat DBG_AUTH_LVL ∧ t.sec = (touched s).sec ∧
          SameRegs [SEC_STAT_DBG_LEVEL, SEC_CNT_VERIFY, SEC_CNT_OVF] s t) ∧
        (good = false → t.fld DBG_SESS_FAIL = 1 ∧ t.fld DBG_SESS_WAIT = 1 ∧ Told 0x3D3 0x27 0 s t ∧ t.sec = { (touched s).sec with backAt := s.now } ∧
          SameRegs ([DBG_SESS_FAIL, DBG_SESS_WAIT, SEC_CNT_DENIED, SEC_CNT_VERIFY, SEC_CNT_OVF] ++ msgFlds) s t))) ∧
  (∀ (s : State) (m : Master) (v : Word), 2 ≤ s.fld SEC_STAT_DBG_POLICY → ∀ c : Instr, c = .debugAuth m v ∨ c = .challengeRead m →
    ∃ t, exec c s = .next t ∧ t = { s with regs := t.regs, sump := t.sump } ∧ SameRegs msgFlds s t ∧ Told 0x0F0 0x01 0 s t) ∧
  (∀ (s : State) (m : Master), s.fld SEC_STAT_DBG_POLICY < 2 → ∃ t, exec (.challengeRead m) s = .next t ∧
    t = { s with regs := t.regs, fresh := s.fresh + 1, mem := { s.mem with bytes := t.mem.bytes, err := t.mem.err, keyUe := s.mem.keyUe.filter (· != 9) }, sec := { (touched s).sec with chal := true } } ∧
    SameRegs ((List.range 8).map DBG_CHAL) s t ∧ t.wide DBG_CHAL = (Config.freeValue s.fresh).toNat % 2 ^ 256 ∧
    SameMemBut (keyAddr 9) 32 s t ∧ t.rd (keyAddr 9) 32 = (Config.freeValue s.fresh).toNat % 2 ^ 256) ∧
  (∀ s : State, (s.fld SEC_STAT_DBG_LEVEL = 0 ∨ s.now < s.sec.dbgTick + s.fld SEC_DBG_TO * 60000000) → exec .debugSessionTimeout s = .next s) ∧
  (∀ s : State, s.fld SEC_STAT_DBG_LEVEL ≠ 0 → s.sec.dbgTick + s.fld SEC_DBG_TO * 60000000 ≤ s.now → ∃ t, exec .debugSessionTimeout s = .next t ∧
    t.fld SEC_STAT_DBG_LEVEL = 0 ∧ t.seq.halt = false ∧ t.fld DBG_PIPE_HALTED = 0 ∧ t.fld DBG_PIPE_LEFT = 0 ∧ t.mem = s.mem ∧ t.sec = s.sec ∧ t.sump = s.sump) ∧
  (∀ s : State, s.now < s.sec.backAt + 1000000 → exec .debugBackoffEnd s = .next s) ∧
  (∀ s : State, s.sec.backAt + 1000000 ≤ s.now → ∃ t, exec .debugBackoffEnd s = .next t ∧ OnlyRegs [DBG_SESS_WAIT] s t ∧ t.fld DBG_SESS_WAIT = 0)

/-- O47. For every state, port and frame; where a clause reads a port key or the mailbox, for every state whose stored words have no inverted bits and whose checkers are not armed. A frame that fails a check changes only the port's counters, tokens and messages; on a port that is disabled or down it has no effect; one with a bad FCS counts as dropped; one of a sender outside the allowlist counts and is told. A frame that is delivered came from an allowed sender of its class with a good header, a tag made with the key that its KEYID names and a SEQ after the last of its class. A delivered SETPOINT whose slots the port owns in its class is staged and counted as delivered and one that names another slot counts as bad (after all checks of R393, the model's reading, log entries 84 and 117); neither changes memory. A delivered REQUEST goes to the port's receive ring with its class, SEQ and tick, advances WP, raises the event and is counted as delivered, or is dropped and counted as such when the ring is full. LINK_DOWN of a port that is up clears LINK, sets DOWN_SEEN and tells; LINK_UP of an enabled port with its clock, outside HOLD_FOR_HOST, sets LINK and forgets the SEQ values. STATUS is sent on its period with the tick, the boundary time and the chosen slots, to the partner of entry 0 of the allowlist and with a tag of the key that is chosen for sending; RESPONSE sends the oldest transmit entry and advances RP. C0_LATE is told once per run after TMO ticks, and the latency clear clears MAX alone. Messages of one kind are sent only when none of that kind was sent before. -/
def Obligations.StationFramesAndLinks : Prop :=
  let rx (p : Fin 4) (f : StnFrame) : List Instr := [.setpoint p f, .request p f, .recordAck p f, .recordReq p f, .attestReq p f]
  let fresh (p kind : Nat) (s : State) : Prop := mget 0 (s.stnP p).told kind = 0
  let onlyPort (p : Nat) (s t : State) : Prop := t = { s with regs := t.regs, stn := t.stn, sump := t.sump } ∧ ∀ q, q ≠ p → t.stnP q = s.stnP q
  (∀ (s : State) (p : Fin 4) (f : StnFrame), ∀ c ∈ rx p f,
    ((s.bit (STN_CTRL_EN p) = false ∨ s.bit (STN_STAT_LINK p) = false) → exec c s = .next s) ∧
    (s.bit (STN_CTRL_EN p) = true → s.bit (STN_STAT_LINK p) = true → f.fcsOk = false → ∃ t, exec c s = .next t ∧
      OnlyRegs [STN_CNT p 1, STN_CNT_OVF p] s t ∧ (s.fld (STN_CNT p 1) < 2 ^ 32 - 1 → t.fld (STN_CNT p 1) = s.fld (STN_CNT p 1) + 1)) ∧
    (∀ cls mac ip l, s.bit (STN_CTRL_EN p) = true → s.bit (STN_STAT_LINK p) = true → s.encap p f = .frame cls mac ip l → s.stnAllowed p cls mac ip = false →
      ∃ t, exec c s = .next t ∧ onlyPort p s t ∧ SameRegs ([STN_CNT p 2, STN_CNT_OVF p] ++ msgFlds) s t ∧ (t.stnP p).seqs = (s.stnP p).seqs ∧
        (s.fld (STN_CNT p 2) < 2 ^ 32 - 1 → t.fld (STN_CNT p 2) = s.fld (STN_CNT p 2) + 1) ∧ (fresh p 0x12 s → Told (0x1C1 + 16 * p) 0x12 mac s t)) ∧
    (s.cleanMem → (s.stnCheck p f).2 = none → ∃ t, exec c s = .next t ∧ onlyPort p s t ∧ (t.stnP p).seqs = (s.stnP p).seqs ∧ (t.stnP p).staged = (s.stnP p).staged)) ∧
  (∀ (s : State) (p : Fin 4) (f : StnFrame) (cls ty seq : Nat) (body : List Byte), (s.stnCheck p f).2 = some (cls, ty, seq, body) →
    f.fcsOk = true ∧ s.bit (STN_CTRL_EN p) = true ∧ s.bit (STN_STAT_LINK p) = true ∧ stnAccepts p cls ty = true ∧ stnLenOk cls ty body.length = true ∧
      (∃ mac ip l k, s.encap p f = .frame cls mac ip l ∧ s.stnAllowed p cls mac ip = true ∧ stnHeaderOk p cls l = true ∧
        (s.cleanMem → (s.keyNamed p (beNat ((l.drop 2).take 2))).1 = some k) ∧ stnTag k 0 (l.take (16 + body.length)) = beNat ((l.drop (16 + body.length)).take 16)) ∧
      (∀ q, (s.stnP p).seqs.find? (fun q => q.1 == cls) = some (cls, q) → serialAfter 32 seq q = true)) ∧
  (∀ (s : State) (p : Fin 4) (f : StnFrame) (cls seq : Nat) (body : List Byte), s.cleanMem → (s.stnCheck p f).2 = some (cls, 0x01, seq, body) →
    let ent : List (Nat × Int) := (List.range (body.length / 8)).map fun i => (beNat ((body.drop (8 * i)).take 2), sext (beNat (((body.drop (8 * i)).drop 4).take 4)) 32)
    ∃ t, exec (.setpoint p f) s = .next t ∧ onlyPort p s t ∧ mget 0 (t.stnP p).seqs cls = seq ∧
      ((∀ e ∈ ent, s.stnOwns p cls e.1 = true) → (t.stnP p).staged = (s.stnP p).staged ++ [⟨cls, f.age, ent, s.setpNext⟩] ∧
        (s.fld (STN_CNT p 0) < 2 ^ 32 - 1 → t.fld (STN_CNT p 0) = s.fld (STN_CNT p 0) + 1)) ∧
      ((∃ e ∈ ent, s.stnOwns p cls e.1 = false) → (t.stnP p).staged = (s.stnP p).staged ∧
        (s.fld (STN_CNT p 4) < 2 ^ 32 - 1 → t.fld (STN_CNT p 4) = s.fld (STN_CNT p 4) + 1))) ∧
  (∀ (s : State) (p : Fin 4) (f : StnFrame) (cls seq q : Nat) (body : List Byte), s.cleanMem → (s.stnCheck p f).2 = some (cls, 0x02, seq, body) → ringOf p = some q →
    let wp := s.fld (SEQ_RX_WP q)
    let a := 0x3C008000 + 0x1400 * q + 1040 * (wp % 4)
    ∃ t, exec (.request p f) s = .next t ∧ t.cells = s.cells ∧ t.ctl = s.ctl ∧
      (ringFull wp (s.fld (SEQ_RX_RP q)) = true → t.mem = s.mem ∧ t.fld (SEQ_RX_WP q) = wp ∧
        (s.fld (STN_CNT p 3) < 2 ^ 32 - 1 → t.fld (STN_CNT p 3) = s.fld (STN_CNT p 3) + 1)) ∧
      (ringFull wp (s.fld (SEQ_RX_RP q)) = false → t.fld (SEQ_RX_WP q) = (wp + 1) % 8 ∧ (s.fld (STN_CNT p 0) < 2 ^ 32 - 1 → t.fld (STN_CNT p 0) = s.fld (STN_CNT p 0) + 1) ∧ tbit (t.fld SEQ_EVT) (6 + q) = true ∧
        t.fld (SEQ_RX_RP q) = s.fld (SEQ_RX_RP q) ∧ SameMemBut a (16 + body.length) s t ∧ t.rd a 8 = body.length + cls * 65536 + seq * 2 ^ 32 ∧
        t.rd (a + 8) 8 = s.now % 2 ^ 64 ∧ ∀ (i : Nat) (h : i < body.length), t.byteAt (a + 16 + i) = body[i])) ∧
  (∀ (s : State) (p : Fin 4) (h : Bool), s.bit (STN_STAT_LINK p) = false → ∃ t, exec (.linkDown p h) s = .next t ∧ OnlyRegs [STN_STAT_HIBER p] s t ∧ t.fld (STN_STAT_HIBER p) = b2n h) ∧
  (∀ (s : State) (p : Fin 4) (h : Bool), s.bit (STN_STAT_LINK p) = true → ∃ t, exec (.linkDown p h) s = .next t ∧ onlyPort p s t ∧
    SameRegs ([STN_STAT_HIBER p, STN_STAT_LINK p, STN_STAT_DOWN_SEEN p] ++ msgFlds) s t ∧ t.fld (STN_STAT_LINK p) = 0 ∧ t.fld (STN_STAT_DOWN_SEEN p) = 1 ∧
    (t.stnP p).staged = (s.stnP p).staged ∧ (fresh p 0x10 s → Told (0x1C0 + 16 * p) 0x10 0 s t)) ∧
  (∀ (s : State) (p : Fin 4), (s.bit (STN_CTRL_EN p) = false ∨ 0x014 ∈ s.ctl.lost ∨ s.op = 3) → exec (.linkUp p) s = .next s) ∧
  (∀ (s : State) (p : Fin 4), s.bit (STN_CTRL_EN p) = true → 0x014 ∉ s.ctl.lost → s.op ≠ 3 → ∃ t, exec (.linkUp p) s = .next t ∧ onlyPort p s t ∧
    SameRegs [STN_STAT_LINK p, STN_STAT_HIBER p] s t ∧ t.fld (STN_STAT_LINK p) = 1 ∧ t.fld (STN_STAT_HIBER p) = 0 ∧ t.stnP p = { s.stnP p with seqs := [] }) ∧
  (∀ (s : State) (p : Fin 4), (s.fld (STN_TX_PER p) = 0 ∨ s.now % 65536 % s.fld (STN_TX_PER p) ≠ 0 ∨ s.bit (STN_CTRL_EN p) = false ∨ s.bit (STN_STAT_LINK p) = false) →
    exec (.status p) s = .next s) ∧
  (∀ (s : State) (p : Fin 4), s.cleanMem → s.fld (STN_TX_PER p) ≠ 0 → s.now % 65536 % s.fld (STN_TX_PER p) = 0 → s.bit (STN_CTRL_EN p) = true → s.bit (STN_STAT_LINK p) = true →
    ∃ t x, exec (.status p) s = .next t ∧ t.mem = s.mem ∧ (t.stnP p).tx.head? = some x ∧ x.type = 4 ∧ x.seq = (s.stnP p).txSeq ∧ x.pcp = s.fld (STN_VLAN_TX_PCP p) ∧
      x.body.length = 20 + 4 * min 16 (s.fld (STN_TX_NSEL p)) ∧ beNat (x.body.take 8) = s.now % 2 ^ 64 ∧ beNat ((x.body.drop 8).take 8) = s.ctl.btime % 2 ^ 64 ∧
      (t.stnP p).txSeq = ((s.stnP p).txSeq + 1) % 2 ^ 32 ∧ SameRegs [STN_CNT p 8, STN_CNT_OVF p] s t ∧
      (s.fld (STN_CNT p 8) < 2 ^ 32 - 1 → t.fld (STN_CNT p 8) = s.fld (STN_CNT p 8) + 1) ∧
      beNat (x.frame.take 6) = s.fld (STN_ALLOW_LO p 0) + s.fld (STN_ALLOW_HI_MAC p 0) * 2 ^ 32 ∧ 60 ≤ x.frame.length ∧
      let slot := s.fld SEC_PKEY_TX / 2 ^ p.val % 2
      x.kid = s.fld (if slot = 0 then SEC_PKID_ID0 p else SEC_PKID_ID1 p) ∧ ∀ k, (s.portKey p slot).1 = some k →
        x.tag = stnTag k 1 ([1, 4] ++ beBytes 2 x.kid ++ beBytes 4 x.seq ++ beBytes 2 x.body.length ++ List.replicate 6 0 ++ x.body)) ∧
  (∀ s : State, exec (.response 2) s = .next s) ∧
  (∀ (s : State) (p : Fin 4) (q : Nat), ringOf p = some q →
    ((s.fld (SEQ_TX_RP q) = s.fld (SEQ_TX_WP q) ∨ s.bit (STN_STAT_LINK p) = false ∨ s.bit (STN_CTRL_EN p) = false) → exec (.response p) s = .next s) ∧
    (s.cleanMem → s.mem.mbox.shares = false → s.fld (SEQ_TX_RP q) ≠ s.fld (SEQ_TX_WP q) → s.bit (STN_STAT_LINK p) = true → s.bit (STN_CTRL_EN p) = true →
      let a := 0x3C00C000 + 0x1400 * q + 1040 * (s.fld (SEQ_TX_RP q) % 4)
      ∃ t x, exec (.response p) s = .next t ∧ t.mem = { s.mem with mbox := t.mem.mbox } ∧ (t.stnP p).tx.head? = some x ∧ x.type = 3 ∧ x.seq = (s.stnP p).txSeq ∧
        x.body = s.rdBytes (a + 16) (min 1024 (s.rd a 8 % 65536)) ∧ t.fld (SEQ_TX_RP q) = (s.fld (SEQ_TX_RP q) + 1) % 8 ∧
        SameRegs [STN_CNT p 8, STN_CNT_OVF p, SEQ_TX_RP q] s t)) ∧
  (∀ (s : State) (p : Fin 4), (s.fld (STN_C0_TMO p) = 0 ∨ (s.stnP p).c0Sent = true ∨ s.bit (STN_CTRL_EN p) = false ∨ s.now < (s.stnP p).c0At + s.fld (STN_C0_TMO p)) →
    exec (.c0Late p) s = .next s) ∧
  (∀ (s : State) (p : Fin 4), s.fld (STN_C0_TMO p) ≠ 0 → (s.stnP p).c0Sent = false → s.bit (STN_CTRL_EN p) = true → (s.stnP p).c0At + s.fld (STN_C0_TMO p) ≤ s.now →
    ∃ t, exec (.c0Late p) s = .next t ∧ onlyPort p s t ∧ SameRegs msgFlds s t ∧ (t.stnP p).c0Sent = true ∧ (fresh p 0x15 s → Told (0x1C2 + 16 * p) 0x15 0 s t)) ∧
  (∀ (s : State) (m : Master) (p : Fin 4), ∃ t, exec (.c0LatClear m p) s = .next t ∧ OnlyRegs [STN_C0_LAT_MAX p] s t ∧ t.fld (STN_C0_LAT_MAX p) = 0)

/-- O48. For every state and candidate slot. A candidate read to its end with every section digest good goes to VERIFY; one with a digest that fails is told with code 5 and given up for the next candidate, which is read in the state that stands (log entry 16), or HOLD_FOR_HOST; with no candidate left the device goes to HOLD_FOR_HOST and tells. IMAGE_VERIFY waits while the security unit serves another request (R371). Where nothing else waits for the unit, it gives up a candidate without an unrevoked owner slot for its key, with a seal that does not verify or with an SVN below ARB (code 6, with the security unit's own message), with an illegal REG pair (code 7) or failing a content check (its code), naming the section and entry that offend first, and open detail bits where entries are missing (log entries 58 and 59); otherwise the device enters PARKED with the slot, generation, hash and SVN of the image shown, every active bank A, the sequencer at its reset vector, and FALLBACK told when the slot was not the first tried. A load request with another key tells BAD_VALUE and has no other effect; one with the key and without GO has none; with both it in HOLD_FOR_HOST reads both headers in LOAD and classes them, in PARKED and BENCH resets the chip with flash and MRAM kept, and in other states is refused. -/
def Obligations.ImagesAreReadVerifiedAndLoaded : Prop :=
  let digest (s : State) (x : Nat) (e : Section) : Nat := (shake256 (s.flBytes (slotBase x + e.ofs) e.len) 256).toNat
  let fail (x code kind det : Nat) (rest : List Nat) (s t : State) : Prop := t.fld (CFG_SLOT_STAT_CODE x) = code ∧
    Told (0x3D8 + x) kind (code * 2 ^ 24 + det) s t ∧ t.ld.cand = rest ∧ t.ld.flash = s.ld.flash ∧ t.ld.img = s.ld.img ∧
    (rest = [] → t.op = 3 ∧ t.fld CFG_STAT_SLOT = 0 ∧ Told 0x3DB 0x2E 0 s t) ∧ (rest ≠ [] → t.op = s.op ∧ t.ld.reading = true)
  (∀ s : State, (s.ld.reading = false ∨ (s.op ≠ 1 ∧ s.op ≠ 2)) → exec .imageReadComplete s = .next s) ∧
  (∀ s : State, s.ld.reading = true → (s.op = 1 ∨ s.op = 2) → s.ld.cand = [] → ∃ t, exec .imageReadComplete s = .next t ∧ t.op = 3 ∧
    t.fld CFG_STAT_SLOT = 0 ∧ t.ld.reading = false ∧ Told 0x3DB 0x2E 0 s t) ∧
  (∀ (s : State) (x : Fin 2) (rest : List Nat), s.ld.reading = true → (s.op = 1 ∨ s.op = 2) → s.ld.cand = (x.val + 1) :: rest →
    ((∀ e ∈ s.sections x, digest s x e = e.digest) → ∃ t, exec .imageReadComplete s = .next t ∧ t.op = 2 ∧ t.ld.reading = false ∧ t.ld.cand = s.ld.cand ∧
      t.ld.flash = s.ld.flash ∧ t.ld.img = s.ld.img) ∧
    ((∃ e ∈ s.sections x, digest s x e ≠ e.digest) → ∃ t, exec .imageReadComplete s = .next t ∧ fail x 5 0x29 0 rest s t)) ∧
  (∀ s : State, (s.op ≠ 2 ∨ s.ld.reading = true ∨ s.ld.cand = []) → exec .imageVerify s = .next s) ∧
  (∀ s : State, s.op = 2 → s.ld.reading = false → s.ld.cand ≠ [] → s.secServing = true → exec .imageVerify s = .next { s with sec := { s.sec with imgWait := true } }) ∧
  (∀ (s : State) (x : Fin 2) (rest : List Nat), s.op = 2 → s.ld.reading = false → s.ld.cand = (x.val + 1) :: rest → s.secServing = false →
    s.nrg.queue = [] → s.sec.wait = [] → s.sec.job = none →
    (∀ p ∈ s.ld.trial.held, heldReg p.1 = true) →
    let pk := s.flBytes (slotBase x + 0xC20) 1793
    let h := (shake256 (s.flBytes (slotBase x) 0x1400) 256).toNat
    let owner := if s.bit SEC_STAT_BLANK = true then none else s.ownerOf pk 0
    let good := Config.falconVerify pk (leBytes 32 h) (s.flBytes (slotBase x + 0x1400) 1280)
    ∃ t, exec .imageVerify s = .next t ∧
      (owner = none → fail x 6 0x2A 0 rest s t ∧ Told 0x3D0 0x20 0 s t) ∧
      (∀ o, owner = some o →
        (good = false → fail x 6 0x2A 0 rest s t ∧ Told 0x3D0 0x21 0 s t) ∧
        (good = true → s.imgSvn x < s.fld SEC_STAT_ARB → fail x 6 0x2A 0 rest s t ∧ Told 0x3D0 0x22 0 s t) ∧
        (good = true → s.fld SEC_STAT_ARB ≤ s.imgSvn x → ∀ k i, s.badPair x = some (k, i) → fail x 7 0x2B (k % 256 * 2 ^ 16 + i % 65536) rest s t) ∧
        (good = true → s.fld SEC_STAT_ARB ≤ s.imgSvn x → s.badPair x = none →
          (s.contentCode x ≠ 0 → (∀ k i, s.badEntry x (s.contentCode x) = some (k, i) → fail x (s.contentCode x) 0x2B (k % 256 * 2 ^ 16 + i % 65536) rest s t) ∧
            ∃ d < 2 ^ 24, fail x (s.contentCode x) 0x2B d rest s t) ∧
          (s.contentCode x = 0 → t.op = 4 ∧ t.fld CFG_STAT_SLOT = x.val + 1 ∧ t.fld (CFG_SLOT_STAT_PASSED x) = 1 ∧ t.fld CFG_GEN = s.imgGen x ∧
            t.wide CFG_HASH = h ∧ t.fld SEC_STAT_SVN = s.imgSvn x ∧ t.fld SEC_STAT_IMG_SLOT = o ∧ t.ld.cand = [] ∧ t.ld.img.cells = s.ld.trial.cells ∧
            t.ld.img.hash = h ∧ t.fld CFG_STAT_MODIFIED = 0 ∧ t.seq.pc = 0x38000000 ∧ t.seq.run = true ∧ (∀ i : Fin 6, t.fld (CE_BANK_ACT i) = 0) ∧
            (s.ld.first = x.val + 1 → t.fld CFG_STAT_FALLBACK = s.fld CFG_STAT_FALLBACK) ∧
            (s.ld.first ≠ x.val + 1 → t.fld CFG_STAT_FALLBACK = 1 ∧ Told (0x3D8 + x) 0x2C 0 s t))))) ∧
  (∀ (s : State) (m : Master) (v : Word), wbits v.toNat CFG_LOAD_KEY = 0x6C0D → wbits v.toNat CFG_LOAD_GO = 0 → exec (.imageLoadRequest m v) s = .next s) ∧
  (∀ (s : State) (m : Master) (v : Word), wbits v.toNat CFG_LOAD_KEY ≠ 0x6C0D → ∃ t, exec (.imageLoadRequest m v) s = .next t ∧
    t = { s with regs := t.regs, sump := t.sump } ∧ SameRegs msgFlds s t ∧ Told 0x3D8 0x03 0 s t) ∧
  (∀ (s : State) (m : Master) (v : Word), wbits v.toNat CFG_LOAD_GO = 1 →
    (wbits v.toNat CFG_LOAD_KEY = 0x6C0D → (s.ld.cmd ≠ none ∨ (s.op ≠ 3 ∧ s.op ≠ 4 ∧ s.op ≠ 8)) → ∃ t, exec (.imageLoadRequest m v) s = .next t ∧
      t = { s with regs := t.regs, sump := t.sump } ∧ SameRegs msgFlds s t ∧ Told 0x3DB 0x2F 0 s t) ∧
    (wbits v.toNat CFG_LOAD_KEY = 0x6C0D → s.ld.cmd = none → (s.op = 4 ∨ s.op = 8) → ∃ t, exec (.imageLoadRequest m v) s = .next t ∧ t.op = 0 ∧
      t.elec.inReset = true ∧ t.ld.flash = s.ld.flash ∧ t.ld.img = {} ∧ t.cells = s.cells ∧ (∀ a, inMram a = true → t.byteAt a = s.byteAt a)) ∧
    (wbits v.toNat CFG_LOAD_KEY = 0x6C0D → s.ld.cmd = none → s.op = 3 → ∃ t, exec (.imageLoadRequest m v) s = .next t ∧ t.op = 1 ∧ t.mem = s.mem ∧
      t.ld.reading = true ∧ t.ld.flash = s.ld.flash ∧
      (s.ld.flashOk = false → t.ld.cand = [] ∧ t.fld (CFG_SLOT_STAT_CODE 0) = 1 ∧ t.fld (CFG_SLOT_STAT_CODE 1) = 1 ∧ Told 0x3DA 0x2D (2 ^ 24) s t) ∧
      (s.ld.flashOk = true →
        (∀ x : Fin 2, (s.slotEmpty x = true → t.fld (CFG_SLOT_STAT_CLASS x) = 1) ∧
          (s.slotEmpty x = false → s.headerCode x = 0 → t.fld (CFG_SLOT_STAT_CLASS x) = 3 ∧ t.fld (CFG_SLOT_GEN x) = s.imgGen x) ∧
          (s.slotEmpty x = false → s.headerCode x ≠ 0 → t.fld (CFG_SLOT_STAT_CLASS x) = 2 ∧ t.fld (CFG_SLOT_STAT_CODE x) = s.headerCode x ∧
            Told (0x3D8 + x) 0x28 (s.headerCode x * 2 ^ 24) s t)) ∧
        (let c (x : Nat) : Prop := s.slotEmpty x = false ∧ s.headerCode x = 0
         (¬c 0 → ¬c 1 → t.ld.cand = []) ∧ (c 0 → ¬c 1 → t.ld.cand = [1]) ∧ (¬c 0 → c 1 → t.ld.cand = [2]) ∧
         (c 0 → c 1 → s.fld CFG_CTRL_NEXT = 1 → t.ld.cand = [1, 2]) ∧ (c 0 → c 1 → s.fld CFG_CTRL_NEXT = 2 → t.ld.cand = [2, 1]) ∧
         (c 0 → c 1 → s.fld CFG_CTRL_NEXT = 0 → t.ld.cand = if serialAfter 32 (s.imgGen 1) (s.imgGen 0) = true then [2, 1] else [1, 2])))))

/-- O49. For every state. A flash command is ignored while one runs; it is refused in LOAD and VERIFY, and PROGRAM and ERASE are refused on the slot of the image in force outside HOLD_FOR_HOST; operands out of range tell BAD_VALUE; otherwise it is in progress with BUSY. On completion within 3 s, with mailbox words that read clean, a READ has copied the flash bytes to the mailbox and nothing else, a PROGRAM the mailbox bytes to the flash and nothing else, an ERASE has set its 64 KiB sector to 0xFF and nothing else, with DONE and the FLASH event; one that has not ended after 3 s sets ERR and tells, and leaves every other flash byte (what its own range then holds is open, log entry 63). A request to take a CL port offline is refused in HOLD_FOR_HOST, ignored while one is pending or the port is offline, left pending in RUNNING, and granted at once in the other states, where every configured cell that is not excluded drains and the port is offline once none does. Bringing a port back enables it (from PARKED on, R501), clears both its bits and readmits the cells that the request excluded. A request ungranted for 1,000 ticks is withdrawn with SVC_DENIED. That a flash operand out of range is a reserved encoding, and which requests collide, is the model's reading (DEDUCED, log entry 57). -/
def Obligations.FlashCommandsAndOfflinePorts : Prop :=
  let fb (s : State) (a : Nat) : Byte := cget flashDefault s.ld.flash a
  let cmd (op : Fin 3) (m : Master) (v : Word) : Instr := if op = 0 then .flashRead m v else if op = 1 then .flashProgram m v else .flashErase m v
  let inForce (s : State) : Prop := s.fld CFG_STAT_SLOT ≠ 0 ∧ s.fld CFG_FL_ADDR / 0x2000000 + 1 = s.fld CFG_STAT_SLOT ∧ s.op ≠ 3
  let allowed (op : Fin 3) (s : State) : Prop := s.op ≠ 1 ∧ s.op ≠ 2 ∧ (op = 0 ∨ ¬inForce s)
  let ended (f : Fld) (s t : State) : Prop := t.fld CFG_FL_STAT_BUSY = 0 ∧ t.fld f = 1 ∧ t.ld.cmd = none ∧ tbit (t.fld SEQ_EVT) 11 = true ∧
    t.cells = s.cells ∧ t.op = s.op ∧ t.ld = { s.ld with cmd := none, flash := t.ld.flash }
  (∀ (s : State) (op : Fin 3) (m : Master) (v : Word), s.ld.cmd ≠ none → exec (cmd op m v) s = .next s) ∧
  (∀ (s : State) (op : Fin 3) (m : Master) (v : Word), s.ld.cmd = none →
    let ofs := wbits v.toNat CFG_FL_CMD_OFS
    let ok := flashArgsOk (op.val + 1) (s.fld CFG_FL_ADDR) (s.fld CFG_FL_LEN) ofs
    (¬allowed op s → ∃ t, exec (cmd op m v) s = .next t ∧ t = { s with regs := t.regs, sump := t.sump } ∧ SameRegs (CFG_FL_STAT_DENIED :: msgFlds) s t ∧
      t.fld CFG_FL_STAT_DENIED = 1 ∧ Told 0x3DB 0x2F 0 s t) ∧
    (allowed op s → ok = false → ∃ t, exec (cmd op m v) s = .next t ∧ t = { s with regs := t.regs, sump := t.sump } ∧ SameRegs msgFlds s t ∧ Told 0x3D8 0x03 0 s t) ∧
    (allowed op s → ok = true → ∃ t, exec (cmd op m v) s = .next t ∧ SameRegs [CFG_FL_STAT_BUSY] s t ∧ t.fld CFG_FL_STAT_BUSY = 1 ∧
      t = { s with regs := t.regs, ld := { s.ld with cmd := some ⟨op.val + 1, s.fld CFG_FL_ADDR, s.fld CFG_FL_LEN, ofs, s.now⟩ } })) ∧
  (∀ s : State, s.ld.cmd = none → exec .flashDone s = .next s ∧ exec .flErr s = .next s) ∧
  (∀ (s : State) (c : FlashCmd), s.ld.cmd = some c → (s.now ≤ c.tick + 3000000 → exec .flErr s = .next s) ∧ (c.tick + 3000000 < s.now → exec .flashDone s = .next s)) ∧
  (∀ (s : State) (c : FlashCmd), s.ld.cmd = some c → s.now ≤ c.tick + 3000000 → s.cleanMem → s.mem.mbox.shares = false →
    (c.op = 1 → ∃ t, exec .flashDone s = .next t ∧ ended CFG_FL_STAT_DONE s t ∧ t.ld.flash = s.ld.flash ∧ SameMemBut (0x3C000000 + c.ofs) c.len s t ∧
      ∀ i, i < c.len → t.byteAt (0x3C000000 + c.ofs + i) = fb s (c.addr + i)) ∧
    (c.op = 2 → ∃ t, exec .flashDone s = .next t ∧ ended CFG_FL_STAT_DONE s t ∧ t.mem = { s.mem with mbox := t.mem.mbox } ∧
      (∀ i, i < c.len → fb t (c.addr + i) = s.byteAt (0x3C000000 + c.ofs + i)) ∧ (∀ a, (a < c.addr ∨ c.addr + c.len ≤ a) → fb t a = fb s a)) ∧
    (c.op = 3 → ∃ t, exec .flashDone s = .next t ∧ ended CFG_FL_STAT_DONE s t ∧ t.mem = s.mem ∧
      ∀ a, fb t a = if a / 65536 = c.addr / 65536 then 0xFF else fb s a)) ∧
  (∀ (s : State) (c : FlashCmd), s.ld.cmd = some c → c.tick + 3000000 < s.now →
    (∃ t, exec .flErr s = .next t ∧ t.fld CFG_FL_STAT_BUSY = 0 ∧ t.fld CFG_FL_STAT_ERR = 1 ∧ t.ld.cmd = none ∧ tbit (t.fld SEQ_EVT) 11 = true ∧ Told 0x3DA 0x2D 0 s t ∧
      t.mem = s.mem ∧ (c.op = 1 → t.ld.flash = s.ld.flash) ∧ (c.op = 2 → c.len ≤ 256 → ∀ a, (a < c.addr ∨ c.addr + c.len ≤ a) → fb t a = fb s a) ∧
      (c.op = 3 → ∀ a, a / 65536 ≠ c.addr / 65536 → fb t a = fb s a))) ∧
  (∀ (s : State) (m : Master) (n : Fin 32),
    (s.op = 3 → ∀ c ∈ [Instr.portOffline m n, Instr.portOnline m n], ∃ t, exec c s = .next t ∧ t = { s with regs := t.regs, sump := t.sump } ∧
      SameRegs msgFlds s t ∧ Told 0x3DB 0x2F 0 s t) ∧
    (s.op ≠ 3 → (tbit (s.fld CFG_OFF_STAT) n = true ∨ ∃ o ∈ s.ld.offs, o.port = n.val) → exec (.portOffline m n) s = .next s) ∧
    (s.op ≠ 3 → tbit (s.fld CFG_OFF_STAT) n = false → (∀ o ∈ s.ld.offs, o.port ≠ n.val) →
      (s.op = 6 → ∃ t, exec (.portOffline m n) s = .next t ∧ SameRegs [CFG_OFF_PEND] s t ∧ tbit (t.fld CFG_OFF_PEND) n = true ∧
        t = { s with regs := t.regs, ld := { s.ld with offs := s.ld.offs ++ [⟨n, s.now, false, []⟩] } }) ∧
      (s.op ≠ 6 → ∃ t, exec (.portOffline m n) s = .next t ∧ t.mem = s.mem ∧ t.op = s.op ∧
        (∀ g ∈ s.portCells n, s.ceBit g ceExcl = false → (t.selRec g).drain = true) ∧
        (∀ g, g ∉ s.portCells n → t.selRec g = s.selRec g) ∧
        ((∀ g ∈ s.portCells n, s.ceBit g ceExcl = true ∧ (s.selRec g).drain = false) → tbit (t.fld CFG_OFF_STAT) n = true ∧ tbit (t.fld CFG_OFF_PEND) n = false ∧
          ∀ o ∈ t.ld.offs, o.port ≠ n.val) ∧
        ((∃ g ∈ s.portCells n, s.ceBit g ceExcl = false) → tbit (t.fld CFG_OFF_STAT) n = false ∧ tbit (t.fld CFG_OFF_PEND) n = true))) ∧
    (s.op ≠ 3 → ∃ t, exec (.portOnline m n) s = .next t ∧ (4 ≤ s.op → t.bit (CL_CTRL_EN n) = true) ∧ (s.op < 4 → t.bit (CL_CTRL_EN n) = s.bit (CL_CTRL_EN n)) ∧ tbit (t.fld CFG_OFF_STAT) n = false ∧ tbit (t.fld CFG_OFF_PEND) n = false ∧
      t.ld.offs = s.ld.offs.filter (fun o => o.port != n.val) ∧ t.op = s.op ∧
      (∀ g ∈ mget [] s.ld.offCells n, (t.selRec g).readmit = true ∧ (t.selRec g).drain = false) ∧
      (∀ g, g ∉ mget [] s.ld.offCells n → t.selRec g = s.selRec g))) ∧
  (∀ (s : State) (n : Fin 32),
    ((∀ o ∈ s.ld.offs, o.port = n.val → o.grant = true ∨ s.now < o.tick + 1000) → exec (.offlineWithdraw n) s = .next s) ∧
    (∀ o ∈ s.ld.offs, o.port = n.val → o.grant = false → o.tick + 1000 ≤ s.now → ∃ t, exec (.offlineWithdraw n) s = .next t ∧
      SameRegs (CFG_OFF_PEND :: msgFlds) s t ∧ tbit (t.fld CFG_OFF_PEND) n = false ∧ Told 0x3DB 0x2F 0 s t ∧
      t = { s with regs := t.regs, sump := t.sump, ld := { s.ld with offs := s.ld.offs.filter fun o => o.port != n.val } }))

/-- O50. For every ready sequencer and all registers, ADD, SUB, AND, OR, XOR, SLL, SRL, SRA, SLT, SLTU and MUL answer a next state in which rd (unless s0) holds the table's result of ra and rb cut to 32 bits, the pc is 4 further, and every other register, all memory and all else is unchanged. -/
def Obligations.SeqRegisterOps : Prop :=
  ∀ (s : State) (rd ra rb : Fin 16), s.seqReady = true →
    (∃ t, exec (.add rd ra rb) s = .next t ∧ SeqWrites rd (s.sx ra + s.sx rb) (s.seq.pc + 4) s t) ∧
    (∃ t, exec (.sub rd ra rb) s = .next t ∧ SeqWrites rd (wrap ((s.sx ra : Int) - s.sx rb) 32) (s.seq.pc + 4) s t) ∧
    (∃ t, exec (.and rd ra rb) s = .next t ∧ SeqWrites rd (s.sx ra &&& s.sx rb) (s.seq.pc + 4) s t) ∧
    (∃ t, exec (.or rd ra rb) s = .next t ∧ SeqWrites rd (s.sx ra ||| s.sx rb) (s.seq.pc + 4) s t) ∧
    (∃ t, exec (.xor rd ra rb) s = .next t ∧ SeqWrites rd (s.sx ra ^^^ s.sx rb) (s.seq.pc + 4) s t) ∧
    (∃ t, exec (.sll rd ra rb) s = .next t ∧ SeqWrites rd (s.sx ra * 2 ^ (s.sx rb % 32)) (s.seq.pc + 4) s t) ∧
    (∃ t, exec (.srl rd ra rb) s = .next t ∧ SeqWrites rd (s.sx ra / 2 ^ (s.sx rb % 32)) (s.seq.pc + 4) s t) ∧
    (∃ t, exec (.sra rd ra rb) s = .next t ∧
      SeqWrites rd (wrap (sext (s.sx ra) 32 / ((2 ^ (s.sx rb % 32) : Nat) : Int)) 32) (s.seq.pc + 4) s t) ∧
    (∃ t, exec (.slt rd ra rb) s = .next t ∧
      SeqWrites rd (if sext (s.sx ra) 32 < sext (s.sx rb) 32 then 1 else 0) (s.seq.pc + 4) s t) ∧
    (∃ t, exec (.sltu rd ra rb) s = .next t ∧
      SeqWrites rd (if s.sx ra < s.sx rb then 1 else 0) (s.seq.pc + 4) s t) ∧
    (∃ t, exec (.mul rd ra rb) s = .next t ∧ SeqWrites rd (s.sx ra * s.sx rb) (s.seq.pc + 4) s t)

/-- O51. For every ready sequencer, ADDI, ANDI, ORI, LUI, JAL and JALR, and SLLI, SRLI and SRAI with an immediate below 32, answer a next state in which rd (unless s0) holds the table's result cut to 32 bits, the pc is the next instruction or the jump's target, and all else is unchanged; ADDI and the addresses take the immediate with its sign, ANDI and ORI with zeros, LUI places 14 bits at [31:18]. A shift immediate of 32 or more is an illegal instruction: with NMI not masked and no message waiting from source 0x3E1, SEQ_ILLEGAL waits there and EPC holds the pc. -/
def Obligations.SeqImmediateOps : Prop :=
  ∀ (s : State) (rd ra : Fin 16) (imm : BitVec 18), s.seqReady = true →
    (∃ t, exec (.addi rd ra imm) s = .next t ∧ SeqWrites rd (s.sx ra + wrap imm.toInt 32) (s.seq.pc + 4) s t) ∧
    (∃ t, exec (.andi rd ra imm) s = .next t ∧ SeqWrites rd (s.sx ra &&& imm.toNat) (s.seq.pc + 4) s t) ∧
    (∃ t, exec (.ori rd ra imm) s = .next t ∧ SeqWrites rd (s.sx ra ||| imm.toNat) (s.seq.pc + 4) s t) ∧
    (imm.toNat < 32 →
      (∃ t, exec (.slli rd ra imm) s = .next t ∧ SeqWrites rd (s.sx ra * 2 ^ imm.toNat) (s.seq.pc + 4) s t) ∧
      (∃ t, exec (.srli rd ra imm) s = .next t ∧ SeqWrites rd (s.sx ra / 2 ^ imm.toNat) (s.seq.pc + 4) s t) ∧
      (∃ t, exec (.srai rd ra imm) s = .next t ∧
        SeqWrites rd (wrap (sext (s.sx ra) 32 / ((2 ^ imm.toNat : Nat) : Int)) 32) (s.seq.pc + 4) s t)) ∧
    (32 ≤ imm.toNat → s.seq.masked = false → s.msgAt 0x3E1 = none →
      ∀ c ∈ [Instr.slli rd ra imm, .srli rd ra imm, .srai rd ra imm], ∃ t, exec c s = .next t ∧
        t.msgAt 0x3E1 = some (0x32, 0) ∧ t.fld SEQ_EPC = s.seq.pc % 2 ^ 32 ∧ t.seq.pc = 0x38000040 ∧ SameMem s t) ∧
    (∀ i : BitVec 14, ∃ t, exec (.lui rd i) s = .next t ∧ SeqWrites rd (i.toNat * 2 ^ 18) (s.seq.pc + 4) s t) ∧
    (∀ o : BitVec 22, ∃ t, exec (.jal rd o) s = .next t ∧
      SeqWrites rd (s.seq.pc + 4) (wrap ((s.seq.pc : Int) + 4 * o.toInt) 32) s t) ∧
    (∃ t, exec (.jalr rd ra imm) s = .next t ∧
      SeqWrites rd (s.seq.pc + 4) ((s.sx ra + wrap imm.toInt 32) % 2 ^ 32 / 4 * 4) s t)

/-- O52. For every ready sequencer, BEQ, BNE, BLT, BGE, BLTU and BGEU answer a next state that differs in the pc alone: pc + 4 × offset (signed) when the comparison of ra and rb holds, signed for BLT and BGE and unsigned for BLTU and BGEU, else pc + 4. -/
def Obligations.SeqBranches : Prop :=
  ∀ (s : State) (ra rb : Fin 16) (off : BitVec 18), s.seqReady = true →
    let target (c : Bool) := if c then wrap ((s.seq.pc : Int) + 4 * off.toInt) 32 else s.seq.pc + 4
    (∃ t, exec (.beq ra rb off) s = .next t ∧ SeqGoes (target (decide (s.sx ra = s.sx rb))) s t) ∧
    (∃ t, exec (.bne ra rb off) s = .next t ∧ SeqGoes (target (decide (s.sx ra ≠ s.sx rb))) s t) ∧
    (∃ t, exec (.blt ra rb off) s = .next t ∧ SeqGoes (target (decide (sext (s.sx ra) 32 < sext (s.sx rb) 32))) s t) ∧
    (∃ t, exec (.bge ra rb off) s = .next t ∧ SeqGoes (target (decide (¬ sext (s.sx ra) 32 < sext (s.sx rb) 32))) s t) ∧
    (∃ t, exec (.bltu ra rb off) s = .next t ∧ SeqGoes (target (decide (s.sx ra < s.sx rb))) s t) ∧
    (∃ t, exec (.bgeu ra rb off) s = .next t ∧ SeqGoes (target (decide (¬ s.sx ra < s.sx rb))) s t)

/-- O53. For every ready sequencer, DIV with a divisor other than 0 leaves in rd (unless s0) the quotient of the signed operands truncated toward zero, cut to 32 bits, and changes nothing else but the pc; with divisor 0 it leaves 0 in rd, goes on to the next instruction and sends DIV_ZERO (kind 0x33) from source 0x3E1, which waits there when no message did. -/
def Obligations.SeqDivide : Prop :=
  ∀ (s : State) (rd ra rb : Fin 16), s.seqReady = true →
    (s.sx rb ≠ 0 → ∃ t, exec (.div rd ra rb) s = .next t ∧
      SeqWrites rd (wrap (Int.tdiv (sext (s.sx ra) 32) (sext (s.sx rb) 32)) 32) (s.seq.pc + 4) s t) ∧
    (s.sx rb = 0 → s.msgAt 0x3E1 = none → ∃ t, exec (.div rd ra rb) s = .next t ∧ t.msgAt 0x3E1 = some (0x33, 0) ∧
      t.seq.pc = (s.seq.pc + 4) % 2 ^ 32 ∧ (rd ≠ 0 → t.sx rd = 0) ∧ (∀ r : Fin 16, r ≠ rd → t.sx r = s.sx r) ∧
      SameRegs [FLT_CNT_MERGED, FLT_CNT_OVF] s t ∧ SameMem s t)

/-- O54. For every ready sequencer with access address a = ra + sign-extended immediate, LW and LBU that meet no obstacle put the little-endian word or the byte at a into rd, SRD the slot it names; SW and SB store rd or its low byte at a and leave every other byte; each goes on to the next instruction and changes nothing else, but for what the mailbox keeps of an access to it. A misaligned LW gives 0 and a misaligned SW stores nothing, and SEQ_ACCESS (0x31) with the address waits at source 0x3E1. SWR of an own slot on a unit that is not paired stages the value for the next cycle 0 and changes no byte of memory. -/
def Obligations.SeqMemoryAccess : Prop :=
  ∀ (s : State) (rd ra : Fin 16) (imm : BitVec 18), s.seqReady = true →
    let a := (s.sx ra + wrap imm.toInt 32) % 2 ^ 32
    let slot := 0x10000000 + 4 * wrap ((s.sx ra : Int) + (imm.toNat % 1024 : Nat)) 10
    ((s.mboxBegin a .no).readable .sequencer a 4 .read →
      ∃ t, exec (.lw rd ra imm) s = .next t ∧ SeqWrites rd (s.rd a 4) (s.seq.pc + 4) (s.lookedAlone .sequencer a) t) ∧
    ((s.mboxBegin a .no).readable .sequencer a 1 .read →
      ∃ t, exec (.lbu rd ra imm) s = .next t ∧ SeqWrites rd (s.rd a 1) (s.seq.pc + 4) (s.lookedAlone .sequencer a) t) ∧
    ((s.mboxBegin a .no).writable .sequencer a 4 → ∃ t, exec (.sw rd ra imm) s = .next t ∧
      t.rd a 4 = s.sx rd % 2 ^ 32 ∧ SameMemBut a 4 s t ∧ t.seq.pc = (s.seq.pc + 4) % 2 ^ 32 ∧
      (inMbox a = false → t.mem.mbox = s.mem.mbox) ∧
      t = { s with mem := { s.mem with bytes := t.mem.bytes, err := t.mem.err, mbox := t.mem.mbox }, seq := { s.seq with pc := t.seq.pc, pass := false } }) ∧
    ((s.mboxBegin a .no).writable .sequencer a 1 → ∃ t, exec (.sb rd ra imm) s = .next t ∧
      t.rd a 1 = s.sx rd % 256 ∧ SameMemBut a 1 s t ∧ t.seq.pc = (s.seq.pc + 4) % 2 ^ 32 ∧
      (inMbox a = false → t.mem.mbox = s.mem.mbox) ∧
      t = { s with mem := { s.mem with bytes := t.mem.bytes, err := t.mem.err, mbox := t.mem.mbox }, seq := { s.seq with pc := t.seq.pc, pass := false } }) ∧
    (a % 4 ≠ 0 → s.msgAt 0x3E1 = none →
      (∃ t, exec (.lw rd ra imm) s = .next t ∧ (rd ≠ 0 → t.sx rd = 0) ∧ t.msgAt 0x3E1 = some (0x31, a) ∧ SameMem s t) ∧
      (∃ t, exec (.sw rd ra imm) s = .next t ∧ t.msgAt 0x3E1 = some (0x31, a) ∧ SameMem s t)) ∧
    (imm.toNat < 1024 → s.readable .sequencer slot 4 .read →
      ∃ t, exec (.srd rd ra imm) s = .next t ∧ SeqWrites rd (s.rd slot 4) (s.seq.pc + 4) s t) ∧
    (imm.toNat < 1024 → s.readable .sequencer slot 4 .write → s.produces .sequencer ((slot - 0x10000000) / 4) = true →
      s.bit RED_CFG_PAIR = false → s.sx rd < 2 ^ 32 →
      ∃ t, exec (.swr rd ra imm) s = .next t ∧
        t.ctl.staged = s.ctl.staged ++ [⟨(slot - 0x10000000) / 4, sext (s.sx rd) 32⟩] ∧ t.seq.pc = (s.seq.pc + 4) % 2 ^ 32 ∧
        t = { s with ctl := { s.ctl with staged := t.ctl.staged }, seq := { s.seq with pc := t.seq.pc, pass := false } } ∧
        SameMem s t)

/-- O55. For every ready sequencer: WTICK n starts a wait over n + 1 boundaries with the pc held and MODE 2; WEVT with a masked event pending clears exactly the pending masked events and delivers them, and otherwise waits; REQ places the request target for the next boundary; BLK sets the latched block with cause bit 7 and, with no boundary scan, BLOCK_OUT; FLT with a legal immediate sends kind 0x38 + imm[5:3] from source 0x3E3 + imm[2:0] with ra as detail; RDSR gives EPC, ENTRY or the state word; RETN continues at EPC with NMI unmasked; KICK clears the watchdog count. WAIT_COMPLETE ends a WTICK wait that has run out at the next instruction. Memory stays as it is in each. Which mode MODE shows where several hold (log entry 64), and that fields without a meaning in RETN, KICK, RDSR and REQ are ignored (log entry 33), is the model's reading. -/
def Obligations.SeqServices : Prop :=
  (∀ (s : State), s.seqReady = true →
    (∀ imm : BitVec 18, ∃ t, exec (.wtick imm) s = .next t ∧ t.seq = { s.seq with wait := some (.tick (imm.toNat + 1)) } ∧
      OnlyRegs [SEQ_STAT_MODE, SEQ_STAT_NMI_PEND] { s with seq := t.seq } t ∧ t.fld SEQ_STAT_MODE = 2) ∧
    (∀ rd ra rb : Fin 16, s.fld SEQ_EVT &&& s.sx ra ≠ 0 → ∃ t, exec (.wevt rd ra rb) s = .next t ∧
      (rd ≠ 0 → t.sx rd = (s.fld SEQ_EVT &&& s.sx ra) % 2 ^ 32) ∧
      t.fld SEQ_EVT = (s.fld SEQ_EVT - (s.fld SEQ_EVT &&& s.sx ra)) % 2 ^ 32 ∧ t.seq.pc = (s.seq.pc + 4) % 2 ^ 32 ∧
      SameRegs [SEQ_EVT] s t ∧ (∀ r : Fin 16, r ≠ rd → t.sx r = s.sx r) ∧ SameMem s t) ∧
    (∀ rd ra rb : Fin 16, s.fld SEQ_EVT &&& s.sx ra = 0 → ∃ t, exec (.wevt rd ra rb) s = .next t ∧
      t.seq = { s.seq with wait := some (.evt (s.sx ra) rd (if s.sx rb = 0 then none else some (s.sx rb))) } ∧
      OnlyRegs [SEQ_STAT_MODE, SEQ_STAT_NMI_PEND] { s with seq := t.seq } t) ∧
    (∀ imm : BitVec 18, ∃ t, exec (.req imm) s = .next t ∧ t.ctl = { s.ctl with seqReq := some (imm.toNat % 16) } ∧
      t.fld SEQ_REQ_STAT_TARGET = imm.toNat % 16 ∧ t.fld SEQ_REQ_STAT_PEND = 1 ∧ t.seq.pc = (s.seq.pc + 4) % 2 ^ 32 ∧
      SameRegs [SEQ_REQ_STAT_TARGET, SEQ_REQ_STAT_PEND] s t ∧ SameMem s t) ∧
    (∃ t, exec .blk s = .next t ∧ t.latched = true ∧ tbit (t.fld PRT_CAUSE_ALL) 7 = true ∧
      (s.dbg.scan = false → t.fld PRT_STAT_BO = 1) ∧ t.seq.pc = (s.seq.pc + 4) % 2 ^ 32 ∧
      SameRegs [PRT_STAT_LATCHED, CLK_STATE_LATCHED_BLOCK, PRT_CAUSE_FIRST, PRT_CAUSE_FIRST_TICK, PRT_CAUSE_ALL, PRT_CNT_SET,
        PRT_CNT_OVF, SEQ_EVT, PRT_STAT_BO] s t ∧ SameMem s t) ∧
    (∀ (ra : Fin 16) (imm : BitVec 18), imm.toNat < 64 → imm.toNat % 8 ≤ 4 → s.msgAt (0x3E3 + imm.toNat % 8) = none →
      ∃ t, exec (.flt ra imm) s = .next t ∧
        t.msgAt (0x3E3 + imm.toNat % 8) = some (0x38 + imm.toNat / 8, s.sx ra % 2 ^ 32) ∧
        t.seq.pc = (s.seq.pc + 4) % 2 ^ 32 ∧ SameRegs [FLT_CNT_MERGED, FLT_CNT_OVF] s t ∧ SameMem s t) ∧
    (∀ rd : Fin 16,
      (∃ t, exec (.rdsr rd 0) s = .next t ∧ SeqWrites rd (s.fld SEQ_EPC) (s.seq.pc + 4) s t) ∧
      (∃ t, exec (.rdsr rd 1) s = .next t ∧ SeqWrites rd (s.fld SEQ_STAT_ENTRY) (s.seq.pc + 4) s t) ∧
      (∃ t, exec (.rdsr rd 4) s = .next t ∧
        SeqWrites rd (s.op + s.role * 16 + s.sub * 64 + b2n s.latched * 256) (s.seq.pc + 4) s t)) ∧
    (∃ t, exec .retn s = .next t ∧ t.seq.pc = s.fld SEQ_EPC % 2 ^ 32 ∧ t.seq.masked = false ∧ t.seq.nmi = (s.seq.nmi || s.seq.held) ∧
      SameRegs [SEQ_STAT_MODE, SEQ_STAT_NMI_PEND] s t ∧ (∀ r : Fin 16, t.sx r = s.sx r) ∧ SameMem s t) ∧
    (∃ t, exec .kick s = .next t ∧ t = { s with seq := { s.seq with wd := 0, pc := (s.seq.pc + 4) % 2 ^ 32, pass := false } })) ∧
  (∀ s : State, s.seq.run = true → s.seq.dead = false → s.seq.halt = false → s.seq.nmi = false → s.seq.role = none →
    s.seq.wait = some (.tick 0) → ∃ t, exec .waitComplete s = .next t ∧ t.seq.wait = none ∧
      t.seq.pc = (s.seq.pc + 4) % 2 ^ 32 ∧ (∀ r : Fin 16, t.sx r = s.sx r) ∧
      SameRegs [SEQ_STAT_MODE, SEQ_STAT_NMI_PEND] s t ∧ SameMem s t)

/-- O56. For every ready sequencer, SIGN gives 1 while one is under way and 2 for addresses that R438 does not admit, changing nothing else, whatever the state of an ended one; with good addresses it gives 3 and tells SIGN_REFUSED while 4 requests wait, queues the request with STATE 1 and RESULT 0 and gives 0 while the security unit is busy or cannot sign, and is taken up at once with STATE 2 by a unit that is free, can sign and reads clean memory, its body the 32 words at ra with the tag 0x5351. SEND to a station port gives 2 when the index names no ring or the link of its port is down, 3 when the block lies outside sequencer memory and mailbox or its LEN is 0 or above 1,024, 1 with TX_FULL told when the ring is full; with a good block that reads clean and a free entry it stores length, tick and body in the transmit entry, advances the write pointer and gives 0. Where the block of SEND may lie and the order of its checks are the model's reading (DEDUCED, log entry 17). -/
def Obligations.SeqSignAndSend : Prop :=
  let told (rd : Fin 16) (v kind : Nat) (s t : State) : Prop := Told 0x3E2 kind 0 s t ∧ (rd ≠ 0 → t.sx rd = v) ∧ (∀ r : Fin 16, r ≠ rd → t.sx r = s.sx r) ∧
    t.seq.pc = (s.seq.pc + 4) % 2 ^ 32 ∧ SameRegs msgFlds s t ∧ t.sec = s.sec
  ∀ (s : State) (rd ra rb : Fin 16), s.seqReady = true →
    (s.fld SEQ_SIGN_STAT_STATE = 1 ∨ s.fld SEQ_SIGN_STAT_STATE = 2 →
      ∃ t, exec (.sign rd ra rb) s = .next t ∧ SeqWrites rd 1 (s.seq.pc + 4) s t) ∧
    (s.fld SEQ_SIGN_STAT_STATE ≠ 1 → s.fld SEQ_SIGN_STAT_STATE ≠ 2 → signAddrOk (s.sx ra) (s.sx rb) = false →
      ∃ t, exec (.sign rd ra rb) s = .next t ∧ SeqWrites rd 2 (s.seq.pc + 4) s t) ∧
    (s.fld SEQ_SIGN_STAT_STATE ≠ 1 → s.fld SEQ_SIGN_STAT_STATE ≠ 2 → signAddrOk (s.sx ra) (s.sx rb) = true →
      (4 ≤ s.sec.wait.length → ∃ t, exec (.sign rd ra rb) s = .next t ∧ told rd 3 0x36 s t ∧ t.mem = s.mem) ∧
      (s.sec.wait.length < 4 → (s.secServing = true ∨ s.sec.imgWait = true ∨ s.canSign = false ∧ s.sec.job = none) →
        ∃ t, exec (.sign rd ra rb) s = .next t ∧ t.sec = { s.sec with wait := s.sec.wait ++ [⟨3, s.sx ra, s.sx rb, 0⟩] } ∧
          t.fld SEQ_SIGN_STAT_STATE = 1 ∧ t.fld SEQ_SIGN_STAT_RESULT = 0 ∧ (rd ≠ 0 → t.sx rd = 0) ∧ (∀ r : Fin 16, r ≠ rd → t.sx r = s.sx r) ∧
          t.seq.pc = (s.seq.pc + 4) % 2 ^ 32 ∧ SameRegs [SEQ_SIGN_STAT_STATE, SEQ_SIGN_STAT_RESULT] s t ∧ SameMem s t) ∧
      (s.sec.wait = [] → s.nrg.queue = [] → s.sec.job = none → s.secServing = false → s.sec.imgWait = false → s.canSign = true → 8 ∉ s.mem.keyUe → s.cleanMem →
        s.mem.mbox.shares = false → ∃ t ws, exec (.sign rd ra rb) s = .next t ∧ t.sec = { s.sec with cur := some (⟨3, s.sx ra, s.sx rb, 0⟩, ws) } ∧ ws.length = 32 ∧
          (ws.getD 0 0).toNat = 0x5351 * 2 ^ 48 + s.rd (s.sx ra) 6 ∧ (∀ i : Fin 32, i ≠ 0 → (ws.getD i 0).toNat = s.rd (s.sx ra + 8 * i) 8) ∧
          t.fld SEQ_SIGN_STAT_STATE = 2 ∧ t.fld SEQ_SIGN_STAT_RESULT = 0 ∧ (rd ≠ 0 → t.sx rd = 0) ∧ (∀ r : Fin 16, r ≠ rd → t.sx r = s.sx r) ∧
          t.seq.pc = (s.seq.pc + 4) % 2 ^ 32 ∧ SameRegs [SEQ_SIGN_STAT_STATE, SEQ_SIGN_STAT_RESULT] s t ∧ SameMem s t)) ∧
    (3 ≤ s.sx ra → ∃ t, exec (.send rd ra rb) s = .next t ∧ SeqWrites rd 2 (s.seq.pc + 4) s t) ∧
    (∀ p : Fin 4, ringOf p = some (s.sx ra) → s.bit (STN_STAT_LINK p) = false →
      ∃ t, exec (.send rd ra rb) s = .next t ∧ SeqWrites rd 2 (s.seq.pc + 4) s t) ∧
    (∀ (p : Fin 4) (q : Nat), ringOf p = some q → s.sx ra = q → s.bit (STN_STAT_LINK p) = true →
      (sendAddrOk (s.sx rb) 4 = false → ∃ t, exec (.send rd ra rb) s = .next t ∧ SeqWrites rd 3 (s.seq.pc + 4) s t) ∧
      (sendAddrOk (s.sx rb) 4 = true → s.cleanMem → s.mem.mbox.shares = false →
        let len := s.rd (s.sx rb) 4
        let good := 0 < len ∧ len ≤ 1024 ∧ sendAddrOk (s.sx rb) (4 + len) = true
        let full := ringFull (s.fld (SEQ_TX_WP q)) (s.fld (SEQ_TX_RP q)) = true
        (¬good → ∃ t, exec (.send rd ra rb) s = .next t ∧ (rd ≠ 0 → t.sx rd = 3) ∧ (∀ r : Fin 16, r ≠ rd → t.sx r = s.sx r) ∧
          t.seq.pc = (s.seq.pc + 4) % 2 ^ 32 ∧ t.regs = s.regs ∧ SameMem s t) ∧
        (good → full → ∃ t, exec (.send rd ra rb) s = .next t ∧ told rd 1 0x35 s t ∧ SameMem s t) ∧
        (good → ¬full → ∃ t, exec (.send rd ra rb) s = .next t ∧ t.fld (SEQ_TX_WP q) = (s.fld (SEQ_TX_WP q) + 1) % 8 ∧ (rd ≠ 0 → t.sx rd = 0) ∧
          (∀ r : Fin 16, r ≠ rd → t.sx r = s.sx r) ∧ t.seq.pc = (s.seq.pc + 4) % 2 ^ 32 ∧ t.rd (txEntry q (s.fld (SEQ_TX_WP q))) 8 = len ∧
          t.rd (txEntry q (s.fld (SEQ_TX_WP q)) + 8) 8 = s.now % 2 ^ 64 ∧
          (∀ i, i < len → t.byteAt (txEntry q (s.fld (SEQ_TX_WP q)) + 16 + i) = s.byteAt (s.sx rb + 4 + i)) ∧
          SameRegs [SEQ_TX_WP q] s t ∧ SameMemBut (txEntry q (s.fld (SEQ_TX_WP q))) (16 + len) s t)))

/-- O57. SEQ_ILLEGAL on a ready sequencer outside a handler sends kind 0x32 from 0x3E1 and enters the NMI vector with EPC and ENTRY 4; inside a handler it restarts at the reset vector with ENTRY 5 and cleared registers. NMI_ENTRY with an NMI due and no role entry enters the NMI vector with ENTRY 2, EPC the pc, NMI masked. ROLE_VECTOR_ENTRY that is due starts the role vector with cleared registers and ENTRY 6 with role and reason. LOCKSTEP of running cores sends kind 0x30 from 0x3E0 and, with LS_RESTART, restarts at the NMI vector with ENTRY 3, else stops the cores with MODE 5. WDOG with the count at TICKS sends kind 0x34 and clears the count. EVENT_SET sets exactly the SW events of its bits, and is ignored during a function reset of the sequencer (R497). Memory is unchanged. -/
def Obligations.SeqEntries : Prop :=
  (∀ s : State, s.seqReady = true → s.seq.masked = false → s.msgAt 0x3E1 = none → ∃ t, exec .seqIllegal s = .next t ∧
    t.msgAt 0x3E1 = some (0x32, 0) ∧ t.fld SEQ_EPC = s.seq.pc % 2 ^ 32 ∧ t.fld SEQ_STAT_ENTRY = 4 ∧ t.seq.pc = 0x38000040 ∧
    t.seq.masked = true ∧ t.seq.x = s.seq.x ∧ SameMem s t) ∧
  (∀ s : State, s.seqReady = true → s.seq.masked = true → s.msgAt 0x3E1 = none → ∃ t, exec .seqIllegal s = .next t ∧
    t.msgAt 0x3E1 = some (0x32, 0) ∧ t.fld SEQ_EPC = s.seq.pc % 2 ^ 32 ∧ t.fld SEQ_STAT_ENTRY = 5 ∧ t.seq.pc = 0x38000000 ∧
    t.seq.masked = false ∧ t.seq.x = [] ∧ SameMem s t) ∧
  (∀ s : State, s.seq.run = true → s.seq.dead = false → s.seq.halt = false → s.seq.role = none → s.seq.nmi = true →
    s.breakHere = none → ∃ t, exec .nmiEntry s = .next t ∧ t.fld SEQ_EPC = s.seq.pc % 2 ^ 32 ∧ t.fld SEQ_STAT_ENTRY = 2 ∧
    t.seq.pc = 0x38000040 ∧ t.seq.masked = true ∧ t.seq.wait = none ∧ t.seq.x = s.seq.x ∧
    SameRegs [SEQ_CNT_NMI, SEQ_CNT_OVF, SEQ_EPC, SEQ_STAT_ENTRY, SEQ_STAT_MODE, SEQ_STAT_NMI_PEND] s t ∧ SameMem s t) ∧
  (∀ (s : State) (r : Fin 4), s.seq.run = true → s.seq.dead = false → s.seq.halt = false → s.seq.role = some r.val →
    ∃ t, exec (.roleVectorEntry r) s = .next t ∧ t.seq.pc = 0x38000080 ∧ t.seq.x = [] ∧ t.seq.role = none ∧
    t.fld SEQ_STAT_ENTRY = (6 + s.role * 16 + r * 256) % 2 ^ SEQ_STAT_ENTRY.w ∧ t.seq.masked = false ∧
    SameRegs [SEQ_STAT_ENTRY, SEQ_STAT_MODE, SEQ_STAT_NMI_PEND] s t ∧ SameMem s t) ∧
  (∀ s : State, s.seq.run = true → s.seq.dead = false → s.seq.halt = false → s.msgAt 0x3E0 = none →
    ∃ t, exec .lockstep s = .next t ∧ t.msgAt 0x3E0 = some (0x30, 0) ∧
    (s.bit SEQ_CTRL_LS_RESTART = true → t.seq.pc = 0x38000040 ∧ t.fld SEQ_STAT_ENTRY = 3 ∧ t.seq.x = [] ∧ t.seq.dead = false) ∧
    (s.bit SEQ_CTRL_LS_RESTART = false → t.seq.dead = true ∧ t.fld SEQ_STAT_MODE = 5 ∧ t.seq.x = s.seq.x) ∧ SameMem s t) ∧
  (∀ s : State, s.fld SEQ_WDOG_TICKS ≠ 0 → s.fld SEQ_WDOG_TICKS ≤ s.seq.wd → s.msgAt 0x3E1 = none →
    ∃ t, exec .wdog s = .next t ∧ t.msgAt 0x3E1 = some (0x34, 0) ∧ t.seq = { s.seq with wd := 0 } ∧ t.fld SEQ_STAT_WD_SEEN = 1 ∧
    SameRegs [FLT_CNT_MERGED, FLT_CNT_OVF, SEQ_STAT_WD_SEEN] s t ∧ SameMem s t) ∧
  (∀ (s : State) (m : Master) (v : Word), s.inFreset 0xD0014 = true → exec (.eventSet m v) s = .next s) ∧
  (∀ (s : State) (m : Master) (v : Word), s.inFreset 0xD0014 = false → ∃ t, exec (.eventSet m v) s = .next t ∧
    (∀ i, i < 32 → tbit (t.fld SEQ_EVT) i = (tbit (s.fld SEQ_EVT) i || (decide (16 ≤ i) && tbit v.toNat i))) ∧
    OnlyRegs [SEQ_EVT] s t)

/-- O58. For every state with the host port's checker without an armed injection. In reset the port takes no request (that reset lasts until RESET_RELEASE is the model's reading, log entry 41); one begun while 8 wait is discarded with OVF. A request that is not yet answered waits at the end of the queue, LEVEL shows how many wait, and BUSY_N is low while 8 do; when its turn comes the oldest is answered first, and by when the operands say (log entry 39). The other clauses are for a port at which nothing else waits. A header with an invalid OP, SIZE or zero field is answered STATUS 3, with open words where it asks for a READ (log entry 20), and does nothing else; an uncorrectable header gets no response, sets HDR_UE and is told. A READ of 64-bit words that all can be read is answered STATUS 0 with the words, and changes nothing but the response and what the mailbox's ports keep; one that the region registers refuse gets STATUS 1 with as many open words, the refused address and a message; a READ of a mailbox word that port F has written in the same cycle is answered STATUS 0 with UNDEF, BUSY_N low and an open word, and is told. A WRITE of 64-bit words that all can be written stores exactly them and is answered STATUS 0; one whose data words have not all come performs nothing and gets no response; one with an uncorrectable word writes nothing and is answered STATUS 2; one that the region registers refuse writes nothing and is answered STATUS 1. A WRITE of one 32-bit word to register space does exactly what REGISTER_WRITE of that address and value by the host does. The example of R467 reads CLK_CHIP_ID with TAG 7. Every word of a response carries the check byte of the Hsiao code. -/
def Obligations.HostPortRequests : Prop :=
  let up (s : State) : Prop := s.elec.inReset = false ∧ s.bit (FLT_INJ_ARM 0x44) = false ∧ s.dbg.reqs = []
  let portFlds : List Fld := [HP_STAT_OPEN, HP_STAT_LEVEL]
  let shows (w : Nat) (t : State) : Prop := t.fld HP_STAT_OPEN = 1 ∧ t.fld HP_STAT_LEVEL = w
  let response (l : List (BitVec 64)) (undef : Bool) : HostResp := ⟨l.map hsiaoEnc, undef⟩
  let answered (l : List (BitVec 64)) (undef : Bool) (s t : State) : Prop := t.dbg = { s.dbg with resp := response l undef :: s.dbg.resp } ∧ shows 0 t
  let kept (s t : State) : Prop := t.mem = { s.mem with mbox := t.mem.mbox }
  let quiet (s t : State) : Prop := SameRegs portFlds s t ∧ kept s t ∧ t = { s with regs := t.regs, dbg := t.dbg, latches := t.latches, fresh := t.fresh, mem := t.mem }
  let clean (ds : List (BitVec 64)) : List ECWord := ds.map hsiaoEnc
  let words (a k : Nat) (s : State) : List (BitVec 64) := (List.range k).map fun i => BitVec.ofNat 64 (s.rd (a + 8 * i) 8)
  (∀ (s : State) (hdr : ECWord) (data : List ECWord) (w : Nat) (wait : Bool) (sh : Share), s.elec.inReset = true →
    exec (.hostRead hdr w wait sh) s = .next s ∧ exec (.hostWrite hdr data w wait sh) s = .next s) ∧
  (∀ (s : State) (hdr : ECWord) (data : List ECWord) (w : Nat) (wait : Bool) (sh : Share), s.elec.inReset = false → s.dbg.reqs.length = 8 → 8 ≤ w →
    ∃ t, exec (.hostRead hdr w wait sh) s = .next t ∧ exec (.hostWrite hdr data w wait sh) s = .next t ∧ SameRegs (HP_STAT_OVF :: portFlds) s t ∧
      t.fld HP_STAT_OVF = 1 ∧ shows 8 t ∧ t.hostFull = true ∧ t = { s with regs := t.regs }) ∧
  (∀ (s : State) (h : BitVec 64) (ds : List (BitVec 64)) (w : Nat) (sh : Share), s.elec.inReset = false → s.bit (FLT_INJ_ARM 0x44) = false →
    s.dbg.reqs.length < 8 → s.dbg.reqs.length ≤ w → reqBad h = false →
    let waits (l : List (BitVec 64)) (t : State) : Prop := SameRegs portFlds s t ∧ shows (s.dbg.reqs.length + 1) t ∧ t.hostFull = decide (s.dbg.reqs.length = 7) ∧
      t = { s with regs := t.regs, dbg := { s.dbg with reqs := s.dbg.reqs ++ [⟨h, l.map some, sh⟩] } }
    (reqOp h = 1 → ∃ t, exec (.hostRead (hsiaoEnc h) w true sh) s = .next t ∧ waits [] t) ∧
    (reqOp h = 2 → ds.length = reqCount h → ∃ t, exec (.hostWrite (hsiaoEnc h) (clean ds) w true sh) s = .next t ∧ waits ds t)) ∧
  (∀ (s : State) (q : HostReq) (rest : List HostReq) (h : BitVec 64) (wait : Bool) (sh : Share), s.elec.inReset = false → s.bit (FLT_INJ_ARM 0x44) = false →
    s.dbg.reqs = q :: rest → rest.length < 8 → reqBad h = false → reqOp h = 2 →
    reqBad q.hdr = false → reqOp q.hdr = 1 → reqSize q.hdr = 2 → (∀ i, i < reqCount q.hdr → (s.mboxBegin (reqAddr q.hdr) q.sh).readable .host (reqAddr q.hdr + 8 * i) 8 .read) → 0x10000000 ≤ reqAddr q.hdr →
    ∃ t, exec (.hostWrite (hsiaoEnc h) [] rest.length true sh) s = .next t ∧ quiet s t ∧ shows rest.length t ∧
      t.dbg = { s.dbg with reqs := rest, resp := response (respHdr q.hdr 0 :: words (reqAddr q.hdr) (reqCount q.hdr) s) false :: s.dbg.resp }) ∧
  (∀ (s : State) (h : BitVec 64) (ds : List (BitVec 64)) (w : Nat) (sh : Share), up s → reqBad h = true →
    ∃ t l, exec (.hostRead (hsiaoEnc h) w false sh) s = .next t ∧ exec (.hostWrite (hsiaoEnc h) [] w false sh) s = .next t ∧
      exec (.hostWrite (hsiaoEnc h) (clean ds) w false sh) s = .next t ∧ quiet s t ∧ answered (respHdr h 3 :: l) false s t ∧
      l.length = if reqOp h = 1 then reqCount h else 0) ∧
  (∀ (s : State) (hdr : ECWord) (data : List ECWord) (w : Nat) (wait : Bool) (sh : Share), up s → (hsiaoDec hdr).1 = .ue →
    ∃ t, exec (.hostRead hdr w wait sh) s = .next t ∧ exec (.hostWrite hdr data w wait sh) s = .next t ∧ SameRegs (HP_STAT_HDR_UE :: portFlds ++ msgFlds) s t ∧
      t.fld HP_STAT_HDR_UE = 1 ∧ Told 0x0C4 0x11 0 s t ∧ t = { s with regs := t.regs, sump := t.sump }) ∧
  (∀ (s : State) (h : BitVec 64) (w : Nat) (sh : Share), up s → reqBad h = false → reqOp h = 1 → reqSize h = 2 →
    (∀ i, i < reqCount h → (s.mboxBegin (reqAddr h) sh).readable .host (reqAddr h + 8 * i) 8 .read) →
    ∃ t, exec (.hostRead (hsiaoEnc h) w false sh) s = .next t ∧ quiet s t ∧ answered (respHdr h 0 :: words (reqAddr h) (reqCount h) s) false s t) ∧
  (∀ (s : State) (h : BitVec 64) (w : Nat) (sh : Share), up s → reqBad h = false → reqOp h = 1 → reqShapeBad h = false →
    s.regionOk .host (reqAddr h) (reqBytes h) .read = false →
    ∃ t l, exec (.hostRead (hsiaoEnc h) w false sh) s = .next t ∧ answered (respHdr h 1 :: l) false s t ∧ l.length = reqCount h ∧ t.fld MEM_REGION_ADDR = reqAddr h ∧
      Told 0x0F0 0x12 (reqAddr h / 16 * 16) s t ∧ SameRegs (portFlds ++ [MEM_REGION_ADDR, MEM_REGION_M_M, MEM_REGION_M_WR, MEM_CNT_REGION, MEM_CNT_OVF] ++ msgFlds) s t ∧
      kept s t ∧ t = { s with regs := t.regs, dbg := t.dbg, sump := t.sump, fresh := t.fresh, mem := t.mem }) ∧
  (∀ (s : State) (h : BitVec 64) (w : Nat) (sh : Share), up s → reqBad h = false → reqOp h = 1 → reqSize h = 2 → reqCount h = 1 →
    inMbox (reqAddr h) = true → reqAddr h % 8 = 0 → s.regionOk .host (reqAddr h) 8 .read = true → s.bit (FLT_INJ_ARM 0x46) = false →
    (s.mboxBegin (reqAddr h) sh).mem.mbox.wrote true (reqAddr h) = true →
    ∃ t v, exec (.hostRead (hsiaoEnc h) w false sh) s = .next t ∧ answered [respHdr h 0 ||| 0x1000000000, v] true s t ∧ Told 0x0F0 0x14 (reqAddr h) s t ∧ kept s t ∧
      (s.fld MEM_CNT_MBOX < 2 ^ MEM_CNT_MBOX.w - 1 → t.fld MEM_CNT_MBOX = s.fld MEM_CNT_MBOX + 1) ∧
      t = { s with regs := t.regs, dbg := t.dbg, sump := t.sump, fresh := t.fresh, mem := t.mem }) ∧
  (∀ (s : State) (h : BitVec 64) (ds : List (BitVec 64)) (w : Nat) (wait : Bool) (sh : Share), up s → reqBad h = false → reqOp h = 2 → ds.length < reqCount h →
    ∃ t, exec (.hostWrite (hsiaoEnc h) (clean ds) w wait sh) s = .next t ∧ OnlyRegs portFlds s t ∧ shows 0 t) ∧
  (∀ (s : State) (h : BitVec 64) (ds : List (BitVec 64)) (w : Nat) (sh : Share), up s → reqBad h = false → reqOp h = 2 → reqSize h = 2 → ds.length = reqCount h →
    (∀ i, i < reqCount h → (s.mboxBegin (reqAddr h) sh).writable .host (reqAddr h + 8 * i) 8) →
    ∃ t, exec (.hostWrite (hsiaoEnc h) (clean ds) w false sh) s = .next t ∧ answered [respHdr h 0] false s t ∧ SameRegs portFlds s t ∧
      t = { s with regs := t.regs, dbg := t.dbg, mem := t.mem } ∧ SameMemBut (reqAddr h) (8 * reqCount h) s t ∧
      ∀ i, i < reqCount h → t.rd (reqAddr h + 8 * i) 8 = (ds.getD i 0).toNat) ∧
  (∀ (s : State) (h : BitVec 64) (x : ECWord) (w : Nat) (sh : Share), up s → reqBad h = false → reqOp h = 2 → reqCount h = 1 → (hsiaoDec x).1 = .ue →
    ∃ t, exec (.hostWrite (hsiaoEnc h) [x] w false sh) s = .next t ∧ answered [respHdr h 2] false s t ∧ kept s t ∧ Told 0x0C4 0x11 0 s t ∧
      SameRegs (portFlds ++ msgFlds) s t ∧ t.ctl = s.ctl) ∧
  (∀ (s : State) (h : BitVec 64) (ds : List (BitVec 64)) (w : Nat) (sh : Share), up s → reqBad h = false → reqOp h = 2 → reqShapeBad h = false →
    ds.length = reqCount h → s.regionOk .host (reqAddr h) (reqBytes h) .write = false →
    ∃ t, exec (.hostWrite (hsiaoEnc h) (clean ds) w false sh) s = .next t ∧ answered [respHdr h 1] false s t ∧ kept s t ∧ t.ctl = s.ctl ∧ t.fld MEM_REGION_ADDR = reqAddr h ∧
      Told 0x0F0 0x12 (reqAddr h / 16 * 16) s t) ∧
  (∀ (s u : State) (h d : BitVec 64) (w : Nat) (sh : Share), up s → reqBad h = false → reqOp h = 2 → reqSize h = 1 → reqCount h = 1 → reqAddr h < 0x10000000 →
    exec (.registerWrite .host (BitVec.ofNat 32 (reqAddr h)) .word (d.extractLsb' 0 32)) ((s.setFld HP_STAT_OPEN 1).setFld HP_STAT_LEVEL 1) = .next u →
    ∃ t st, exec (.hostWrite (hsiaoEnc h) [hsiaoEnc d] w false sh) s = .next t ∧ (st = 0 ∨ st = 1) ∧ t.regs = (u.setFld HP_STAT_LEVEL u.dbg.reqs.length).regs ∧
      t = { u with regs := t.regs, dbg := { u.dbg with resp := response [respHdr h st] false :: u.dbg.resp } }) ∧
  (let s : State := { State.reset with elec := { State.reset.elec with inReset := false } }
   ∃ t w, exec (.hostRead (hsiaoEnc 0x1400070000000000) 0 false .no) s = .next t ∧ answered [0xA000070000000000, w] false s t ∧ w.toNat % 2 ^ 32 = 0x9600B001) ∧
  (∀ (l : List (BitVec 64)) (undef : Bool), (response l undef).cycles.length = 9 * l.length ∧ ∀ c ∈ (response l undef).cycles, c.frm = true ∧ c.busyN = !undef)

/-- O59. For every state. Loading EXTEST, CLAMP, HIGHZ, EXTEST_PULSE or EXTEST_TRAIN sets the latched block with cause DEBUG and hands the pins to boundary scan, so that BLOCK_OUT shows its cell of the boundary register, or nothing under HIGHZ; loading another of these afterwards keeps them and resets nothing (the model's reading, log entry 49). Loading any other instruction changes only the TAP when the core has the pins, IDCODE reading 0xB9600A4D and every unused code giving BYPASS, and resets the chip when boundary scan has them; that reset lasts until RESET_RELEASE (log entry 41). A DR scan that follows shifts the bits given into the register selected, the captured pins, the identification or the bypass bit, and what leaves it shows on TDO. TRST ends a debug session and selects IDCODE (the selection PRESUMED, log entry 46), and resets the chip when boundary scan has the pins. A KDA scan outside KDA has no effect; otherwise it shifts out the oldest response, answers a bad header with STATUS 3 (and open words, log entry 20), waits for the data words of a WRITE, answers with the words a READ that the session and the region registers allow, stores a WRITE that they allow, and answers a refused access STATUS 1 with BAD_ACCESS told and nothing changed but what the mailbox's ports keep. -/
def Obligations.BoundaryScanAndDebugAccess : Prop :=
  let after (ir : Nat) (boundary : Bool) (reg tdi : List Bool) (d : Dbg) : Dbg :=
    if tdi = [] then { d with ir := ir, tdo := if ir = 2 then 0xB9600A4D else 0 }
    else { d with ir := ir, tdo := lsbNat ((reg ++ tdi).take tdi.length), bsr := if boundary = true then (reg ++ tdi).drop tdi.length else d.bsr }
  let takes (pins tdi : List Bool) : List (Instr × Nat × Bool × List Bool) := [(.extest pins tdi, 0x00, true, pins), (.clamp tdi, 0x04, false, [false]), (.highz tdi, 0x05, false, [false]),
    (.extestPulse pins tdi, 0x08, true, pins), (.extestTrain pins tdi, 0x09, true, pins)]
  let gone (ir : Nat) (s t : State) : Prop := t.op = 0 ∧ t.elec.inReset = true ∧ t.dbg.scan = false ∧ t.dbg.ir = ir ∧ t.cells = s.cells ∧
    (s.ld.cmd = none → t.ld.flash = s.ld.flash) ∧ (∀ a, inMram a = true → t.byteAt a = s.byteAt a)
  let kept (s t : State) : Prop := t.mem = { s.mem with mbox := t.mem.mbox }
  let touched (s : State) : Sec := { s.sec with dbgTick := s.now }
  (∀ (s : State) (pins tdi : List Bool), ∀ p ∈ takes pins tdi, ∃ t, exec p.1 s = .next t ∧ t.dbg = { after p.2.1 p.2.2.1 p.2.2.2 tdi s.dbg with scan := true } ∧
    (3 ∉ s.elec.below → 10 ∉ s.elec.below → t.blockOutPin = if p.2.1 = 5 then .undriven else .driven (t.dbg.bsr.getD (Config.bsdlCell 0) false)) ∧
    (s.dbg.scan = false → Blocked 6 { s with dbg := t.dbg } t ∧ OnlyBlock [] { s with dbg := t.dbg } t) ∧
    (s.dbg.scan = true → t = { s with dbg := t.dbg })) ∧
  (∀ (s : State) (pins tdi : List Bool) (code : BitVec 8),
    (s.dbg.scan = false →
      exec (.samplePreload pins tdi) s = .next { s with dbg := after 0x01 true pins tdi { s.dbg with bsr := pins } } ∧
      exec (.idcode tdi) s = .next { s with dbg := after 0x02 false (lsbBits 32 0xB9600A4D) tdi s.dbg } ∧
      exec .kda s = .next { s with dbg := { s.dbg with ir := 0x10, tdo := 0 } } ∧
      exec (.bypass code tdi) s = .next { s with dbg := after 0x1F false [false] tdi s.dbg }) ∧
    (s.dbg.scan = true → ∀ p ∈ [(Instr.samplePreload pins tdi, 0x01), (.idcode tdi, 0x02), (.kda, 0x10), (.bypass code tdi, 0x1F)],
      ∃ t, exec p.1 s = .next t ∧ gone p.2 s t)) ∧
  (∀ s : State,
    (s.dbg.scan = false → s.fld SEC_STAT_DBG_LEVEL = 0 → exec .trst s = .next { s with dbg := { s.dbg with ir := 2, tdo := 0xB9600A4D, kda := [], kdaReq := none } }) ∧
    (s.dbg.scan = false → s.fld SEC_STAT_DBG_LEVEL ≠ 0 → ∃ t, exec .trst s = .next t ∧ t.fld SEC_STAT_DBG_LEVEL = 0 ∧ t.seq.halt = false ∧
      t.fld DBG_PIPE_HALTED = 0 ∧ t.mem = s.mem ∧ t.op = s.op ∧ t.dbg = { s.dbg with ir := 2, tdo := 0xB9600A4D, kda := [], kdaReq := none }) ∧
    (s.dbg.scan = true → ∃ t, exec .trst s = .next t ∧ gone 2 s t)) ∧
  (∀ (s : State) (w : ECWord), (s.dbg.ir ≠ 0x10 ∨ s.elec.inReset = true) → exec (.kdaScan w) s = .next s) ∧
  (∀ (s : State) (h d : BitVec 64) (o : BitVec 72) (rest : List (BitVec 72)), s.dbg.ir = 0x10 → s.elec.inReset = false → s.bit (FLT_INJ_ARM 0x45) = false → s.dbg.kda = o :: rest →
    let out (q : Option (BitVec 64 × List (Option (BitVec 64)))) (l : List (BitVec 64)) (s t : State) : Prop :=
      t.dbg = { s.dbg with tdo := o.toNat, kda := rest ++ l.map hsiaoEnc, kdaReq := q }
    let own (s : State) : State := s.mboxBegin (reqAddr h) .no
    (s.dbg.kdaReq = none → reqBad h = true → ∃ t l, exec (.kdaScan (hsiaoEnc h)) s = .next t ∧ out none (respHdr h 3 :: l) s t ∧
      (l.length = if reqOp h = 1 then reqCount h else 0) ∧ t = { s with dbg := t.dbg, fresh := t.fresh }) ∧
    (s.dbg.kdaReq = none → reqBad h = false → reqOp h = 2 → ∃ t, exec (.kdaScan (hsiaoEnc h)) s = .next t ∧ out (some (h, [])) [] s t ∧ t = { s with dbg := t.dbg }) ∧
    (s.dbg.kdaReq = none → reqBad h = false → reqOp h = 1 → reqSize h = 2 → reqCount h = 1 → s.kdaAllowed (reqAddr h) false = true → (own s).readable .debug (reqAddr h) 8 .read →
      ∃ t, exec (.kdaScan (hsiaoEnc h)) s = .next t ∧ out none [respHdr h 0, BitVec.ofNat 64 (s.rd (reqAddr h) 8)] s t ∧ kept s t ∧
        t = { s with dbg := t.dbg, mem := t.mem, sec := touched s }) ∧
    (s.dbg.kdaReq = none → reqBad h = false → reqOp h = 1 → s.kdaAllowed (reqAddr h) false = false →
      ∃ t l, exec (.kdaScan (hsiaoEnc h)) s = .next t ∧ out none (respHdr h 1 :: l) s t ∧ l.length = reqCount h ∧ Told 0x0F0 0x01 0 s t ∧ kept s t ∧
        SameRegs msgFlds s t ∧ t = { s with regs := t.regs, dbg := t.dbg, sump := t.sump, fresh := t.fresh, mem := t.mem }) ∧
    (s.dbg.kdaReq = some (h, []) → reqBad h = false → reqOp h = 2 → reqCount h = 1 → s.kdaAllowed (reqAddr h) true = false →
      ∃ t, exec (.kdaScan (hsiaoEnc d)) s = .next t ∧ out none [respHdr h 1] s t ∧ Told 0x0F0 0x01 0 s t ∧ kept s t ∧ SameRegs msgFlds s t) ∧
    (s.dbg.kdaReq = some (h, []) → reqBad h = false → reqOp h = 2 → reqSize h = 2 → reqCount h = 1 → s.kdaAllowed (reqAddr h) true = true → (own s).writable .debug (reqAddr h) 8 →
      ∃ t, exec (.kdaScan (hsiaoEnc d)) s = .next t ∧ out none [respHdr h 0] s t ∧ t.rd (reqAddr h) 8 = d.toNat ∧ SameMemBut (reqAddr h) 8 s t ∧
        t = { s with dbg := t.dbg, mem := t.mem, sec := touched s }))

/-- O60. For every state. Every command of debug access that is allowed restarts the idle time of the session. Every halt, step and resume command below level 2 is refused with BAD_ACCESS and changes nothing. At level 2 a running sequencer halts with MODE 4 and every register and the pc kept, and sets the latched block with cause DEBUG where HALT_BLOCK asks for it; a halted one resumes; one that does not run, or a command that asks for what already is, has no effect. A STEP of a halted sequencer executes one instruction, shown for an ADDI that is fetched without obstacle, and the sequencer stays halted. An enabled breakpoint at the pc halts a running sequencer with its number. The tick pipeline halts only in BENCH, with cause DEBUG; RESUME ends the halt and drops the ticks left; STEP sets the ticks left to its COUNT only while the pipeline is halted; a COUNT of 0 is a reserved encoding, told as BAD_VALUE from a source that is the model's choice (log entry 8), and what a STEP sets LEFT to is the model's reading (log entry 50). -/
def Obligations.HaltsAndBreakpoints : Prop :=
  let kept (s t : State) : Prop := t.seq.x = s.seq.x ∧ t.seq.pc = s.seq.pc ∧ t.mem = s.mem ∧ t.op = s.op ∧ t.cells = s.cells ∧ t.ctl = s.ctl
  let touched (s : State) : State := { s with sec := { s.sec with dbgTick := s.now } }
  let runs (s : State) : Prop := s.seq.run = true ∧ s.seq.dead = false ∧ s.seq.halt = false
  let halted (fs : List Fld) (s t : State) : Prop := t.seq = { s.seq with halt := true } ∧ t.fld DBG_SEQ_HALTED = 1 ∧ t.fld SEQ_STAT_MODE = 4 ∧ kept s t ∧
    (s.bit DBG_HALT_BLOCK_EN = true → Blocked 6 s t) ∧
    (s.bit DBG_HALT_BLOCK_EN = false → SameRegs (fs ++ [DBG_SEQ_HALTED, SEQ_STAT_MODE, SEQ_STAT_NMI_PEND]) s t ∧ t = { s with regs := t.regs, seq := t.seq, sec := t.sec })
  (∀ (s : State) (count : Fin 256), s.dbgLevel ≠ 2 →
    ∀ c ∈ [Instr.seqHalt, .seqResume, .seqStep, .pipeHalt, .pipeResume, .pipeStep count],
      ∃ t, exec c s = .next t ∧ t = { s with regs := t.regs, sump := t.sump } ∧ SameRegs msgFlds s t ∧ Told 0x0F0 0x01 0 s t) ∧
  (∀ s : State, s.dbgLevel = 2 →
    (runs s → ∃ t, exec .seqHalt s = .next t ∧ t.sec = (touched s).sec ∧ halted [] s t) ∧
    ((s.seq.run = false ∨ s.seq.dead = true ∨ s.seq.halt = true) → exec .seqHalt s = .next (touched s)) ∧
    (s.seq.halt = false → exec .seqResume s = .next (touched s)) ∧
    (s.seq.halt = true → ∃ t, exec .seqResume s = .next t ∧ t.seq = { s.seq with halt := false, pass := true } ∧ t.fld DBG_SEQ_HALTED = 0 ∧ kept s t ∧
      SameRegs [DBG_SEQ_HALTED, SEQ_STAT_MODE, SEQ_STAT_NMI_PEND] s t ∧ t = { touched s with regs := t.regs, seq := t.seq }) ∧
    ((s.seq.run = false ∨ s.seq.dead = true ∨ s.seq.halt = false ∨ s.seq.wait ≠ none) → exec .seqStep s = .next (touched s)) ∧
    (∀ (rd ra : Fin 16) (imm : BitVec 18), s.seq.run = true → s.seq.dead = false → s.seq.halt = true → s.seq.wait = none →
      s.readable .sequencer s.seq.pc 4 .fetch → seqDecode (BitVec.ofNat 32 (s.rd s.seq.pc 4)) = some (.addi rd ra imm) →
      ∃ t, exec .seqStep s = .next t ∧ t.seq.halt = true ∧ t.seq.pc = (s.seq.pc + 4) % 2 ^ 32 ∧ (rd ≠ 0 → t.sx rd = (s.sx ra + wrap imm.toInt 32) % 2 ^ 32) ∧
        (∀ r : Fin 16, r ≠ rd → t.sx r = s.sx r) ∧ t.mem = s.mem ∧ t.fld SEQ_STAT_MODE = 4)) ∧
  (∀ s : State, (s.seq.run = false ∨ s.seq.dead = true ∨ s.seq.halt = true ∨ s.seq.wait ≠ none ∨ s.breakHere = none) → exec .breakpointHit s = .next s) ∧
  (∀ (s : State) (i : Nat), runs s → s.seq.wait = none → s.breakHere = some i → ∃ t, exec .breakpointHit s = .next t ∧ t.fld DBG_SEQ_BP_HIT = 1 ∧ t.fld DBG_SEQ_BP = i ∧ t.sec = s.sec ∧
    halted [DBG_SEQ_BP_HIT, DBG_SEQ_BP] s t) ∧
  (∀ (s : State) (i : Nat), s.breakHere = some i → i < 4 ∧ s.seq.pass = false ∧ s.dbgLevel = 2 ∧ s.bit (DBG_BP_EN i) = true ∧ s.fld (DBG_BP_ADDR i) = s.seq.pc / 4) ∧
  (∀ s : State, s.dbgLevel = 2 → 1 ≤ s.fld DBG_PIPE_COUNT → s.fld DBG_PIPE_COUNT ≤ 255 →
    (s.op = 8 → s.bit DBG_PIPE_HALTED = false → ∃ t, exec .pipeHalt s = .next t ∧ t.fld DBG_PIPE_HALTED = 1 ∧ t.fld DBG_PIPE_LEFT = 0 ∧ Blocked 6 s t ∧ kept s t ∧
      OnlyBlock [DBG_PIPE_HALTED, DBG_PIPE_LEFT] (touched s) t) ∧
    (s.op ≠ 8 → ∃ t, exec .pipeHalt s = .next t ∧ OnlyRegs [] (touched s) t) ∧
    (∃ t, exec .pipeResume s = .next t ∧ OnlyRegs [DBG_PIPE_HALTED, DBG_PIPE_LEFT] (touched s) t ∧ t.fld DBG_PIPE_HALTED = 0 ∧ t.fld DBG_PIPE_LEFT = 0) ∧
    (∃ t, exec (.pipeStep 0) s = .next t ∧ Told 0x0F0 0x03 0 s t ∧ t.fld DBG_PIPE_COUNT = s.fld DBG_PIPE_COUNT) ∧
    ∀ count : Fin 256, count ≠ 0 → ∃ t, exec (.pipeStep count) s = .next t ∧ OnlyRegs [DBG_PIPE_COUNT, DBG_PIPE_LEFT] (touched s) t ∧ t.fld DBG_PIPE_COUNT = count ∧
      (s.bit DBG_PIPE_HALTED = true → t.fld DBG_PIPE_LEFT = count) ∧ (s.bit DBG_PIPE_HALTED = false → t.fld DBG_PIPE_LEFT = s.fld DBG_PIPE_LEFT))
end

