-- ==== Sys2Proof/Laws/Bits.lean ====
section
/-! SUPPORT. Bits of numbers: setting, clearing and cutting. -/
namespace Sys2Proof.Machine
open Sys2Proof

theorem tbit_eq_testBit (x i : Nat) : tbit x i = x.testBit i := by
  rw [Nat.testBit_eq_decide_div_mod_eq]
  unfold tbit
  rw [Bool.eq_iff_iff]; simp

theorem tbit_mod (x i w : Nat) (h : i < w) : tbit (x % 2 ^ w) i = tbit x i := by
  simp [tbit_eq_testBit, Nat.testBit_mod_two_pow, h]

/-- Adding a power of two whose bit is clear sets that bit alone. -/
theorem tbit_add (x i j : Nat) (h : tbit x i = false) : tbit (x + 2 ^ i) j = (tbit x j || decide (i = j)) := by
  have p : 0 < 2 ^ i := Nat.two_pow_pos i
  rcases Nat.lt_trichotomy j i with g | g | g
  · rw [Nat.add_comm, tbit_eq_testBit, tbit_eq_testBit, Nat.testBit_two_pow_add_gt g]
    simp [show i ≠ j by omega]
  · subst g
    rw [Nat.add_comm, tbit_eq_testBit, Nat.testBit_two_pow_add_eq, ← tbit_eq_testBit, h]
    simp
  · simp only [show i ≠ j by omega, decide_false, Bool.or_false]
    have e : (x + 2 ^ i) / 2 ^ (i + 1) = x / 2 ^ (i + 1) := by
      rw [Nat.pow_succ, ← Nat.div_div_eq_div_mul, ← Nat.div_div_eq_div_mul, Nat.add_div_right _ p]
      simp only [tbit, beq_eq_false_iff_ne, ne_eq] at h
      omega
    obtain ⟨k, rfl⟩ := Nat.exists_eq_add_of_lt g
    unfold tbit
    rw [show 2 ^ (i + k + 1) = 2 ^ (i + 1) * 2 ^ k by rw [← Nat.pow_add]; congr 1; omega, ← Nat.div_div_eq_div_mul, e,
      Nat.div_div_eq_div_mul]

theorem tbit_setBit_eq (x i j : Nat) : tbit (setBit x i) j = (tbit x j || decide (i = j)) := by
  unfold setBit
  split
  · rename_i h
    by_cases e : i = j
    · subst e; simp [h]
    · simp [e]
  · rename_i h
    exact tbit_add x i j (by simpa using h)

theorem tbit_setBit (x i : Nat) : tbit (setBit x i) i = true := by simp [tbit_setBit_eq]

theorem tbit_clrBit_eq (x i j : Nat) : tbit (clrBit x i) j = (tbit x j && decide (i ≠ j)) := by
  unfold clrBit
  split
  · rename_i h
    have p : 0 < 2 ^ i := Nat.two_pow_pos i
    have hx : 2 ^ i ≤ x := by
      by_contra hlt
      simp [tbit, Nat.div_eq_of_lt (Nat.lt_of_not_le hlt)] at h
    have hc : tbit (x - 2 ^ i) i = false := by
      have e := Nat.add_div_right (x - 2 ^ i) p
      rw [Nat.sub_add_cancel hx] at e
      simp only [tbit, beq_iff_eq, beq_eq_false_iff_ne, ne_eq] at h ⊢
      omega
    have := tbit_add (x - 2 ^ i) i j hc
    rw [Nat.sub_add_cancel hx] at this
    by_cases e : i = j
    · subst e; simp [hc]
    · simp [e] at this ⊢; exact this.symm
  · rename_i h
    by_cases e : i = j
    · subst e; simp at h; simp [h]
    · simp [e]

/-- Bit i of the pending events after a list of bits has been set. -/
theorem tbit_foldl_setBit (l : List Nat) : ∀ (x j : Nat), tbit (l.foldl setBit x) j = (tbit x j || decide (j ∈ l)) := by
  induction l with
  | nil => intro x j; simp
  | cons a t ih =>
    intro x j
    rw [List.foldl_cons, ih, tbit_setBit_eq]
    by_cases h : a = j
    · subst h; simp
    · simp [h, Ne.symm h]

end Sys2Proof.Machine
end

