-- ==== Sys2Proof/Laws/Tables.lean ====
section
/-! SUPPORT. Laws of the sparse tables: a read after a write. -/
namespace Sys2Proof.Machine
open Sys2Proof

theorem mget_mput {α : Type} (d x : α) (m : NMap α) (i j : Nat) :
    mget d (mput m i x) j = if i = j then x else mget d m j := by
  induction m with
  | nil => simp [mput, mget]
  | cons p t ih =>
    obtain ⟨k, v⟩ := p
    by_cases h1 : i < k
    · simp [mput, h1, mget]
    · by_cases h2 : i = k
      · subst h2; by_cases h3 : i = j <;> simp [mput, mget, h3]
      · by_cases h3 : k = j
        · subst h3; simp [mput, mget, h1, h2]
        · simp [mput, mget, h1, h2, h3, ih]

theorem mget_mdel {α : Type} (d : α) (m : NMap α) (i j : Nat) :
    mget d (mdel m i) j = if i = j then d else mget d m j := by
  induction m with
  | nil => simp [mdel, mget]
  | cons p t ih =>
    obtain ⟨k, v⟩ := p
    by_cases h2 : k = i
    · subst h2; by_cases h3 : k = j <;> simp_all [mdel, mget]
    · by_cases h3 : k = j
      · subst h3; simp [mdel, mget, h2, Ne.symm h2]
      · simp [mdel, mget, h2, h3, ih]

/-- A read after a write. -/
theorem mget_mset {α : Type} [DecidableEq α] (d x : α) (m : NMap α) (i j : Nat) :
    mget d (mset d m i x) j = if i = j then x else mget d m j := by
  unfold mset
  split
  · rename_i h; subst h; simp [mget_mdel]
  · simp [mget_mput]

@[simp] theorem mget_mset_same {α : Type} [DecidableEq α] (d x : α) (m : NMap α) (i : Nat) :
    mget d (mset d m i x) i = x := by simp [mget_mset]

theorem mget_mset_ne {α : Type} [DecidableEq α] (d x : α) (m : NMap α) {i j : Nat} (h : i ≠ j) :
    mget d (mset d m i x) j = mget d m j := by simp [mget_mset, h]

/-- The default that a table is read with matters only at absent keys, so that a write at another key never shows. -/
theorem mget_mset_other {α : Type} [DecidableEq α] (d e x : α) (m : NMap α) {i j : Nat} (h : i ≠ j) :
    mget e (mset d m i x) j = mget e m j := by
  unfold mset
  split
  · simp [mget_mdel, h]
  · simp [mget_mput, h]

end Sys2Proof.Machine
end

