-- ==== Sys2Proof/Laws/State.lean ====
section
/-! SUPPORT. What the named updates of State leave alone: one lemma for each field and update. -/
namespace Sys2Proof.Machine
open Sys2Proof

@[simp] theorem setFld_latches (s : State) (f : Fld) (v : Nat) : (s.setFld f v).latches = s.latches := rfl
@[simp] theorem setFld_mem (s : State) (f : Fld) (v : Nat) : (s.setFld f v).mem = s.mem := rfl
@[simp] theorem setFld_ctl (s : State) (f : Fld) (v : Nat) : (s.setFld f v).ctl = s.ctl := rfl
@[simp] theorem setFld_lanes (s : State) (f : Fld) (v : Nat) : (s.setFld f v).lanes = s.lanes := rfl
@[simp] theorem setFld_cmp (s : State) (f : Fld) (v : Nat) : (s.setFld f v).cmp = s.cmp := rfl
@[simp] theorem setFld_ccell (s : State) (f : Fld) (v : Nat) : (s.setFld f v).ccell = s.ccell := rfl
@[simp] theorem setFld_pdly (s : State) (f : Fld) (v : Nat) : (s.setFld f v).pdly = s.pdly := rfl
@[simp] theorem setFld_hubs (s : State) (f : Fld) (v : Nat) : (s.setFld f v).hubs = s.hubs := rfl
@[simp] theorem setFld_cells (s : State) (f : Fld) (v : Nat) : (s.setFld f v).cells = s.cells := rfl
@[simp] theorem setFld_sel (s : State) (f : Fld) (v : Nat) : (s.setFld f v).sel = s.sel := rfl
@[simp] theorem setFld_selArm (s : State) (f : Fld) (v : Nat) : (s.setFld f v).selArm = s.selArm := rfl
@[simp] theorem setFld_excl (s : State) (f : Fld) (v : Nat) : (s.setFld f v).excl = s.excl := rfl
@[simp] theorem setFld_pln (s : State) (f : Fld) (v : Nat) : (s.setFld f v).pln = s.pln := rfl
@[simp] theorem setFld_pat (s : State) (f : Fld) (v : Nat) : (s.setFld f v).pat = s.pat := rfl
@[simp] theorem setFld_eng (s : State) (f : Fld) (v : Nat) : (s.setFld f v).eng = s.eng := rfl
@[simp] theorem setFld_prot (s : State) (f : Fld) (v : Nat) : (s.setFld f v).prot = s.prot := rfl
@[simp] theorem setFld_concs (s : State) (f : Fld) (v : Nat) : (s.setFld f v).concs = s.concs := rfl
@[simp] theorem setFld_sns (s : State) (f : Fld) (v : Nat) : (s.setFld f v).sns = s.sns := rfl
@[simp] theorem setFld_time (s : State) (f : Fld) (v : Nat) : (s.setFld f v).time = s.time := rfl
@[simp] theorem setFld_red (s : State) (f : Fld) (v : Nat) : (s.setFld f v).red = s.red := rfl
@[simp] theorem setFld_sump (s : State) (f : Fld) (v : Nat) : (s.setFld f v).sump = s.sump := rfl
@[simp] theorem setFld_acq (s : State) (f : Fld) (v : Nat) : (s.setFld f v).acq = s.acq := rfl
@[simp] theorem setFld_nrg (s : State) (f : Fld) (v : Nat) : (s.setFld f v).nrg = s.nrg := rfl
@[simp] theorem setFld_sec (s : State) (f : Fld) (v : Nat) : (s.setFld f v).sec = s.sec := rfl
@[simp] theorem setFld_stn (s : State) (f : Fld) (v : Nat) : (s.setFld f v).stn = s.stn := rfl
@[simp] theorem setFld_ld (s : State) (f : Fld) (v : Nat) : (s.setFld f v).ld = s.ld := rfl
@[simp] theorem setFld_seq (s : State) (f : Fld) (v : Nat) : (s.setFld f v).seq = s.seq := rfl
@[simp] theorem setFld_dbg (s : State) (f : Fld) (v : Nat) : (s.setFld f v).dbg = s.dbg := rfl
@[simp] theorem setFld_elec (s : State) (f : Fld) (v : Nat) : (s.setFld f v).elec = s.elec := rfl
@[simp] theorem setFld_fresh (s : State) (f : Fld) (v : Nat) : (s.setFld f v).fresh = s.fresh := rfl
@[simp] theorem setFld_pending (s : State) (f : Fld) (v : Nat) : (s.setFld f v).pending = s.pending := rfl

@[simp] theorem flag_latches (s : State) (f : Fld) : (s.flag f).latches = s.latches := rfl
@[simp] theorem flag_mem (s : State) (f : Fld) : (s.flag f).mem = s.mem := rfl
@[simp] theorem flag_ctl (s : State) (f : Fld) : (s.flag f).ctl = s.ctl := rfl
@[simp] theorem flag_lanes (s : State) (f : Fld) : (s.flag f).lanes = s.lanes := rfl
@[simp] theorem flag_cmp (s : State) (f : Fld) : (s.flag f).cmp = s.cmp := rfl
@[simp] theorem flag_ccell (s : State) (f : Fld) : (s.flag f).ccell = s.ccell := rfl
@[simp] theorem flag_pdly (s : State) (f : Fld) : (s.flag f).pdly = s.pdly := rfl
@[simp] theorem flag_hubs (s : State) (f : Fld) : (s.flag f).hubs = s.hubs := rfl
@[simp] theorem flag_cells (s : State) (f : Fld) : (s.flag f).cells = s.cells := rfl
@[simp] theorem flag_sel (s : State) (f : Fld) : (s.flag f).sel = s.sel := rfl
@[simp] theorem flag_selArm (s : State) (f : Fld) : (s.flag f).selArm = s.selArm := rfl
@[simp] theorem flag_excl (s : State) (f : Fld) : (s.flag f).excl = s.excl := rfl
@[simp] theorem flag_pln (s : State) (f : Fld) : (s.flag f).pln = s.pln := rfl
@[simp] theorem flag_pat (s : State) (f : Fld) : (s.flag f).pat = s.pat := rfl
@[simp] theorem flag_eng (s : State) (f : Fld) : (s.flag f).eng = s.eng := rfl
@[simp] theorem flag_prot (s : State) (f : Fld) : (s.flag f).prot = s.prot := rfl
@[simp] theorem flag_concs (s : State) (f : Fld) : (s.flag f).concs = s.concs := rfl
@[simp] theorem flag_sns (s : State) (f : Fld) : (s.flag f).sns = s.sns := rfl
@[simp] theorem flag_time (s : State) (f : Fld) : (s.flag f).time = s.time := rfl
@[simp] theorem flag_red (s : State) (f : Fld) : (s.flag f).red = s.red := rfl
@[simp] theorem flag_sump (s : State) (f : Fld) : (s.flag f).sump = s.sump := rfl
@[simp] theorem flag_acq (s : State) (f : Fld) : (s.flag f).acq = s.acq := rfl
@[simp] theorem flag_nrg (s : State) (f : Fld) : (s.flag f).nrg = s.nrg := rfl
@[simp] theorem flag_sec (s : State) (f : Fld) : (s.flag f).sec = s.sec := rfl
@[simp] theorem flag_stn (s : State) (f : Fld) : (s.flag f).stn = s.stn := rfl
@[simp] theorem flag_ld (s : State) (f : Fld) : (s.flag f).ld = s.ld := rfl
@[simp] theorem flag_seq (s : State) (f : Fld) : (s.flag f).seq = s.seq := rfl
@[simp] theorem flag_dbg (s : State) (f : Fld) : (s.flag f).dbg = s.dbg := rfl
@[simp] theorem flag_elec (s : State) (f : Fld) : (s.flag f).elec = s.elec := rfl
@[simp] theorem flag_fresh (s : State) (f : Fld) : (s.flag f).fresh = s.fresh := rfl
@[simp] theorem flag_pending (s : State) (f : Fld) : (s.flag f).pending = s.pending := rfl

@[simp] theorem flagBit_latches (s : State) (f : Fld) (i : Nat) : (s.flagBit f i).latches = s.latches := rfl
@[simp] theorem flagBit_mem (s : State) (f : Fld) (i : Nat) : (s.flagBit f i).mem = s.mem := rfl
@[simp] theorem flagBit_ctl (s : State) (f : Fld) (i : Nat) : (s.flagBit f i).ctl = s.ctl := rfl
@[simp] theorem flagBit_lanes (s : State) (f : Fld) (i : Nat) : (s.flagBit f i).lanes = s.lanes := rfl
@[simp] theorem flagBit_cmp (s : State) (f : Fld) (i : Nat) : (s.flagBit f i).cmp = s.cmp := rfl
@[simp] theorem flagBit_ccell (s : State) (f : Fld) (i : Nat) : (s.flagBit f i).ccell = s.ccell := rfl
@[simp] theorem flagBit_pdly (s : State) (f : Fld) (i : Nat) : (s.flagBit f i).pdly = s.pdly := rfl
@[simp] theorem flagBit_hubs (s : State) (f : Fld) (i : Nat) : (s.flagBit f i).hubs = s.hubs := rfl
@[simp] theorem flagBit_cells (s : State) (f : Fld) (i : Nat) : (s.flagBit f i).cells = s.cells := rfl
@[simp] theorem flagBit_sel (s : State) (f : Fld) (i : Nat) : (s.flagBit f i).sel = s.sel := rfl
@[simp] theorem flagBit_selArm (s : State) (f : Fld) (i : Nat) : (s.flagBit f i).selArm = s.selArm := rfl
@[simp] theorem flagBit_excl (s : State) (f : Fld) (i : Nat) : (s.flagBit f i).excl = s.excl := rfl
@[simp] theorem flagBit_pln (s : State) (f : Fld) (i : Nat) : (s.flagBit f i).pln = s.pln := rfl
@[simp] theorem flagBit_pat (s : State) (f : Fld) (i : Nat) : (s.flagBit f i).pat = s.pat := rfl
@[simp] theorem flagBit_eng (s : State) (f : Fld) (i : Nat) : (s.flagBit f i).eng = s.eng := rfl
@[simp] theorem flagBit_prot (s : State) (f : Fld) (i : Nat) : (s.flagBit f i).prot = s.prot := rfl
@[simp] theorem flagBit_concs (s : State) (f : Fld) (i : Nat) : (s.flagBit f i).concs = s.concs := rfl
@[simp] theorem flagBit_sns (s : State) (f : Fld) (i : Nat) : (s.flagBit f i).sns = s.sns := rfl
@[simp] theorem flagBit_time (s : State) (f : Fld) (i : Nat) : (s.flagBit f i).time = s.time := rfl
@[simp] theorem flagBit_red (s : State) (f : Fld) (i : Nat) : (s.flagBit f i).red = s.red := rfl
@[simp] theorem flagBit_sump (s : State) (f : Fld) (i : Nat) : (s.flagBit f i).sump = s.sump := rfl
@[simp] theorem flagBit_acq (s : State) (f : Fld) (i : Nat) : (s.flagBit f i).acq = s.acq := rfl
@[simp] theorem flagBit_nrg (s : State) (f : Fld) (i : Nat) : (s.flagBit f i).nrg = s.nrg := rfl
@[simp] theorem flagBit_sec (s : State) (f : Fld) (i : Nat) : (s.flagBit f i).sec = s.sec := rfl
@[simp] theorem flagBit_stn (s : State) (f : Fld) (i : Nat) : (s.flagBit f i).stn = s.stn := rfl
@[simp] theorem flagBit_ld (s : State) (f : Fld) (i : Nat) : (s.flagBit f i).ld = s.ld := rfl
@[simp] theorem flagBit_seq (s : State) (f : Fld) (i : Nat) : (s.flagBit f i).seq = s.seq := rfl
@[simp] theorem flagBit_dbg (s : State) (f : Fld) (i : Nat) : (s.flagBit f i).dbg = s.dbg := rfl
@[simp] theorem flagBit_elec (s : State) (f : Fld) (i : Nat) : (s.flagBit f i).elec = s.elec := rfl
@[simp] theorem flagBit_fresh (s : State) (f : Fld) (i : Nat) : (s.flagBit f i).fresh = s.fresh := rfl
@[simp] theorem flagBit_pending (s : State) (f : Fld) (i : Nat) : (s.flagBit f i).pending = s.pending := rfl

@[simp] theorem unflagBit_latches (s : State) (f : Fld) (i : Nat) : (s.unflagBit f i).latches = s.latches := rfl
@[simp] theorem unflagBit_mem (s : State) (f : Fld) (i : Nat) : (s.unflagBit f i).mem = s.mem := rfl
@[simp] theorem unflagBit_ctl (s : State) (f : Fld) (i : Nat) : (s.unflagBit f i).ctl = s.ctl := rfl
@[simp] theorem unflagBit_lanes (s : State) (f : Fld) (i : Nat) : (s.unflagBit f i).lanes = s.lanes := rfl
@[simp] theorem unflagBit_cmp (s : State) (f : Fld) (i : Nat) : (s.unflagBit f i).cmp = s.cmp := rfl
@[simp] theorem unflagBit_ccell (s : State) (f : Fld) (i : Nat) : (s.unflagBit f i).ccell = s.ccell := rfl
@[simp] theorem unflagBit_pdly (s : State) (f : Fld) (i : Nat) : (s.unflagBit f i).pdly = s.pdly := rfl
@[simp] theorem unflagBit_hubs (s : State) (f : Fld) (i : Nat) : (s.unflagBit f i).hubs = s.hubs := rfl
@[simp] theorem unflagBit_cells (s : State) (f : Fld) (i : Nat) : (s.unflagBit f i).cells = s.cells := rfl
@[simp] theorem unflagBit_sel (s : State) (f : Fld) (i : Nat) : (s.unflagBit f i).sel = s.sel := rfl
@[simp] theorem unflagBit_selArm (s : State) (f : Fld) (i : Nat) : (s.unflagBit f i).selArm = s.selArm := rfl
@[simp] theorem unflagBit_excl (s : State) (f : Fld) (i : Nat) : (s.unflagBit f i).excl = s.excl := rfl
@[simp] theorem unflagBit_pln (s : State) (f : Fld) (i : Nat) : (s.unflagBit f i).pln = s.pln := rfl
@[simp] theorem unflagBit_pat (s : State) (f : Fld) (i : Nat) : (s.unflagBit f i).pat = s.pat := rfl
@[simp] theorem unflagBit_eng (s : State) (f : Fld) (i : Nat) : (s.unflagBit f i).eng = s.eng := rfl
@[simp] theorem unflagBit_prot (s : State) (f : Fld) (i : Nat) : (s.unflagBit f i).prot = s.prot := rfl
@[simp] theorem unflagBit_concs (s : State) (f : Fld) (i : Nat) : (s.unflagBit f i).concs = s.concs := rfl
@[simp] theorem unflagBit_sns (s : State) (f : Fld) (i : Nat) : (s.unflagBit f i).sns = s.sns := rfl
@[simp] theorem unflagBit_time (s : State) (f : Fld) (i : Nat) : (s.unflagBit f i).time = s.time := rfl
@[simp] theorem unflagBit_red (s : State) (f : Fld) (i : Nat) : (s.unflagBit f i).red = s.red := rfl
@[simp] theorem unflagBit_sump (s : State) (f : Fld) (i : Nat) : (s.unflagBit f i).sump = s.sump := rfl
@[simp] theorem unflagBit_acq (s : State) (f : Fld) (i : Nat) : (s.unflagBit f i).acq = s.acq := rfl
@[simp] theorem unflagBit_nrg (s : State) (f : Fld) (i : Nat) : (s.unflagBit f i).nrg = s.nrg := rfl
@[simp] theorem unflagBit_sec (s : State) (f : Fld) (i : Nat) : (s.unflagBit f i).sec = s.sec := rfl
@[simp] theorem unflagBit_stn (s : State) (f : Fld) (i : Nat) : (s.unflagBit f i).stn = s.stn := rfl
@[simp] theorem unflagBit_ld (s : State) (f : Fld) (i : Nat) : (s.unflagBit f i).ld = s.ld := rfl
@[simp] theorem unflagBit_seq (s : State) (f : Fld) (i : Nat) : (s.unflagBit f i).seq = s.seq := rfl
@[simp] theorem unflagBit_dbg (s : State) (f : Fld) (i : Nat) : (s.unflagBit f i).dbg = s.dbg := rfl
@[simp] theorem unflagBit_elec (s : State) (f : Fld) (i : Nat) : (s.unflagBit f i).elec = s.elec := rfl
@[simp] theorem unflagBit_fresh (s : State) (f : Fld) (i : Nat) : (s.unflagBit f i).fresh = s.fresh := rfl
@[simp] theorem unflagBit_pending (s : State) (f : Fld) (i : Nat) : (s.unflagBit f i).pending = s.pending := rfl

@[simp] theorem seqEvent_latches (s : State) (i : Nat) : (s.seqEvent i).latches = s.latches := rfl
@[simp] theorem seqEvent_mem (s : State) (i : Nat) : (s.seqEvent i).mem = s.mem := rfl
@[simp] theorem seqEvent_ctl (s : State) (i : Nat) : (s.seqEvent i).ctl = s.ctl := rfl
@[simp] theorem seqEvent_lanes (s : State) (i : Nat) : (s.seqEvent i).lanes = s.lanes := rfl
@[simp] theorem seqEvent_cmp (s : State) (i : Nat) : (s.seqEvent i).cmp = s.cmp := rfl
@[simp] theorem seqEvent_ccell (s : State) (i : Nat) : (s.seqEvent i).ccell = s.ccell := rfl
@[simp] theorem seqEvent_pdly (s : State) (i : Nat) : (s.seqEvent i).pdly = s.pdly := rfl
@[simp] theorem seqEvent_hubs (s : State) (i : Nat) : (s.seqEvent i).hubs = s.hubs := rfl
@[simp] theorem seqEvent_cells (s : State) (i : Nat) : (s.seqEvent i).cells = s.cells := rfl
@[simp] theorem seqEvent_sel (s : State) (i : Nat) : (s.seqEvent i).sel = s.sel := rfl
@[simp] theorem seqEvent_selArm (s : State) (i : Nat) : (s.seqEvent i).selArm = s.selArm := rfl
@[simp] theorem seqEvent_excl (s : State) (i : Nat) : (s.seqEvent i).excl = s.excl := rfl
@[simp] theorem seqEvent_pln (s : State) (i : Nat) : (s.seqEvent i).pln = s.pln := rfl
@[simp] theorem seqEvent_pat (s : State) (i : Nat) : (s.seqEvent i).pat = s.pat := rfl
@[simp] theorem seqEvent_eng (s : State) (i : Nat) : (s.seqEvent i).eng = s.eng := rfl
@[simp] theorem seqEvent_prot (s : State) (i : Nat) : (s.seqEvent i).prot = s.prot := rfl
@[simp] theorem seqEvent_concs (s : State) (i : Nat) : (s.seqEvent i).concs = s.concs := rfl
@[simp] theorem seqEvent_sns (s : State) (i : Nat) : (s.seqEvent i).sns = s.sns := rfl
@[simp] theorem seqEvent_time (s : State) (i : Nat) : (s.seqEvent i).time = s.time := rfl
@[simp] theorem seqEvent_red (s : State) (i : Nat) : (s.seqEvent i).red = s.red := rfl
@[simp] theorem seqEvent_sump (s : State) (i : Nat) : (s.seqEvent i).sump = s.sump := rfl
@[simp] theorem seqEvent_acq (s : State) (i : Nat) : (s.seqEvent i).acq = s.acq := rfl
@[simp] theorem seqEvent_nrg (s : State) (i : Nat) : (s.seqEvent i).nrg = s.nrg := rfl
@[simp] theorem seqEvent_sec (s : State) (i : Nat) : (s.seqEvent i).sec = s.sec := rfl
@[simp] theorem seqEvent_stn (s : State) (i : Nat) : (s.seqEvent i).stn = s.stn := rfl
@[simp] theorem seqEvent_ld (s : State) (i : Nat) : (s.seqEvent i).ld = s.ld := rfl
@[simp] theorem seqEvent_seq (s : State) (i : Nat) : (s.seqEvent i).seq = s.seq := rfl
@[simp] theorem seqEvent_dbg (s : State) (i : Nat) : (s.seqEvent i).dbg = s.dbg := rfl
@[simp] theorem seqEvent_elec (s : State) (i : Nat) : (s.seqEvent i).elec = s.elec := rfl
@[simp] theorem seqEvent_fresh (s : State) (i : Nat) : (s.seqEvent i).fresh = s.fresh := rfl
@[simp] theorem seqEvent_pending (s : State) (i : Nat) : (s.seqEvent i).pending = s.pending := rfl

@[simp] theorem count_latches (s : State) (c o : Fld) (i k : Nat) : (s.count c o i k).latches = s.latches := by unfold State.count; simp only; split <;> rfl
@[simp] theorem count_mem (s : State) (c o : Fld) (i k : Nat) : (s.count c o i k).mem = s.mem := by unfold State.count; simp only; split <;> rfl
@[simp] theorem count_ctl (s : State) (c o : Fld) (i k : Nat) : (s.count c o i k).ctl = s.ctl := by unfold State.count; simp only; split <;> rfl
@[simp] theorem count_lanes (s : State) (c o : Fld) (i k : Nat) : (s.count c o i k).lanes = s.lanes := by unfold State.count; simp only; split <;> rfl
@[simp] theorem count_cmp (s : State) (c o : Fld) (i k : Nat) : (s.count c o i k).cmp = s.cmp := by unfold State.count; simp only; split <;> rfl
@[simp] theorem count_ccell (s : State) (c o : Fld) (i k : Nat) : (s.count c o i k).ccell = s.ccell := by unfold State.count; simp only; split <;> rfl
@[simp] theorem count_pdly (s : State) (c o : Fld) (i k : Nat) : (s.count c o i k).pdly = s.pdly := by unfold State.count; simp only; split <;> rfl
@[simp] theorem count_hubs (s : State) (c o : Fld) (i k : Nat) : (s.count c o i k).hubs = s.hubs := by unfold State.count; simp only; split <;> rfl
@[simp] theorem count_cells (s : State) (c o : Fld) (i k : Nat) : (s.count c o i k).cells = s.cells := by unfold State.count; simp only; split <;> rfl
@[simp] theorem count_sel (s : State) (c o : Fld) (i k : Nat) : (s.count c o i k).sel = s.sel := by unfold State.count; simp only; split <;> rfl
@[simp] theorem count_selArm (s : State) (c o : Fld) (i k : Nat) : (s.count c o i k).selArm = s.selArm := by unfold State.count; simp only; split <;> rfl
@[simp] theorem count_excl (s : State) (c o : Fld) (i k : Nat) : (s.count c o i k).excl = s.excl := by unfold State.count; simp only; split <;> rfl
@[simp] theorem count_pln (s : State) (c o : Fld) (i k : Nat) : (s.count c o i k).pln = s.pln := by unfold State.count; simp only; split <;> rfl
@[simp] theorem count_pat (s : State) (c o : Fld) (i k : Nat) : (s.count c o i k).pat = s.pat := by unfold State.count; simp only; split <;> rfl
@[simp] theorem count_eng (s : State) (c o : Fld) (i k : Nat) : (s.count c o i k).eng = s.eng := by unfold State.count; simp only; split <;> rfl
@[simp] theorem count_prot (s : State) (c o : Fld) (i k : Nat) : (s.count c o i k).prot = s.prot := by unfold State.count; simp only; split <;> rfl
@[simp] theorem count_concs (s : State) (c o : Fld) (i k : Nat) : (s.count c o i k).concs = s.concs := by unfold State.count; simp only; split <;> rfl
@[simp] theorem count_sns (s : State) (c o : Fld) (i k : Nat) : (s.count c o i k).sns = s.sns := by unfold State.count; simp only; split <;> rfl
@[simp] theorem count_time (s : State) (c o : Fld) (i k : Nat) : (s.count c o i k).time = s.time := by unfold State.count; simp only; split <;> rfl
@[simp] theorem count_red (s : State) (c o : Fld) (i k : Nat) : (s.count c o i k).red = s.red := by unfold State.count; simp only; split <;> rfl
@[simp] theorem count_sump (s : State) (c o : Fld) (i k : Nat) : (s.count c o i k).sump = s.sump := by unfold State.count; simp only; split <;> rfl
@[simp] theorem count_acq (s : State) (c o : Fld) (i k : Nat) : (s.count c o i k).acq = s.acq := by unfold State.count; simp only; split <;> rfl
@[simp] theorem count_nrg (s : State) (c o : Fld) (i k : Nat) : (s.count c o i k).nrg = s.nrg := by unfold State.count; simp only; split <;> rfl
@[simp] theorem count_sec (s : State) (c o : Fld) (i k : Nat) : (s.count c o i k).sec = s.sec := by unfold State.count; simp only; split <;> rfl
@[simp] theorem count_stn (s : State) (c o : Fld) (i k : Nat) : (s.count c o i k).stn = s.stn := by unfold State.count; simp only; split <;> rfl
@[simp] theorem count_ld (s : State) (c o : Fld) (i k : Nat) : (s.count c o i k).ld = s.ld := by unfold State.count; simp only; split <;> rfl
@[simp] theorem count_seq (s : State) (c o : Fld) (i k : Nat) : (s.count c o i k).seq = s.seq := by unfold State.count; simp only; split <;> rfl
@[simp] theorem count_dbg (s : State) (c o : Fld) (i k : Nat) : (s.count c o i k).dbg = s.dbg := by unfold State.count; simp only; split <;> rfl
@[simp] theorem count_elec (s : State) (c o : Fld) (i k : Nat) : (s.count c o i k).elec = s.elec := by unfold State.count; simp only; split <;> rfl
@[simp] theorem count_fresh (s : State) (c o : Fld) (i k : Nat) : (s.count c o i k).fresh = s.fresh := by unfold State.count; simp only; split <;> rfl
@[simp] theorem count_pending (s : State) (c o : Fld) (i k : Nat) : (s.count c o i k).pending = s.pending := by unfold State.count; simp only; split <;> rfl

@[simp] theorem setLane_regs (s : State) (l : Nat) (x : Lane) : (s.setLane l x).regs = s.regs := rfl
@[simp] theorem setLane_latches (s : State) (l : Nat) (x : Lane) : (s.setLane l x).latches = s.latches := rfl
@[simp] theorem setLane_mem (s : State) (l : Nat) (x : Lane) : (s.setLane l x).mem = s.mem := rfl
@[simp] theorem setLane_ctl (s : State) (l : Nat) (x : Lane) : (s.setLane l x).ctl = s.ctl := rfl
@[simp] theorem setLane_cmp (s : State) (l : Nat) (x : Lane) : (s.setLane l x).cmp = s.cmp := rfl
@[simp] theorem setLane_ccell (s : State) (l : Nat) (x : Lane) : (s.setLane l x).ccell = s.ccell := rfl
@[simp] theorem setLane_pdly (s : State) (l : Nat) (x : Lane) : (s.setLane l x).pdly = s.pdly := rfl
@[simp] theorem setLane_hubs (s : State) (l : Nat) (x : Lane) : (s.setLane l x).hubs = s.hubs := rfl
@[simp] theorem setLane_cells (s : State) (l : Nat) (x : Lane) : (s.setLane l x).cells = s.cells := rfl
@[simp] theorem setLane_sel (s : State) (l : Nat) (x : Lane) : (s.setLane l x).sel = s.sel := rfl
@[simp] theorem setLane_selArm (s : State) (l : Nat) (x : Lane) : (s.setLane l x).selArm = s.selArm := rfl
@[simp] theorem setLane_excl (s : State) (l : Nat) (x : Lane) : (s.setLane l x).excl = s.excl := rfl
@[simp] theorem setLane_pln (s : State) (l : Nat) (x : Lane) : (s.setLane l x).pln = s.pln := rfl
@[simp] theorem setLane_pat (s : State) (l : Nat) (x : Lane) : (s.setLane l x).pat = s.pat := rfl
@[simp] theorem setLane_eng (s : State) (l : Nat) (x : Lane) : (s.setLane l x).eng = s.eng := rfl
@[simp] theorem setLane_prot (s : State) (l : Nat) (x : Lane) : (s.setLane l x).prot = s.prot := rfl
@[simp] theorem setLane_concs (s : State) (l : Nat) (x : Lane) : (s.setLane l x).concs = s.concs := rfl
@[simp] theorem setLane_sns (s : State) (l : Nat) (x : Lane) : (s.setLane l x).sns = s.sns := rfl
@[simp] theorem setLane_time (s : State) (l : Nat) (x : Lane) : (s.setLane l x).time = s.time := rfl
@[simp] theorem setLane_red (s : State) (l : Nat) (x : Lane) : (s.setLane l x).red = s.red := rfl
@[simp] theorem setLane_sump (s : State) (l : Nat) (x : Lane) : (s.setLane l x).sump = s.sump := rfl
@[simp] theorem setLane_acq (s : State) (l : Nat) (x : Lane) : (s.setLane l x).acq = s.acq := rfl
@[simp] theorem setLane_nrg (s : State) (l : Nat) (x : Lane) : (s.setLane l x).nrg = s.nrg := rfl
@[simp] theorem setLane_sec (s : State) (l : Nat) (x : Lane) : (s.setLane l x).sec = s.sec := rfl
@[simp] theorem setLane_stn (s : State) (l : Nat) (x : Lane) : (s.setLane l x).stn = s.stn := rfl
@[simp] theorem setLane_ld (s : State) (l : Nat) (x : Lane) : (s.setLane l x).ld = s.ld := rfl
@[simp] theorem setLane_seq (s : State) (l : Nat) (x : Lane) : (s.setLane l x).seq = s.seq := rfl
@[simp] theorem setLane_dbg (s : State) (l : Nat) (x : Lane) : (s.setLane l x).dbg = s.dbg := rfl
@[simp] theorem setLane_elec (s : State) (l : Nat) (x : Lane) : (s.setLane l x).elec = s.elec := rfl
@[simp] theorem setLane_fresh (s : State) (l : Nat) (x : Lane) : (s.setLane l x).fresh = s.fresh := rfl
@[simp] theorem setLane_pending (s : State) (l : Nat) (x : Lane) : (s.setLane l x).pending = s.pending := rfl

@[simp] theorem wr_regs (s : State) (a n v : Nat) : (s.wr a n v).regs = s.regs := rfl
@[simp] theorem wr_latches (s : State) (a n v : Nat) : (s.wr a n v).latches = s.latches := rfl
@[simp] theorem wr_ctl (s : State) (a n v : Nat) : (s.wr a n v).ctl = s.ctl := rfl
@[simp] theorem wr_lanes (s : State) (a n v : Nat) : (s.wr a n v).lanes = s.lanes := rfl
@[simp] theorem wr_cmp (s : State) (a n v : Nat) : (s.wr a n v).cmp = s.cmp := rfl
@[simp] theorem wr_ccell (s : State) (a n v : Nat) : (s.wr a n v).ccell = s.ccell := rfl
@[simp] theorem wr_pdly (s : State) (a n v : Nat) : (s.wr a n v).pdly = s.pdly := rfl
@[simp] theorem wr_hubs (s : State) (a n v : Nat) : (s.wr a n v).hubs = s.hubs := rfl
@[simp] theorem wr_cells (s : State) (a n v : Nat) : (s.wr a n v).cells = s.cells := rfl
@[simp] theorem wr_sel (s : State) (a n v : Nat) : (s.wr a n v).sel = s.sel := rfl
@[simp] theorem wr_selArm (s : State) (a n v : Nat) : (s.wr a n v).selArm = s.selArm := rfl
@[simp] theorem wr_excl (s : State) (a n v : Nat) : (s.wr a n v).excl = s.excl := rfl
@[simp] theorem wr_pln (s : State) (a n v : Nat) : (s.wr a n v).pln = s.pln := rfl
@[simp] theorem wr_pat (s : State) (a n v : Nat) : (s.wr a n v).pat = s.pat := rfl
@[simp] theorem wr_eng (s : State) (a n v : Nat) : (s.wr a n v).eng = s.eng := rfl
@[simp] theorem wr_prot (s : State) (a n v : Nat) : (s.wr a n v).prot = s.prot := rfl
@[simp] theorem wr_concs (s : State) (a n v : Nat) : (s.wr a n v).concs = s.concs := rfl
@[simp] theorem wr_sns (s : State) (a n v : Nat) : (s.wr a n v).sns = s.sns := rfl
@[simp] theorem wr_time (s : State) (a n v : Nat) : (s.wr a n v).time = s.time := rfl
@[simp] theorem wr_red (s : State) (a n v : Nat) : (s.wr a n v).red = s.red := rfl
@[simp] theorem wr_sump (s : State) (a n v : Nat) : (s.wr a n v).sump = s.sump := rfl
@[simp] theorem wr_acq (s : State) (a n v : Nat) : (s.wr a n v).acq = s.acq := rfl
@[simp] theorem wr_nrg (s : State) (a n v : Nat) : (s.wr a n v).nrg = s.nrg := rfl
@[simp] theorem wr_sec (s : State) (a n v : Nat) : (s.wr a n v).sec = s.sec := rfl
@[simp] theorem wr_stn (s : State) (a n v : Nat) : (s.wr a n v).stn = s.stn := rfl
@[simp] theorem wr_ld (s : State) (a n v : Nat) : (s.wr a n v).ld = s.ld := rfl
@[simp] theorem wr_seq (s : State) (a n v : Nat) : (s.wr a n v).seq = s.seq := rfl
@[simp] theorem wr_dbg (s : State) (a n v : Nat) : (s.wr a n v).dbg = s.dbg := rfl
@[simp] theorem wr_elec (s : State) (a n v : Nat) : (s.wr a n v).elec = s.elec := rfl
@[simp] theorem wr_fresh (s : State) (a n v : Nat) : (s.wr a n v).fresh = s.fresh := rfl
@[simp] theorem wr_pending (s : State) (a n v : Nat) : (s.wr a n v).pending = s.pending := rfl

@[simp] theorem draw_regs (s : State) (w : Nat) : ((s.draw w).2).regs = s.regs := rfl
@[simp] theorem draw_latches (s : State) (w : Nat) : ((s.draw w).2).latches = s.latches := rfl
@[simp] theorem draw_mem (s : State) (w : Nat) : ((s.draw w).2).mem = s.mem := rfl
@[simp] theorem draw_ctl (s : State) (w : Nat) : ((s.draw w).2).ctl = s.ctl := rfl
@[simp] theorem draw_lanes (s : State) (w : Nat) : ((s.draw w).2).lanes = s.lanes := rfl
@[simp] theorem draw_cmp (s : State) (w : Nat) : ((s.draw w).2).cmp = s.cmp := rfl
@[simp] theorem draw_ccell (s : State) (w : Nat) : ((s.draw w).2).ccell = s.ccell := rfl
@[simp] theorem draw_pdly (s : State) (w : Nat) : ((s.draw w).2).pdly = s.pdly := rfl
@[simp] theorem draw_hubs (s : State) (w : Nat) : ((s.draw w).2).hubs = s.hubs := rfl
@[simp] theorem draw_cells (s : State) (w : Nat) : ((s.draw w).2).cells = s.cells := rfl
@[simp] theorem draw_sel (s : State) (w : Nat) : ((s.draw w).2).sel = s.sel := rfl
@[simp] theorem draw_selArm (s : State) (w : Nat) : ((s.draw w).2).selArm = s.selArm := rfl
@[simp] theorem draw_excl (s : State) (w : Nat) : ((s.draw w).2).excl = s.excl := rfl
@[simp] theorem draw_pln (s : State) (w : Nat) : ((s.draw w).2).pln = s.pln := rfl
@[simp] theorem draw_pat (s : State) (w : Nat) : ((s.draw w).2).pat = s.pat := rfl
@[simp] theorem draw_eng (s : State) (w : Nat) : ((s.draw w).2).eng = s.eng := rfl
@[simp] theorem draw_prot (s : State) (w : Nat) : ((s.draw w).2).prot = s.prot := rfl
@[simp] theorem draw_concs (s : State) (w : Nat) : ((s.draw w).2).concs = s.concs := rfl
@[simp] theorem draw_sns (s : State) (w : Nat) : ((s.draw w).2).sns = s.sns := rfl
@[simp] theorem draw_time (s : State) (w : Nat) : ((s.draw w).2).time = s.time := rfl
@[simp] theorem draw_red (s : State) (w : Nat) : ((s.draw w).2).red = s.red := rfl
@[simp] theorem draw_sump (s : State) (w : Nat) : ((s.draw w).2).sump = s.sump := rfl
@[simp] theorem draw_acq (s : State) (w : Nat) : ((s.draw w).2).acq = s.acq := rfl
@[simp] theorem draw_nrg (s : State) (w : Nat) : ((s.draw w).2).nrg = s.nrg := rfl
@[simp] theorem draw_sec (s : State) (w : Nat) : ((s.draw w).2).sec = s.sec := rfl
@[simp] theorem draw_stn (s : State) (w : Nat) : ((s.draw w).2).stn = s.stn := rfl
@[simp] theorem draw_ld (s : State) (w : Nat) : ((s.draw w).2).ld = s.ld := rfl
@[simp] theorem draw_seq (s : State) (w : Nat) : ((s.draw w).2).seq = s.seq := rfl
@[simp] theorem draw_dbg (s : State) (w : Nat) : ((s.draw w).2).dbg = s.dbg := rfl
@[simp] theorem draw_elec (s : State) (w : Nat) : ((s.draw w).2).elec = s.elec := rfl
@[simp] theorem draw_pending (s : State) (w : Nat) : ((s.draw w).2).pending = s.pending := rfl

@[simp] theorem sendAs_latches (s : State) (a k d c i : Nat) : (s.sendAs a k d c i).latches = s.latches := by unfold State.sendAs; simp only; split <;> simp
@[simp] theorem sendAs_mem (s : State) (a k d c i : Nat) : (s.sendAs a k d c i).mem = s.mem := by unfold State.sendAs; simp only; split <;> simp
@[simp] theorem sendAs_ctl (s : State) (a k d c i : Nat) : (s.sendAs a k d c i).ctl = s.ctl := by unfold State.sendAs; simp only; split <;> simp
@[simp] theorem sendAs_lanes (s : State) (a k d c i : Nat) : (s.sendAs a k d c i).lanes = s.lanes := by unfold State.sendAs; simp only; split <;> simp
@[simp] theorem sendAs_cmp (s : State) (a k d c i : Nat) : (s.sendAs a k d c i).cmp = s.cmp := by unfold State.sendAs; simp only; split <;> simp
@[simp] theorem sendAs_ccell (s : State) (a k d c i : Nat) : (s.sendAs a k d c i).ccell = s.ccell := by unfold State.sendAs; simp only; split <;> simp
@[simp] theorem sendAs_pdly (s : State) (a k d c i : Nat) : (s.sendAs a k d c i).pdly = s.pdly := by unfold State.sendAs; simp only; split <;> simp
@[simp] theorem sendAs_hubs (s : State) (a k d c i : Nat) : (s.sendAs a k d c i).hubs = s.hubs := by unfold State.sendAs; simp only; split <;> simp
@[simp] theorem sendAs_cells (s : State) (a k d c i : Nat) : (s.sendAs a k d c i).cells = s.cells := by unfold State.sendAs; simp only; split <;> simp
@[simp] theorem sendAs_sel (s : State) (a k d c i : Nat) : (s.sendAs a k d c i).sel = s.sel := by unfold State.sendAs; simp only; split <;> simp
@[simp] theorem sendAs_selArm (s : State) (a k d c i : Nat) : (s.sendAs a k d c i).selArm = s.selArm := by unfold State.sendAs; simp only; split <;> simp
@[simp] theorem sendAs_excl (s : State) (a k d c i : Nat) : (s.sendAs a k d c i).excl = s.excl := by unfold State.sendAs; simp only; split <;> simp
@[simp] theorem sendAs_pln (s : State) (a k d c i : Nat) : (s.sendAs a k d c i).pln = s.pln := by unfold State.sendAs; simp only; split <;> simp
@[simp] theorem sendAs_pat (s : State) (a k d c i : Nat) : (s.sendAs a k d c i).pat = s.pat := by unfold State.sendAs; simp only; split <;> simp
@[simp] theorem sendAs_eng (s : State) (a k d c i : Nat) : (s.sendAs a k d c i).eng = s.eng := by unfold State.sendAs; simp only; split <;> simp
@[simp] theorem sendAs_prot (s : State) (a k d c i : Nat) : (s.sendAs a k d c i).prot = s.prot := by unfold State.sendAs; simp only; split <;> simp
@[simp] theorem sendAs_concs (s : State) (a k d c i : Nat) : (s.sendAs a k d c i).concs = s.concs := by unfold State.sendAs; simp only; split <;> simp
@[simp] theorem sendAs_sns (s : State) (a k d c i : Nat) : (s.sendAs a k d c i).sns = s.sns := by unfold State.sendAs; simp only; split <;> simp
@[simp] theorem sendAs_time (s : State) (a k d c i : Nat) : (s.sendAs a k d c i).time = s.time := by unfold State.sendAs; simp only; split <;> simp
@[simp] theorem sendAs_red (s : State) (a k d c i : Nat) : (s.sendAs a k d c i).red = s.red := by unfold State.sendAs; simp only; split <;> simp
@[simp] theorem sendAs_acq (s : State) (a k d c i : Nat) : (s.sendAs a k d c i).acq = s.acq := by unfold State.sendAs; simp only; split <;> simp
@[simp] theorem sendAs_nrg (s : State) (a k d c i : Nat) : (s.sendAs a k d c i).nrg = s.nrg := by unfold State.sendAs; simp only; split <;> simp
@[simp] theorem sendAs_sec (s : State) (a k d c i : Nat) : (s.sendAs a k d c i).sec = s.sec := by unfold State.sendAs; simp only; split <;> simp
@[simp] theorem sendAs_stn (s : State) (a k d c i : Nat) : (s.sendAs a k d c i).stn = s.stn := by unfold State.sendAs; simp only; split <;> simp
@[simp] theorem sendAs_ld (s : State) (a k d c i : Nat) : (s.sendAs a k d c i).ld = s.ld := by unfold State.sendAs; simp only; split <;> simp
@[simp] theorem sendAs_seq (s : State) (a k d c i : Nat) : (s.sendAs a k d c i).seq = s.seq := by unfold State.sendAs; simp only; split <;> simp
@[simp] theorem sendAs_dbg (s : State) (a k d c i : Nat) : (s.sendAs a k d c i).dbg = s.dbg := by unfold State.sendAs; simp only; split <;> simp
@[simp] theorem sendAs_elec (s : State) (a k d c i : Nat) : (s.sendAs a k d c i).elec = s.elec := by unfold State.sendAs; simp only; split <;> simp
@[simp] theorem sendAs_fresh (s : State) (a k d c i : Nat) : (s.sendAs a k d c i).fresh = s.fresh := by unfold State.sendAs; simp only; split <;> simp
@[simp] theorem sendAs_pending (s : State) (a k d c i : Nat) : (s.sendAs a k d c i).pending = s.pending := by unfold State.sendAs; simp only; split <;> simp

@[simp] theorem send_latches (s : State) (a k d : Nat) : (s.send a k d).latches = s.latches := by unfold State.send; simp
@[simp] theorem send_mem (s : State) (a k d : Nat) : (s.send a k d).mem = s.mem := by unfold State.send; simp
@[simp] theorem send_ctl (s : State) (a k d : Nat) : (s.send a k d).ctl = s.ctl := by unfold State.send; simp
@[simp] theorem send_lanes (s : State) (a k d : Nat) : (s.send a k d).lanes = s.lanes := by unfold State.send; simp
@[simp] theorem send_cmp (s : State) (a k d : Nat) : (s.send a k d).cmp = s.cmp := by unfold State.send; simp
@[simp] theorem send_ccell (s : State) (a k d : Nat) : (s.send a k d).ccell = s.ccell := by unfold State.send; simp
@[simp] theorem send_pdly (s : State) (a k d : Nat) : (s.send a k d).pdly = s.pdly := by unfold State.send; simp
@[simp] theorem send_hubs (s : State) (a k d : Nat) : (s.send a k d).hubs = s.hubs := by unfold State.send; simp
@[simp] theorem send_cells (s : State) (a k d : Nat) : (s.send a k d).cells = s.cells := by unfold State.send; simp
@[simp] theorem send_sel (s : State) (a k d : Nat) : (s.send a k d).sel = s.sel := by unfold State.send; simp
@[simp] theorem send_selArm (s : State) (a k d : Nat) : (s.send a k d).selArm = s.selArm := by unfold State.send; simp
@[simp] theorem send_excl (s : State) (a k d : Nat) : (s.send a k d).excl = s.excl := by unfold State.send; simp
@[simp] theorem send_pln (s : State) (a k d : Nat) : (s.send a k d).pln = s.pln := by unfold State.send; simp
@[simp] theorem send_pat (s : State) (a k d : Nat) : (s.send a k d).pat = s.pat := by unfold State.send; simp
@[simp] theorem send_eng (s : State) (a k d : Nat) : (s.send a k d).eng = s.eng := by unfold State.send; simp
@[simp] theorem send_prot (s : State) (a k d : Nat) : (s.send a k d).prot = s.prot := by unfold State.send; simp
@[simp] theorem send_concs (s : State) (a k d : Nat) : (s.send a k d).concs = s.concs := by unfold State.send; simp
@[simp] theorem send_sns (s : State) (a k d : Nat) : (s.send a k d).sns = s.sns := by unfold State.send; simp
@[simp] theorem send_time (s : State) (a k d : Nat) : (s.send a k d).time = s.time := by unfold State.send; simp
@[simp] theorem send_red (s : State) (a k d : Nat) : (s.send a k d).red = s.red := by unfold State.send; simp
@[simp] theorem send_acq (s : State) (a k d : Nat) : (s.send a k d).acq = s.acq := by unfold State.send; simp
@[simp] theorem send_nrg (s : State) (a k d : Nat) : (s.send a k d).nrg = s.nrg := by unfold State.send; simp
@[simp] theorem send_sec (s : State) (a k d : Nat) : (s.send a k d).sec = s.sec := by unfold State.send; simp
@[simp] theorem send_stn (s : State) (a k d : Nat) : (s.send a k d).stn = s.stn := by unfold State.send; simp
@[simp] theorem send_ld (s : State) (a k d : Nat) : (s.send a k d).ld = s.ld := by unfold State.send; simp
@[simp] theorem send_seq (s : State) (a k d : Nat) : (s.send a k d).seq = s.seq := by unfold State.send; simp
@[simp] theorem send_dbg (s : State) (a k d : Nat) : (s.send a k d).dbg = s.dbg := by unfold State.send; simp
@[simp] theorem send_elec (s : State) (a k d : Nat) : (s.send a k d).elec = s.elec := by unfold State.send; simp
@[simp] theorem send_fresh (s : State) (a k d : Nat) : (s.send a k d).fresh = s.fresh := by unfold State.send; simp
@[simp] theorem send_pending (s : State) (a k d : Nat) : (s.send a k d).pending = s.pending := by unfold State.send; simp

@[simp] theorem sendIf_latches (s : State) (b : Bool) (a k d : Nat) : (s.sendIf b a k d).latches = s.latches := by unfold State.sendIf; split <;> simp
@[simp] theorem sendIf_mem (s : State) (b : Bool) (a k d : Nat) : (s.sendIf b a k d).mem = s.mem := by unfold State.sendIf; split <;> simp
@[simp] theorem sendIf_ctl (s : State) (b : Bool) (a k d : Nat) : (s.sendIf b a k d).ctl = s.ctl := by unfold State.sendIf; split <;> simp
@[simp] theorem sendIf_lanes (s : State) (b : Bool) (a k d : Nat) : (s.sendIf b a k d).lanes = s.lanes := by unfold State.sendIf; split <;> simp
@[simp] theorem sendIf_cmp (s : State) (b : Bool) (a k d : Nat) : (s.sendIf b a k d).cmp = s.cmp := by unfold State.sendIf; split <;> simp
@[simp] theorem sendIf_ccell (s : State) (b : Bool) (a k d : Nat) : (s.sendIf b a k d).ccell = s.ccell := by unfold State.sendIf; split <;> simp
@[simp] theorem sendIf_pdly (s : State) (b : Bool) (a k d : Nat) : (s.sendIf b a k d).pdly = s.pdly := by unfold State.sendIf; split <;> simp
@[simp] theorem sendIf_hubs (s : State) (b : Bool) (a k d : Nat) : (s.sendIf b a k d).hubs = s.hubs := by unfold State.sendIf; split <;> simp
@[simp] theorem sendIf_cells (s : State) (b : Bool) (a k d : Nat) : (s.sendIf b a k d).cells = s.cells := by unfold State.sendIf; split <;> simp
@[simp] theorem sendIf_sel (s : State) (b : Bool) (a k d : Nat) : (s.sendIf b a k d).sel = s.sel := by unfold State.sendIf; split <;> simp
@[simp] theorem sendIf_selArm (s : State) (b : Bool) (a k d : Nat) : (s.sendIf b a k d).selArm = s.selArm := by unfold State.sendIf; split <;> simp
@[simp] theorem sendIf_excl (s : State) (b : Bool) (a k d : Nat) : (s.sendIf b a k d).excl = s.excl := by unfold State.sendIf; split <;> simp
@[simp] theorem sendIf_pln (s : State) (b : Bool) (a k d : Nat) : (s.sendIf b a k d).pln = s.pln := by unfold State.sendIf; split <;> simp
@[simp] theorem sendIf_pat (s : State) (b : Bool) (a k d : Nat) : (s.sendIf b a k d).pat = s.pat := by unfold State.sendIf; split <;> simp
@[simp] theorem sendIf_eng (s : State) (b : Bool) (a k d : Nat) : (s.sendIf b a k d).eng = s.eng := by unfold State.sendIf; split <;> simp
@[simp] theorem sendIf_prot (s : State) (b : Bool) (a k d : Nat) : (s.sendIf b a k d).prot = s.prot := by unfold State.sendIf; split <;> simp
@[simp] theorem sendIf_concs (s : State) (b : Bool) (a k d : Nat) : (s.sendIf b a k d).concs = s.concs := by unfold State.sendIf; split <;> simp
@[simp] theorem sendIf_sns (s : State) (b : Bool) (a k d : Nat) : (s.sendIf b a k d).sns = s.sns := by unfold State.sendIf; split <;> simp
@[simp] theorem sendIf_time (s : State) (b : Bool) (a k d : Nat) : (s.sendIf b a k d).time = s.time := by unfold State.sendIf; split <;> simp
@[simp] theorem sendIf_red (s : State) (b : Bool) (a k d : Nat) : (s.sendIf b a k d).red = s.red := by unfold State.sendIf; split <;> simp
@[simp] theorem sendIf_acq (s : State) (b : Bool) (a k d : Nat) : (s.sendIf b a k d).acq = s.acq := by unfold State.sendIf; split <;> simp
@[simp] theorem sendIf_nrg (s : State) (b : Bool) (a k d : Nat) : (s.sendIf b a k d).nrg = s.nrg := by unfold State.sendIf; split <;> simp
@[simp] theorem sendIf_sec (s : State) (b : Bool) (a k d : Nat) : (s.sendIf b a k d).sec = s.sec := by unfold State.sendIf; split <;> simp
@[simp] theorem sendIf_stn (s : State) (b : Bool) (a k d : Nat) : (s.sendIf b a k d).stn = s.stn := by unfold State.sendIf; split <;> simp
@[simp] theorem sendIf_ld (s : State) (b : Bool) (a k d : Nat) : (s.sendIf b a k d).ld = s.ld := by unfold State.sendIf; split <;> simp
@[simp] theorem sendIf_seq (s : State) (b : Bool) (a k d : Nat) : (s.sendIf b a k d).seq = s.seq := by unfold State.sendIf; split <;> simp
@[simp] theorem sendIf_dbg (s : State) (b : Bool) (a k d : Nat) : (s.sendIf b a k d).dbg = s.dbg := by unfold State.sendIf; split <;> simp
@[simp] theorem sendIf_elec (s : State) (b : Bool) (a k d : Nat) : (s.sendIf b a k d).elec = s.elec := by unfold State.sendIf; split <;> simp
@[simp] theorem sendIf_fresh (s : State) (b : Bool) (a k d : Nat) : (s.sendIf b a k d).fresh = s.fresh := by unfold State.sendIf; split <;> simp
@[simp] theorem sendIf_pending (s : State) (b : Bool) (a k d : Nat) : (s.sendIf b a k d).pending = s.pending := by unfold State.sendIf; split <;> simp

end Sys2Proof.Machine
end

