-- ==== Sys2Proof/Laws/Regs.lean ====
section
/-! SUPPORT. Laws of the register fields and of the flags, counters and messages over them. -/
namespace Sys2Proof.Machine
open Sys2Proof

@[simp] theorem fld_setFld_same (s : State) (f : Fld) (v : Nat) : (s.setFld f v).fld f = v % 2 ^ f.w := by
  simp [State.fld, State.setFld]

/-- A field keeps its content when another is written. -/
theorem fld_setFld_ne (s : State) {f g : Fld} (v : Nat) (h : f.key ≠ g.key) : (s.setFld f v).fld g = s.fld g := by
  simp only [State.fld, State.setFld]
  exact mget_mset_other _ _ _ _ h

/-- Two fields differ in their places. -/
theorem fld_setFld (s : State) (f g : Fld) (v : Nat) (h : f = g ∨ f.key ≠ g.key) :
    (s.setFld f v).fld g = if f = g then v % 2 ^ f.w else s.fld g := by
  rcases h with h | h
  · subst h; simp
  · rw [fld_setFld_ne s v h, if_neg]; intro e; exact h (e ▸ rfl)

/-- The content of a field depends on the registers alone. -/
theorem fld_congr {s t : State} (h : t.regs = s.regs) (f : Fld) : t.fld f = s.fld f := by simp [State.fld, h]

@[simp] theorem sameRegs_refl (fs : List Fld) (s : State) : SameRegs fs s s := fun _ _ => rfl

theorem sameRegs_of_regs {s t : State} (fs : List Fld) (h : t.regs = s.regs) : SameRegs fs s t := fun f _ => fld_congr h f

theorem SameRegs.trans {fs : List Fld} {s t u : State} (h : SameRegs fs s t) (k : SameRegs fs t u) : SameRegs fs s u :=
  fun f hf => (k f hf).trans (h f hf)

theorem SameRegs.mono {fs gs : List Fld} {s t : State} (h : SameRegs fs s t) (sub : ∀ f ∈ fs, f ∈ gs) : SameRegs gs s t :=
  fun f hf => h f fun g hg => hf g (sub g hg)

theorem SameRegs.setFld {fs : List Fld} {s t : State} (h : SameRegs fs s t) {f : Fld} (v : Nat) (m : f ∈ fs) :
    SameRegs fs s (t.setFld f v) := fun g hg => (fld_setFld_ne t v (Ne.symm (hg f m))).trans (h g hg)

theorem SameRegs.flag {fs : List Fld} {s t : State} (h : SameRegs fs s t) {f : Fld} (m : f ∈ fs) :
    SameRegs fs s (t.flag f) := h.setFld 1 m

theorem SameRegs.flagBit {fs : List Fld} {s t : State} (h : SameRegs fs s t) {f : Fld} (i : Nat) (m : f ∈ fs) :
    SameRegs fs s (t.flagBit f i) := h.setFld _ m

theorem SameRegs.unflagBit {fs : List Fld} {s t : State} (h : SameRegs fs s t) {f : Fld} (i : Nat) (m : f ∈ fs) :
    SameRegs fs s (t.unflagBit f i) := h.setFld _ m

theorem SameRegs.seqEvent {fs : List Fld} {s t : State} (h : SameRegs fs s t) (i : Nat) (m : SEQ_EVT ∈ fs) :
    SameRegs fs s (t.seqEvent i) := h.setFld _ m

/-- A counter writes itself and its overflow register, and nothing else. -/
theorem SameRegs.count {fs : List Fld} {s t : State} (h : SameRegs fs s t) {c o : Fld} (i k : Nat) (m : c ∈ fs)
    (n : o ∈ fs) : SameRegs fs s (t.count c o i k) := by
  unfold State.count
  simp only
  split
  · exact h.setFld _ m
  · exact (h.setFld _ m).setFld _ n

/-- A message writes no register but the counter of merged messages. -/
theorem SameRegs.sendAs {fs : List Fld} {s t : State} (h : SameRegs fs s t) (a k d c i : Nat) (m : FLT_CNT_MERGED ∈ fs)
    (n : FLT_CNT_OVF ∈ fs) : SameRegs fs s (t.sendAs a k d c i) := by
  unfold State.sendAs
  simp only
  split
  · exact h.trans (sameRegs_of_regs _ rfl)
  · refine SameRegs.count ?_ _ _ m n
    exact h.trans (sameRegs_of_regs _ rfl)

theorem SameRegs.send {fs : List Fld} {s t : State} (h : SameRegs fs s t) (a k d : Nat) (m : FLT_CNT_MERGED ∈ fs)
    (n : FLT_CNT_OVF ∈ fs) : SameRegs fs s (t.send a k d) := h.sendAs _ _ _ _ _ m n

/-- Register reads after an update of something else. -/
theorem fld_count_ne (s : State) {c o g : Fld} (i k : Nat) (h : c.key ≠ g.key) (h' : o.key ≠ g.key) :
    (s.count c o i k).fld g = s.fld g :=
  SameRegs.count (sameRegs_refl [c, o] s) i k (by simp) (by simp) g (by simp [Ne.symm h, Ne.symm h'])

theorem fld_send_ne (s : State) {g : Fld} (a k d : Nat) (h : FLT_CNT_MERGED.key ≠ g.key) (h' : FLT_CNT_OVF.key ≠ g.key) :
    (s.send a k d).fld g = s.fld g :=
  SameRegs.send (sameRegs_refl [FLT_CNT_MERGED, FLT_CNT_OVF] s) a k d (by simp) (by simp) g
    (by simp [Ne.symm h, Ne.symm h'])

@[simp] theorem fld_setLane (s : State) (l : Nat) (x : Lane) (f : Fld) : (s.setLane l x).fld f = s.fld f := rfl
@[simp] theorem fld_wr (s : State) (a n v : Nat) (f : Fld) : (s.wr a n v).fld f = s.fld f := rfl
@[simp] theorem lane_setFld (s : State) (f : Fld) (v l : Nat) : (s.setFld f v).lane l = s.lane l := rfl
@[simp] theorem lane_setLane_same (s : State) (l : Nat) (x : Lane) : (s.setLane l x).lane l = x := by
  simp [State.lane, State.setLane]
theorem lane_setLane_ne (s : State) {l k : Nat} (x : Lane) (h : l ≠ k) : (s.setLane l x).lane k = s.lane k :=
  mget_mset_ne _ _ _ h

/-- What a counter shows after an increment (R12). -/
theorem fld_count_same (s : State) {c o : Fld} (i k : Nat) (h : o.key ≠ c.key) (hc : s.fld c < 2 ^ c.w) :
    (s.count c o i k).fld c = min (s.fld c + k) (2 ^ c.w - 1) := by
  have p : 0 < 2 ^ c.w := Nat.two_pow_pos _
  unfold State.count
  simp only
  split
  · rw [fld_setFld_same, Nat.mod_eq_of_lt ‹_›]; omega
  · rw [fld_setFld_ne _ _ h, fld_setFld_same, Nat.mod_eq_of_lt (by omega)]; omega

/-- The message that waits in a source's slot after one is sent (R318, R324): the first one, merged messages counted. -/
theorem find_mput {α : Type} (m : NMap α) (i : Nat) (x : α) :
    (mput m i x).find? (fun p => decide (p.1 = i)) = some (i, x) := by
  induction m with
  | nil => simp [mput]
  | cons p t ih =>
    obtain ⟨k, v⟩ := p
    by_cases h1 : i < k
    · simp [mput, h1]
    · by_cases h2 : i = k
      · simp [mput, h2]
      · simp only [mput, h1, h2, if_false]
        rw [List.find?_cons_of_neg (by simpa using Ne.symm h2)]
        exact ih

theorem msgAt_send_empty (s : State) (a k d : Nat) (h : s.msgAt a = none) : (s.send a k d).msgAt a = some (k, d % 2 ^ 32) := by
  unfold State.msgAt at h ⊢
  have h' : s.sump.slots.find? (fun p => decide (p.1 = a)) = none := by simpa using h
  unfold State.send State.sendAs
  simp only [h']
  simp [find_mput]

end Sys2Proof.Machine
end

