-- ==== Sys2Proof/Laws/Memory.lean ====
section
/-! SUPPORT. Laws of the byte memory: a read after a write, bytes left alone, and the canonical form, which every
memory operation keeps. -/
namespace Sys2Proof.Machine
open Sys2Proof

theorem cget_cput (d : Nat → Byte) (l : List Host.Cell) (a b : Nat) (v : Byte) :
    cget d (cput l a v) b = if a = b then v else cget d l b := by
  induction l with
  | nil => simp [cput, cget]
  | cons p t ih =>
    obtain ⟨k, x⟩ := p
    by_cases h1 : a < k
    · simp [cput, h1, cget]
    · by_cases h2 : a = k
      · subst h2; by_cases h3 : a = b <;> simp [cput, cget, h3]
      · by_cases h3 : k = b
        · subst h3; simp [cput, cget, h1, h2]
        · simp [cput, cget, h1, h2, h3, ih]

theorem cget_cdel (d : Nat → Byte) (l : List Host.Cell) (a b : Nat) :
    cget d (cdel l a) b = if a = b then d b else cget d l b := by
  induction l with
  | nil => simp [cdel, cget]
  | cons p t ih =>
    obtain ⟨k, x⟩ := p
    by_cases h2 : k = a
    · subst h2; by_cases h3 : k = b <;> simp_all [cdel, cget]
    · by_cases h3 : k = b
      · subst h3; simp [cdel, cget, h2, Ne.symm h2]
      · simp [cdel, cget, h2, h3, ih]

/-- A byte after one byte is written. -/
theorem cget_cset (d : Nat → Byte) (l : List Host.Cell) (a b : Nat) (v : Byte) :
    cget d (cset d l a v) b = if a = b then v else cget d l b := by
  unfold cset
  split
  · rename_i h; rw [cget_cdel]; split
    · rename_i e; subst e; exact h.symm
    · rfl
  · exact cget_cput ..

/-- A byte outside the bytes written keeps its value. -/
theorem cget_cwr_out (d : Nat → Byte) (n : Nat) : ∀ (l : List Host.Cell) (a v b : Nat), (b < a ∨ a + n ≤ b) →
    cget d (cwr d l a n v) b = cget d l b := by
  induction n with
  | zero => intros; rfl
  | succ n ih =>
    intro l a v b h
    rw [cwr, ih _ _ _ _ (by omega), cget_cset, if_neg (by omega)]

/-- Bytes outside the bytes written keep their values, read as a number. -/
theorem crd_cwr_out (d : Nat → Byte) (m : Nat) : ∀ (l : List Host.Cell) (a n v b : Nat), (b + m ≤ a ∨ a + n ≤ b) →
    crd d (cwr d l a n v) b m = crd d l b m := by
  induction m with
  | zero => intros; rfl
  | succ m ih =>
    intro l a n v b h
    simp only [crd]
    rw [ih _ _ _ _ _ (by omega)]
    by_cases h0 : n = 0
    · subst h0; rfl
    · rw [cget_cwr_out _ _ _ _ _ _ (by omega)]

/-- A read of the bytes just written gives the number, cut to them. -/
theorem crd_cwr_same (d : Nat → Byte) (n : Nat) : ∀ (l : List Host.Cell) (a v : Nat),
    crd d (cwr d l a n v) a n = v % 256 ^ n := by
  induction n with
  | zero => intro l a v; simp [crd, Nat.mod_one]
  | succ n ih =>
    intro l a v
    simp only [crd, cwr]
    rw [ih, cget_cwr_out _ _ _ _ _ _ (by omega), cget_cset, if_pos rfl, BitVec.toNat_ofNat]
    rw [show 256 ^ (n + 1) = 256 * 256 ^ n from by rw [Nat.pow_succ, Nat.mul_comm], Nat.mod_mul]

theorem byteAt_wr_out (s : State) {a n b : Nat} (v : Nat) (h : b < a ∨ a + n ≤ b) : (s.wr a n v).byteAt b = s.byteAt b :=
  cget_cwr_out _ _ _ _ _ _ h

theorem rd_wr_same (s : State) (a n v : Nat) : (s.wr a n v).rd a n = v % 256 ^ n := crd_cwr_same ..

theorem rd_wr_out (s : State) {a n b m : Nat} (v : Nat) (h : b + m ≤ a ∨ a + n ≤ b) : (s.wr a n v).rd b m = s.rd b m :=
  crd_cwr_out _ _ _ _ _ _ _ h

theorem rd_congr {s t : State} (h : t.mem = s.mem) (a n : Nat) : t.rd a n = s.rd a n := by simp [State.rd, h]

theorem sameMem_of_mem {s t : State} (h : t.mem = s.mem) : SameMem s t := fun a => by simp [State.byteAt, h]

theorem cget_cwr_one (d : Nat → Byte) (l : List Host.Cell) (a b v : Nat) :
    cget d (cwr d l a 1 v) b = if a = b then BitVec.ofNat 8 v else cget d l b := by
  simp only [cwr, cget_cset]

/-- A byte string leaves everything outside it alone. -/
theorem byteAt_wrBytes_out (l : List Byte) : ∀ (s : State) (a b : Nat), (b < a ∨ a + l.length ≤ b) →
    (s.wrBytes a l).byteAt b = s.byteAt b := by
  induction l with
  | nil => intros; rfl
  | cons x t ih =>
    intro s a b h
    simp only [List.length_cons] at h
    simp only [State.wrBytes]
    rw [ih _ _ _ (by omega), byteAt_wr_out _ _ (by omega)]

/-- A byte string stands where it was written. -/
theorem byteAt_wrBytes_in (l : List Byte) : ∀ (s : State) (a i : Nat) (h : i < l.length),
    (s.wrBytes a l).byteAt (a + i) = l[i] := by
  induction l with
  | nil => intro s a i h; simp at h
  | cons x t ih =>
    intro s a i h
    simp only [State.wrBytes]
    cases i with
    | zero =>
      rw [byteAt_wrBytes_out _ _ _ _ (by omega)]
      simp [State.byteAt, State.wr, cget_cwr_one]
    | succ i =>
      rw [show a + (i + 1) = a + 1 + i by omega, ih _ _ i (by simpa using h)]
      rfl

/-- A byte string changes the memory alone. -/
theorem wrBytes_eq (l : List Byte) : ∀ (s : State) (a : Nat), s.wrBytes a l = { s with mem := (s.wrBytes a l).mem } := by
  induction l with
  | nil => intros; rfl
  | cons x t ih => intro s a; simp only [State.wrBytes]; rw [ih]; rfl

theorem crd_congr (d : Nat → Byte) (l l' : List Host.Cell) (n : Nat) : ∀ a, (∀ i, i < n → cget d l (a + i) = cget d l' (a + i)) →
    crd d l a n = crd d l' a n := by
  induction n with
  | zero => intros; rfl
  | succ n ih =>
    intro a h
    simp only [crd]
    rw [ih (a + 1) (fun i hi => by have := h (i + 1) (by omega); rwa [show a + (i + 1) = a + 1 + i by omega] at this),
      show cget d l a = cget d l' a from h 0 (by omega)]

theorem rd_wrBytes_out (l : List Byte) (s : State) (a b n : Nat) (h : b + n ≤ a) : (s.wrBytes a l).rd b n = s.rd b n :=
  crd_congr _ _ _ _ _ fun i hi => byteAt_wrBytes_out l s a (b + i) (by omega)

/-! ### The canonical form -/

theorem cellsSorted_some {b : Nat} {l : List Host.Cell} (h : cellsSorted (some b) l = true) : cellsSorted none l = true := by
  cases l with
  | nil => rfl
  | cons p t => simp only [cellsSorted, Bool.and_eq_true] at h ⊢; exact h.2

theorem cellsSorted_mono {b c : Nat} (hb : c ≤ b) {l : List Host.Cell} (h : cellsSorted (some b) l = true) :
    cellsSorted (some c) l = true := by
  cases l with
  | nil => rfl
  | cons p t => simp only [cellsSorted, Bool.and_eq_true, decide_eq_true_eq] at h ⊢; exact ⟨by omega, h.2⟩

theorem cellsSorted_cput_some {l : List Host.Cell} : ∀ {b a : Nat} (v : Byte), cellsSorted (some b) l = true → b < a →
    cellsSorted (some b) (cput l a v) = true := by
  induction l with
  | nil => intro b a v _ h; simp [cput, cellsSorted, h]
  | cons p t ih =>
    obtain ⟨k, x⟩ := p
    intro b a v h hb
    simp only [cellsSorted, Bool.and_eq_true, decide_eq_true_eq] at h
    unfold cput
    split
    · simp [cellsSorted, hb, h.2, *]
    · split
      · rename_i e; subst e; simp [cellsSorted, h.1, h.2]
      · simp only [cellsSorted, Bool.and_eq_true, decide_eq_true_eq]
        exact ⟨h.1, ih v h.2 (by omega)⟩

theorem cellsSorted_cput {l : List Host.Cell} (a : Nat) (v : Byte) (h : cellsSorted none l = true) :
    cellsSorted none (cput l a v) = true := by
  cases l with
  | nil => simp [cput, cellsSorted]
  | cons p t =>
    obtain ⟨k, x⟩ := p
    simp only [cellsSorted] at h
    unfold cput
    split
    · simp [cellsSorted, h, *]
    · split
      · rename_i e; subst e; simpa [cellsSorted] using h
      · simp only [cellsSorted]; exact cellsSorted_cput_some v h (by omega)

theorem cellsSorted_cdel_some {l : List Host.Cell} : ∀ {b : Nat} (a : Nat), cellsSorted (some b) l = true →
    cellsSorted (some b) (cdel l a) = true := by
  induction l with
  | nil => intros; rfl
  | cons p t ih =>
    obtain ⟨k, x⟩ := p
    intro b a h
    simp only [cellsSorted, Bool.and_eq_true, decide_eq_true_eq] at h
    unfold cdel
    split
    · exact ih a (cellsSorted_mono (by omega) h.2)
    · simp only [cellsSorted, Bool.and_eq_true, decide_eq_true_eq]; exact ⟨h.1, ih a h.2⟩

theorem cellsSorted_cdel {l : List Host.Cell} (a : Nat) (h : cellsSorted none l = true) :
    cellsSorted none (cdel l a) = true := by
  induction l with
  | nil => rfl
  | cons p t ih =>
    obtain ⟨k, x⟩ := p
    simp only [cellsSorted] at h
    unfold cdel
    split
    · exact ih (cellsSorted_some h)
    · simp only [cellsSorted]; exact cellsSorted_cdel_some a h

theorem mem_cput {l : List Host.Cell} {a : Nat} {v : Byte} {c : Host.Cell} (h : c ∈ cput l a v) : c = (a, v) ∨ c ∈ l := by
  induction l with
  | nil => simpa [cput] using h
  | cons p t ih =>
    obtain ⟨k, x⟩ := p
    unfold cput at h
    split at h
    · simpa using h
    · split at h
      · simp only [List.mem_cons] at h ⊢; rcases h with h | h <;> simp [h]
      · simp only [List.mem_cons] at h ⊢
        rcases h with h | h
        · simp [h]
        · rcases ih h with h | h <;> simp [h]

theorem mem_cdel {l : List Host.Cell} {a : Nat} {c : Host.Cell} (h : c ∈ cdel l a) : c ∈ l := by
  induction l with
  | nil => exact h
  | cons p t ih =>
    obtain ⟨k, x⟩ := p
    unfold cdel at h
    split at h
    · exact List.mem_cons_of_mem _ (ih h)
    · simp only [List.mem_cons] at h ⊢; rcases h with h | h
      · exact .inl h
      · exact .inr (ih h)

/-- The two parts of the canonical form. -/
theorem wf_iff (m : Memory) : m.wf = true ↔ cellsSorted none m.bytes = true ∧ ∀ c ∈ m.bytes, c.2 ≠ memDefault c.1 := by
  simp [Memory.wf, List.all_eq_true]

/-- One byte written keeps the canonical form. -/
theorem wf_cset {l : List Host.Cell} (a : Nat) (v : Byte)
    (h : cellsSorted none l = true ∧ ∀ c ∈ l, c.2 ≠ memDefault c.1) :
    cellsSorted none (cset memDefault l a v) = true ∧ ∀ c ∈ cset memDefault l a v, c.2 ≠ memDefault c.1 := by
  unfold cset
  split
  · exact ⟨cellsSorted_cdel a h.1, fun c hc => h.2 c (mem_cdel hc)⟩
  · refine ⟨cellsSorted_cput a v h.1, fun c hc => ?_⟩
    rcases mem_cput hc with e | e
    · subst e; assumption
    · exact h.2 c e

theorem wf_cwr (n : Nat) : ∀ {l : List Host.Cell} (a v : Nat),
    (cellsSorted none l = true ∧ ∀ c ∈ l, c.2 ≠ memDefault c.1) →
    cellsSorted none (cwr memDefault l a n v) = true ∧ ∀ c ∈ cwr memDefault l a n v, c.2 ≠ memDefault c.1 := by
  induction n with
  | zero => intro l a v h; exact h
  | succ n ih => intro l a v h; exact ih _ _ (wf_cset _ _ h)

/-- A write of memory keeps the canonical form. -/
theorem canonical_wr (s : State) (a n v : Nat) (h : s.canonical = true) : (s.wr a n v).canonical = true := by
  unfold State.canonical at h ⊢
  rw [wf_iff] at h ⊢
  exact wf_cwr n a v h

theorem canonical_wrBytes (l : List Byte) : ∀ (s : State) (a : Nat), s.canonical = true → (s.wrBytes a l).canonical = true := by
  induction l with
  | nil => intro s a h; exact h
  | cons b t ih => intro s a h; exact ih _ _ (canonical_wr s a 1 _ h)

theorem canonical_wrWords (l : List (BitVec 64)) : ∀ (s : State) (a : Nat), s.canonical = true →
    (s.wrWords a l).canonical = true := by
  induction l with
  | nil => intro s a h; exact h
  | cons b t ih => intro s a h; exact ih _ _ (canonical_wr s a 8 _ h)

theorem canonical_setSlot (s : State) (i : Nat) (v : Int) (h : s.canonical = true) : (s.setSlot i v).canonical = true :=
  canonical_wr _ _ _ _ h

theorem canonical_setSlotBits (s : State) (i v : Nat) (h : s.canonical = true) : (s.setSlotBits i v).canonical = true :=
  canonical_wr _ _ _ _ h

/-- What stands in memory alone decides its form. -/
theorem canonical_congr {s t : State} (h : t.mem.bytes = s.mem.bytes) : t.canonical = s.canonical := by
  simp [State.canonical, Memory.wf, h]

theorem canonical_filter {m : Memory} (f : Host.Cell → Bool) (h : m.wf = true) : ({ m with bytes := m.bytes.filter f } : Memory).wf = true := by
  rw [wf_iff] at h ⊢
  refine ⟨?_, fun c hc => h.2 c (List.mem_filter.mp hc).1⟩
  have key : ∀ (l : List Host.Cell) (b : Nat), cellsSorted (some b) l = true → cellsSorted (some b) (l.filter f) = true := by
    intro l
    induction l with
    | nil => intros; rfl
    | cons p t ih =>
      intro b hb
      simp only [cellsSorted, Bool.and_eq_true, decide_eq_true_eq] at hb
      by_cases hf : f p = true
      · simp only [List.filter_cons, hf, if_true, cellsSorted, Bool.and_eq_true, decide_eq_true_eq]; exact ⟨hb.1, ih _ hb.2⟩
      · simp only [List.filter_cons, hf]; exact ih _ (cellsSorted_mono (by omega) hb.2)
  have key0 : ∀ l : List Host.Cell, cellsSorted none l = true → cellsSorted none (l.filter f) = true := by
    intro l
    induction l with
    | nil => intros; rfl
    | cons p t ih =>
      intro hb
      simp only [cellsSorted] at hb
      by_cases hf : f p = true
      · simp only [List.filter_cons, hf, if_true, cellsSorted]; exact key _ _ hb
      · simp only [List.filter_cons, hf]; exact ih (cellsSorted_some hb)
  exact key0 _ h.1

end Sys2Proof.Machine
end

