-- ==== Sys2Proof/Laws/Sequencer.lean ====
section
/-! SUPPORT. The sequencer's registers and the ends of its instructions. -/
namespace Sys2Proof.Machine
open Sys2Proof

@[simp] theorem sx_zero (s : State) : s.sx 0 = 0 := rfl

/-- A register after a write; s0 takes none (R430). -/
theorem sx_setSx (s : State) (i j v : Nat) : (s.setSx i v).sx j = if i = j ∧ i ≠ 0 then v % 2 ^ 32 else s.sx j := by
  by_cases hi : i = 0
  · subst hi; simp [State.setSx]
  · by_cases hj : j = 0
    · subst hj; simp [State.sx, hi]
    · by_cases h : i = j
      · subst h; simp [State.setSx, State.sx, hi]
      · simp [State.setSx, State.sx, hi, hj, h, mget_mset_ne]

@[simp] theorem sx_seqJump (s : State) (p j : Nat) : (s.seqJump p).sx j = s.sx j := rfl

@[simp] theorem fld_seqNext (s : State) (f : Fld) : s.seqNext.fld f = s.fld f := rfl

/-- What the end of an instruction with a result makes of the machine. -/
theorem seqSet_writes (s : State) (rd : Fin 16) (v : Nat) : SeqWrites rd v (s.seq.pc + 4) s (s.seqSet rd v) := by
  refine ⟨?_, ?_, ?_, ?_, ?_⟩
  · unfold State.seqSet State.setSx State.seqNext State.seqJump OnlySeqRegs; split <;> rfl
  · unfold State.seqSet State.setSx State.seqNext State.seqJump; split <;> rfl
  · intro h
    have : rd.val ≠ 0 := fun e => h (Fin.ext e)
    simp [State.seqSet, State.seqNext, sx_setSx, this]
  · intro r h
    have : rd.val ≠ r.val := fun e => h (Fin.ext e).symm
    simp [State.seqSet, State.seqNext, sx_setSx, this]
  · exact sameMem_of_mem (by unfold State.seqSet State.setSx; split <;> rfl)

/-- An instruction without a result ends at a target. -/
theorem seqJump_goes (s : State) (p : Nat) : SeqGoes p s (s.seqJump p) :=
  ⟨rfl, rfl, fun _ => rfl, fun _ => rfl⟩

/-- A jump that leaves a link. -/
theorem setSx_jump (s : State) (rd : Fin 16) (v p : Nat) : SeqWrites rd v p s ((s.setSx rd v).seqJump p) := by
  refine ⟨?_, ?_, ?_, ?_, ?_⟩
  · unfold State.setSx State.seqJump OnlySeqRegs; split <;> rfl
  · rfl
  · intro h
    have : rd.val ≠ 0 := fun e => h (Fin.ext e)
    simp [sx_setSx, this]
  · intro r h
    have : rd.val ≠ r.val := fun e => h (Fin.ext e).symm
    simp [sx_setSx, this]
  · exact sameMem_of_mem (by unfold State.setSx; split <;> rfl)

/-- The mode shown writes two fields of SEQ_STAT and nothing else. -/
theorem showSeq_eq (s : State) : s.showSeq = { s with regs := s.showSeq.regs } := rfl

theorem fld_showSeq_ne (s : State) {f : Fld} (h : SEQ_STAT_MODE.key ≠ f.key) (h' : SEQ_STAT_NMI_PEND.key ≠ f.key) :
    s.showSeq.fld f = s.fld f := by
  unfold State.showSeq
  rw [fld_setFld_ne _ _ h', fld_setFld_ne _ _ h]

/-- An illegal instruction with NMI not masked (R431, R440). -/
theorem seqBad_unmasked (s : State) (h : s.seq.masked = false) (hs : s.msgAt 0x3E1 = none) :
    s.seqBad.msgAt 0x3E1 = some (0x32, 0) ∧ s.seqBad.fld SEQ_EPC = s.seq.pc % 2 ^ 32 ∧ s.seqBad.seq.pc = 0x38000040
      ∧ SameMem s s.seqBad := by
  have hm := msgAt_send_empty s 0x3E1 0x32 0 hs
  have e : s.seqBad = ((s.send 0x3E1 0x32 0).count SEQ_CNT_ILL SEQ_CNT_OVF 2 1).seqNmi s.seq.pc 4 := by
    simp [State.seqBad, h]
  rw [e]
  refine ⟨?_, ?_, rfl, ?_⟩
  · refine Eq.trans ?_ hm; unfold State.msgAt; simp only [State.seqNmi, State.seqStart, State.showSeq, setFld_sump, count_sump]
  · unfold State.seqNmi
    rw [fld_showSeq_ne _ (by decide) (by decide)]
    show State.fld (State.seqStart _ _ _ _) _ = _
    unfold State.seqStart
    rw [fld_showSeq_ne _ (by decide) (by decide), fld_setFld_ne _ _ (by decide)]
    exact fld_setFld_same _ _ _
  · exact sameMem_of_mem (by simp [State.seqNmi, State.seqStart, State.showSeq])

end Sys2Proof.Machine
end

