-- ==== Sys2Proof/Laws/Fabric.lean ====
section
/-! SUPPORT. Memory accesses of the fabric masters that meet no obstacle. -/
namespace Sys2Proof.Machine
open Sys2Proof

theorem crd_lt (d : Nat → Byte) (l : List Host.Cell) (n : Nat) : ∀ a, crd d l a n < 256 ^ n := by
  induction n with
  | zero => intro a; simp [crd]
  | succ n ih =>
    intro a
    have h1 := ih (a + 1)
    have h2 : (cget d l a).toNat < 256 := (cget d l a).isLt
    simp only [crd, Nat.pow_succ]
    omega

theorem crd_add (d : Nat → Byte) (l : List Host.Cell) (n m : Nat) : ∀ a,
    crd d l a (m + n) = crd d l a m + 256 ^ m * crd d l (a + m) n := by
  induction m with
  | zero => intro a; simp [crd]
  | succ m ih =>
    intro a
    rw [show m + 1 + n = (m + n) + 1 by omega]
    simp only [crd]
    rw [ih, show a + 1 + m = a + (m + 1) by omega, Nat.pow_succ]
    ring

/-- Bytes inside a wider read. -/
theorem crd_sub (d : Nat → Byte) (l : List Host.Cell) (a k n w : Nat) (h : k + n ≤ w) :
    crd d l a w / 256 ^ k % 256 ^ n = crd d l (a + k) n := by
  have p : 0 < 256 ^ k := Nat.pow_pos (by decide)
  obtain ⟨r, rfl⟩ := Nat.exists_eq_add_of_le h
  rw [Nat.add_assoc, crd_add d l (n + r) k, Nat.add_mul_div_left _ _ p, Nat.div_eq_of_lt (crd_lt ..), Nat.zero_add, crd_add d l r n,
    Nat.add_mul_mod_self_left, Nat.mod_eq_of_lt (crd_lt ..)]

/-- A word stored without error is delivered as it stands (R451). -/
theorem checkedRead_clean (s : State) (a : Nat) (hi : s.bit (FLT_INJ_ARM (checkerOf a)) = false) (he : s.errAt a = 0) :
    s.checkedRead a = (.ok, s) := by
  have h0 : syndrome 0#72 = 0#8 := by decide
  unfold State.checkedRead State.inject
  simp [hi, State.synAt, he, h0, eccOf]

/-- A read by the tick pipeline of words stored without error changes nothing (R452). -/
theorem pipeRead_clean (s : State) (ws : List Nat) (h : ∀ a ∈ ws, s.cleanWord a) : s.pipeRead ws = s := by
  unfold State.pipeRead
  induction ws with
  | nil => rfl
  | cons a t ih =>
    obtain ⟨he, hi⟩ := h a (by simp)
    rw [List.foldl_cons, checkedRead_clean s a hi he]
    simpa [Ecc.good] using ih fun b hb => h b (by simp [hb])

/-- Memory without inverted bits and without an armed checker. -/
theorem cleanBus_of (s : State) (he : s.mem.err = []) (hi : ∀ i < 128, s.bit (FLT_INJ_ARM i) = false) : s.cleanBus := by
  intro a h1 h2
  refine ⟨by simp [State.errAt, he, mget], hi _ ?_⟩
  unfold checkerOf
  split <;> omega

theorem wordAt_clean (s : State) (a : Nat) (he : s.errAt a = 0) : s.wordAt a = BitVec.ofNat 64 (s.rd (a / 8 * 8) 8) := by
  have h0 : syndrome 0#72 = 0#8 := by decide
  unfold State.wordAt
  simp [he, h0, eccOf]

/-- A read of n bytes inside one word. -/
theorem memRead_clean (s : State) (a n : Nat) (hi : s.bit (FLT_INJ_ARM (checkerOf a)) = false) (he : s.errAt a = 0)
    (hn : a % 8 + n ≤ 8) : s.memRead a n = (some (s.rd a n), s) := by
  unfold State.memRead
  rw [checkedRead_clean s a hi he]
  have hw : s.rd (a / 8 * 8) 8 < 2 ^ 64 := by
    have := crd_lt memDefault s.mem.bytes 8 (a / 8 * 8)
    simpa [State.rd] using this
  have := crd_sub memDefault s.mem.bytes (a / 8 * 8) (a % 8) n 8 hn
  rw [show a / 8 * 8 + a % 8 = a by omega] at this
  simp only [wordAt_clean s a he, Ecc.good, if_true, BitVec.toNat_ofNat, Nat.mod_eq_of_lt hw]
  rw [State.rd, this, State.rd]

/-- A write inside one word. -/
theorem memWrite_clean (s : State) (a n v : Nat) (hi : s.bit (FLT_INJ_ARM (checkerOf a)) = false) (he : s.errAt a = 0) :
    s.memWrite a n v = (true, s.wr a n v) := by
  unfold State.memWrite
  split
  · subst n; rfl
  · rw [checkedRead_clean s a hi he]; simp [Ecc.good]

theorem inject_idle (s : State) (i : Nat) (y : BitVec 8) (h : s.bit (FLT_INJ_ARM i) = false) : s.inject i y = (s, false) := by
  simp [State.inject, h]

/-- An unhindered read answers the bytes and changes nothing. -/
theorem fabricRead_readable (s : State) (m : Master) (a n : Nat) (k : AccessKind) (h : s.readable m a n k) :
    s.fabricRead m a n k = (some (s.rd a n), s.looked m a) := by
  obtain ⟨h1, h2, h3, h4, h5, h6, h7, h8, h9, h10⟩ := h
  have ha : ¬ a < 0x10000000 := by
    intro hlt; revert h2; simp [inMemory]; omega
  have hn2 : n ≠ 2 := by rintro rfl; simp at h3
  have hn : a % 8 + n ≤ 8 := by
    rcases h3 with rfl | rfl | rfl <;> omega
  have hmb : inMbox a = true → s.mboxRead (m == .host) a n
      = (s.setMbox (s.mem.mbox.note (m == .host) false a)).memRead a n := by
    intro hi; unfold State.mboxRead; simp only [hi, Bool.true_and] at h10; simp [h10]
  unfold State.fabricRead
  rw [inject_idle s _ _ h7]
  simp only [h1, ha, h2, hn2, h4, h5, h6]
  rw [if_neg (by simp), if_neg (by simp), if_neg (by simp), if_neg (by simp), if_neg (by simp), if_neg (by simp)]
  split
  · rename_i hi
    rw [hmb hi, memRead_clean _ a n (by exact h8) (by exact h9) hn]; simp [State.looked, hi]; rfl
  · rename_i hi; rw [memRead_clean s a n h8 h9 hn]; simp [State.looked, hi]

/-- An unhindered write stores the bytes. -/
theorem fabricWrite_writable (s : State) (m : Master) (a n v : Nat) (h : s.writable m a n) :
    s.fabricWrite m a n v = (true, s.stored m a n v) := by
  obtain ⟨h1, h2, h3, h4, h7, h8, h9, h10, h11, h12⟩ := h
  have hm : inMemory a = true := by simp [inMemory]; omega
  have hb : writeBarred m a = false := by unfold writeBarred; rw [if_neg (by omega), if_neg (by omega)]
  have hs : s.asleep a = false := by unfold State.asleep; simp; intro; omega
  have hr : reservedMem a = false := by unfold reservedMem; simp; omega
  have hn2 : n ≠ 2 := by rintro rfl; simp at h3
  have hacc : s.memAccept m a n v = (true, s.stored m a n v) := by
    unfold State.memAccept State.stored
    have hmr : inMram a = false := by unfold inMram; simp; omega
    rw [if_neg (by omega), hr, if_neg (by simp), if_neg (by omega), if_neg (by omega), if_neg (by omega), if_neg h10]
    split
    · rename_i hi
      simp only [hi, Bool.true_and] at h11 h12
      unfold State.mboxWrite
      simp only [h12, h11, Bool.false_eq_true, if_false]
      exact memWrite_clean _ a n v (by exact h8) (by exact h9)
    · rw [hmr, if_neg (by simp), memWrite_clean s a n v h8 h9]
  unfold State.fabricWrite
  rw [inject_idle s _ _ h7]
  simp only [hacc, h1, hb, hm, h4, hs]
  rw [if_neg (by simp), if_neg (by omega), if_neg (by simp), if_neg (by simp [hn2]), if_neg (by simp)]

/-- Outside the mailbox no access shares a cycle with another. -/
theorem mboxAlone_out {α : Type} (s : State) (a : Nat) (f : State → α × State) (h : inMbox a = false) : s.mboxAlone a f = f s := by
  simp [State.mboxAlone, State.mboxBegin, State.mboxOver, h]

/-- A whole slot written by a fabric master. -/
theorem slotsWrite_word (s : State) (m : Master) (a v n : Nat) (h : n = 4) :
    slotsWrite s m a n v = slotWrite s m ((a - 0x10000000) / 4) (v % 2 ^ 32) := by
  unfold slotsWrite; split
  · omega
  · rfl
  · simp_all

/-- A slot written by its producer on a unit that is not paired is staged (R29, R30). -/
theorem slotWrite_staged (s : State) (m : Master) (i v : Nat) (h : s.produces m i = true)
    (hp : s.bit RED_CFG_PAIR = false) : slotWrite s m i v = s.stage i v := by
  unfold slotWrite State.mirrored; simp [h, hp]

end Sys2Proof.Machine
end

