-- ==== Sys2Proof/Laws/Block.lean ====
section
/-! SUPPORT. What the arrival of a block cause does (R228, R229, R233, R239). -/
namespace Sys2Proof.Machine
open Sys2Proof

/-- A fold that keeps a quantity at each step keeps it. -/
theorem foldl_keep {α β γ : Type} (π : α → γ) (f : α → β → α) (h : ∀ a b, π (f a b) = π a) (l : List β) :
    ∀ a, π (l.foldl f a) = π a := by
  induction l with
  | nil => intro a; rfl
  | cons b t ih => intro a; exact (ih _).trans (h a b)

/-- A fold over elements that each keep a quantity. -/
theorem foldl_keep_mem {α β γ : Type} (π : α → γ) (f : α → β → α) (l : List β) (h : ∀ a, ∀ b ∈ l, π (f a b) = π a) :
    ∀ a, π (l.foldl f a) = π a := by
  induction l with
  | nil => intro a; rfl
  | cons b t ih =>
    intro a
    exact (ih (fun a c hc => h a c (List.mem_cons_of_mem _ hc)) _).trans (h a b (List.mem_cons_self ..))

/-- A fold keeps a property that each step keeps. -/
theorem foldl_inv {α β : Type} (P : α → Prop) (f : α → β → α) (h : ∀ a b, P a → P (f a b)) (l : List β) :
    ∀ a, P a → P (l.foldl f a) := by
  induction l with
  | nil => intro a h0; exact h0
  | cons b t ih => intro a h0; exact ih _ (h a b h0)

theorem commitBlockMarkers_eq (s : State) (c : BlkCause) :
    s.commitBlockMarkers c = { s with lanes := (s.commitBlockMarkers c).lanes } := by
  unfold State.commitBlockMarkers
  split
  · rfl
  · refine foldl_inv (fun t : State => t = { s with lanes := t.lanes }) _ ?_ _ _ rfl
    intro a b h
    split
    · exact h
    · unfold State.setLane; rw [h]

@[simp] theorem commitBlockMarkers_regs (s : State) (c : BlkCause) : (s.commitBlockMarkers c).regs = s.regs := by
  rw [commitBlockMarkers_eq]
@[simp] theorem commitBlockMarkers_fld (s : State) (c : BlkCause) (f : Fld) : (s.commitBlockMarkers c).fld f = s.fld f := by
  rw [commitBlockMarkers_eq]; rfl

theorem driveBlockOut_eq (s : State) : s.driveBlockOut = { s with regs := s.driveBlockOut.regs, prot := s.driveBlockOut.prot } := by
  unfold State.driveBlockOut; split <;> rfl

theorem SameRegs.driveBlockOut {fs : List Fld} {s t : State} (h : SameRegs fs s t) (m : PRT_STAT_BO ∈ fs) :
    SameRegs fs s t.driveBlockOut := by
  unfold State.driveBlockOut
  split
  · exact h
  · intro f hf; exact (h.setFld (f := PRT_STAT_BO) _ m) f hf

theorem fld_driveBlockOut_ne (s : State) {f : Fld} (h : PRT_STAT_BO.key ≠ f.key) : s.driveBlockOut.fld f = s.fld f :=
  SameRegs.driveBlockOut (sameRegs_refl [PRT_STAT_BO] s) (by simp) f (by simp [Ne.symm h])

/-- BLOCK_OUT follows the latched block. -/
theorem driveBlockOut_active (s : State) (hs : s.dbg.scan = false) (hl : s.latched = true) :
    s.driveBlockOut.fld PRT_STAT_BO = 1 ∧ s.driveBlockOut.prot.blockOut = !s.bit PRT_CTRL_BO_POL := by
  unfold State.driveBlockOut
  simp only [hs, hl]
  refine ⟨?_, ?_⟩
  · simp [State.fld, State.setFld, b2n, PRT_STAT_BO, mget_mset_same]
  · cases h : s.bit PRT_CTRL_BO_POL <;> simp [h]

/-- What a block cause changes: registers of the protection unit, its own state, the marker requests, the acquisition's
note. -/
theorem blockCause_eq (s : State) (c : BlkCause) :
    s.blockCause c = { s with regs := (s.blockCause c).regs, prot := (s.blockCause c).prot, acq := (s.blockCause c).acq,
                              lanes := (s.blockCause c).lanes } := by
  unfold State.blockCause
  simp only
  rw [driveBlockOut_eq]
  unfold State.seqEvent State.flagBit
  rw [commitBlockMarkers_eq]
  unfold State.count
  split <;> (simp only; split <;> rfl)

theorem sameRegs_blockCause (s : State) (c : BlkCause) : SameRegs blockFlds s (s.blockCause c) := by
  have m {f : Fld} (h : f ∈ blockFlds) := h
  unfold State.blockCause
  simp only
  refine SameRegs.driveBlockOut ?_ (by simp [blockFlds])
  refine SameRegs.seqEvent ?_ _ (by simp [blockFlds])
  refine SameRegs.trans (t := _) ?_ (sameRegs_of_regs _ (commitBlockMarkers_regs _ _))
  refine SameRegs.count ?_ _ _ (by simp [blockFlds]) (by simp [blockFlds])
  refine SameRegs.trans (t := _) ?_ (sameRegs_of_regs _ rfl)
  refine SameRegs.flagBit ?_ _ (by simp [blockFlds])
  split
  · exact sameRegs_refl _ _
  · refine SameRegs.trans (t := _) ?_ (sameRegs_of_regs _ rfl)
    exact (((sameRegs_refl _ s).flag (by simp [blockFlds])).flag (by simp [blockFlds])).setFld _ (by simp [blockFlds])
      |>.setFld _ (by simp [blockFlds])

/-- The latched block is set after any cause. -/
theorem blockCause_latched (s : State) (c : BlkCause) : (s.blockCause c).latched = true := by
  unfold State.blockCause State.latched State.bit
  simp only
  rw [fld_driveBlockOut_ne _ (by decide)]
  unfold State.seqEvent State.flagBit
  rw [fld_setFld_ne _ _ (by decide), commitBlockMarkers_fld, fld_count_ne _ _ _ (by decide) (by decide)]
  show (State.fld (State.setFld _ _ _) _ != 0) = true
  rw [fld_setFld_ne _ _ (by decide)]
  split
  · assumption
  · show (State.fld (State.setFld (State.setFld (State.flag (State.flag s _) _) _ _) _ _) _ != 0) = true
    unfold State.flag
    rw [fld_setFld_ne _ _ (by decide), fld_setFld_ne _ _ (by decide), fld_setFld_ne _ _ (by decide), fld_setFld_same]
    decide

/-- The cause's bit is set. -/
theorem blockCause_cause (s : State) (c : BlkCause) : tbit ((s.blockCause c).fld PRT_CAUSE_ALL) c.idx = true := by
  have hi : c.idx < PRT_CAUSE_ALL.w := by cases c <;> decide
  unfold State.blockCause
  simp only
  rw [fld_driveBlockOut_ne _ (by decide)]
  unfold State.seqEvent State.flagBit
  rw [fld_setFld_ne _ _ (by decide), commitBlockMarkers_fld, fld_count_ne _ _ _ (by decide) (by decide)]
  show tbit (State.fld (State.setFld _ PRT_CAUSE_ALL _) _) _ = true
  rw [fld_setFld_same, tbit_mod _ _ _ hi, tbit_setBit]

/-- BLOCK_OUT is active after any cause, unless boundary scan holds the pins. -/
theorem blockCause_out (s : State) (c : BlkCause) (hs : s.dbg.scan = false) : (s.blockCause c).fld PRT_STAT_BO = 1 := by
  have hl := blockCause_latched s c
  unfold State.blockCause at hl ⊢
  simp only at hl ⊢
  refine (driveBlockOut_active _ ?_ ?_).1
  · unfold State.seqEvent State.flagBit
    rw [commitBlockMarkers_eq]
    simp only [setFld_dbg, count_dbg]
    split <;> exact hs
  · unfold State.latched State.bit at hl ⊢
    rwa [fld_driveBlockOut_ne _ (by decide)] at hl

/-- The registers and times that the arrival of a cause fixes. -/
theorem blockCause_first (s : State) (c : BlkCause) :
    (s.blockCause c).fld PRT_CAUSE_FIRST = (if s.latched then s.fld PRT_CAUSE_FIRST else c.idx)
    ∧ (s.latched = false → (s.blockCause c).fld PRT_CAUSE_FIRST_TICK = s.now % 65536
        ∧ (s.blockCause c).fld CLK_STATE_LATCHED_BLOCK = 1) := by
  have hi : c.idx % 2 ^ PRT_CAUSE_FIRST.w = c.idx := by cases c <;> decide
  have key : ∀ f : Fld, f ∈ [PRT_CAUSE_FIRST, PRT_CAUSE_FIRST_TICK, CLK_STATE_LATCHED_BLOCK] →
      (s.blockCause c).fld f = (if s.latched then s else
        (((s.flag PRT_STAT_LATCHED).flag CLK_STATE_LATCHED_BLOCK).setFld PRT_CAUSE_FIRST c.idx).setFld
          PRT_CAUSE_FIRST_TICK (s.now % 65536)).fld f := by
    intro f hf
    have k1 : PRT_STAT_BO.key ≠ f.key ∧ SEQ_EVT.key ≠ f.key ∧ PRT_CNT_SET.key ≠ f.key ∧ PRT_CNT_OVF.key ≠ f.key
        ∧ PRT_CAUSE_ALL.key ≠ f.key := by revert f; decide
    unfold State.blockCause
    simp only
    rw [fld_driveBlockOut_ne _ k1.1]
    unfold State.seqEvent State.flagBit
    rw [fld_setFld_ne _ _ k1.2.1, commitBlockMarkers_fld, fld_count_ne _ _ _ k1.2.2.1 k1.2.2.2.1]
    show (State.fld (State.setFld _ _ _) _) = _
    rw [fld_setFld_ne _ _ k1.2.2.2.2]
    split <;> rfl
  refine ⟨?_, fun h => ⟨?_, ?_⟩⟩
  · rw [key _ (by simp)]
    split
    · rfl
    · rw [fld_setFld_ne _ _ (by decide), fld_setFld_same, hi]
  · rw [key _ (by simp), h, if_neg (by simp), fld_setFld_same]
    exact Nat.mod_eq_of_lt (Nat.mod_lt _ (by decide))
  · rw [key _ (by simp), h, if_neg (by simp), fld_setFld_ne _ _ (by decide), fld_setFld_ne _ _ (by decide)]
    unfold State.flag
    rw [fld_setFld_same]; decide

theorem blockCause_times (s : State) (c : BlkCause) :
    (s.blockCause c).prot.setTick = s.now ∧ (s.blockCause c).prot.minDone = false := by
  have d (x : State) : x.driveBlockOut.prot.setTick = x.prot.setTick ∧ x.driveBlockOut.prot.minDone = x.prot.minDone := by
    unfold State.driveBlockOut; split <;> exact ⟨rfl, rfl⟩
  unfold State.blockCause
  simp only
  rw [(d _).1, (d _).2]
  unfold State.seqEvent State.flagBit
  rw [commitBlockMarkers_eq]
  unfold State.count
  constructor
  · split <;> (simp only; split <;> rfl)
  · split <;> (simp only; split <;> rfl)

/-- The arrival of a cause, in the terms of the statements. -/
theorem blockCause_blocked (s : State) (c : BlkCause) : Blocked c.idx s (s.blockCause c) :=
  ⟨blockCause_latched s c, blockCause_cause s c, (blockCause_times s c).1, (blockCause_times s c).2,
    fun h => ⟨by rw [(blockCause_first s c).1, h]; rfl, ((blockCause_first s c).2 h).1, ((blockCause_first s c).2 h).2⟩,
    fun h => by rw [(blockCause_first s c).1, h]; rfl, blockCause_out s c⟩

/-- A message leaves a block as it is. -/
theorem Blocked.send {i : Nat} {s t : State} (h : Blocked i s t) (a k d : Nat) : Blocked i s (t.send a k d) := by
  obtain ⟨h1, h2, h3, h4, h5, h6, h7⟩ := h
  have e (f : Fld) (x : FLT_CNT_MERGED.key ≠ f.key) (y : FLT_CNT_OVF.key ≠ f.key) := fld_send_ne t a k d x y
  have p : (t.send a k d).prot = t.prot := by simp
  refine ⟨?_, ?_, by rw [p]; exact h3, by rw [p]; exact h4, fun hl => ?_, fun hl => ?_, fun hs => ?_⟩
  · unfold State.latched State.bit at *; rw [e _ (by decide) (by decide)]; exact h1
  · rw [e _ (by decide) (by decide)]; exact h2
  · rw [e _ (by decide) (by decide), e _ (by decide) (by decide), e _ (by decide) (by decide)]; exact h5 hl
  · rw [e _ (by decide) (by decide)]; exact h6 hl
  · rw [e _ (by decide) (by decide)]; exact h7 hs

/-- A block that follows changes of the protection's own state alone. -/
theorem Blocked.after {i : Nat} {s s' t : State} (h : Blocked i s' t) (hr : s'.latched = s.latched) (hf : s'.fld PRT_CAUSE_FIRST = s.fld PRT_CAUSE_FIRST)
    (hn : s'.now = s.now) (hd : s'.dbg.scan = s.dbg.scan) : Blocked i s t := by
  obtain ⟨h1, h2, h3, h4, h5, h6, h7⟩ := h
  rw [hr] at h5 h6; rw [hn] at h3 h5; rw [hd] at h7; rw [hf] at h6
  exact ⟨h1, h2, h3, h4, h5, h6, h7⟩

theorem told_send (s : State) (a k d : Nat) : Told a k d s (s.send a k d) := fun h => msgAt_send_empty s a k d h

theorem count_eq (s : State) (c o : Fld) (i k : Nat) : s.count c o i k = { s with regs := (s.count c o i k).regs } := by
  unfold State.count; simp only; split <;> rfl

theorem send_eq (s : State) (a k d : Nat) : s.send a k d = { s with regs := (s.send a k d).regs, sump := (s.send a k d).sump } := by
  unfold State.send State.sendAs; simp only; split
  · rfl
  · rw [count_eq]

/-- A cause followed by a message touches what a cause and a message touch. -/
theorem onlyBlock_send (s : State) (c : BlkCause) (a k d : Nat) (fs : List Fld) : OnlyBlock fs s ((s.blockCause c).send a k d) := by
  constructor
  · rw [send_eq, blockCause_eq]
  · refine SameRegs.send ?_ a k d (by simp [msgFlds]) (by simp [msgFlds])
    exact (sameRegs_blockCause s c).mono (by intro f hf; simp [hf])

end Sys2Proof.Machine
end

