-- ==== Sys2Proof/Laws/Cells.lean ====
section
/-! SUPPORT. Commands that reach one cell controller, and the fault turn-off. -/
namespace Sys2Proof.Machine
open Sys2Proof

@[simp] theorem cell_onCell (s : State) (g : Nat) (f : Cell → Cell) : (s.onCell g f).cell g = f (s.cell g) := by
  simp [State.onCell, State.cell, State.setCell]

/-- A change of one cell leaves all else alone. -/
theorem onCell_only (s : State) (g : Nat) (f : Cell → Cell) : OnlyCell g s (s.onCell g f) :=
  ⟨rfl, fun _ h => mget_mset_ne _ _ _ (Ne.symm h)⟩

/-- A gate-on given or held off changes nothing but the switches on and held, their instants and the source current. -/
theorem give_eq (c : Cell) (p : Nat × Int) :
    c.give p = { c with on := (c.give p).on, onAt := (c.give p).onAt, held := (c.give p).held, srcI := (c.give p).srcI } := by
  unfold Cell.give Cell.gateOn; split
  · rfl
  · split <;> rfl

/-- Gate-ons that fall due change nothing but the switches on and held, their instants, the source current and the waiting list. -/
theorem settle_eq (c : Cell) (t : Int) :
    c.settle t = { c with on := (c.settle t).on, onAt := (c.settle t).onAt, waitOn := (c.settle t).waitOn,
                          held := (c.settle t).held, srcI := (c.settle t).srcI } := by
  unfold Cell.settle
  simp only
  refine foldl_inv (fun x : Cell => x = { c with on := x.on, onAt := x.onAt, waitOn := x.waitOn, held := x.held, srcI := x.srcI })
    _ ?_ _ _ rfl
  intro a b h
  rw [give_eq, h]

theorem blockNow_down (c : Cell) (t : Int) (d : Nat) : (c.blockNow t d).down := ⟨rfl, rfl, rfl, rfl, rfl⟩

/-- Going to BLOCK on its own touches nothing but switches, gate currents, edges, states and the last change. -/
theorem blockNow_eq (c : Cell) (t : Int) (d : Nat) :
    c.blockNow t d = { c with on := 0, waitOn := [], held := 0, edges := [], sched := 0, state := 0, onAt := (c.blockNow t d).onAt,
                              offAt := (c.blockNow t d).offAt, srcI := (c.blockNow t d).srcI,
                              sinkI := (c.blockNow t d).sinkI, tLast := some t } := by
  unfold Cell.blockNow Cell.allOff
  rw [settle_eq]

/-- What a fault turn-off does (R144, R146). -/
theorem fault_off (c : Cell) (code : Nat) (t : Int) : FaultOff code c (c.fault code t) := by
  unfold Cell.fault Cell.latchCode FaultOff Cell.down
  rw [blockNow_eq]
  simp only
  by_cases h : c.latch = 0 <;> simp [h]

/-- The telemetry word of a cell without a self-test, after the gate-ons due at its origin, and the settings that become active
(R113, R136, R152, R154). -/
theorem reportAt_eq (c q : Cell) (idx : Nat) (j : Int) (v temp : Nat) (h : c.stest = none) (hq : c.settle (c.origin + 1000000) = q) :
    c.reportAt idx j v temp = { q with
      activeSet := q.setNext.getD q.activeSet
      setNext := none
      vcap := v
      report := BitVec.ofNat 64 (idx * 2 ^ 57 + v % 2 ^ 14 * 2 ^ 43 + temp % 256 * 2 ^ 35
        + (((q.res.find? fun (r : WordRes) => r.xtick == j - 1).map fun (w : WordRes) => (w.xtick % 256).toNat).getD q.seq) * 2 ^ 27
        + q.fcode (((q.res.find? fun (r : WordRes) => r.xtick == j - 1).map WordRes.rej).getD 0) * 2 ^ 21
        + q.gsup.toNat * 2 ^ 16 + q.stateCode * 2 ^ 4
        + (b2n (q.res.find? fun (r : WordRes) => r.xtick == j - 1).isNone
          + 2 * b2n ((((q.res.find? fun (r : WordRes) => r.xtick == j - 1).map WordRes.rej).getD 0) != 0))) } := by
  have hn : q.stest = none := by rw [← hq, settle_eq]; exact h
  unfold Cell.reportAt
  simp only [h, hq, Option.map_none, reduceCtorEq, if_false]
  obtain ⟨⟩ := q
  simp only at hn
  subst hn
  rfl

end Sys2Proof.Machine
end

