-- ==== Sys2Proof/Laws/Lane.lean ====
section
/-! SUPPORT. The state of a port and what depends on it (R80, R81, R116, R138). -/
namespace Sys2Proof.Machine
open Sys2Proof

theorem wr_eq (s : State) (a n v : Nat) : s.wr a n v = { s with mem := (s.wr a n v).mem } := rfl

theorem setCe_eq (s : State) (g : Nat) (f : CeFld) (v : Nat) : s.setCe g f v = { s with mem := (s.setCe g f v).mem } := by
  unfold State.setCe; exact wr_eq ..

/-- A CL port that leaves RUNNING changes delays, downloads and the delay marks of its cells. -/
theorem portLeft_eq (s : State) (n : Nat) :
    s.portLeft n = { s with pdly := (s.portLeft n).pdly, ccell := (s.portLeft n).ccell, mem := (s.portLeft n).mem } := by
  unfold State.portLeft State.each
  simp only
  refine foldl_inv (fun x : State => x = { s with pdly := x.pdly, ccell := x.ccell, mem := x.mem }) _ ?_ _ _ rfl
  intro a b h
  rw [setCe_eq, setCe_eq (State.setCc _ _ _)]
  unfold State.setCc
  rw [h]

theorem setPort_eq (s : State) (l st : Nat) :
    s.setPort l st = { s with regs := (s.setFld (CL_STAT_STATE l) st).regs, pdly := (s.setPort l st).pdly,
                              ccell := (s.setPort l st).ccell, mem := (s.setPort l st).mem } := by
  unfold State.setPort
  simp only
  split
  · rw [portLeft_eq]; rfl
  · rfl

theorem setPort_keep (s : State) (l st : Nat) (h : 32 ≤ l ∨ s.portState l ≠ 4) :
    (s.setPort l st).pdly = s.pdly ∧ (s.setPort l st).ccell = s.ccell ∧ (s.setPort l st).mem = s.mem := by
  unfold State.setPort; simp only
  rw [if_neg (by omega)]; exact ⟨rfl, rfl, rfl⟩

theorem setPort_fld (s : State) (l st : Nat) (f : Fld) : (s.setPort l st).fld f = (s.setFld (CL_STAT_STATE l) st).fld f := by
  rw [setPort_eq]; rfl

@[simp] theorem setPort_lane (s : State) (l st k : Nat) : (s.setPort l st).lane k = s.lane k := by
  rw [setPort_eq]; rfl
@[simp] theorem setPort_sump (s : State) (l st : Nat) : (s.setPort l st).sump = s.sump := by rw [setPort_eq]
@[simp] theorem setPort_ctl (s : State) (l st : Nat) : (s.setPort l st).ctl = s.ctl := by rw [setPort_eq]

theorem setPort_state (s : State) (l st : Nat) (h : st < 8) : (s.setPort l st).portState l = st := by
  unfold State.portState
  rw [setPort_fld, fld_setFld_same]; exact Nat.mod_eq_of_lt h

/-! ### Statements about one lane -/

theorem onlyLane_refl (fs : List Fld) (l : Nat) (s : State) : OnlyLane fs l s s :=
  ⟨rfl, sameRegs_refl _ _, fun _ _ => rfl, fun _ => ⟨rfl, rfl, rfl⟩⟩

/-- A change of listed registers, the lane and waiting messages. -/
theorem OnlyLane.step {fs : List Fld} {l : Nat} {s t u : State} (h : OnlyLane fs l s t)
    (he : u = { t with regs := u.regs, lanes := u.lanes, sump := u.sump }) (hr : SameRegs fs t u)
    (hl : ∀ k, k ≠ l → u.lane k = t.lane k) : OnlyLane fs l s u := by
  obtain ⟨h1, h2, h3, h4⟩ := h
  refine ⟨?_, h2.trans hr, fun k hk => (hl k hk).trans (h3 k hk), fun q => ?_⟩
  · rw [he, h1]
  · rw [he]; exact h4 q

theorem OnlyLane.setFld {fs : List Fld} {l : Nat} {s t : State} (h : OnlyLane fs l s t) (f : Fld) (v : Nat) (m : f ∈ fs) :
    OnlyLane fs l s (t.setFld f v) :=
  h.step rfl ((sameRegs_refl _ t).setFld v m) fun _ _ => rfl

theorem OnlyLane.count {fs : List Fld} {l : Nat} {s t : State} (h : OnlyLane fs l s t) (c o : Fld) (i k : Nat)
    (m : c ∈ fs) (m' : o ∈ fs) : OnlyLane fs l s (t.count c o i k) :=
  h.step (by rw [count_eq]) ((sameRegs_refl _ t).count i k m m') fun _ _ => by simp [State.lane]

theorem OnlyLane.setLane {fs : List Fld} {l : Nat} {s t : State} (h : OnlyLane fs l s t) (x : Lane) :
    OnlyLane fs l s (t.setLane l x) :=
  h.step rfl (sameRegs_of_regs _ rfl) fun _ hk => lane_setLane_ne _ _ (Ne.symm hk)

theorem OnlyLane.send {fs : List Fld} {l : Nat} {s t : State} (h : OnlyLane fs l s t) (a k d : Nat)
    (m : FLT_CNT_MERGED ∈ fs) (m' : FLT_CNT_OVF ∈ fs) : OnlyLane fs l s (t.send a k d) :=
  h.step (by rw [send_eq]) ((sameRegs_refl _ t).send a k d m m') fun _ _ => by simp [State.lane]

/-- A port that changes its state: its cells lose what R116 says when it leaves RUNNING. -/
theorem OnlyLane.setPort {fs : List Fld} {l : Nat} {s t : State} (h : OnlyLane fs l s t) (st : Nat)
    (m : CL_STAT_STATE l ∈ fs) (hs : t.portState l = s.portState l) : OnlyLane fs l s (t.setPort l st) := by
  obtain ⟨h1, h2, h3, h4⟩ := h
  refine ⟨?_, h2.trans ?_, fun k hk => by rw [setPort_lane]; exact h3 k hk, fun q => ?_⟩
  · rw [setPort_eq, h1]
  · intro f hf
    rw [setPort_fld]; exact fld_setFld_ne _ _ (Ne.symm (hf _ m))
  · have := setPort_keep t l st (by rw [hs]; exact q)
    rw [this.1, this.2.1, this.2.2]; exact h4 q

end Sys2Proof.Machine
end

