-- ==== Sys2Proof/Laws/Station.lean ====
section
/-! SUPPORT. What byte strings spell, and when a station frame passes the receive checks. -/
namespace Sys2Proof.Machine
open Sys2Proof

/-- The little-endian bytes of a number spell it, cut to their width. -/
theorem leNat_leBytes (n v : Nat) : leNat (leBytes n v) = v % 256 ^ n := by
  induction n generalizing v with
  | zero => simp [leBytes, leNat, Nat.mod_one]
  | succ n ih => simp only [leBytes, leNat, ih, BitVec.toNat_ofNat]; rw [show 256 ^ (n + 1) = 256 * 256 ^ n from Nat.pow_succ', Nat.mod_mul]

/-- The bytes of a number in network byte order spell it, cut to their width. -/
theorem beNat_beBytes (n v : Nat) : beNat (beBytes n v) = v % 256 ^ n := by
  simp [beNat, beBytes, leNat_leBytes]

/-- Bytes spell a number below their width. -/
theorem leNat_lt (l : List Byte) : leNat l < 256 ^ l.length := by
  induction l with
  | nil => simp [leNat]
  | cons b t ih =>
    have := b.isLt
    simp only [leNat, List.length_cons, Nat.pow_succ]
    omega

/-- A tag has 128 bits (R391). -/
theorem stnTag_lt (k : List Byte) (dir : Nat) (l : List Byte) : stnTag k dir l < 256 ^ 16 := by
  refine Nat.lt_of_lt_of_le (leNat_lt _) (Nat.pow_le_pow_right (by decide) ?_)
  simp only [kmacBytes, keccak512, List.length_reverse, List.length_take]
  exact Nat.min_le_left ..

/-- A frame that passes every receive check, the first of its class since the link came up, is delivered (R393, R396). -/
theorem stnCheck_accepts {s : State} {p : Nat} {f : StnFrame} {cls mac ip : Nat} {l : List Byte} {k : List Byte} {x y : State}
    (he : s.bit (STN_CTRL_EN p) = true) (hl : s.bit (STN_STAT_LINK p) = true) (hf : s.encap p f = .frame cls mac ip l)
    (ha : s.stnAllowed p cls mac ip = true) (ht : s.takeToken p cls = (true, x)) (hh : stnHeaderOk p cls l = true)
    (hk : x.keyNamed p (beNat ((l.drop 2).take 2)) = (some k, y))
    (hg : stnTag k 0 (l.take (16 + beNat ((l.drop 8).take 2))) = beNat ((l.drop (16 + beNat ((l.drop 8).take 2))).take 16))
    (hs : ((y.stnP p).seqs.find? fun q => q.1 == cls) = none) :
    (s.stnCheck p f).2 = some (cls, beNat ((l.drop 1).take 1), beNat ((l.drop 4).take 4), (l.drop 16).take (beNat ((l.drop 8).take 2))) := by
  simp [State.stnCheck, he, hl, hf, ha, ht, hh, hk, hg, hs]

/-- An untagged raw station frame to the own address passes the encapsulation checks with the class for untagged frames. -/
theorem encap_raw {s : State} {p : Nat} {f : StnFrame} (hf : f.fcsOk = true) (h1 : 60 ≤ f.bytes.length) (h2 : f.bytes.length ≤ 1518)
    (hd : beNat ((f.bytes.drop 0).take 6) = s.fld (STN_MAC_LO p) + s.fld (STN_MAC_HI_MAC p) * 2 ^ 32)
    (hp : s.bit (STN_CTRL_PTP_EN p) = false) (hu : s.bit (STN_CTRL_UDP p) = false) (he : beNat ((f.bytes.drop 12).take 2) = s.fld (STN_ADDR_ETYPE p))
    (hv : s.fld (STN_ADDR_ETYPE p) ≠ 0x8100 ∧ s.fld (STN_ADDR_ETYPE p) ≠ 0x8808) (hc : s.bit (STN_CLSMAP_UNTAG_EN p) = true) :
    s.encap p f = .frame (s.fld (STN_CLSMAP_UNTAG p)) (beNat ((f.bytes.drop 6).take 6)) 0 (f.bytes.drop 14) := by
  have h3 : ¬ f.bytes.length + 4 < 64 := by omega
  have h4 : ¬ 1522 < f.bytes.length + 4 := by omega
  simp only [List.drop_zero] at hd
  simp [State.encap, State.stnPayload, hf, h3, h4, hd, hp, hu, he, hv.1, hv.2, hc]

end Sys2Proof.Machine
end

