-- ==== Sys2Proof/Laws/Words.lean ====
section
/-! SUPPORT. Fields of words that are put together from parts (R431). -/
namespace Sys2Proof.Machine
open Sys2Proof

/-- A field that lies in the upper part. -/
theorem extract_append_hi {a b : Nat} (x : BitVec a) (y : BitVec b) (k n : Nat) (h : b ≤ k) :
    (x ++ y).extractLsb' k n = x.extractLsb' (k - b) n := by
  apply BitVec.eq_of_getLsbD_eq
  intro i hi
  rw [BitVec.getLsbD_extractLsb', BitVec.getLsbD_extractLsb', BitVec.getLsbD_append, if_neg (by omega),
    show k + i - b = k - b + i by omega]

/-- A field that lies in the lower part. -/
theorem extract_append_lo {a b : Nat} (x : BitVec a) (y : BitVec b) (k n : Nat) (h : k + n ≤ b) :
    (x ++ y).extractLsb' k n = y.extractLsb' k n := by
  apply BitVec.eq_of_getLsbD_eq
  intro i hi
  rw [BitVec.getLsbD_extractLsb', BitVec.getLsbD_extractLsb', BitVec.getLsbD_append, if_pos (by omega)]

/-- A field that is the whole word. -/
theorem extract_all {a : Nat} (x : BitVec a) : x.extractLsb' 0 a = x := by
  apply BitVec.eq_of_getLsbD_eq
  intro i hi
  simp [hi]

theorem toFin_field (d : Fin 16) : ((BitVec.ofFin d : BitVec 4).extractLsb' 0 4).toFin = d :=
  congrArg BitVec.toFin (extract_all (BitVec.ofFin d : BitVec 4))

/-- The fields of a format R word. -/
theorem seqWR_fields (op : BitVec 6) (d a b : Fin 16) :
    (seqWR op d a b).extractLsb' 26 6 = op ∧ seqF1 (seqWR op d a b) = d ∧ seqF2 (seqWR op d a b) = a
      ∧ seqF3 (seqWR op d a b) = b ∧ (seqWR op d a b).extractLsb' 0 14 = 0 := by
  unfold seqWR seqF1 seqF2 seqF3
  refine ⟨?_, ?_, ?_, ?_, ?_⟩
  · rw [extract_append_hi _ _ _ _ (by decide), extract_append_hi _ _ _ _ (by decide), extract_append_hi _ _ _ _ (by decide),
      extract_append_hi _ _ _ _ (by decide)]; exact extract_all op
  · rw [extract_append_hi _ _ _ _ (by decide), extract_append_hi _ _ _ _ (by decide), extract_append_hi _ _ _ _ (by decide),
      extract_append_lo _ _ _ _ (by decide)]; exact toFin_field d
  · rw [extract_append_hi _ _ _ _ (by decide), extract_append_hi _ _ _ _ (by decide), extract_append_lo _ _ _ _ (by decide)]
    exact toFin_field a
  · rw [extract_append_hi _ _ _ _ (by decide), extract_append_lo _ _ _ _ (by decide)]
    exact toFin_field b
  · rw [extract_append_lo _ _ _ _ (by decide)]; rfl

/-- The fields of a format I or B word. -/
theorem seqWI_fields (op : BitVec 6) (d a : Fin 16) (i : BitVec 18) :
    (seqWI op d a i).extractLsb' 26 6 = op ∧ seqF1 (seqWI op d a i) = d ∧ seqF2 (seqWI op d a i) = a
      ∧ seqImm (seqWI op d a i) = i := by
  unfold seqWI seqF1 seqF2 seqImm
  refine ⟨?_, ?_, ?_, ?_⟩
  · rw [extract_append_hi _ _ _ _ (by decide), extract_append_hi _ _ _ _ (by decide), extract_append_hi _ _ _ _ (by decide)]
    exact extract_all op
  · rw [extract_append_hi _ _ _ _ (by decide), extract_append_hi _ _ _ _ (by decide), extract_append_lo _ _ _ _ (by decide)]
    exact toFin_field d
  · rw [extract_append_hi _ _ _ _ (by decide), extract_append_lo _ _ _ _ (by decide)]
    exact toFin_field a
  · rw [extract_append_lo _ _ _ _ (by decide)]; exact extract_all i

/-- The fields of a format J word. -/
theorem seqWJ_fields (op : BitVec 6) (d : Fin 16) (o : BitVec 22) :
    (seqWJ op d o).extractLsb' 26 6 = op ∧ seqF1 (seqWJ op d o) = d ∧ seqOff (seqWJ op d o) = o := by
  unfold seqWJ seqF1 seqOff
  refine ⟨?_, ?_, ?_⟩
  · rw [extract_append_hi _ _ _ _ (by decide), extract_append_hi _ _ _ _ (by decide)]; exact extract_all op
  · rw [extract_append_hi _ _ _ _ (by decide), extract_append_lo _ _ _ _ (by decide)]
    exact toFin_field d
  · rw [extract_append_lo _ _ _ _ (by decide)]; exact extract_all o

/-- The fields of a format U word. -/
theorem seqWU_fields (op : BitVec 6) (d : Fin 16) (i : BitVec 14) :
    (seqWU op d i).extractLsb' 26 6 = op ∧ seqF1 (seqWU op d i) = d ∧ seqImmU (seqWU op d i) = i
      ∧ (seqWU op d i).extractLsb' 0 8 = 0 := by
  unfold seqWU seqF1 seqImmU
  refine ⟨?_, ?_, ?_, ?_⟩
  · rw [extract_append_hi _ _ _ _ (by decide), extract_append_hi _ _ _ _ (by decide), extract_append_hi _ _ _ _ (by decide)]
    exact extract_all op
  · rw [extract_append_hi _ _ _ _ (by decide), extract_append_hi _ _ _ _ (by decide), extract_append_lo _ _ _ _ (by decide)]
    exact toFin_field d
  · rw [extract_append_hi _ _ _ _ (by decide), extract_append_lo _ _ _ _ (by decide)]; exact extract_all i
  · rw [extract_append_lo _ _ _ _ (by decide)]; rfl

end Sys2Proof.Machine
end

