-- ==== Sys2Proof/WellFormed.lean ====
section
/-! DEFINITION. Commands that spell what their row means: what the operand types leave open is checked here. The
machine itself takes every command. -/
namespace Sys2Proof
open Sys2Proof.Machine

/-- The TAP codes that have an instruction of their own (R468). -/
def tapCodes : List Nat := [0x00, 0x01, 0x02, 0x04, 0x05, 0x08, 0x09, 0x10]

/-- The checks: a request header spells its row's OP and its data words are as many as it counts
(R464), a Caver mismatch names a word of the region (R457), only the sequencer fetches (R454), a session is opened at
the debug port (R471), BYPASS is loaded by a code that has no other instruction (R468), and a sequencer instruction's
immediate is one that its word admits (R432, R437). -/
def Instr.wellFormed : Instr → Bool
  | .hostRead hdr _ _ _ => hdr.extractLsb' 60 4 == 1
  | .hostWrite hdr data _ _ _ => hdr.extractLsb' 60 4 == 2 && data.length == (hdr.extractLsb' 53 5).toNat + 1
  | .caverTestDone (some w) => decide (w < 256)
  | .fabricAccess m _ _ kind _ _ => kind != .fetch || m == .sequencer
  | .debugAuth m _ => m == .debug
  | .challengeRead m => m == .debug
  | .bypass code _ => decide (code.toNat < 32) && !tapCodes.contains code.toNat
  | i => seqLegal i

end Sys2Proof
end

