-- ==== Sys2Proof/Tests/Slice0.lean ====
section
/-! SUPPORT. The model's own tests: small states and single steps, and for every statement a state and operands that meet
its hypotheses. -/
set_option Elab.async false
namespace Sys2Proof.Tests
open Sys2Proof Sys2Proof.Machine

/-! ### WellFormed: each check refuses an ill-formed command and passes a well-formed one -/

theorem test_wf_hostRead : Instr.wellFormed (.hostRead (2 <<< 60) 0 false .no) = false ∧ Instr.wellFormed (.hostRead (1 <<< 60) 0 false .no) = true := by
  decide
theorem test_wf_hostWrite : Instr.wellFormed (.hostWrite (1 <<< 60) [0] 0 false .no) = false ∧ Instr.wellFormed (.hostWrite (2 <<< 60) [] 0 false .no) = false
    ∧ Instr.wellFormed (.hostWrite (2 <<< 60) [0] 0 false .no) = true := by decide
theorem test_wf_caver : Instr.wellFormed (.caverTestDone (some 256)) = false ∧ Instr.wellFormed (.caverTestDone (some 255)) = true
    ∧ Instr.wellFormed (.caverTestDone none) = true := by decide
theorem test_wf_fabric : Instr.wellFormed (.fabricAccess .host 0 .word .fetch 0 .no) = false
    ∧ Instr.wellFormed (.fabricAccess .sequencer 0 .word .fetch 0 .no) = true := by decide
theorem test_wf_debug : Instr.wellFormed (.debugAuth .host 0) = false ∧ Instr.wellFormed (.debugAuth .debug 0) = true
    ∧ Instr.wellFormed (.challengeRead .host) = false ∧ Instr.wellFormed (.challengeRead .debug) = true := by decide
theorem test_wf_bypass : Instr.wellFormed (.bypass 0x10 []) = false ∧ Instr.wellFormed (.bypass 0x20 []) = false
    ∧ Instr.wellFormed (.bypass 0x1F []) = true := by decide
theorem test_wf_shift : Instr.wellFormed (.slli 1 2 32) = false ∧ Instr.wellFormed (.srai 1 2 31) = true := by decide
theorem test_wf_slot : Instr.wellFormed (.srd 1 2 1024) = false ∧ Instr.wellFormed (.swr 1 2 1023) = true := by decide
theorem test_wf_flt : Instr.wellFormed (.flt 1 64) = false ∧ Instr.wellFormed (.flt 1 0) = true := by decide
theorem test_wf_rdsr : Instr.wellFormed (.rdsr 1 255) = false ∧ Instr.wellFormed (.rdsr 1 0) = true := by decide

/-- The reset state with some register fields set. -/
def regsOn (l : List (Fld × Nat)) : State := l.foldl (fun s p => s.setFld p.1 p.2) State.reset

/-! StepRunsFrontCommand -/
theorem wit_stepIdle : State.reset.pending = [] := by decide
theorem test_step_idle : step State.reset = .next State.reset := rfl

/-! HelpersOfR16 -/
theorem wit_helpers : (0 : Int) ≤ 5 ∧ 0 < 32 ∧ 3 ≤ 7 := by decide
theorem test_roundShift_example : roundShift (-5) 1 = -2 ∧ roundShift 5 1 = 3 ∧ floorShift (-5) 1 = -3 := by decide

/-! CountersStopAtTop -/
theorem wit_counter : SEQ_CNT_OVF.key ≠ SEQ_CNT_NMI.key ∧ State.reset.fld SEQ_CNT_NMI < 2 ^ SEQ_CNT_NMI.w
    ∧ State.reset.fld SEQ_CNT_OVF < 2 ^ SEQ_CNT_OVF.w ∧ 1 < SEQ_CNT_OVF.w := by decide
theorem test_counter_full : ((regsOn [(SEQ_CNT_NMI, 0xFFFFFFFF)]).count SEQ_CNT_NMI SEQ_CNT_OVF 1 1).fld SEQ_CNT_OVF = 2 := by decide

/-! HsiaoColumns -/
theorem test_hsiao_columns : hsiaoCols = hsiaoRule := by decide +kernel

/-! HsiaoDecoding -/
theorem wit_hsiaoPair : 63 < 64 ∧ 64 < 72 ∧ 0 < 71 := by decide
theorem test_hsiao_double : (hsiaoDec (hsiaoEnc 5 ^^^ 3#72)).1 = .ue := by decide +kernel

/-! SeqDecodeEncode -/
theorem wit_seqEncode : seqEncode (.addi 3 0 100) = some 0x40C00064 ∧ seqLegal (.addi 3 0 100) = true
    ∧ seqEncode (.slli 15 15 31) = some 0x4FFC001F ∧ seqLegal (.slli 15 15 31) = true := by decide
theorem test_decode_addi : seqDecode 0x40C00064 = some (.addi 3 0 100) := by decide
theorem test_decode_srd : seqDecode 0xC9000185 = some (.srd 4 0 0x185) := by decide
theorem test_decode_illegal : seqDecode 0x00000000 = none ∧ seqDecode 0x4C000020 = none := by decide

/-! CommandWordRoundTrip -/
theorem wit_cmdWord : (cmdDecode 0xFFFFFFFFFFFFFFFF).cell < 128 ∧ (cmdDecode 0xFFFFFFFFFFFFFFFF).data < 65536 := by decide
theorem test_cmdWord_fields : cmdDecode 0x02003FF7FF10FFFF = ⟨1, 0, 3, 7, 1007, 254, 0, true, false, 0, 65535⟩ := by decide

/-! TickBoundaries -/
/-- A unit whose clocks run, in a state of operation. -/
def opState (op : Nat) : State :=
  { regsOn [(CLK_MON_SYS_LOCK, 1), (CLK_MON_TIME_LOCK, 1), (CLK_STATE_STATE, op)] with ctl := { started := true, tick := 41, clocked := true } }
theorem wit_tick : (opState 4).ticksRun = true ∧ State.reset.ticksRun = false ∧ ((opState 4).hostAnswer 0).red.take = false
    ∧ ((opState 4).hostAnswer 0).ctl.started = true ∧ ((opState 4).hostAnswer 0).role ≠ 2 ∧ ((opState 4).hostAnswer 0).latched = false
    ∧ ((opState 4).hostAnswer 0).op = 4 ∧ ((opState 4).hostAnswer 0).ctl.seqReq = none := by decide +kernel
theorem wit_tickFirst : ({ opState 1 with ctl := { clocked := true } } : State).ticksRun = true
    ∧ (({ opState 1 with ctl := { clocked := true } } : State).hostAnswer 0).ctl.started = false := by decide +kernel
theorem wit_tickBench : (({ opState 4 with ctl := { hostReq := some 8, started := true } } : State).hostAnswer 0).ctl.hostReq = some 8 := by decide +kernel
theorem wit_tickBlock :
    let u := ((opState 6).setFld PRT_STAT_LATCHED 1).hostAnswer 0
    u.latched = true ∧ u.op = 6 ∧ u.prot.relReq = false ∧ u.bit PRT_REL_CFG_AUTO = false ∧ u.ctl.hostReq = none ∧ u.ctl.seqReq = none := by decide +kernel

/-! StateRequests -/
theorem wit_stateRequest : (0xA5C30006#32).toNat / 2 ^ 16 = 0xA5C3 ∧ (opState 5).op = 5 ∧ (0xA5C30006#32).toNat % 16 = 6
    ∧ ¬ (0xA5C20006#32).toNat / 2 ^ 16 = 0xA5C3 ∧ (opState 5).role ≠ 2 := by decide +kernel
theorem wit_armBlocked : ((opState 4).setFld PRT_STAT_LATCHED 1).op = 4 ∧ ((opState 4).setFld PRT_STAT_LATCHED 1).latched = true := by decide +kernel
theorem test_request_rejected : (stateRequest (opState 6) 0xA5C30004).fld CLK_STATE_REQ_REJ = 1 := by decide +kernel

/-! RegisterWritesByAccessCode -/
theorem wit_registerWrite : State.reset.regionOk .host 0x10028 4 .write = true ∧ (regAt 0x10028).isSome = true
    ∧ State.reset.inFreset 0x10028 = false ∧ debugOnly 0x10028 = false ∧ debugOnly 0xF8004 = true
    ∧ (regsOn [(SEC_STAT_DBG_POLICY, 1)]).kdaAllowed 0xF8004 true = true ∧ (regsOn [(SEC_STAT_DBG_POLICY, 1)]).kdaAllowed 0x10028 true = false
    ∧ State.reset.writeReg .host 0x10028 5 = State.reset.regWrite .host 0x10028 5 := by decide +kernel
theorem wit_registerWriteLocked : (opState 6).locked = true ∧ ((regAt 0x30024).map fun r => r.flds.any fun f => decide (f.acc = .rwl)) = some true
    ∧ (opState 6).writeReg .host 0x30024 5 = (opState 6).regWrite .host 0x30024 5 := by decide +kernel
theorem test_locked_write : ((opState 6).writeReg .host 0x30024 5).msgAt 0x300 = some (0x02, 0) := by decide +kernel
theorem test_w1c : ((regsOn [(PRT_CNT_OVF, 3)]).writeReg .host 0x30038 1).fld PRT_CNT_OVF = 2 := by decide +kernel

/-! CountersLatchesAndSlots -/
theorem wit_counterClear : State.reset.inFreset (lineBase (39 : Fin 40) + 0x80) = false := by decide +kernel
theorem wit_slots : State.reset.produces .sequencer (0x380 : Fin 1024) = true ∧ State.reset.bit RED_CFG_PAIR = false
    ∧ State.reset.produces .host (0x3C0 : Fin 1024) = false ∧ State.reset.produces .station (0x380 : Fin 1024) = false := by decide +kernel
theorem wit_execOffset : State.reset.locked = false ∧ 200 ≤ (900#32).toNat % 1024 ∧ (900#32).toNat % 1024 ≤ 900 := by decide +kernel
theorem wit_latches :
    let s := regsOn [(SEC_STAT_DBG_POLICY, 0)]
    s.kdaAllowed 0x20 false = true ∧ s.regionOk .debug 0x20 4 .read = true := by decide +kernel

/-! MemoryAccessesAndCaver -/
theorem wit_fabricRead : State.reset.readable .host 0x10000000 4 .read ∧ AccessKind.read ≠ .write := by
  unfold State.readable; decide +kernel
/-- Port F has written the first word of the mailbox in the cycle, and port H has read it. -/
def mboxState : State := { State.reset with mem := { mbox := { fw := [0x3C000000], hr := [0x3C000000] } } }
theorem wit_mboxConflict : inMbox 0x3C000000 = true ∧ mboxState.bit (FLT_INJ_ARM 0x46) = false
    ∧ (mboxState.mboxBegin 0x3C000000 .last).mem.mbox.wrote (Master.host == .host) 0x3C000000 = true
    ∧ (mboxState.mboxBegin 0x3C000000 .last).mem.mbox.hasRead (Master.sequencer == .host) 0x3C000000 = true
    ∧ (mboxState.mboxBegin 0x3C000000 .last).mem.mbox.hasRead true 0x3C000000 = false
    ∧ mboxState.regionOk .host 0x3C000000 4 .read = true ∧ mboxState.regionOk .host 0x3C000000 4 .write = true := by decide +kernel
/-- A master's region over the whole address space. -/
def regionFull (m : Nat) : State :=
  regsOn [(MEM_CFG_EN m 15, 1), (MEM_CFG_R m 15, 1), (MEM_CFG_W m 15, 1), (MEM_LIMIT_LIMIT m 15, 0xFFFFFF)]
theorem wit_mboxSeq : ({ regionFull 2 with mem := mboxState.mem } : State).regionOk .sequencer 0x3C000000 4 .write = true
    ∧ mboxState.cleanWord 0x3C000000 := by unfold State.cleanWord; decide +kernel
theorem wit_mboxBoth : (State.reset.mboxBegin 0x10000000 .last).readable .host 0x10000000 4 .read
    ∧ (State.reset.mboxBegin 0x3C000000 .next).writable .host 0x3C000000 8 := by
  unfold State.readable State.writable; decide +kernel
theorem wit_fabricRefused : State.reset.regionOk .cairn 0x20000000 4 .write = false ∧ (regsOn [(SEC_STAT_DBG_POLICY, 1)]).kdaAllowed 0x10028 true = false
    ∧ (regionFull (Master.num .loader)).regionOk .loader 0x50000000 4 .read = true ∧ writeBarred .loader 0x50000000 = false ∧ inMemory 0x50000000 = false := by decide +kernel
def errState : State := { State.reset with mem := { err := [(0x10000008, 4)], wback := [0x10000008] } }
theorem wit_writeback : errState.mem.wback = 0x10000008 :: [] ∧ eccOf (errState.synAt 0x10000008) ≠ .ue := by decide +kernel
theorem wit_caverStart : (opState 4).bit MEM_CAVER_CFG_EN = true ∧ 4 ≤ (opState 4).op ∧ (opState 4).mem.caver = none
    ∧ (opState 4).caverDue = true ∧ regionAcq ((opState 4).fld MEM_CAVER_STAT_POS) = false ∧ (opState 4).mem.err = [] ∧ (∀ i : Fin 256, (opState 4).bit (FLT_INJ_ARM i) = false) := by decide +kernel
theorem wit_caverNoErrors : ∀ a, (opState 4).errAt a = 0 := fun _ => rfl
theorem wit_caverDone :
    let s : State := { State.reset with mem := { caver := some ⟨15135, 0⟩ }, ctl := { tick := 100 } }
    s.mem.caver = some ⟨15135, 0⟩ ∧ s.bit ACQ_CTRL_RET = false ∧ 0 + 100 ≤ s.now ∧ s.fld MEM_CAVER_STAT_POS < 15295 := by decide +kernel
theorem wit_caverLast : (regsOn [(MEM_CAVER_STAT_POS, 15295)]).fld MEM_CAVER_STAT_POS = 15295 := by decide +kernel

/-! LaneLossDetectors -/
theorem wit_laneLoss : (regsOn [(CL_STAT_STATE 39, 4)]).portState (39 : Fin 40) ≠ 0
    ∧ (regsOn [(CL_STAT_STATE 39, 4)]).bit (CL_STAT_LOS (39 : Fin 40)) = false
    ∧ (regsOn [(CL_STAT_STATE 39, 4)]).bit (CL_STAT_LOL (39 : Fin 40)) = false
    ∧ (regsOn [(CL_STAT_MISS_RUN 39, 3)]).fld (CL_STAT_MISS_RUN (39 : Fin 40)) = 3 ∧ (regsOn []).fld (CL_STAT_MISS_RUN (39 : Fin 40)) ≠ 3 := by decide +kernel
theorem wit_laneRecover :
    let s : State := { (regsOn [(CL_STAT_STATE 0, 5), (CL_STAT_CDR_LOCK 0, 1), (CL_STAT_LOL 0, 1)]).setLane 0 { faultedBy := .loss, faultedAt := 7, spaced := true, silentFrom := some 0 } with
      ctl := { tick := 100000 } }
    s.portState (0 : Fin 40) = 5 ∧ (s.lane 0).faultedBy = .loss ∧ (s.lane 0).faultedAt + 1000 ≤ s.now ∧ s.bit (CL_STAT_LOS 0) = false
      ∧ s.bit (CL_CTRL_AUTO_REC 0) = true ∧ (s.lane 0).spaced = true ∧ s.bit (CL_STAT_CDR_LOCK 0) = true ∧ s.bit (CL_STAT_LOL 0) = true ∧ (s.lane 0).silentFrom = some 0
      ∧ 0 + s.fld (CL_SILENT_TO_MS 0) * 1000 ≤ s.now := by decide +kernel
theorem wit_losPin : (regsOn [(CL_CTRL_LOS_PIN_EN 39, 1)]).bit (CL_CTRL_LOS_PIN_EN (39 : Fin 40)) = true
    ∧ true ≠ (regsOn [(CL_CTRL_LOS_PIN_EN 39, 1)]).bit (CL_CTRL_LOS_PIN_POL (39 : Fin 40))
    ∧ 29 < 20 + 10 * State.reset.fld (CL_LOS_CFG_AMP (39 : Fin 40)) ∧ (regsOn [(CL_CTRL_LOS_PIN_EN 39, 0)]).bit (CL_CTRL_LOS_PIN_EN (39 : Fin 40)) = false := by decide +kernel
theorem test_los_running : (losAssert (regsOn [(CL_STAT_STATE 39, 4)]) 39).portState 39 = 5 := by decide +kernel
theorem test_third_miss : (frameMiss (regsOn [(CL_STAT_STATE 3, 3), (CL_STAT_MISS_RUN 3, 2)]) 3).portState 3 = 2 := by decide +kernel

/-! PortAndLoopbackRequests -/
theorem wit_portEnable : 4 ≤ (regsOn [(CLK_STATE_STATE, 4)]).op ∧ (regsOn [(CLK_STATE_STATE, 4)]).bit (CL_CTRL_EN (31 : Fin 40)) = false := by decide +kernel
theorem wit_portDisable :
    let s := regsOn [(CLK_STATE_STATE, 6), (CL_CTRL_EN 36, 1), (CL_CTRL_EN 38, 1)]
    4 < s.op ∧ s.op ≠ 8 ∧ s.bit (CL_CTRL_EN (36 : Fin 40)) = true ∧ ¬ (36 : Fin 40) < 32 ∧ ¬ 38 ≤ (36 : Fin 40).val
      ∧ s.bit (CL_CTRL_EN (38 : Fin 40)) = true ∧ s.op ≠ 4 := by decide +kernel
theorem wit_portDisableCl : 4 ≤ (regsOn [(CLK_STATE_STATE, 6), (CL_CTRL_EN 0, 1)]).op ∧ (regsOn [(CLK_STATE_STATE, 6)]).armOfPort 0 = none := by decide +kernel
theorem wit_loopDenied : (regsOn [(CLK_STATE_STATE, 4)]).op ≠ 8 ∧ ¬ (37 : Fin 40) < 32 ∧ (37 : Fin 40).val = 37 ∧ State.reset.op < 4
    ∧ (regsOn [(CL_CTRL_EN 3, 1)]).bit (CL_CTRL_EN (3 : Fin 40)) = true ∧ (1 : Fin 4) ≠ 0 := by decide +kernel
theorem test_loop_ml0_parked : ((loopbackSelect (regsOn [(CLK_STATE_STATE, 4)]) 36 1).msgAt 0x1A0) = some (0x17, 0) := by decide +kernel

/-! MarkersAtReceivers -/
theorem wit_markers :
    let s := regsOn [(CL_STAT_STATE 37, 4), (CL_STAT_STATE 2, 4), (CL_STAT_STATE 38, 4), (PRT_CTRL_RX01, 1), (PRT_CTRL_RX23, 0), (ACQ_BUS_CFG_RX, 0), (PRT_CTRL_ALERT_BLK, 1)]
    s.portState (37 : Fin 40) ≠ 0 ∧ s.bit PRT_CTRL_RX01 = true ∧ s.portState (2 : Fin 40) = 4 ∧ s.fld (CL_CNT_RXFRM_LO 2) + 1 < 2 ^ 32
      ∧ s.portState (38 : Fin 40) ≠ 0 ∧ s.bit PRT_CTRL_RX23 = false ∧ tbit (s.fld ACQ_BUS_CFG_RX) 0 = false
      ∧ s.bit PRT_CTRL_ALERT_BLK = true := by decide +kernel
theorem wit_busTrigger :
    let s := regsOn [(CL_STAT_STATE 39, 4), (ACQ_BUS_CFG_RX, 2), (ACQ_R_TMASK_BUS 1, 1), (ACQ_R_STAT_STATE 1, 1)]
    tbit (s.fld ACQ_BUS_CFG_RX) ((39 : Fin 40).val - 38) = true ∧ s.bit (ACQ_R_TMASK_BUS (0 : Fin 4)) = false ∧ s.bit (ACQ_R_TMASK_BUS (1 : Fin 4)) = true
      ∧ s.recSt (1 : Fin 4) = 1 ∧ (s.recd (1 : Fin 4)).t0 ≤ 65536000 * (s.now : Int) + 0 - (s.busD ((39 : Fin 40).val - 36) + asym16 (s.fld (TIM_ASYM_ING ((39 : Fin 40).val - 32))))
      ∧ (trigRx s 39 0x001FFD3C 0).recSt (1 : Fin 4) = 2 := by decide +kernel
theorem wit_badMarker : markerOf 0xFFE00300#32 = some (.bad true) := by decide +kernel
theorem wit_notMarker : markerOf 0#32 = none := by decide +kernel
theorem test_mirror_cause : (blockMarkerRx (regsOn [(CL_STAT_STATE 37, 4), (PRT_CTRL_RX01, 1)]) 37 0xFFE00329).fld PRT_CAUSE_ALL = 8 := by decide +kernel
theorem test_alert_arm :
    let s := regsOn [(CL_STAT_STATE 2, 4), (PRT_CTRL_ALERT_BLK, 1)]
    let s := { s with ld := { s.ld with img := { s.ld.img with arms := [(2, 1)] } } }
    (alertRx s 2 0xFFE002C3).fld PRT_CAUSE_ALL = 4 := by decide +kernel

/-! CellFaultTurnOff -/
/-- A committed full-bridge cell 5 in state 1 with V_CAP_OV at 500 V. -/
def cellOn : Cell :=
  { fb := true, enable := true, committed := true, state := 1, sched := 1, on := 0b1010, activeSet := [(2, 10), (4, 50), (8, 500)] }
def cellState : State := { State.reset with cells := [(5, cellOn)] }

theorem wit_cellFault : (cellState.cell 5).fb = true ∧ ((cellState.cell 5).settle 0).on.getLsbD (3 : Fin 4) = true
    ∧ ((cellState.cell 5).settle 0).blanking (3 : Fin 4) 0 = false ∧ (cellState.cell 5).desat = none
    ∧ (cellState.cell 5).activeSet ≠ [] ∧ 4 * (cellState.cell 5).setting 8 ≤ (2000#14).toNat := by decide
theorem test_shoot_latches : (((cellState.onCell 5 fun c => c.shoot 0 0)).cell 5).latch = 8 := by decide

/-! CellManagementItems -/
/-- A cell in BLOCK with every setting staged, address 6 selected and one word accepted. -/
def cellRest : Cell :=
  { fb := true, enable := true, selAddr := 6, committed := true, res := [⟨3, 0, false, true⟩],
    stagedSet := [(1, some 1), (2, some 10), (3, some 20), (4, some 50), (5, some 30), (6, some 50), (7, some 100), (8, some 500),
                  (9, some 501), (10, some 0), (16, some 0), (17, some 0), (18, some 0), (19, some 255)] }
def cellStateRest : State := { State.reset with cells := [(4095, cellRest)] }

theorem wit_cellItems : (cellStateRest.cell 4095).selAddr ≠ 0xFF ∧ settingRange (cellStateRest.cell 4095).selAddr = some (50, 1000)
    ∧ 50 ≤ (1000#16).toNat ∧ ¬ (1001#16).toNat ≤ 1000 ∧ (0xA5#16).toNat = 0xA5 ∧ (cellStateRest.cell 4095).stateCode = 0
    ∧ (∀ a ∈ settingAddrs, ((cellStateRest.cell 4095).staged a).isSome = true)
    ∧ ((cellStateRest.cell 4095).staged 2).getD 0 + 10 ≤ ((cellStateRest.cell 4095).staged 3).getD 0
    ∧ ((cellStateRest.cell 4095).staged 8).getD 0 < ((cellStateRest.cell 4095).staged 9).getD 0
    ∧ ((cellStateRest.cell 4095).staged 1).getD 0 = 1 ∧ (cellStateRest.cell 4095).enable = true
    ∧ (cellStateRest.cell 4095).latch = 0 ∧ (cellStateRest.cell 4095).res = ⟨3, 0, false, true⟩ :: [] ∧ (0x5A5A#16).toNat = 0x5A5A := by decide
theorem test_commit_type : ((cellItemCmd ((cellStateRest.onCell 4095 fun c => { c with fb := false, selAddr := 0xFF })) 4095 2 0xA5).cell 4095).latch = 0x0D := by
  decide

/-! CellWordAcceptance -/
/-- Cell 1 of hub 0, at rest, enabled and committed, and the word of XTICK 0 that takes it to state 1 at offset 0. -/
def cellIdle : Cell := { fb := true, enable := true, committed := true }
def cellIdleState : State := { State.reset with cells := [(1, cellIdle)], hubs := [(0, { words := [(1, some (0, {}))] })] }
def wordUp : BitVec 64 := cmdEncode ⟨1, 1, 0, 7, 1023, 0, 0, true, false, 0, 0⟩

theorem wit_cellWord : (hsiaoDec (hsiaoEnc wordUp)).1.good = true ∧ (cmdDecode (hsiaoDec (hsiaoEnc wordUp)).2).cell = 1
    ∧ ((cmdDecode (hsiaoDec (hsiaoEnc wordUp)).2).seq : Int) = ({} : HubHdr).tick % 256
    ∧ mget none (cellIdleState.hub 0).words 1 = some (0, {}) ∧ mget none (cellIdleState.hub 0).words 2 = none ∧ (({} : HubHdr).tick - cellIdleState.now).natAbs ≤ 256
    ∧ 256 < (({ tick := 257 } : HubHdr).tick - cellIdleState.now).natAbs
    ∧ (cellIdleState.cell 1).closed.contains ({} : HubHdr).tick = false := by decide +kernel
theorem wit_cellWordEdges : (cmdDecode wordUp).malformed = false ∧ (cmdDecode wordUp).code = 0 ∧ (cmdDecode wordUp).driven = true
    ∧ (cellIdleState.cell 1).bypassed = false ∧ (cellIdleState.cell 1).bypDrive = none
    ∧ (cellIdleState.cell 1).checkEdges 1024000 (cmdDecode wordUp) = some (1, some 1024000)
    ∧ (cmdDecode (cmdEncode ⟨1, 5, 0, 7, 1023, 0, 0, true, false, 0, 0⟩)).malformed = true := by decide +kernel

/-! CellTicksAndBypass -/
/-- A cell with one edge to BLOCK due, a result for tick 0, and one being bypassed under a failing self-test. -/
def cellEdgeDue : Cell := { fb := true, state := 1, on := 0b1010, edges := [⟨5, 0, 2⟩], res := [⟨0, 0x31, false, false⟩], holdOk := true }
def cellByp : Cell := { fb := true, bypDrive := some 3, stest := some (0x3FF, 0), gsup := 0b10000, committed := true, activeSet := [(9, 600)] }

theorem wit_cellTicks : cellEdgeDue.closed.contains (nearTick 0 (0 : Fin 512)) = false ∧ (cellEdgeDue.holdOk = true ∧ cellEdgeDue.missing + 1 ≤ (State.reset.hub 0).hold)
    ∧ popEdge cellEdgeDue.edges = some (⟨5, 0, 2⟩, []) ∧ cellEdgeDue.latch = 0 ∧ cellEdgeDue.stest = none
    ∧ cellEdgeDue.res.find? (fun r => r.xtick == nearTick 0 (1 : Fin 512) - 1) = some ⟨0, 0x31, false, false⟩
    ∧ cellEdgeDue.res.find? (fun r => r.xtick == nearTick 0 (0 : Fin 512) - 1) = none := by decide
theorem wit_cellBypass : cellByp.bypDrive.isSome = true ∧ cellByp.bypassed = false ∧ cellByp.stest = some (0x3FF, 0) ∧ cellByp.activeSet ≠ []
    ∧ tbit 0x3FF 9 = true ∧ tbit (0x200#10).toNat 9 = true ∧ (∀ k, k < 9 → tbit 0x3FF k = false ∨ tbit (0x200#10).toNat k = false)
    ∧ cellByp.gsup.getLsbD 4 = true ∧ 4 * cellByp.setting 9 ≤ (2400#14).toNat ∧ markerOf 0#32 = none := by decide
theorem test_hold_expires : (({ cellEdgeDue with missing := 4 } : Cell).missTick 1 4 0 0 7).holdExp = true := by decide +kernel
/-- A cell whose first switch waits for its supply. -/
def cellHeld : Cell := { fb := true, enable := true, state := 1, gsup := 1, held := 1 }
theorem wit_recovery : (cellHeld.settle 0).held.getLsbD (0 : Fin 5) = true ∧ (cellHeld.settle 0).enable = true ∧ (cellHeld.settle 0).held.getLsbD (4 : Fin 5) = false := by decide
theorem test_recovery_on : (cellHeld.recover 0 9).on = 1 ∧ (cellHeld.recover 0 9).gsup = 0 := by decide

/-! HubAcceptanceAndForwarding -/
/-- A header of epoch 5 with the token for hub 3, XTICK 7. -/
def hubHeader : ECWord := hsiaoChk (BitVec.ofNat 64 (5 * 2 ^ 58 + 3 * 2 ^ 50 + 2 ^ 48 + 5 * 2 ^ 24 + 7)) ++ BitVec.ofNat 64 (5 * 2 ^ 58 + 3 * 2 ^ 50 + 2 ^ 48 + 5 * 2 ^ 24 + 7)
def hubState : State := State.reset.setHub 31 { ident := 3, eAcc := 5, uAcc := 1, fwd1 := some { tick := 6 }, ticks := [⟨6, 1, 100, true⟩] }
theorem wit_hubHeader : (hsiaoDec hubHeader).1.good = true ∧ (hsiaoDec hubHeader).2.toNat / 2 ^ 58 = 0b000101
    ∧ (hsiaoDec hubHeader).2.toNat / 2 ^ 50 % 256 = (hubState.hub (31 : Fin 32)).ident ∧ tbit (hsiaoDec hubHeader).2.toNat 48 = true
    ∧ (hsiaoDec hubHeader).2.toNat / 2 ^ 24 % 2 ^ 24 = (hubState.hub (31 : Fin 32)).eAcc ∧ (1 : Fin 2).val = (hubState.hub (31 : Fin 32)).uAcc
    ∧ ((hubState.hub (31 : Fin 32)).ticks.find? fun k => k.tick == nearTick hubState.now 7) = none
    ∧ ((hubState.hub (31 : Fin 32)).ticks.find? fun k => k.tick == nearTick hubState.now 6) = some ⟨6, 1, 100, true⟩
    ∧ (hubState.hub (31 : Fin 32)).fwd (1 : Fin 2) = some { tick := 6 } ∧ (hubState.hub (31 : Fin 32)).fwd (0 : Fin 2) = none
    ∧ (hsiaoDec (0#72)).1.good = true ∧ ¬ (hsiaoDec (0#72)).2.toNat / 2 ^ 58 = 0b000101 := by decide +kernel
theorem test_hub_refuses : ((hubState.hub 31).header 0 0 9 hubHeader).refused0 = 1 ∧ ((hubState.hub 31).header 0 1 9 hubHeader).fwd1 = some ⟨7, 0, 0⟩ := by decide +kernel
/-- The tick was accepted on uplink 0 one UI later and no word of it has been forwarded. -/
theorem test_hub_earlier : (({ hubState.hub 31 with fwd0 := some { tick := 7 }, ticks := [⟨7, 0, 10, false⟩] } : Hub).header 0 1 9 hubHeader).fwd0 = none
    ∧ (({ hubState.hub 31 with fwd0 := some { tick := 7 }, ticks := [⟨7, 0, 9, false⟩] } : Hub).header 0 1 9 hubHeader).fwd1 = none := by decide +kernel

/-! HubAndConcentratorFrames -/
def concHeader : ECWord := hsiaoChk (BitVec.ofNat 64 (0b010001 * 2 ^ 58 + 2 ^ 49 + 9 * 2 ^ 25)) ++ BitVec.ofNat 64 (0b010001 * 2 ^ 58 + 2 ^ 49 + 9 * 2 ^ 25)
theorem wit_concHeader : (hsiaoDec concHeader).1.good = true ∧ (hsiaoDec concHeader).2.toNat / 2 ^ 58 = 0b010001
    ∧ (hsiaoDec concHeader).2.toNat / 2 ^ 50 % 256 = (State.reset.conc (0 : Fin 4)).ident ∧ tbit (hsiaoDec concHeader).2.toNat 49 = true
    ∧ (State.reset.conc (0 : Fin 4)).eAcc < (hsiaoDec concHeader).2.toNat / 2 ^ 25 % 2 ^ 24 ∧ (State.reset.conc (0 : Fin 4)).fwd = none := by decide +kernel
theorem wit_hubProbe : (1#128).getLsbD (0 : Fin 128) = true ∧ (1#128).getLsbD (127 : Fin 128) = false ∧ ∀ p ∈ [((1 : Fin 128), 40)], p.1 ≠ 0 := by decide
theorem wit_concSecond : ({ fwd := some 1, mark := 160 } : Conc).before (0 : Fin 2) 239 = true ∧ ({ fwd := some 0, mark := 160 } : Conc).before (1 : Fin 2) 239 = false
    ∧ ({ fwd := some 0, mark := 160 } : Conc).before (1 : Fin 2) 159 = true := by decide
theorem test_conc_origin : ((State.reset.conc 0).header 1 concHeader 0 0 100000).origin = 76000 := by decide +kernel
theorem test_conc_clip : ((({ rate := 5 } : Conc).launch 3 ⟨[some 40000, none], [], 0, 0, 0, 0⟩).up.getD 1 0) = 0x7FFF800080008000 := by decide +kernel

/-! FramesAtPorts -/
theorem wit_blockHeld :
    let s := { (regsOn [(CL_STAT_STATE 39, 4)]).setLane 39 { blockReq := true } with ctl := { nextB := 1000 } }
    32 ≤ (39 : Fin 40).val ∧ s.portState (39 : Fin 40) ≠ 0 ∧ s.dbg.scan = false ∧ s.ctl.stream = false ∧ (s.lane (39 : Fin 40)).blockReq = true
      ∧ (s.lane (39 : Fin 40)).commits = [] ∧ (s.lane (39 : Fin 40)).carry = [] ∧ s.frameWords = 391
      ∧ ((priorityMarkerSend s 39 .block 0).lane 39).marks = [(1, .block)] ∧ ((priorityMarkerSend s 39 .block 390).lane 39).marks = [(390, .block)]
      ∧ ((priorityMarkerSend s 39 .block 391).lane 39).carry = [.block] := by decide +kernel
theorem wit_frames :
    let s := { regsOn [(CL_STAT_STATE 31, 4)] with cmp := { frames := [(31, [0])] } }
    s.ctl.stream = false ∧ s.dbg.scan = false ∧ s.portState (31 : Fin 32) = 4 ∧ s.fld (CL_CTRL_LB (31 : Fin 32)) = 0
      ∧ (s.cmp.frames.any fun p => p.1 == (31 : Fin 32).val) = true ∧ (s.lane (31 : Fin 32)).carry = [] ∧ (s.lane (31 : Fin 32)).stopping = false ∧ (s.lane (31 : Fin 32)).commits = []
      ∧ s.bit (FLT_INJ_ARM (0x48 + (31 : Fin 32).val)) = false ∧ s.portState (0 : Fin 32) = 0 := by decide +kernel
theorem wit_faultedFrame :
    let s := regsOn [(CL_STAT_STATE 3, 5)]
    s.portState (3 : Fin 32) = 5 ∧ s.bit (CL_STAT_LOS (3 : Fin 32)) = false ∧ s.bit (CL_STAT_LOL (3 : Fin 32)) = false
      ∧ s.fld (CL_CTRL_LB (3 : Fin 32)) = 0 := by decide +kernel
/-- The line bits of a frame of hub 0 for unit 0 with words of zeros. -/
def frameBits : List Bool := frameLine (BitVec.ofNat 64 (0b001001 * 2 ^ 58 + 9)) (List.replicate 132 0#64) 32
set_option maxRecDepth 100000 in
theorem wit_frameGood : (frameIn 132 frameBits).stuffV = 0 ∧ (frameIn 132 frameBits).hdrEcc.good = true ∧ (frameIn 132 frameBits).crcOk = true
    ∧ (regsOn [(CL_STAT_STATE 0, 4)]).expectHub (0 : Fin 32) (frameIn 132 frameBits).hdr = true := by decide +kernel
theorem wit_frameInTime : ({ State.reset with ctl := { tick := 9 } } : State).now < ({ State.reset with ctl := { tick := 9 } } : State).fullJ 9 + 1
    + ({ State.reset with ctl := { tick := 9 } } : State).fld (CL_HUB_TLAG (0 : Fin 32)) := by decide +kernel
/-- A line that breaks off after the same header. -/
def frameCut : List Bool := stuff 0 false (scramble scrSeed (lineWord (BitVec.ofNat 64 (0b001001 * 2 ^ 58 + 9))))
theorem wit_frameBad : (frameIn 132 frameCut).crcOk = false ∧ (frameIn 132 frameCut).stuffV = 0
    ∧ (frameIn 132 frameCut).hdrEcc.good = true := by decide +kernel

/-! TripPinsAndForce -/
/-- Pins 3 and 4 enabled (active high), pin 4 high. -/
def pinState : State := { regsOn [(PRT_PIN_CFG_EN, 0x18)] with prot := { pins := 0x10 } }
theorem wit_tripPin : pinState.pinActive (3 : Fin 16) = false ∧ pinState.elec.below.contains 10 = false
    ∧ tbit (pinState.fld PRT_PIN_CFG_EN) (3 : Fin 16) = true ∧ tbit (pinState.fld PRT_PIN_CFG_EN) (15 : Fin 16) = false
    ∧ pinState.pinActive (15 : Fin 16) = false ∧ pinState.locked = false := by decide +kernel
theorem wit_pinCfg : ((0x00100018#32).getLsbD (4 : Fin 16) = true) ∧ tbit (State.reset.fld PRT_PIN_CFG_EN) (4 : Fin 16) = false
    ∧ State.reset.prot.pins.getLsbD (4 : Fin 16) ≠ (0x00100018#32).getLsbD (16 + (4 : Fin 16))
    ∧ ∀ q : Fin 16, (0x00000018#32).getLsbD q = true → State.reset.prot.pins.getLsbD q = (0x00000018#32).getLsbD (16 + q) := by decide +kernel
theorem wit_force : (0x5AC30001#32).toNat / 2 ^ 16 = 0x5AC3 ∧ (0x5AC30001#32).getLsbD 0 = true ∧ (0x5AC20001#32).toNat / 2 ^ 16 ≠ 0x5AC3 := by decide +kernel
theorem test_pin_first : (tripPin pinState 3 true).fld PRT_CAUSE_FIRST = 0 ∧ (tripPin pinState 3 true).fld PRT_PIN_STAT_ACTIVE = 0x18 := by decide +kernel
theorem test_pin_cfg : (pinCfgWrite { State.reset with prot := { pins := 0x10 } } .host 0x18).fld PRT_CAUSE_ALL = 1 := by decide +kernel

/-! ComparatorsAndEscalation -/
/-- Comparator 31 on channel 8 (port SL1): high limit 100, persistence 2, one sample in the run. -/
def cmpState : State :=
  { regsOn [(CL_STAT_STATE 33, 4), (PRT_CMP_CFG_EN_HI 31, 1), (PRT_CMP_CFG_SRC 31, 8), (PRT_CMP_CFG_PERSIST 31, 2), (PRT_CMP_HL_HI 31, 100),
      (PRT_CMP_STAT_RUN 31, 1), (PRT_CMP_CFG_BADTRIP 31, 0)] with prot := { cmpOn := true, changes := [⟨5, 1, 8⟩] } }
theorem wit_comparator : cmpState.cmpUsed (31 : Fin 32) = true ∧ cmpState.prot.cmpOn = true
    ∧ cmpState.portState (32 + cmpState.fld (PRT_CMP_CFG_SRC (31 : Fin 32)) / 8) = 4 ∧ cmpState.bit (PRT_CMP_CFG_EN_HI 31) = true
    ∧ sext (cmpState.fld (PRT_CMP_HL_HI 31)) 16 < sext (101#16).toNat 16 ∧ cmpState.fld (PRT_CMP_CFG_PERSIST 31) ≤ cmpState.fld (PRT_CMP_STAT_RUN 31) + 1
    ∧ cmpState.bit (PRT_CMP_STAT_TRIP 31) = false ∧ ¬ sext (cmpState.fld (PRT_CMP_HL_HI 31)) 16 < sext (100#16).toNat 16
    ∧ cmpState.bit (PRT_CMP_CFG_EN_LO 31) = false ∧ cmpState.bit (PRT_CMP_CFG_EN_RATE 31) = false ∧ 1 ≤ cmpState.fld (PRT_CMP_CFG_PERSIST 31)
    ∧ cmpState.bit (PRT_CMP_CFG_BADTRIP 31) = false := by decide +kernel
theorem wit_comparatorShort : (cmpState.setFld (PRT_CMP_STAT_RUN 31) 0).fld (PRT_CMP_STAT_RUN 31) + 1 < (cmpState.setFld (PRT_CMP_STAT_RUN 31) 0).fld (PRT_CMP_CFG_PERSIST 31) := by decide +kernel
theorem wit_escalation : cmpState.dbg.frozen = false ∧ cmpState.prot.changes = [⟨5, 1, 8⟩] ∧ escBit 8 = some 1
    ∧ tbit (cmpState.fld PRT_CELL_ESC_CODES) 1 = true ∧ (5 : Nat) < 4096 ∧ State.reset.prot.changes = [] := by decide +kernel
theorem test_comparator : (comparatorSample cmpState 31 101 true).fld PRT_CAUSE_ALL = 2 ∧ (comparatorSample cmpState 31 100 true).fld PRT_CAUSE_ALL = 0 := by decide +kernel
theorem test_escalation : (cellEscalation cmpState).fld PRT_CAUSE_ALL = 4 := by decide +kernel

/-! ReleaseRequests -/
theorem wit_release :
    let s := regsOn [(PRT_STAT_LATCHED, 1), (PRT_STAT_REL_READY, 1)]
    (0x5AC30001#32).toNat / 2 ^ 16 = 0x5AC3 ∧ (0x5AC30001#32).getLsbD 0 = true ∧ s.latched = true ∧ s.bit PRT_STAT_REL_READY = true
      ∧ State.reset.latched = false ∧ (regsOn [(PRT_STAT_LATCHED, 1)]).bit PRT_STAT_REL_READY = false := by decide +kernel
theorem wit_minblk :
    let s : State := { regsOn [(PRT_STAT_LATCHED, 1)] with ctl := { tick := 10000 } }
    s.latched = true ∧ s.prot.setTick + s.fld PRT_REL_CFG_MINBLK * 10 ≤ s.now := by decide +kernel
theorem test_unmet_early : ({ regsOn [(PRT_STAT_LATCHED, 1)] with ctl := { tick := 9999 } } : State).unmet = 1 := by decide +kernel

/-! TimeSources -/
/-- Domain 1 follows PTP domain 7 on station port 2. -/
def ptpState : State :=
  { regsOn [(STN_CTRL_EN 2, 1), (STN_CTRL_PTP_EN 2, 1), (TIM_D_CFG_SRC 1, 1), (TIM_D_CFG_PORT 1, 2), (TIM_D_CFG_PDOM 1, 7), (TIM_D_STAT_STATE 1, 1)] with
    time := { dom1 := { gm := some (9, 0, 1) } } }
theorem wit_ptp : ptpState.bit (STN_CTRL_EN (2 : Fin 4)) = true ∧ ptpState.bit (STN_CTRL_PTP_EN (2 : Fin 4)) = true
    ∧ (ptpState.takeToken (2 : Fin 4) 4).1 = true ∧ ptpState.ptpDoms (2 : Fin 4) (7#8).toNat = [(1 : Fin 2).val]
    ∧ (ptpState.dom (1 : Fin 2)).gm = some (9, 0, 1) ∧ (9 : Nat) = (9#80).toNat ∧ ptpState.domSt (1 : Fin 2) = 1 ∧ ptpState.timeLost = false
    ∧ (9 : Nat) ≠ (8#80).toNat ∧ ({ ptpState with time := {} } : State).dom (1 : Fin 2) = {} := by decide +kernel
theorem wit_announce :
    let m : PtpAnnounce := ⟨7, 8, 0, 0, 0, 0, 0, 0, 1, 37, true⟩
    ptpState.gmSilent 1 = false ∧ ptpState.qualified (ptpState.dom 1) m = false ∧ (∀ g ∈ (ptpState.dom 1).gm, g.1 ≠ m.src.toNat)
    ∧ ptpState.qualified { heard := [(8, 0)] } m = true ∧ (∀ g ∈ ({ heard := [(8, 0)] } : Dom).gm, ptpState.gmSilent g.2.2 = true ∨ announceRank m < g.2.1) := by
  refine ⟨?_, by decide, by decide, ?_, by decide⟩
  · have e : ptpState.now = 0 := by decide +kernel
    simp only [State.gmSilent, e]; simp
  · have e : ptpState.now = 0 := by decide +kernel
    simp [State.qualified, e, mget]
theorem wit_ptpNoToken : (({ ptpState with stn := [(2, { tokens := [(4, 0)] })] } : State).takeToken (2 : Fin 4) 4).1 = false := by decide +kernel
theorem wit_tp0 :
    let s := regsOn [(TIM_D_CFG_SRC 0, 2), (TIM_D_STAT_STATE 0, 1), (TIM_TP0_SECSRC, 1)]
    s.fld (TIM_D_CFG_SRC 0) = 2 ∧ s.fld (TIM_D_CFG_SRC 1) ≠ 2 ∧ s.domSt 0 = 1 ∧ s.timeLost = false ∧ s.bit TIM_TP0_SECSRC = true
      ∧ ∀ d : Fin 2, State.reset.fld (TIM_D_CFG_SRC d) ≠ 2 := by decide +kernel
theorem wit_domains :
    let s : State := { regsOn [(TIM_D_STAT_STATE 1, 3), (CLK_STATE_STATE, 6)] with time := { l16 := 5000000000 * 65536, mode := 3, hoNs := 3600000000000 } }
    State.reset.locked = false ∧ (4#32).toNat % 8 ≤ 4 ∧ s.locked = true ∧ s.domSt (1 : Fin 2) = 3 ∧ s.timeLost = false
      ∧ (s.dom (1 : Fin 2)).ld + s.fld (TIM_D_QUAL_LOSS_N (1 : Fin 2)) * s.sampleIntv (1 : Fin 2) ≤ s.time.l16 / 65536
      ∧ s.time.mode = 3 ∧ s.fld TIM_HO_LIMIT * 1000000000 ≤ s.time.hoNs := by decide +kernel
theorem wit_tp1 :
    let s : State := { regsOn [(TIM_CTRL_TP1_EN, 1)] with time := { ct0 := 0, mode := 1, pps := { high := true, fall := 500 } }, ctl := { nextB := 1000 } }
    s.time.ct0 ≤ (500#64).toNat ∧ (500#64).toNat < s.ctl.nextB ∧ s.time.pps.high = true ∧ s.time.pps.fall = (500#64).toNat
      ∧ s.time.mhz.high = false ∧ s.bit TIM_CTRL_TP1_EN = true ∧ s.time.mode ≠ 0 ∧ (500#64).toNat % 100 = 0 := by decide +kernel

/-! ClocksLostAndReturned -/
def runState : State := { opState 6 with elec := { inReset := false } }
theorem wit_clockLoss : runState.elec.inReset = false ∧ runState.ctl.dead.contains (0x010 + (6 : Fin 7).val) = false ∧ runState.ctl.lost.contains (0x010 + (6 : Fin 7).val) = false ∧ runState.timeLost = false
    ∧ ((runState.setFld HP_STAT_OPEN 1).bit HP_STAT_OPEN = true) ∧ runState.ctl.stream = false ∧ pllFld (1 : Fin 7) = some CLK_MON_SYS_LOCK
    ∧ clocksOf (8 : Fin 9) (1 : Fin 7) = [0, 1] ∧ clocksOf (7 : Fin 9) (0 : Fin 7) = [(0 : Fin 7).val]
    ∧ ∀ k ∈ clocksOf (8 : Fin 9) (1 : Fin 7), runState.ctl.lost.contains (0x010 + k) = false := by decide +kernel
theorem wit_clockGone :
    let s : State := { runState with ctl := { lost := [0x013, 0x010], dead := [0x010], stream := true } }
    s.elec.inReset = false ∧ s.ctl.lost.contains 0x013 = true ∧ s.ctl.dead.contains (0x010 + (3 : Fin 7).val) = false ∧ s.ctl.dead.contains (0x010 + (0 : Fin 7).val) = true ∧ s.ctl.lost.contains (0x010 + (3 : Fin 7).val) = true ∧ s.timeLost = true
      ∧ s.op ≠ 0 ∧ pllFld (3 : Fin 7) = some CLK_MON_TIME_LOCK ∧ s.ctl.stream = true := by decide +kernel
theorem test_core_loss_no_latch : (clockLoss runState 0 0).latched = false ∧ (clockLoss runState 1 1).fld PRT_CAUSE_ALL = 32 := by decide +kernel

/-! ResetsSuppliesAndTemperature -/
theorem wit_resets : ({ runState with sump := { creset := some (0x3E0, 40) } } : State).sump.creset = some (0x3E0, 40) ∧ 40 ≤ runState.now
    ∧ runState.sump.creset = none ∧ runState.mem.caver = none
    ∧ (∃ j, ({ runState with sec := { job := some { ofs := 0, op := 3, stage := 1 } } } : State).sec.job = some j ∧ j.op = 3 ∧ j.stage = 1 ∧ j.res = none) := by
  refine ⟨rfl, by decide +kernel, rfl, rfl, _, rfl, rfl, rfl, rfl⟩
theorem wit_resetRelease : State.reset.elec.porst = false ∧ State.reset.timeLost = false ∧ State.reset.elec.inReset = true ∧ State.reset.railsGood = true ∧ State.reset.elec.hot = false
    ∧ ({ State.reset with elec := { inReset := false } } : State).op = 0 ∧ State.reset.ctl.lost.contains 0x016 = false := by decide +kernel
theorem wit_supply : (10 : Fin 16).val < 11 ∧ runState.elec.inReset = false ∧ runState.elec.low.contains (10 : Fin 16).val = false
    ∧ runState.elec.high.contains (10 : Fin 16).val = false := by decide +kernel
theorem wit_temp : (161#8).toNat < 162 ∧ 162 ≤ (162#8).toNat ∧ runState.fld CLK_TEMP_HI ≤ (161#8).toNat ∧ runState.elec.tempHi = false := by decide +kernel

/-! SelectionAndItemRequests -/
/-- Cells 3 and 5 of port 0 on arm 0, the unit in RUNNING at tick 41. -/
def selState : State := { runState with ld := { img := { cells := [(3, ⟨0, false, 0⟩), (5, ⟨0, true, 0⟩)], arms := [(0, 1)] } } }
theorem wit_selRequests : selState.op ≠ 3 ∧ (opState 3).op = 3 ∧ selState.bit RED_CFG_PAIR = false ∧ selState.isConf (3 : Fin 4096) = true ∧ selState.isConf (4 : Fin 4096) = false
    ∧ selState.cmp.queue.length < 32 ∧ selState.ce (3 : Fin 4096) ceState = 0 ∧ (selState.setCe 3 ceExcl 1).ceBit (3 : Fin 4096) ceExcl = true
    ∧ selState.ceBit (3 : Fin 4096) ceExcl = false
    ∧ 32 ≤ ({ selState with cmp := { queue := List.replicate 32 ⟨0, 3, 1, 0⟩ } } : State).cmp.queue.length := by decide +kernel
theorem wit_exclDenied :
    let s : State := { selState with ctl := { selState.ctl with tick := 1041 }, excl := [⟨3, 0, 41, false⟩] }
    (s.excl.any fun r => r.cell == (3 : Fin 4096).val && !r.fresh && r.act != 1 && decide (r.tick + 1000 ≤ s.now)) = true
      ∧ (s.cc (3 : Fin 4096)).stest ≠ 1 ∧ ∀ r ∈ selState.excl, r.cell = (3 : Fin 4096).val → selState.now < r.tick + 1000 := by decide +kernel
theorem wit_selftestPeriod :
    let s : State := { (selState.setCe 5 ceAvail 1) with ctl := { selState.ctl with tick := 10000000 } }
    s.op = 6 ∧ s.bit CMP_STEST_CFG_EN = true ∧ mget 0 s.cmp.stestNext (0 : Fin 6) + s.fld CMP_STEST_CFG_PERIOD * 1000000 ≤ s.now
      ∧ tbit (s.fld CMP_STEST_STAT_ACTIVE) (0 : Fin 6) = false
      ∧ (((s.armCells (0 : Fin 6)).filter fun k => mget 0 s.cmp.stestLast (0 : Fin 6) ≤ k) ++ (s.armCells (0 : Fin 6)).filter
          fun k => k < mget 0 s.cmp.stestLast (0 : Fin 6)).find? (fun k => s.ceBit k ceAvail) = some 5
      ∧ (s.setFld CMP_STEST_CFG_EN 0).bit CMP_STEST_CFG_EN = false := by decide +kernel
theorem wit_stestTimeout :
    let s : State := { selState with ctl := { selState.ctl with tick := 89 }, ccell := [(3, { ccReset with stest := 3, stestAt := 41, cur := some ⟨.own, 0, 6, 0, 0, [27], [], false⟩ }), (5, { ccReset with probe := some 27 })] }
    (s.cc (3 : Fin 4096)).stest = 3 ∧ (s.cc (3 : Fin 4096)).stestAt + 48 ≤ s.now ∧ 88 < (s.cc (3 : Fin 4096)).stestAt + 48
      ∧ (s.cc (3 : Fin 4096)).cur = some ⟨.own, 0, 6, 0, 0, [27], [], false⟩ ∧ [27].getLast? = some 27 ∧ 27 + 62 ≤ s.now
      ∧ (s.cc (4 : Fin 4096)).cur = none ∧ (s.cc (4 : Fin 4096)).probe = none ∧ (s.cc (5 : Fin 4096)).cur = none
      ∧ (s.cc (5 : Fin 4096)).probe = some 27 := by decide +kernel
theorem test_aux_queue : ((auxWrite (auxWrite selState .host 3 1 7) .host 5 7 0).cmp.queue.map fun q => (q.cell, q.code, q.data)) = [(3, 1, 7), (5, 7, 0)] := by
  decide +kernel

/-! InputAndSelectionPhases -/
theorem wit_phases : selState.imageOk ∧ selState.dbg.frozen = false ∧ selState.isConf 3 = true ∧ selState.delivers (3 / 128) = false ∧ 0 ∈ selState.arms
    ∧ 3 ∈ selState.armCells 0 ∧ selState.selOn 0 = false ∧ (selState.setPlnA 0 { act := true, n := 1 }).selOn 0 = true
    ∧ (selState.setPlnA 0 { act := true, n := 1 }).idir 0 = 0
    ∧ ({ selState with dbg := { frozen := true } } : State).dbg.frozen = true := by unfold State.imageOk; decide +kernel
/-- Port 0 of selState RUNNING with a frame for this tick in which cell 3 reports 1,000 in state POS. -/
def repState : State :=
  (selState.setFld (CL_STAT_STATE 0) 4).setLane 0 { rx := [⟨40, 0, 40#64, List.replicate 3 none ++ [some (BitVec.ofNat 64 (3 * 2 ^ 57 + 1000 * 2 ^ 43 + 2 * 16))], []⟩] }
theorem wit_cleanBus : selState.cleanBus ∧ repState.cleanBus :=
  ⟨cleanBus_of _ rfl (by decide +kernel), cleanBus_of _ rfl (by decide +kernel)⟩
theorem wit_report : repState.imageOk ∧ repState.dbg.frozen = false ∧ repState.isConf 3 = true ∧ repState.delivers (3 / 128) = true
    ∧ 1 + repState.fld (CL_HUB_TLAG (3 / 128)) ≤ repState.now
    ∧ (((repState.lane (3 / 128)).rx.find? fun f => f.isFor (repState.now - (1 + repState.fld (CL_HUB_TLAG (3 / 128))))).map
        fun f => f.words.getD (3 % 128) none) = some (some (BitVec.ofNat 64 (3 * 2 ^ 57 + 1000 * 2 ^ 43 + 2 * 16)))
    ∧ bitsOf (BitVec.ofNat 64 (3 * 2 ^ 57 + 1000 * 2 ^ 43 + 2 * 16)).toNat 63 57 = 3 % 128
    ∧ tbit (BitVec.ofNat 64 (3 * 2 ^ 57 + 1000 * 2 ^ 43 + 2 * 16)).toNat 3 = false := by unfold State.imageOk; decide +kernel
theorem test_report : (unpack repState).ce 3 ceVcap = 1000 ∧ (unpack repState).ce 3 ceState = 2 ∧ (unpack repState).ce 3 ceAge = 0
    ∧ (unpack repState).ce 5 ceAge = 1 := by decide +kernel
theorem test_pass1 : ((selectionPass1 (selState.setCe 3 ceAvail 1)).selRec 3).cls = .locked
    ∧ ((selectionPass1 ((selState.setCe 3 ceAvail 1).setSel 3 { dwell := 50 })).selRec 3).cls = .free := by decide +kernel

/-! PlannerAndComposerPhases -/
theorem wit_planner : selState.op = 6 ∧ (selState.setFld PLN_CTRL_EN 1).bit PLN_CTRL_EN = true ∧ (selState.setFld PLN_CTRL_EN 0).bit PLN_CTRL_EN = false
    ∧ (opState 5).op ≠ 6 ∧ (opState 5).dbg.frozen = false ∧ repState.portState (0 : Fin 32) ≠ 0 ∧ selState.portState (0 : Fin 32) = 0
    ∧ repState.isConf (128 * (0 : Fin 32) + (4 : Fin 128)) = false := by decide +kernel
theorem test_planner_off : (plannerPhase (selState.setFld PLN_CTRL_EN 0)).latched = true
    ∧ ((plannerPhase (selState.setFld PLN_CTRL_EN 1)).plnA 0).act = true := by decide +kernel
theorem test_composer : (mget [] (composerPhase repState).cmp.frames 0).getD 128 0 = 0x4000000000000000#64
    ∧ (mget [] (composerPhase repState).cmp.frames 0).getD 4 0 = cmdEncode { cell := 4, stA := 7, eA := 1023, stB := 7, eB := 1023, seq := 43, gp := 0, holdOk := false, test := false, code := 0, data := 0 } := by
  decide +kernel

/-! ChannelsAndSwaps -/
/-- Channel 7 at Turn Order position 2, enabled in RUNNING, limits ±1,000 in bank A. -/
def chState : State :=
  ((([(16, 1000), (17, 2 ^ 32 - 1000), (18, 10), (21, 1)] : List (Nat × Nat)).foldl (fun s p => s.wr (coefAddr 0 7 p.1) 8 p.2) runState).setFld (CE_TURN_CH 2) 7).setFld
    (CE_TURN_VALID 2) 1 |>.setFld (CE_CH_CFG_EN 7) 1
theorem wit_channel : chState.dbg.frozen = false ∧ chState.chanAt (2 : Fin 192) = some 7 ∧ chState.chanAt (3 : Fin 192) = none
    ∧ max (100 + 4 * (2 : Fin 192).val) chState.eng.endCyc + 4 ≤ 868 ∧ chState.eng.done.contains 7 = false ∧ chState.eng.aband.contains 7 = false
    ∧ (∀ k < 512, chState.cleanWord (0x10000000 + 8 * k)) ∧ (∀ k < 16, chState.cleanWord (chanAddr 7 k)) ∧ (∀ b < 2, ∀ k < 23, chState.cleanWord (coefAddr b 7 k))
    ∧ (∀ p : Fin 192, chState.fld (CE_TURN_CH p) < 192) ∧ chState.paramOk (chState.bankOf 7) 7 = true ∧ (chState.wr (coefAddr 0 7 21) 8 0).paramOk (chState.bankOf 7) 7 = false
    ∧ chState.eng.badRun.contains 7 = false := by unfold State.cleanWord; decide +kernel
theorem wit_channelLate :
    let s : State := { chState with eng := { endCyc := 865 } }
    s.chanAt (2 : Fin 192) = some 7 ∧ 864 < max (100 + 4 * (2 : Fin 192).val) s.eng.endCyc ∧ max (100 + 4 * (2 : Fin 192).val) s.eng.endCyc < 868
      ∧ s.paramOk (s.bankOf 7) 7 = true ∧ 868 ≤ max (100 + 4 * (2 : Fin 192).val) 868 := by decide +kernel
theorem wit_swap :
    let s := chState.setFld (CE_SWAP_SEL 0) 0x80
    s.op ≠ 3 ∧ (opState 3).op = 3 ∧ (opState 3).inFreset 0x40080 = false ∧ s.inFreset 0x40080 = false ∧ s.eng.swap = none ∧ s.role = 0 ∧ tbit (1#32).toNat 0 = true ∧ tbit (1#32).toNat 1 = false
      ∧ tbit (2#32).toNat 0 = false ∧ tbit (3#32).toNat 1 = true
      ∧ (let u := s.setFld CE_SWAP_TICK 43; let k := wrap ((u.fld CE_SWAP_TICK : Int) - (u.now % 2 ^ 32 : Nat)) 32; 2 ≤ k ∧ k ≤ 2 ^ 31)
      ∧ ({ s with eng := { swap := some ⟨[7], 41⟩ } } : State).eng.swap = some ⟨[7], 41⟩ ∧ 41 ≤ s.now ∧ [7].Nodup ∧ (∀ c ∈ [7], c < 192)
      ∧ s.paramOk (1 - s.bankOf 7) 7 = false ∧ (s.wr (coefAddr 1 7 21) 8 1).paramOk (1 - s.bankOf 7) 7 = true
      ∧ ({ s with eng := { swap := some ⟨[7], 42⟩ } } : State).now < 42 ∧ s.bit RED_CFG_PAIR = false := by decide +kernel
theorem test_channel_limit :
    let s := chState.wr (coefAddr 0 7 0) 8 (0x10000 + 16 * 2 ^ 32) |>.wr (coefAddr 0 7 7) 8 (0x10000 + 16 * 2 ^ 32) |>.setFld (CE_CH_IN_REF_EN 7) 1 |>.setFld (CE_CH_IN_REF 7) 5
      |>.setSlot 5 3000
    (channelStep s 2).slot 0x20E = 1000 ∧ ((channelStep s 2).chan 7).satHi = true := by decide +kernel
theorem test_swap : (bankSwap ({ (chState.wr (coefAddr 1 7 21) 8 1) with eng := { swap := some ⟨[7], 41⟩ } } : State)).bankOf 7 = 1 := by decide +kernel

/-! StepKeepsImageTables -/
theorem wit_imageStep : selState.imageOk ∧ (∃ t, Sys2Proof.Machine.step { selState with pending := [.minblkExpiry] } = .next t)
    ∧ ({ selState with pending := [.minblkExpiry] } : State).imageOk := by
  refine ⟨by unfold State.imageOk; decide +kernel, ⟨_, rfl⟩, by unfold State.imageOk; decide +kernel⟩

/-! StepKeepsMemoryCanonical -/
theorem wit_canonicalStep : (State.reset.wr 0x10000000 4 5).canonical = true
    ∧ ({ State.reset.wr 0x10000000 4 5 with pending := [.minblkExpiry] } : State).canonical = true
    ∧ ∃ t, Sys2Proof.Machine.step { State.reset.wr 0x10000000 4 5 with pending := [.minblkExpiry] } = .next t :=
  ⟨by decide +kernel, by decide +kernel, ⟨_, rfl⟩⟩

/-! SensorPairAndBusFrames -/
/-- Frames for sensor port 0 at rate code 5, for the pair lanes from unit 1 of pair 0 in ACTIVE, and for the bus from controller 0. -/
def snsBits : List Bool := frameLine (BitVec.ofNat 64 (0b001101 * 2 ^ 58 + 5 * 2 ^ 47 + 9)) (List.replicate 4 0#64) 32
def pairBits : List Bool := frameLine (BitVec.ofNat 64 (0b010101 * 2 ^ 58 + 2 ^ 49 + 5 * 2 ^ 24 + 2 ^ 22)) (List.replicate 138 0#64) 32
def busBits : List Bool := frameLine (BitVec.ofNat 64 (0b011101 * 2 ^ 58)) (List.replicate 6 0#64) 32
theorem wit_snsFrame :
    let s : State := { regsOn [(CL_STAT_STATE 32, 4), (SNS_P_CFG_RATE 0, 5)] with ctl := { tick := 10 } }
    let f := s.sensorWords (0 : Fin 4) snsBits
    s.portState (32 + (0 : Fin 4).val) = 4 ∧ s.fld (CL_CTRL_LB (32 + (0 : Fin 4).val)) = 0 ∧ s.bit (FLT_INJ_ARM (0x68 + (0 : Fin 4).val)) = false
      ∧ f.stuffV = 0 ∧ f.hdrEcc.good = true ∧ f.crcOk = true ∧ s.expectConc (0 : Fin 4) f.hdr = (true, true)
      ∧ s.now < s.fullJ (f.hdr.toNat % 512) + 2 + s.fld SNS_CFG_SLAG ∧ s.aligned (36 + (0 : Fin 2).val) = false := by
  decide +kernel
def pairState : State := regsOn [(CL_STAT_STATE 36, 4), (RED_CFG_PAIR, 1)]
set_option maxRecDepth 100000 in
theorem wit_pairFrame : (frameIn 138 pairBits).stuffV = 0 ∧ (frameIn 138 pairBits).hdrEcc.good = true ∧ (frameIn 138 pairBits).crcOk = true
    ∧ pairState.expectPair (frameIn 138 pairBits).hdr = true ∧ bitsOf (frameIn 138 pairBits).hdr.toNat 23 22 = 1
    ∧ ((frameIn 138 pairBits).words[0]?.map fun p => (p.1.good, p.2)) = some (true, 0#64) := by decide +kernel
theorem wit_pairState : pairState.portState (36 + (0 : Fin 2).val) = 4 ∧ pairState.fld (CL_CTRL_LB (36 + (0 : Fin 2).val)) = 0
    ∧ pairState.bit (FLT_INJ_ARM (0x6C + (0 : Fin 2).val)) = false ∧ pairState.bit RED_CFG_PAIR = true ∧ pairState.role ≠ 1
    ∧ pairState.red.adopted = false ∧ (0#64).toNat % 2 ^ 32 = pairState.fld (CFG_HASH 0) ∧ (0#64).toNat % 2 ^ 32 ≠ (pairState.setFld (CFG_HASH 0) 7).fld (CFG_HASH 0)
    ∧ ({ pairState with red := { waitFrom := some 0 } } : State).red.waitFrom.isSome = true ∧ pairState.role = 0
    ∧ (pairState.setFld (CL_STAT_STATE 36) 3).portState (36 + (0 : Fin 2).val) = 3 := by decide +kernel
theorem wit_busFrame :
    let s := regsOn [(CL_STAT_STATE 38, 4)]
    let f := frameIn 6 busBits
    s.portState (38 + (0 : Fin 2).val) = 4 ∧ s.fld (CL_CTRL_LB (38 + (0 : Fin 2).val)) = 0 ∧ s.bit (FLT_INJ_ARM (0x6E + (0 : Fin 2).val)) = false
      ∧ f.stuffV = 0 ∧ f.hdrEcc.good = true ∧ f.crcOk = true ∧ bitsOf f.hdr.toNat 63 58 = 0b011101 ∧ bitsOf f.hdr.toNat 57 50 = s.fld ACQ_BUS_PEER_ML2
      ∧ s.aligned (38 + (1 : Fin 2).val) = false := by decide +kernel
theorem wit_cutFrames : (frameIn 6 frameCut).crcOk = false ∧ (frameIn 6 frameCut).stuffV = 0 ∧ (frameIn 6 frameCut).hdrEcc.good = true
    ∧ (frameIn 138 frameCut).crcOk = false ∧ (frameIn 138 frameCut).stuffV = 0 ∧ (frameIn 138 frameCut).hdrEcc.good = true := by decide +kernel

/-! RolesEpochAndFollowing -/
/-- A paired unit in RUNNING at tick 41 with a role. -/
def roleState (r sub : Nat) : State := ((runState.setFld RED_CFG_PAIR 1).setFld RED_STAT_ROLE r).setFld RED_STAT_SUB sub
theorem wit_roleWait :
    let s : State := { roleState 0 0 with red := { waitFrom := some 0 }, ctl := { tick := 1000000 } }
    s.red.waitFrom = some 0 ∧ s.role = 0 ∧ 0 + s.fld RED_CFG_WAIT * 10000 ≤ s.now ∧ s.majority s.otherToken = false ∧ s.nextEpoch (s.rd epochAddr 4) ≤ 0xFFFFFF
      ∧ s.mramHeld = false ∧ s.fld RED_EPOCH_EPOCH ≠ s.nextEpoch (s.rd epochAddr 4) ∧ s.errAt epochAddr = 0 ∧ s.bit (FLT_INJ_ARM (checkerOf epochAddr)) = false
      ∧ 0xFFFFFF < (s.wr epochAddr 4 0xFFFFFF).nextEpoch ((s.wr epochAddr 4 0xFFFFFF).rd epochAddr 4) ∧ (s.wr epochAddr 4 0xFFFFFF).majority (s.wr epochAddr 4 0xFFFFFF).otherToken = false := by decide +kernel
theorem wit_roleToken :
    let s : State := { ((roleState 0 0).setFld (CL_STAT_STATE 3) 4).setLane 3 { rx := [⟨40, 0, 0#64, List.replicate 131 none ++ [some (BitVec.ofNat 64 (2 ^ 39))], []⟩] } with red := { waitFrom := some 0 }, ctl := { tick := 1000000 } }
    s.red.waitFrom = some 0 ∧ s.role = 0 ∧ 0 + s.fld RED_CFG_WAIT * 10000 ≤ s.now ∧ s.majority s.otherToken = true := by decide +kernel
theorem wit_roles : (roleState 1 0).role = 1 ∧ 3 ≤ ({ roleState 1 0 with red := { demRun := 3 } } : State).red.demRun ∧ (roleState 2 1).role = 2
    ∧ (opState 4).op = 4 ∧ (opState 4).pairHeard = false ∧ (opState 4).errAt epochAddr = 0 ∧ (opState 4).mramHeld = false ∧ (roleState 2 1).sub = 1 ∧ (roleState 2 1).red.lateRun = false
    ∧ (roleState 2 1).red.lateNow = false ∧ (roleState 2 1).op ≠ 8 ∧ (roleState 0 0).role ≠ 2 := by decide +kernel
theorem wit_follow : (hsiaoDec (hsiaoEnc (BitVec.ofNat 64 (7 * 2 ^ 60)))).1.good = true
    ∧ (hsiaoDec (hsiaoEnc (BitVec.ofNat 64 (7 * 2 ^ 60)))).2.toNat % 2 ^ 32 = (roleState 2 1).fld (CFG_HASH 0)
    ∧ bitsOf (hsiaoDec (hsiaoEnc (BitVec.ofNat 64 (7 * 2 ^ 60)))).2.toNat 63 60 = 7
    ∧ (hsiaoDec (hsiaoEnc 1#64)).2.toNat % 2 ^ 32 ≠ (roleState 2 1).fld (CFG_HASH 0) := by decide +kernel
theorem wit_followBad : (hsiaoDec (hsiaoEnc 1#64 ^^^ 3)).1.good = false ∧ ({ roleState 2 1 with red := { badHash := true } } : State).red.badHash = true
    ∧ ({ roleState 2 1 with red := { hdr := some ⟨5, 2, 1, false, 1, 40⟩ } } : State).now < 40 + (roleState 2 1).fld RED_CFG_WAIT * 10000 := by decide +kernel
theorem wit_mirrored : (roleState 1 0).op ≠ 3 ∧ (roleState 1 0).bit RED_CFG_PAIR = true ∧ (roleState 1 0).red.queue.length < 64
    ∧ 64 ≤ ({ roleState 1 0 with red := { queue := List.replicate 64 ⟨4, 0⟩ } } : State).red.queue.length := by decide +kernel
theorem wit_apply :
    let s : State := { roleState 1 0 with red := { now := [⟨1, (5 : Fin 1024) * 2 ^ 48 + (7#32).toNat⟩] } }
    s.role = 1 ∧ s.red.now = [⟨1, (5 : Fin 1024) * 2 ^ 48 + (7#32).toNat⟩] ∧ (roleState 1 0).red.now = [] := by decide +kernel
theorem test_demoted : (demoted { roleState 1 0 with red := { demRun := 3 } }).sub = 2 ∧ (stateFollow (roleState 2 1) (hsiaoEnc (BitVec.ofNat 64 (7 * 2 ^ 60)))).op = 7 := by
  decide +kernel

/-! DigestsTakeoverAndDoubles -/
theorem wit_digest :
    let s : State := { roleState 2 1 with red := { digs := [(39, 5)], pdigs := [(0, 39, 6)], lanesJ := [(0, 40)] } }
    s.bit RED_CFG_PAIR = true ∧ s.bit RED_CFG_MODE = false ∧ 2 ≤ s.now
      ∧ (s.red.pdigs.find? fun p => p.1 == 0 && p.2.1 == s.now - 2).map (·.2.2) = some 6
      ∧ ((s.red.digs.find? fun p => p.1 == s.now - 2).map (·.2)) ≠ some 6 ∧ ((s.red.digs.find? fun p => p.1 == s.now - 2).map (·.2)) = some 5
      ∧ (∀ p ∈ (roleState 2 1).red.pdigs, p.2.1 ≠ (roleState 2 1).now - 2) ∧ (digestCompare s).sub = 2 ∧ (digestCompare s).fld RED_CNT_DMIS = 1 := by decide +kernel
theorem wit_cycle :
    let s : State := { roleState 1 0 with ctl := { tick := 128 } }
    s.inCkpt = true ∧ s.red.cyc = none ∧ s.now % 64 = 0 ∧ (roleState 1 0).now % 64 ≠ 0 := by decide +kernel
theorem wit_doubles :
    let s : State := { (roleState 1 0).setFld RED_STAT_PARTNER 1 |>.setFld RED_DBL_INT 1 with red := { hdr := some ⟨5, 2, 1, false, 1, 40⟩ } }
    s.op ≠ 3 ∧ s.canSwap = true ∧ s.red.queue.length < 64 ∧ s.fld RED_DBL_INT ≠ 0 ∧ s.red.dblNext ≤ s.now
      ∧ wbits (BitVec.ofNat 32 (0x3C5A * 2 ^ RED_DBL_REQ_KEY.lo + 2 ^ RED_DBL_REQ_GO.lo)).toNat RED_DBL_REQ_KEY = 0x3C5A
      ∧ wbits (BitVec.ofNat 32 (0x3C5A * 2 ^ RED_DBL_REQ_KEY.lo + 2 ^ RED_DBL_REQ_GO.lo)).toNat RED_DBL_REQ_GO = 1
      ∧ wbits (0#32).toNat RED_DBL_REQ_KEY ≠ 0x3C5A := by decide +kernel
theorem wit_doublesCheck :
    let s : State := { (roleState 1 0).setFld RED_STAT_PARTNER 1 with red := { hdr := some ⟨5, 2, 1, false, 1, 40⟩, dbl := some 43 } }
    s.red.dbl = some 43 ∧ 43 ≤ s.now + 2 ∧ ((if s.role = 2 then s.sub == 1 else s.partnerCurrent) && !s.latched && !(match s.red.stat with | some p => p.latched | none => false)
      && !(match s.eng.swap with | some w => decide (43 ≤ w.tick + 2 ∧ w.tick ≤ 43) | none => false) && !s.red.take) = true
      ∧ ((roleState 1 0).partnerCurrent = false) ∧ (roleState 1 0).red.dbl = none := by decide +kernel
theorem wit_doublesSwap :
    let r : Red := { dbl := some 41, dblOk := true }
    r.dbl = some 41 ∧ 41 ≤ (roleState 1 0).now ∧ r.dblOk = true ∧ r.take = false ∧ ({ roleState 2 1 with red := r } : State).role = 2
      ∧ ({ roleState 2 1 with red := r } : State).bit RED_CFG_MODE = false ∧ ({ roleState 2 1 with red := r } : State).nextEpoch (({ roleState 2 1 with red := r } : State).rd epochAddr 4) ≤ 0xFFFFFF
      ∧ ({ roleState 2 1 with red := r } : State).errAt epochAddr = 0 := by decide +kernel
theorem wit_hbLost :
    let s : State := { (roleState 2 1).setFld RED_CFG_MODE 1 with ctl := { tick := 2000 } }
    s.bit RED_CFG_MODE = true ∧ s.red.hbGone = false ∧ s.red.hbSeen + 1000 ≤ s.now ∧ (roleState 2 1).bit RED_CFG_MODE = false
      ∧ s.dbg.frozen = false ∧ s.red.hbAt + 125 ≤ s.now ∧ ({ s with ctl := { tick := 2000, clocked := true } } : State).ticksRun = true
      ∧ s.ticksRun = false := by decide +kernel
theorem test_takeover : (takeoverDecision { roleState 2 1 with red := { silent := 1000 } }).red.take = true
    ∧ (takeoverDecision { roleState 1 0 with red := { silent := 1000 } }).red.take = false := by decide +kernel

/-! FaultServiceAndClearing -/
/-- A direct message from source 0x201 and a note from 0x001 wait; the round robin stands at 0x100. -/
def sumpState : State :=
  { runState with sump := { last := 0x100, slots := [(1, ⟨0x18, 5, 41, 0, 0, 0, 0, false⟩), (0x201, ⟨0x12, 9, 41, 2, 0, 0, 0, false⟩)] } }
theorem wit_service :
    (sumpState.sump.slots.find? fun p => decide (sumpState.sump.last < p.1)) = some (0x201, ⟨0x12, 9, 41, 2, 0, 0, 0, false⟩)
      ∧ (let s : State := { sumpState with sump := { sumpState.sump with last := 0x300 } }
         (s.sump.slots.find? fun p => decide (s.sump.last < p.1)) = none ∧ s.sump.slots.head? = some (1, ⟨0x18, 5, 41, 0, 0, 0, 0, false⟩))
      ∧ (sumpState.fld FLT_LOG_WP_PTR + 1) % 16384 ≠ sumpState.fld FLT_LOG_RP_PTR ∧ sumpState.fld FLT_LOG_WP_PTR < 16384
      ∧ tbit ((sumpState.setFld (FLT_SRC_CFG1_SEVERE 0x201) 0x12).severeMask 0x201) 4 = true ∧ runState.sump.slots = [] := by decide +kernel
theorem wit_srcClear :
    let s : State := { (runState.setFld (FLT_SRC_STAT_ST 5) 1) with ctl := { tick := 100000000 } }
    s.fld (FLT_SRC_STAT_ST (5 : Fin 1024)) ≠ 0 ∧ (s.sumpSrc (5 : Fin 1024)).tl + s.srcQuiet (5 : Fin 1024) ≤ s.now
      ∧ s.fld (FLT_SRC_REC_REC (5 : Fin 1024)) < 0xFFFF ∧ (s.setFld (FLT_SRC_REC_REC 5) 0xFFFF).fld (FLT_SRC_REC_REC (5 : Fin 1024)) = 0xFFFF
      ∧ runState.fld (FLT_SRC_STAT_ST (5 : Fin 1024)) = 0 := by decide +kernel
theorem wit_errClear :
    let s : State := { (runState.setFld (FLT_SRC_STAT_ST 5) 1) with sump := { srcs := [(5, { err := true })] } }
    s.ctl.lost.contains 0x011 = false ∧ ({ s with ctl := { lost := [0x011] } } : State).ctl.lost.contains 0x011 = true ∧ (s.sump.srcs.any fun p => p.2.err && s.fld (FLT_SRC_STAT_ST p.1) != 0) = true
      ∧ runState.ctl.lost.contains 0x010 = false ∧ runState.ctl.lost.contains 0x016 = false
      ∧ (runState.sump.srcs.any fun p => p.2.err && runState.fld (FLT_SRC_STAT_ST p.1) != 0) = false := by decide +kernel
theorem wit_fresetDone :
    let s : State := { runState with sump := { fresets := [(64 + 3, 0x10C), (1024 + 3, 0x188)], fresetRun := [64 + 3] } }
    s.sump.fresetRun.contains (64 * (1 : Fin 32).val + (3 : Fin 32).val) = true ∧ s.sump.fresetRun.contains (1024 + (3 : Fin 4).val) = false
      ∧ (s.sump.fresets.find? fun p => p.1 == 1024 + (3 : Fin 4).val) = some (1024 + (3 : Fin 4).val, 0x188) ∧ (s.sump.fresets.find? fun p => p.1 == 64 * (1 : Fin 32).val + (3 : Fin 32).val) = some (64 * (1 : Fin 32).val + (3 : Fin 32).val, 0x10C)
      ∧ ∀ p ∈ runState.sump.fresets, p.1 ≠ 64 * (1 : Fin 32).val + (3 : Fin 32).val := by decide +kernel
theorem test_service : (sumpService sumpState).fld (FLT_SRC_STAT_ST 0x201) = 2 ∧ (sumpService sumpState).sump.slots.length = 1
    ∧ (sumpService sumpState).rd 0x3D000000 8 = 0x201 * 2 ^ 54 + 0x12 * 2 ^ 48 + 9 * 2 ^ 16 + 41 := by decide +kernel

/-! FunctionResets -/
theorem wit_fresets : selState.imageOk ∧ selState.isConf 3 = true ∧ (roleState 1 0).role = 1 ∧ (roleState 2 1).role ≠ 1 ∧ 4 ≤ (roleState 2 1).op ∧ (roleState 2 1).bit RED_CFG_PAIR = true ∧ 4 ≤ selState.op
    ∧ ({ runState with sec := { job := some { ofs := 0 } } } : State).sec.job ≠ none ∧ selState.sump.fresets.any (fun p => p.1 == 704) = false
    ∧ selState.fld (CL_CTRL_EN (3 : Fin 32)) = 0 ∧ (selState.setFld (CL_CTRL_EN 3) 1).fld (CL_CTRL_EN (3 : Fin 32)) = 1 := by unfold State.imageOk; decide +kernel
theorem test_fresets : (selState.freset 15 0).latched = true ∧ (selState.freset 10 0).seq.pc = 0x38000000
    ∧ (selState.freset 6 0).latched = false := by decide +kernel

/-! RecordersSegmentsAndRetention -/
/-- Recorder 1 in a state, in segment 2, with SIZE 64 at BASE 128. -/
def recState (st : Nat) : State :=
  { (regsOn [(ACQ_R_MEM_BASE 1, 128), (ACQ_R_MEM_SIZE 1, 64), (ACQ_R_CFG_NSEG 1, 4), (ACQ_R_RAW 1, 3), (ACQ_R_STAT_STATE 1, st), (ACQ_R_STAT_SEG 1, 2), (ACQ_R_STAT_CLOSED 1, 2)])
    with ctl := { tick := 100, btime := 100000 } }
theorem wit_arm :
    (recState 0).op ≠ 3 ∧ ((recState 0).setFld CLK_STATE_STATE 3).op = 3 ∧ (recState 0).inFreset (0x91024 + 256 * (1 : Fin 4)) = false
      ∧ ({ recState 0 with sump := { fresets := [(384, 0)] } } : State).inFreset (0x91024 + 256 * (1 : Fin 4)) = true ∧ (recState 0).recSt (1 : Fin 4) = 0 ∧ (recState 0).armBad (1 : Fin 4) = false ∧ (recState 0).freeSeg (1 : Fin 4) ((recState 0).recd (1 : Fin 4)).next = some 0
      ∧ ((recState 0).setFld (ACQ_R_MEM_SIZE 1) 0x1FFF).armBad (1 : Fin 4) = true
      ∧ (let s := (recState 0).setFld (ACQ_R_STAT_CLOSED 1) 15
         s.armBad (1 : Fin 4) = false ∧ s.freeSeg (1 : Fin 4) (s.recd (1 : Fin 4)).next = none)
      ∧ (recState 0).bit (ACQ_R_CFG_MODE (1 : Fin 4)) = false ∧ ((recState 0).setFld (ACQ_R_CFG_MODE 1) 1).bit (ACQ_R_CFG_MODE (1 : Fin 4)) = true := by decide +kernel
theorem wit_recStates :
    (recState 1).recSt (1 : Fin 4) = 1 ∧ (recState 3).recSt (1 : Fin 4) = 3 ∧ (recState 4).recSt (1 : Fin 4) = 4 ∧ (recState 5).recSt (1 : Fin 4) = 5
      ∧ ((recState 1).recd (1 : Fin 4)).trig.all (fun x => decide (x.tsrc < 256)) = true ∧ (recState 1).fld (ACQ_R_STAT_SEG (1 : Fin 4)) < 15
      ∧ (recState 3).fld (ACQ_R_CFG_HMODE (1 : Fin 4)) = 0 ∧ (recState 3).bit (ACQ_R_CFG_REARM (1 : Fin 4)) = true
      ∧ ((recState 3).setFld (ACQ_R_CFG_REARM 1) 0).bit (ACQ_R_CFG_REARM (1 : Fin 4)) = false
      ∧ (((recState 4).setFld (ACQ_R_CFG_HMODE 1) 1).recd (1 : Fin 4)).holdAt + (recState 4).fld (ACQ_R_HOLD (1 : Fin 4)) ≤ (recState 4).now
      ∧ ((recState 4).setFld (ACQ_R_CFG_HMODE 1) 1).fld (ACQ_R_CFG_HMODE (1 : Fin 4)) = 1
      ∧ (recState 4).now < (((recState 4).setFld (ACQ_R_HOLD 1) 101).recd (1 : Fin 4)).holdAt + ((recState 4).setFld (ACQ_R_HOLD 1) 101).fld (ACQ_R_HOLD (1 : Fin 4)) := by
  decide +kernel
theorem wit_softTrigger :
    (2 : BitVec 4).getLsbD (1 : Fin 4) = true ∧ (2 : BitVec 4).getLsbD (0 : Fin 4) = false ∧ ((recState 1).recd (1 : Fin 4)).t0 ≤ 65536000 * ((recState 1).now : Int)
      ∧ (let s := { recState 1 with acq := { recs := [(1, { t0 := 6553600001, armTick := 100 })] } }
         s.recSt (1 : Fin 4) = 1 ∧ 65536000 * (s.now : Int) < (s.recd (1 : Fin 4)).t0 ∧ s.now ≤ (s.recd (1 : Fin 4)).armTick)
      ∧ (recState 5).fld (ACQ_R_MISSED (1 : Fin 4)) = 0 := by decide +kernel
theorem wit_segmentFree :
    ¬(((recState 0).recSt (1 : Fin 4) = 1 ∨ (recState 0).recSt (1 : Fin 4) = 2 ∨ (recState 0).recSt (1 : Fin 4) = 3) ∧ (recState 0).fld (ACQ_R_STAT_SEG (1 : Fin 4)) = (1 : Fin 16))
      ∧ (1 : Fin 16).val < (recState 5).fld (ACQ_R_CFG_NSEG (1 : Fin 4)) ∧ (recState 5).recSt (1 : Fin 4) = 5
      ∧ (recState 1).recSt (1 : Fin 4) = 1 ∧ (recState 1).fld (ACQ_R_STAT_SEG (1 : Fin 4)) = (2 : Fin 16) := by decide +kernel
theorem wit_retention :
    (∀ r : Fin 4, (recState 0).recSt r = 0) ∧ (recState 0).caverInAcq = false ∧ ({ recState 0 with mem := { caver := some { region := 2048, tick := 90 } } } : State).caverInAcq = true
      ∧ (recState 0).bit ACQ_STAT_AWAKE = true ∧ ((recState 0).setFld ACQ_STAT_AWAKE 0).bit ACQ_STAT_AWAKE = false ∧ (recState 0).acq.wake = none
      ∧ ({ recState 0 with acq := { wake := some 80 } } : State).acq.wake = some 80 ∧ 80 + 20 ≤ (recState 0).now := by decide +kernel
theorem test_recorder : (recorderArm (recState 0) 1).fld (ACQ_R_STAT_STATE 1) = 1 ∧ (let s := { recState 3 with acq := { recs := [(1, { seq := 7, rows := 1, trig := some { inst := 0, g := 0, tsrc := 9, exact := false, origin := 0, tseq := 0, tq := 0, row := 0, pos := 0, inArm := false, seen := 99 } })] } }
       (recorderStop s 1).rd (s.segAddr 1) 8 = 0x4C4E014000000007) := by decide +kernel

/-! RecordsJournalAndMeteringFrames -/
/-- The key of slot 0 of a port. -/
def stnKey : List Byte := 77 :: List.replicate 31 0
/-- Port p up, with key slot 0 loaded, class c for untagged frames and one allowed sender, in an operating state. -/
def stnState (p c op : Nat) : State :=
  (regsOn [(STN_CTRL_EN p, 1), (STN_STAT_LINK p, 1), (STN_MAC_LO p, 7), (STN_CLSMAP_UNTAG p, c), (STN_CLSMAP_UNTAG_EN p, 1), (STN_ALLOW_LO p 0, 9),
      (STN_ALLOW_HI_CLS p 0, 15), (STN_ALLOW_HI_VALID p 0, 1), (STN_OWN p c 0, 1), (SEC_PKEY_VALID, 2 ^ (2 * p)), (SEC_PKID_ID0 p, 0x1234), (CLK_STATE_STATE, op)]).wr
    (keyAddr (2 * p)) 32 77
/-- Header and body of a frame of a type from that sender, and the frame with a tag. -/
def stnHead (ty : Nat) (body : List Byte) : List Byte :=
  [1, BitVec.ofNat 8 ty, 0x12, 0x34, 0, 0, 0, 5] ++ beBytes 2 body.length ++ List.replicate 6 0 ++ body
def stnFrameOf (ty : Nat) (body : List Byte) : StnFrame :=
  { fcsOk := true, age := 300,
    bytes := beBytes 6 7 ++ beBytes 6 9 ++ beBytes 2 0x88B5 ++ (stnHead ty body ++ (beBytes 16 (stnTag stnKey 0 (stnHead ty body)) ++ List.replicate 12 0)) }

/-- What the receive checks need, apart from the tag, which the frame carries as the key makes it. -/
theorem stn_accepted (p c op ty : Nat) (body : List Byte)
    (h : (let s := stnState p c op
      let f := stnFrameOf ty body
      s.bit (STN_CTRL_EN p) = true ∧ s.bit (STN_STAT_LINK p) = true ∧ 60 ≤ f.bytes.length ∧ f.bytes.length ≤ 1518
      ∧ beNat ((f.bytes.drop 0).take 6) = s.fld (STN_MAC_LO p) + s.fld (STN_MAC_HI_MAC p) * 2 ^ 32
      ∧ s.bit (STN_CTRL_PTP_EN p) = false ∧ s.bit (STN_CTRL_UDP p) = false ∧ beNat ((f.bytes.drop 12).take 2) = s.fld (STN_ADDR_ETYPE p)
      ∧ (s.fld (STN_ADDR_ETYPE p) ≠ 0x8100 ∧ s.fld (STN_ADDR_ETYPE p) ≠ 0x8808) ∧ s.bit (STN_CLSMAP_UNTAG_EN p) = true
      ∧ s.fld (STN_CLSMAP_UNTAG p) = c ∧ beNat ((f.bytes.drop 6).take 6) = 9
      ∧ s.stnAllowed p c 9 0 = true ∧ (s.takeToken p c).1 = true ∧ stnHeaderOk p c (f.bytes.drop 14) = true
      ∧ ((s.takeToken p c).2.keyNamed p (beNat (((f.bytes.drop 14).drop 2).take 2))).1 = some stnKey
      ∧ ((((s.takeToken p c).2.keyNamed p (beNat (((f.bytes.drop 14).drop 2).take 2))).2.stnP p).seqs.find? fun q => q.1 == c) = none
      ∧ beNat (((f.bytes.drop 14).drop 8).take 2) = body.length ∧ (stnHead ty body).length = 16 + body.length
      ∧ beNat (((f.bytes.drop 14).drop 1).take 1) = ty ∧ ((f.bytes.drop 14).drop 16).take body.length = body
      ∧ beNat (((f.bytes.drop 14).drop 4).take 4) = 5)) :
    ((stnState p c op).stnCheck p (stnFrameOf ty body)).2 = some (c, ty, 5, body) := by
  obtain ⟨h1, h2, h3, h4, h5, h6, h7, h8, h9, h10, h11, h12, h13, h14, h15, h16, h17, h18, h19, h20, h21, h22⟩ := h
  have e := encap_raw (s := stnState p c op) (f := stnFrameOf ty body) rfl h3 h4 h5 h6 h7 h8 h9 h10
  rw [h11, h12] at e
  have d : (stnFrameOf ty body).bytes.drop 14 =
      stnHead ty body ++ (beBytes 16 (stnTag stnKey 0 (stnHead ty body)) ++ List.replicate 12 0) := List.drop_left' rfl
  have l16 : (beBytes 16 (stnTag stnKey 0 (stnHead ty body))).length = 16 := rfl
  have r := stnCheck_accepts h1 h2 e h13 (Prod.ext h14 rfl) h15 (Prod.ext h16 rfl) (by
    rw [h18, d, List.take_left' h19, List.drop_left' h19, List.take_left' l16, beNat_beBytes]
    exact (Nat.mod_eq_of_lt (stnTag_lt ..)).symm) h17
  rw [r, h18, h20, h21, h22]

theorem cleanMem_stn : (stnState 2 2 6).cleanMem := by
  refine ⟨by decide +kernel, ?_⟩
  have : (List.range 128).all (fun i => !(stnState 2 2 6).bit (FLT_INJ_ARM i)) = true := by decide +kernel
  intro i hi
  simpa using List.all_eq_true.mp this i (List.mem_range.mpr hi)

/-- A signed record 5 waits; record 5 of an earlier round stands unacknowledged in its slot when `old`. -/
def recordState (old : Bool) : State :=
  let s : State := { stnState 2 2 6 with nrg := { signed := [(5, List.replicate 32 3, List.replicate 1280 9)] }, ctl := { tick := 90000000 } }
  if old then s.wr (0x40200000 + 2048 * 5 + 0x7F8) 8 (Nat.xor 5 0xC0DE000000000000) else s
theorem wit_recordCommit :
    (recordState false).mramHeld = false ∧ (recordState false).nrg.signed = [(5, List.replicate 32 3, List.replicate 1280 9)] ∧ (List.replicate 32 (3 : BitVec 64)).length = 32
      ∧ (List.replicate 1280 (9 : Byte)).length = 1280 ∧ (recordState false).mem.err = [] ∧ (recordState false).regs = (stnState 2 2 6).regs
      ∧ (recordState false).bit (STN_CTRL_EN 2) = true ∧ (recordState false).bit (STN_STAT_LINK 2) = true ∧ 5 < 2 ^ 32
      ∧ ((recordState true).ringRseq 5).1 = some 5 ∧ (recordState true).recAcked 5 = false
      ∧ ({ recordState false with elec := { low := [3] } } : State).mramHeld = true := by decide +kernel
theorem wit_signFail :
    let s (told : Option Nat) : State := { recordState false with nrg := { queue := [{ rseq := 5, words := [], tick := 20 }], failAt := told } }
    (s none).nrg.queue = [{ rseq := 5, words := [], tick := 20 }] ∧ (s none).nrg.failAt = none ∧ 20 + 60000000 < (s none).now ∧ 25000000 + 60000000 ≤ (s (some 25000000)).now
      ∧ (s (some 60000000)).now < 60000000 + 60000000 := by decide +kernel
theorem wit_resend :
    let s (k : Nat) : State := { recordState true with nrg := { offered := [(5, k)] } }
    (s 0).nrg.offered = [(5, 0)] ∧ (s 0).recAcked 5 = false ∧ ((s 0).ringRseq 5).1 = some 5 ∧ 0 + (s 0).fld NRG_CFG_RESEND * 1000000 ≤ (s 0).now
      ∧ (s 80000000).now < 80000000 + (s 80000000).fld NRG_CFG_RESEND * 1000000 ∧ ((recordState false).ringRseq 5).1 ≠ some 5 := by decide +kernel
theorem wit_ack : ((stnState 2 2 6).stnCheck (2 : Fin 4) (stnFrameOf 0x11 [0, 0, 0, 9])).2 = some (2, 0x11, 5, [0, 0, 0, 9]) :=
  stn_accepted _ _ _ _ _ (by decide +kernel)
theorem wit_recReq : ((stnState 2 2 6).stnCheck (2 : Fin 4) (stnFrameOf 0x12 [0, 0, 0, 9])).2 = some (2, 0x12, 5, [0, 0, 0, 9])
    ∧ ((stnState 2 2 6).ringRseq (beNat [0, 0, 0, 9])).1 ≠ some 9 := ⟨stn_accepted _ _ _ _ _ (by decide +kernel), by decide +kernel⟩
theorem wit_attestReq : ((stnState 2 2 6).stnCheck (2 : Fin 4) (stnFrameOf 0x14 (List.replicate 32 1))).2 = some (2, 0x14, 5, List.replicate 32 1)
    ∧ ((stnState 2 2 1).stnCheck (2 : Fin 4) (stnFrameOf 0x14 (List.replicate 32 1))).2 = some (2, 0x14, 5, List.replicate 32 1)
    ∧ (stnState 2 2 6).op = 6 ∧ (stnState 2 2 1).op = 1 ∧ (stnState 2 2 6).sec.wait = [] ∧ (stnState 2 2 6).nrg.queue = [] ∧ (stnState 2 2 6).sec.job = none
    ∧ (stnState 2 2 6).secServing = false ∧ (stnState 2 2 6).sec.imgWait = false ∧ (stnState 2 2 6).canSign = false ∧ 8 ∉ (stnState 2 2 6).mem.keyUe
    ∧ (((stnState 2 2 6).setFld SEC_STAT_READY 1).setFld SEC_STAT_ENT_OK 1).canSign = true :=
  ⟨stn_accepted _ _ _ _ _ (by decide +kernel), stn_accepted _ _ _ _ _ (by decide +kernel), by decide +kernel⟩
theorem wit_energyClear : wbits (0x7E810001#32).toNat NRG_CLR_GO = 1 ∧ wbits (0x7E810001#32).toNat NRG_CLR_KEY = 0x7E81 ∧ (stnState 2 2 4).op = 4
    ∧ (stnState 2 2 4).mramHeld = false ∧ wbits (0x7E800001#32).toNat NRG_CLR_KEY ≠ 0x7E81 ∧ wbits (0x7E810000#32).toNat NRG_CLR_GO = 0 ∧ wbits (0x7E810000#32).toNat NRG_CLR_KEY = 0x7E81 := by decide +kernel

/-! SecurityCommands -/
/-- In an operating state, with a command block of an operation at mailbox offset 0 and owner slot 0 holding the key digest of
the block, whose length is `len`. -/
def otpOn (s : State) (prog revoked use : Nat) : State :=
  { s with regs := mput (mput (mput s.regs (SEC_OWN_PROG.addr * 32) prog) (SEC_OWN_REVOKED.addr * 32 + 4) revoked) (SEC_OWN_USE.addr * 32 + 8) use }
def secBase (op len st w2 : Nat) : State :=
  ((otpOn (regsOn [(CLK_STATE_STATE, st), (SEC_STAT_BLANK, 0)]) 1 0 7).wr 0x3C000000 8 (0x5343 * 2 ^ 48 + op * 2 ^ 40 + len)).wr 0x3C000010 8 w2
def secState (op len st w2 : Nat) : State :=
  { secBase op len st w2 with sec := { roots := [(0, (shake256 ((secBase op len st w2).rdBytes (0x3C000000 + len - 3073) 1793) 256).toNat)] } }
theorem sec_owner (op len st w2 u but : Nat) (h : (secState op len st w2).ownerLive 0 = true ∧ (secState op len st w2).ownerUse 0 u = true ∧ ((0 : Nat) != but) = true) :
    (secState op len st w2).ownerBut but ((secState op len st w2).rdBytes (0x3C000000 + (0 : BitVec 16).toNat + len - 3073) 1793) u = some 0 := by
  have e : (secState op len st w2).ownerRoot 0 =
    (shake256 ((secState op len st w2).rdBytes (0x3C000000 + (0 : BitVec 16).toNat + len - 3073) 1793) 256).toNat := rfl
  rw [State.ownerBut, show upto 4 = [0, 1, 2, 3] from rfl, List.find?_cons_of_pos]
  simp only [h.1, h.2.1, h.2.2, e, beq_self_eq_true, Bool.and_self]
/-- The block of a state is one of an operation with a length, and the unit is free. -/
def blkOk (op len : Nat) (s : State) : Bool :=
  !s.bit SEC_CMD_STAT_BUSY && bitsOf (s.rd 0x3C000000 8) 63 48 == 0x5343 && bitsOf (s.rd 0x3C000000 8) 47 40 == op && s.rd 0x3C000000 8 % 2 ^ 32 == len
    && decide (len ≤ 65536) && s.sec.cur.isNone && !s.sec.reload && !s.sec.imgWait && s.nrg.queue.isEmpty && !s.mem.mbox.shares && s.mem.err.isEmpty
    && (List.range 128).all fun i => !s.bit (FLT_INJ_ARM i)
theorem wit_secBlocks :
    blkOk 3 3089 (secState 3 3089 4 0) = true ∧ blkOk 3 3090 (secState 3 3090 4 0) = true ∧ blkOk 2 3097 (secState 2 3097 4 1) = true
      ∧ blkOk 4 3129 (secState 4 3129 6 0x100) = true ∧ blkOk 5 48 (secState 5 48 6 0) = true ∧ blkOk 6 16 (secState 6 16 6 0) = true
      ∧ blkOk 7 3097 (secState 7 3097 4 2) = true ∧ blkOk 1 56 (secState 1 56 4 1) = true ∧ (0 : BitVec 16).toNat % 8 = 0 ∧ (4 : BitVec 16).toNat % 8 ≠ 0 := by decide +kernel
theorem wit_secBlocks2 : blkOk 1 3129 (secState 1 3129 4 1) = true
      ∧ (secState 3 3089 4 0).op = 4 ∧ (secState 3 3089 6 0).op = 6 ∧ ((secState 3 3089 4 0).setFld SEC_CMD_STAT_BUSY 1).bit SEC_CMD_STAT_BUSY = true
      ∧ ({ secState 3 3089 4 0 with sec := { reload := true } } : State).sec.reload = true ∧ 11 ∉ (secState 3 3089 4 0).elec.low
      ∧ 11 ∈ ({ secState 3 3089 4 0 with elec := { low := [11] } } : State).elec.low := by decide +kernel
theorem wit_secOwners :
    (secState 2 3097 4 1).ownerBut 1 ((secState 2 3097 4 1).rdBytes (0x3C000000 + (0 : BitVec 16).toNat + 3097 - 3073) 1793) 2 = some 0
      ∧ (secState 1 3129 4 1).ownerBut 4 ((secState 1 3129 4 1).rdBytes (0x3C000000 + (0 : BitVec 16).toNat + 3129 - 3073) 1793) 2 = some 0
      ∧ (secState 3 3089 4 0).ownerBut 4 ((secState 3 3089 4 0).rdBytes (0x3C000000 + (0 : BitVec 16).toNat + 3089 - 3073) 1793) 0 = some 0
      ∧ (secState 4 3129 6 0).ownerBut 4 ((secState 4 3129 6 0).rdBytes (0x3C000000 + (0 : BitVec 16).toNat + 3129 - 3073) 1793) 2 = some 0
      ∧ (secState 7 3097 4 2).ownerBut 4 ((secState 7 3097 4 2).rdBytes (0x3C000000 + (0 : BitVec 16).toNat + 3097 - 3073) 1793) 2 = some 0 :=
  ⟨sec_owner _ _ _ _ _ _ (by decide +kernel), sec_owner _ _ _ _ _ _ (by decide +kernel), sec_owner _ _ _ _ _ _ (by decide +kernel),
    sec_owner _ _ _ _ _ _ (by decide +kernel), sec_owner _ _ _ _ _ _ (by decide +kernel)⟩
theorem wit_secNoOwner (but : Nat) :
    (otpOn (secState 3 3089 4 0) 1 15 7).ownerBut but ((otpOn (secState 3 3089 4 0) 1 15 7).rdBytes (0x3C000000 + (0 : BitVec 16).toNat + 3089 - 3073) 1793) 0 = none := by
  have h (i : Nat) (hi : i < 4) : (otpOn (secState 3 3089 4 0) 1 15 7).ownerLive i = false :=
    (by decide +kernel : ∀ i < 4, (otpOn (secState 3 3089 4 0) 1 15 7).ownerLive i = false) i hi
  rw [State.ownerBut, List.find?_eq_none]
  intro x hx; simp [h x (by simpa [upto] using hx)]
theorem wit_secOps :
    (secState 3 3089 4 0).fld SEC_CMD_OFS % 8 = 0 ∧ (secState 3 3089 4 0).fld SEC_CMD_OFS < 65536 ∧ (secState 5 48 6 0).rd (0x3C000000 + 8 * 1) 8 % 65536 + 2048 ≤ 65536
      ∧ (secState 2 3097 4 1).rd (0x3C000000 + (0 : BitVec 16).toNat + 8 * 2) 8 % 4 = 1
      ∧ ((secState 1 56 4 1).setFld SEC_STAT_BLANK 1).bit SEC_STAT_BLANK = true ∧ (secState 5 48 6 0).sec.wait.length < 4
      ∧ (secState 5 48 6 0).canSign = false ∧ (((secState 5 48 6 0).setFld SEC_STAT_READY 1).setFld SEC_STAT_ENT_OK 1).canSign = true ∧ 8 ∉ (secState 5 48 6 0).mem.keyUe := by decide +kernel
/-- A command taken from that block is ready to be performed. -/
def jobState (op len st w2 : Nat) : State :=
  { secState op len st w2 with sec := { (secState op len st w2).sec with job := some { ofs := 0, op := op, block := (secState op len st w2).rdBytes 0x3C000000 len, stage := 1 } } }
theorem wit_secJobs : ((jobState 1 56 4 1).sec.job.any fun j => j.op == 1 && j.res == none && leNat ((j.block.drop 16).take 8) == 1) = true
      ∧ tbit ((jobState 1 56 4 1).fld SEC_OWN_PROG) 1 = false ∧ tbit ((jobState 1 56 4 1).fld SEC_OWN_PROG) 0 = true
      ∧ (jobState 2 3097 4 1).ownerLive 0 = true ∧ (jobState 2 3097 4 1).ownerUse 0 2 = true ∧ (jobState 4 3129 6 0x100).mramHeld = false
      ∧ tbit ((jobState 4 3129 6 0x100).fld SEC_PKEY_TX) 0 ≠ ((1 : Nat) == 1) ∧ tbit ((jobState 4 3129 6 0).fld SEC_PKEY_TX) 0 = ((0 : Nat) == 1)
      ∧ ((jobState 4 3129 6 0x100).sec.job.any fun j => ((j.block.drop 24).take 32).length == 32) = true
      ∧ (jobState 6 16 6 0).bit SEC_STAT_READY = false ∧ ((jobState 6 16 6 0).setFld SEC_STAT_READY 1).bit SEC_STAT_READY = true
      ∧ (jobState 7 3097 4 2).fld SEC_STAT_DBG_POLICY < 2 ∧ (jobState 3 3089 4 0).canSign = false ∧ (jobState 3 3089 4 0).sec.cur = none := by decide +kernel
theorem wit_secEnd : (({ runState with sec := { job := some { ofs := 0, op := 3, stage := 1, res := some 3 } } } : State).sec.job.any fun j => j.stage == 1 && j.res == some 3) = true
    ∧ runState.sec.job = none ∧ ((secState 5 48 6 0).secSubmit 0).sec.job.map (·.stage) = some 2 := by decide +kernel

/-! SignaturesKeysAndDebugSessions -/
/-- A signature request of a kind is in progress, or with kind 9 a reload and a regeneration. -/
def sigState (k : Nat) : State :=
  { stnState 2 2 6 with sec := { cur := if k = 9 then none else some (⟨k, 0x4000, 0x38001000, 0⟩, List.replicate 32 7), job := if k = 1 then some { ofs := 0, op := 5, stage := 2 } else none, reload := k == 9, regen := k == 9 }, ctl := { tick := 2000000000 } }
theorem wit_sigState :
    (sigState 1).sec.cur = some (⟨1, 0x4000, 0x38001000, 0⟩, List.replicate 32 7) ∧ (List.replicate 32 (7 : BitVec 64)).length = 32 ∧ (sigState 1).sec.job = some { ofs := 0, op := 5, stage := 2 }
      ∧ (sigState 2).bit (STN_CTRL_EN 2) = true ∧ (sigState 2).bit (STN_STAT_LINK 2) = true ∧ (sigState 3).nrg.queue = [] ∧ (sigState 3).sec.wait = [] ∧ (sigState 3).sec.job = none
      ∧ (sigState 9).sec.reload = true ∧ (sigState 9).sec.regen = true ∧ (sigState 9).mramHeld = false ∧ (sigState 9).sec.cur = none
      ∧ (sigState 1).sec.reload = false ∧ (sigState 1).sec.regen = false ∧ (sigState 1).sec.entFail = false
      ∧ (stnState 2 2 6).sec.cur = none ∧ (4 : BitVec 8).getLsbD (2 : Fin 8) = true ∧ (3 : BitVec 8).getLsbD (2 : Fin 8) = false := by decide +kernel
/-- The memory of a state in which a signature is in progress reads clean. -/
theorem cleanMem_sig (k : Nat) : (sigState k).cleanMem := cleanMem_stn
/-- A blob in slot 2 whose tag does not fit, and an empty slot 3. -/
theorem wit_blobs : ((sigState 9).wr (portBlobAddr 2) 8 1).rd (portBlobAddr (2 : Fin 8)) 72 ≠ 0 ∧ ((sigState 9).wr (portBlobAddr 2) 8 1).rd (portBlobAddr (3 : Fin 8)) 72 = 0 := by decide +kernel
theorem wit_debugAuth : wbits (4#32).toNat DBG_AUTH_LVL = 0 ∧ wbits (6#32).toNat DBG_AUTH_LVL = 2 ∧ wbits (6#32).toNat DBG_AUTH_GO = 1 ∧ wbits (2#32).toNat DBG_AUTH_GO = 0
    ∧ ((sigState 1).setFld SEC_STAT_DBG_POLICY 1).bit DBG_SESS_WAIT = false ∧ ((sigState 1).setFld SEC_STAT_DBG_POLICY 1).fld SEC_STAT_DBG_POLICY = 1
    ∧ 2 ≤ ((sigState 1).setFld SEC_STAT_DBG_POLICY 2).fld SEC_STAT_DBG_POLICY := by decide +kernel
theorem wit_debugTimes : ((sigState 1).setFld SEC_STAT_DBG_LEVEL 2).fld SEC_STAT_DBG_LEVEL ≠ 0
    ∧ ((sigState 1).setFld SEC_STAT_DBG_LEVEL 2).sec.dbgTick + ((sigState 1).setFld SEC_STAT_DBG_LEVEL 2).fld SEC_DBG_TO * 60000000 ≤ (sigState 1).now
    ∧ (sigState 1).sec.backAt + 1000000 ≤ (sigState 1).now ∧ runState.now < runState.sec.backAt + 1000000 ∧ runState.fld SEC_STAT_DBG_LEVEL = 0 := by decide +kernel

/-! StationFramesAndLinks -/
theorem wit_setpoint : ((stnState 0 0 6).stnCheck (0 : Fin 4) (stnFrameOf 0x01 [1, 0, 0, 0, 0, 0, 0, 5])).2 = some (0, 0x01, 5, [1, 0, 0, 0, 0, 0, 0, 5])
    ∧ ((stnState 0 0 6).stnCheck (0 : Fin 4) (stnFrameOf 0x01 [1, 1, 0, 0, 0, 0, 0, 5])).2 = some (0, 0x01, 5, [1, 1, 0, 0, 0, 0, 0, 5])
    ∧ (stnState 0 0 6).stnOwns (0 : Fin 4) 0 0x100 = true ∧ (stnState 0 0 6).stnOwns (0 : Fin 4) 0 0x101 = false :=
  ⟨stn_accepted _ _ _ _ _ (by decide +kernel), stn_accepted _ _ _ _ _ (by decide +kernel), by decide +kernel⟩
theorem wit_request : ((stnState 3 2 6).stnCheck (3 : Fin 4) (stnFrameOf 0x02 [7, 8])).2 = some (2, 0x02, 5, [7, 8]) ∧ ringOf (3 : Fin 4) = some 2
    ∧ ringFull ((stnState 3 2 6).fld (SEQ_RX_WP 2)) ((stnState 3 2 6).fld (SEQ_RX_RP 2)) = false
    ∧ ringFull (((stnState 3 2 6).setFld (SEQ_RX_WP 2) 4).fld (SEQ_RX_WP 2)) (((stnState 3 2 6).setFld (SEQ_RX_WP 2) 4).fld (SEQ_RX_RP 2)) = true :=
  ⟨stn_accepted _ _ _ _ _ (by decide +kernel), by decide +kernel⟩
theorem wit_stnReject :
    let s := (stnState 1 2 6).setFld (STN_ALLOW_HI_VALID 1 0) 0
    let f := stnFrameOf 0x02 [7, 8]
    s.bit (STN_CTRL_EN 1) = true ∧ s.bit (STN_STAT_LINK 1) = true ∧ s.stnAllowed (1 : Fin 4) 2 9 0 = false ∧ mget 0 (s.stnP 1).told 0x12 = 0
      ∧ (s.stnCheck 1 { f with fcsOk := false }).2 = none ∧ runState.bit (STN_CTRL_EN 1) = false ∧ s.fld (STN_CNT 1 1) < 2 ^ 32 - 1 := by decide +kernel
/-- The fields of the port and of the frame that the encapsulation checks read, for a frame of a sender that no entry allows. -/
theorem stnReject_fields :
    let s := (stnState 1 2 6).setFld (STN_ALLOW_HI_VALID 1 0) 0
    let f := stnFrameOf 0x02 [7, 8]
    (60 ≤ f.bytes.length ∧ f.bytes.length ≤ 1518 ∧ beNat ((f.bytes.drop 0).take 6) = s.fld (STN_MAC_LO 1) + s.fld (STN_MAC_HI_MAC 1) * 2 ^ 32)
      ∧ (s.bit (STN_CTRL_PTP_EN 1) = false ∧ s.bit (STN_CTRL_UDP 1) = false)
      ∧ (beNat ((f.bytes.drop 12).take 2) = s.fld (STN_ADDR_ETYPE 1) ∧ s.fld (STN_ADDR_ETYPE 1) ≠ 0x8100 ∧ s.fld (STN_ADDR_ETYPE 1) ≠ 0x8808)
      ∧ (s.bit (STN_CLSMAP_UNTAG_EN 1) = true ∧ s.fld (STN_CLSMAP_UNTAG 1) = 2 ∧ beNat ((f.bytes.drop 6).take 6) = 9) := by decide +kernel
theorem wit_stnEncap : ((stnState 1 2 6).setFld (STN_ALLOW_HI_VALID 1 0) 0).encap (1 : Fin 4) (stnFrameOf 0x02 [7, 8]) = .frame 2 9 0 ((stnFrameOf 0x02 [7, 8]).bytes.drop 14) := by
  obtain ⟨⟨short, long, dst⟩, ⟨noPtp, noUdp⟩, ⟨ety, ne⟩, untag, cls, mac⟩ := stnReject_fields
  exact (encap_raw rfl short long dst noPtp noUdp ety ne untag).trans (cls ▸ mac ▸ rfl)
theorem cleanMem_stn3 : (stnState 3 2 6).cleanMem ∧ (stnState 0 0 6).cleanMem ∧ (stnState 1 2 6).cleanMem := by
  have h3 : (stnState 3 2 6).mem.err = [] ∧ (List.range 128).all (fun i => !(stnState 3 2 6).bit (FLT_INJ_ARM i)) = true := by decide +kernel
  have h0 : (stnState 0 0 6).mem.err = [] ∧ (List.range 128).all (fun i => !(stnState 0 0 6).bit (FLT_INJ_ARM i)) = true := by decide +kernel
  have h1 : (stnState 1 2 6).mem.err = [] ∧ (List.range 128).all (fun i => !(stnState 1 2 6).bit (FLT_INJ_ARM i)) = true := by decide +kernel
  exact ⟨⟨h3.1, fun i hi => by simpa using List.all_eq_true.mp h3.2 i (List.mem_range.mpr hi)⟩,
    ⟨h0.1, fun i hi => by simpa using List.all_eq_true.mp h0.2 i (List.mem_range.mpr hi)⟩,
    ⟨h1.1, fun i hi => by simpa using List.all_eq_true.mp h1.2 i (List.mem_range.mpr hi)⟩⟩
theorem wit_stnLinks :
    (stnState 1 2 6).bit (STN_STAT_LINK (1 : Fin 4)) = true ∧ runState.bit (STN_STAT_LINK (1 : Fin 4)) = false ∧ (stnState 1 2 6).ctl.lost = [] ∧ (stnState 1 2 6).op ≠ 3 ∧ (stnState 1 2 6).mem.mbox.shares = false
      ∧ (let s : State := { ((((stnState 1 2 6).setFld (STN_TX_PER 1) 4).setFld (SEQ_TX_WP 1) 1).setFld (STN_C0_TMO 1) 10) with ctl := { tick := 40 } }
         s.fld (STN_TX_PER (1 : Fin 4)) ≠ 0 ∧ s.now % 65536 % s.fld (STN_TX_PER (1 : Fin 4)) = 0 ∧ ringOf (1 : Fin 4) = some 1
           ∧ s.fld (SEQ_TX_RP 1) ≠ s.fld (SEQ_TX_WP 1) ∧ s.fld (STN_C0_TMO (1 : Fin 4)) ≠ 0 ∧ (s.stnP (1 : Fin 4)).c0Sent = false
           ∧ (s.stnP (1 : Fin 4)).c0At + s.fld (STN_C0_TMO (1 : Fin 4)) ≤ s.now)
      ∧ runState.fld (STN_TX_PER (1 : Fin 4)) = 0 ∧ runState.fld (STN_C0_TMO (1 : Fin 4)) = 0 ∧ runState.fld (SEQ_TX_RP 1) = runState.fld (SEQ_TX_WP 1) := by decide +kernel

/-! ImagesAreReadVerifiedAndLoaded -/
/-- Flash whose slot A has one CELLMAP section with cell 0, before its digest is written. -/
def flashBase : List Host.Cell :=
  cwr flashDefault (cwr flashDefault (cwr flashDefault [] 6 2 1) 0x20 16 (3 + 0x2000 * 2 ^ 32 + 8 * 2 ^ 64)) 0x2000 8 0
def loadState (op : Nat) (flash : List Host.Cell) (reading : Bool) (cand : List Nat) : State :=
  { (regsOn [(CLK_STATE_STATE, op), (SEC_STAT_BLANK, 0)]) with ld := { flash := flash, reading := reading, cand := cand, flashOk := true, trial := { used := [0], arms := [(0, 1)] } } }
theorem wit_sectionDigest :
    let v := (shake256 ((loadState 1 flashBase true [1]).flBytes 0x2000 8) 256).toNat
    let s := loadState 1 (cwr flashDefault flashBase 0x30 32 v) true [1]
    ∀ e ∈ s.sections (0 : Fin 2), (shake256 (s.flBytes (slotBase (0 : Fin 2) + e.ofs) e.len) 256).toNat = e.digest := by
  intro v s e he
  have out (a n : Nat) (h : a + n ≤ 0x30 ∨ 0x30 + 32 ≤ a) : s.flRd a n = (loadState 1 flashBase true [1]).flRd a n :=
    crd_cwr_out _ _ _ _ _ _ _ h
  have hn : s.nsec 0 = 1 := by
    rw [State.nsec, out _ _ (by decide)]; decide +kernel
  have hs : s.sections (0 : Fin 2) = [s.sectionAt 0 0] := by
    show (upto (s.nsec 0)).map (s.sectionAt 0) = _
    rw [hn]; rfl
  rw [hs, List.mem_singleton] at he
  subst he
  have ho : (s.sectionAt 0 0).ofs = 0x2000 := by
    show s.flRd _ 4 = _; rw [out _ _ (by decide)]; decide +kernel
  have hl : (s.sectionAt 0 0).len = 8 := by
    show s.flRd _ 4 = _; rw [out _ _ (by decide)]; decide +kernel
  have hd : (s.sectionAt 0 0).digest = v := by
    show crd flashDefault (cwr flashDefault flashBase 0x30 32 v) 0x30 32 = v
    rw [crd_cwr_same]; exact Nat.mod_eq_of_lt (shake256 _ 256).isLt
  have hb : s.flBytes (slotBase (0 : Fin 2) + 0x2000) 8 = (loadState 1 flashBase true [1]).flBytes 0x2000 8 := by
    refine List.map_congr_left fun i _ => ?_
    show cget flashDefault (cwr flashDefault flashBase 0x30 32 v) (0x2000 + i) = _
    rw [cget_cwr_out _ _ _ _ _ _ (by omega)]; rfl
  rw [ho, hl, hd, hb]
theorem wit_badDigest :
    let s := loadState 1 (cwr flashDefault (cwr flashDefault [] 6 2 2) 0x20 96 (3 + 0x2000 * 2 ^ 32 + 8 * 2 ^ 64 + (3 + 0x2000 * 2 ^ 32 + 8 * 2 ^ 64 + 2 ^ 128) * 2 ^ 384)) true [1, 2]
    ∃ e ∈ s.sections (0 : Fin 2), (shake256 (s.flBytes (slotBase (0 : Fin 2) + e.ofs) e.len) 256).toNat ≠ e.digest := by
  intro s
  have hs : s.sections (0 : Fin 2) = [⟨3, 0, 0, 0x2000, 8, 0, 0⟩, ⟨3, 0, 0, 0x2000, 8, 0, 1⟩] := by decide +kernel
  rw [hs]
  by_cases h : (shake256 (s.flBytes (slotBase (0 : Fin 2) + 0x2000) 8) 256).toNat = 0
  · exact ⟨_, .tail _ (.head _), by simp only [h]; decide⟩
  · exact ⟨_, .head _, h⟩
theorem wit_load :
    (loadState 1 flashBase true [1]).ld.reading = true ∧ (loadState 1 flashBase true [1]).op = 1 ∧ (loadState 1 flashBase true [1]).ld.cand = [(0 : Fin 2).val + 1]
      ∧ (loadState 1 flashBase true []).ld.cand = [] ∧ (loadState 2 flashBase false [1]).op = 2 ∧ (∀ p ∈ (loadState 2 flashBase false [1]).ld.trial.held, heldReg p.1 = true)
      ∧ (loadState 2 flashBase false [1]).badPair (0 : Fin 2) = none ∧ (loadState 2 flashBase false [1]).contentCode (0 : Fin 2) = 0
      ∧ (loadState 2 [] false [1]).contentCode (0 : Fin 2) ≠ 0 ∧ (loadState 2 flashBase false [1]).secServing = false ∧ (loadState 2 flashBase false [1]).sec.job = none
      ∧ (loadState 2 flashBase false [1]).nrg.queue = [] ∧ (loadState 2 flashBase false [1]).sec.wait = [] ∧ ({ loadState 2 flashBase false [1] with sec := { reload := true } } : State).secServing = true ∧ wbits (0x6C0D0001#32).toNat CFG_LOAD_GO = 1 ∧ wbits (0x6C0D0001#32).toNat CFG_LOAD_KEY = 0x6C0D
      ∧ wbits (0x6C0D0000#32).toNat CFG_LOAD_GO = 0 ∧ wbits (0x6C0D0000#32).toNat CFG_LOAD_KEY = 0x6C0D ∧ wbits (0x00000000#32).toNat CFG_LOAD_KEY ≠ 0x6C0D
      ∧ (loadState 3 flashBase false []).ld.cmd = none ∧ (loadState 3 flashBase false []).op = 3 ∧ (loadState 4 flashBase false []).op = 4
      ∧ (loadState 3 flashBase false []).slotEmpty (0 : Fin 2) = true := by decide +kernel

/-! FlashCommandsAndOfflinePorts -/
theorem wit_flashCmd :
    let s := { (regsOn [(CLK_STATE_STATE, 4), (CFG_FL_ADDR, 0x2000100), (CFG_FL_LEN, 16), (CFG_STAT_SLOT, 1)]) with ctl := { tick := 2000 } }
    s.ld.cmd = none ∧ s.op = 4 ∧ s.fld CFG_FL_ADDR / 0x2000000 + 1 ≠ s.fld CFG_STAT_SLOT ∧ flashArgsOk 2 (s.fld CFG_FL_ADDR) (s.fld CFG_FL_LEN) (wbits (0x12#32).toNat CFG_FL_CMD_OFS) = false
      ∧ flashArgsOk 2 (s.fld CFG_FL_ADDR) (s.fld CFG_FL_LEN) (wbits (0x82#32).toNat CFG_FL_CMD_OFS) = true
      ∧ (s.setFld CFG_FL_ADDR 0x100).fld CFG_FL_ADDR / 0x2000000 + 1 = (s.setFld CFG_FL_ADDR 0x100).fld CFG_STAT_SLOT
      ∧ ({ s with ld := { cmd := some ⟨2, 0x2000100, 16, 8, 0⟩ } } : State).ld.cmd = some ⟨2, 0x2000100, 16, 8, 0⟩ ∧ s.now ≤ 0 + 3000000 ∧ s.mem.err = [] ∧ s.mem.mbox.shares = false
      ∧ (List.range 128).all (fun i => !s.bit (FLT_INJ_ARM i)) = true ∧ 0 + 3000000 < ({ s with ctl := { tick := 4000000 } } : State).now := by decide +kernel
theorem wit_offline :
    let s := { selState with ctl := { tick := 2000 } }
    s.op = 6 ∧ tbit (s.fld CFG_OFF_STAT) (0 : Fin 32) = false ∧ s.ld.offs = [] ∧ s.portCells (0 : Fin 32) = [3, 5] ∧ s.ceBit 3 ceExcl = false
      ∧ (s.setFld CLK_STATE_STATE 4).op = 4 ∧ (regsOn [(CLK_STATE_STATE, 3)]).op = 3 ∧ (regsOn []).op < 3 ∧ s.portCells (1 : Fin 32) = []
      ∧ ({ s with ld := { s.ld with offs := [⟨0, 900, false, []⟩] } } : State).ld.offs = [⟨(0 : Fin 32).val, 900, false, []⟩] ∧ 900 + 1000 ≤ s.now
      ∧ mget [] ({ s with ld := { s.ld with offCells := [(0, [3])] } } : State).ld.offCells (0 : Fin 32) = [3] := by decide +kernel

/-! SeqRegisterOps -/
/-- A sequencer that runs at the reset vector with s1 = 7, s2 = 0xFFFFFFFD. -/
def seqRun : State := { State.reset with seq := { x := [(1, 7), (2, 0xFFFFFFFD)], pc := 0x38000000, run := true } }

theorem wit_seqReady : seqRun.seqReady = true := by decide
theorem test_sub_wraps : (seqRun.seqOp3 seqSub 3 1 2).sx 3 = 10 := by decide
theorem test_slt_signed : (seqRun.seqOp3 seqSlt 3 2 1).sx 3 = 1 ∧ (seqRun.seqOp3 seqSltu 3 2 1).sx 3 = 0 := by decide
theorem test_sra_sign : (seqRun.seqOp3 seqSra 3 2 1).sx 3 = 0xFFFFFFFF := by decide

/-! SeqImmediateOps -/
theorem wit_seqImm : seqRun.seqReady = true ∧ (31#18).toNat < 32 ∧ 32 ≤ (32#18).toNat ∧ seqRun.seq.masked = false
    ∧ seqRun.msgAt 0x3E1 = none := by decide
theorem test_addi_negative : (seqIAddi 3 1 0x3FFFF#18 seqRun).sx 3 = 6 := by decide
theorem test_lui_high : (seqILui 3 0x2000#14 seqRun).sx 3 = 0x80000000 := by decide

/-! SeqBranches -/
theorem test_bge_back : (seqIBge 1 2 0x3FFFF#18 seqRun).seq.pc = 0x37FFFFFC := by decide

/-! SeqDivide -/
theorem wit_seqDiv : seqRun.sx (2 : Fin 16) ≠ 0 ∧ seqRun.sx (0 : Fin 16) = 0 ∧ seqRun.msgAt 0x3E1 = none := by decide
theorem test_div_toward_zero : (seqIDiv 3 1 2 seqRun).sx 3 = 0xFFFFFFFE := by decide

/-! SeqMemoryAccess -/
/-- The same with s4 pointing into sequencer memory, s5 into the sequencer's slots, and the regions of reset. -/
def seqMem : State :=
  { (regsOn [(SEQ_SLOT_OWN0, 1)]) with seq := { x := [(4, 0x38000100), (5, 0x380)], pc := 0x38000000, run := true } }

theorem wit_seqMem : seqMem.seqReady = true ∧ (seqMem.mboxBegin 0x38000100 .no).readable .sequencer 0x38000100 4 .read
    ∧ (seqMem.mboxBegin 0x38000101 .no).readable .sequencer 0x38000101 1 .read ∧ (seqMem.mboxBegin 0x38000104 .no).writable .sequencer 0x38000104 4
    ∧ (seqMem.mboxBegin 0x38000103 .no).writable .sequencer 0x38000103 1 ∧ seqMem.msgAt 0x3E1 = none := by
  unfold State.readable State.writable; decide
theorem wit_seqSlot : seqMem.readable .sequencer 0x10000E00 4 .read ∧ seqMem.readable .sequencer 0x10000E00 4 .write
    ∧ seqMem.produces .sequencer 0x380 = true ∧ seqMem.bit RED_CFG_PAIR = false := by
  unfold State.readable; decide

/-! SeqServices -/
/-- The same sequencer with event 2 pending, or waiting for boundaries. -/
def seqEvt : State := { (regsOn [(SEQ_EVT, 4)]) with seq := { x := [(1, 7), (2, 8)], run := true } }
def seqWaits : State := { State.reset with seq := { run := true, wait := some (.tick 0) } }

theorem wit_seqServices : seqEvt.seqReady = true ∧ seqEvt.fld SEQ_EVT &&& seqEvt.sx (1 : Fin 16) ≠ 0
    ∧ seqEvt.fld SEQ_EVT &&& seqEvt.sx (2 : Fin 16) = 0 ∧ (63#18).toNat < 64 ∧ (60#18).toNat % 8 ≤ 4
    ∧ seqEvt.msgAt (0x3E3 + 4) = none := by decide
theorem wit_waitComplete : seqWaits.seq.run = true ∧ seqWaits.seq.dead = false ∧ seqWaits.seq.halt = false
    ∧ seqWaits.seq.nmi = false ∧ seqWaits.seq.role = none ∧ seqWaits.seq.wait = some (.tick 0) := by decide

/-! SeqSignAndSend -/
/-- A ready sequencer whose SIGN finds the security unit unable to sign, or able with an ended SIGN before it, and one whose block for SP2 is good. -/
def seqSigns : State :=
  { (regsOn [(SEC_STAT_READY, 1)]) with seq := { x := [(1, 0x38000000), (2, 0x3C000000), (3, 1)], run := true } }
def seqSigns2 : State :=
  { (regsOn [(SEC_STAT_READY, 1), (SEC_STAT_ENT_OK, 1), (SEQ_SIGN_STAT_STATE, 3)]) with seq := seqSigns.seq }
def seqSends : State :=
  { (regsOn [(STN_STAT_LINK 3, 1)]) with seq := { x := [(1, 2), (2, 0x38000000), (3, 3), (4, 0x38001000)], run := true },
                                         mem := { bytes := [(0x38000000, 5)] } }

theorem wit_seqSign : seqSigns.seqReady = true ∧ seqSigns.fld SEQ_SIGN_STAT_STATE ≠ 1 ∧ seqSigns.fld SEQ_SIGN_STAT_STATE ≠ 2
    ∧ signAddrOk (seqSigns.sx (1 : Fin 16)) (seqSigns.sx (2 : Fin 16)) = true
    ∧ signAddrOk (seqSigns.sx (3 : Fin 16)) (seqSigns.sx (2 : Fin 16)) = false ∧ seqSigns.sec.wait.length < 4
    ∧ seqSigns.canSign = false ∧ seqSigns.sec.job = none ∧ seqSigns2.fld SEQ_SIGN_STAT_STATE = 3 ∧ seqSigns2.canSign = true ∧ seqSigns2.secServing = false
    ∧ seqSigns2.sec.imgWait = false ∧ seqSigns2.sec.wait = [] ∧ seqSigns2.nrg.queue = [] ∧ 8 ∉ seqSigns2.mem.keyUe ∧ seqSigns2.mem.mbox.shares = false
    ∧ 4 ≤ ({ seqSigns2 with sec := { wait := List.replicate 4 ⟨3, 0, 0, 0⟩ } } : State).sec.wait.length
    ∧ ({ (regsOn [(SEQ_SIGN_STAT_STATE, 2)]) with seq := seqSigns.seq } : State).seqReady = true := by decide
theorem cleanMem_seq : seqSigns2.cleanMem ∧ seqSends.cleanMem := by
  have h2 : seqSigns2.mem.err = [] ∧ (List.range 128).all (fun i => !seqSigns2.bit (FLT_INJ_ARM i)) = true := by decide +kernel
  have h3 : seqSends.mem.err = [] ∧ (List.range 128).all (fun i => !seqSends.bit (FLT_INJ_ARM i)) = true := by decide +kernel
  exact ⟨⟨h2.1, fun i hi => by simpa using List.all_eq_true.mp h2.2 i (List.mem_range.mpr hi)⟩,
    ⟨h3.1, fun i hi => by simpa using List.all_eq_true.mp h3.2 i (List.mem_range.mpr hi)⟩⟩
theorem wit_seqSend : seqSends.seqReady = true ∧ ringOf (3 : Fin 4) = some 2 ∧ seqSends.sx (1 : Fin 16) = 2
    ∧ seqSends.bit (STN_STAT_LINK (3 : Fin 4)) = true ∧ ringOf (0 : Fin 4) = some (seqSends.sx (0 : Fin 16)) ∧ seqSends.bit (STN_STAT_LINK (0 : Fin 4)) = false ∧ seqSends.rd (seqSends.sx (2 : Fin 16)) 4 = 5
    ∧ sendAddrOk (seqSends.sx (2 : Fin 16)) 4 = true ∧ sendAddrOk (seqSends.sx (2 : Fin 16)) 9 = true ∧ seqSends.mem.mbox.shares = false
    ∧ ringFull (seqSends.fld (SEQ_TX_WP 2)) (seqSends.fld (SEQ_TX_RP 2)) = false
    ∧ 3 ≤ seqSends.sx (3 : Fin 16) ∧ sendAddrOk (seqSends.sx (3 : Fin 16)) 4 = false ∧ seqSends.rd (seqSends.sx (4 : Fin 16)) 4 = 0
    ∧ ringFull ((seqSends.setFld (SEQ_TX_WP 2) 4).fld (SEQ_TX_WP 2)) ((seqSends.setFld (SEQ_TX_WP 2) 4).fld (SEQ_TX_RP 2)) = true := by decide +kernel

/-! SeqEntries -/
/-- Sequencers with an NMI due, a role entry due, in a handler, and at the end of the watchdog count. -/
def seqNmiDue : State := { State.reset with seq := { run := true, nmi := true, pc := 0x38000100 } }
def seqRoleDue : State := { State.reset with seq := { run := true, role := some 3 } }
def seqHandler : State := { State.reset with seq := { run := true, masked := true } }
def seqWdDue : State := { (regsOn [(SEQ_WDOG_TICKS, 5)]) with seq := { run := true, wd := 5 } }

theorem wit_seqEntries : seqRun.seqReady = true ∧ seqRun.seq.masked = false ∧ seqRun.msgAt 0x3E1 = none
    ∧ seqHandler.seqReady = true ∧ seqHandler.seq.masked = true ∧ seqNmiDue.seq.role = none ∧ seqNmiDue.seq.nmi = true
    ∧ seqNmiDue.breakHere = none ∧ seqRoleDue.seq.role = some (3 : Fin 4).val ∧ seqRun.seq.halt = false
    ∧ seqRun.inFreset 0xD0014 = false ∧ ({ seqRun with sump := { seqRun.sump with fresets := [(64 * 10, 0)] } } : State).inFreset 0xD0014 = true ∧ seqRun.msgAt 0x3E0 = none ∧ seqRun.bit SEQ_CTRL_LS_RESTART = seqRun.bit SEQ_CTRL_LS_RESTART
    ∧ seqWdDue.fld SEQ_WDOG_TICKS ≠ 0 ∧ seqWdDue.fld SEQ_WDOG_TICKS ≤ seqWdDue.seq.wd ∧ seqWdDue.msgAt 0x3E1 = none := by decide

/-! HostPortRequests -/
/-- Out of reset, with region 1 of the host over sequencer memory. -/
def hostState : State :=
  { (regsOn [(MEM_CFG_EN 0 1, 1), (MEM_CFG_R 0 1, 1), (MEM_CFG_W 0 1, 1), (MEM_BASE_BASE 0 1, 0x380000), (MEM_LIMIT_LIMIT 0 1, 0x3807FF)]) with elec := { inReset := false } }
/-- The same with n READs of its memory waiting. -/
def hostWaits (n : Nat) : State := { hostState with dbg := { reqs := List.replicate n ⟨0x1800070038000100, [], .no⟩ } }
theorem wit_hostUp : hostState.elec.inReset = false ∧ hostState.bit (FLT_INJ_ARM 0x44) = false ∧ hostState.dbg.reqs = [] ∧ State.reset.elec.inReset = true
    ∧ (hostWaits 8).dbg.reqs.length = 8 ∧ (hostWaits 2).dbg.reqs = ⟨0x1800070038000100, [], .no⟩ :: [⟨0x1800070038000100, [], .no⟩] ∧ (hostWaits 7).dbg.reqs.length < 8 := by decide +kernel
theorem wit_hostHeaders :
    let rd : BitVec 64 := 0x1820070038000100
    let wr : BitVec 64 := 0x2820070038000100
    reqBad rd = false ∧ reqOp rd = 1 ∧ reqSize rd = 2 ∧ reqCount rd = 2 ∧ reqAddr rd = 0x38000100 ∧ reqShapeBad rd = false
      ∧ reqBad wr = false ∧ reqOp wr = 2 ∧ reqSize wr = 2 ∧ reqCount wr = 2 ∧ reqBad 0x3000000000000000 = true ∧ reqBad 0x1C00000000000000 = true
      ∧ reqOp 0x2400000038000100 = 2 ∧ reqSize 0x2400000038000100 = 1 ∧ reqCount 0x2400000038000100 = 1 ∧ reqBad 0x2400000038000100 = false
      ∧ (hsiaoDec (hsiaoEnc 0 ^^^ 3)).1 = .ue ∧ ([1, 2] : List (BitVec 64)).length = reqCount wr ∧ ([1] : List (BitVec 64)).length < reqCount wr := by decide +kernel
theorem wit_hostMem :
    (let s := hostState.mboxBegin 0x38000100 .last
     (s.readable .host 0x38000100 8 .read ∧ s.readable .host 0x38000108 8 .read) ∧ s.writable .host 0x38000100 8 ∧ s.writable .host 0x38000108 8)
      ∧ (regsOn [(MEM_CFG_EN 0 0, 0)]).regionOk .host 0x38000100 8 .write = false ∧ (regsOn [(MEM_CFG_EN 0 0, 0)]).regionOk .host 0x40100000 8 .read = false := by
  unfold State.readable State.writable; decide +kernel
theorem wit_hostTurn : ((hostWaits 2).mboxBegin 0x38000100 .no).readable .host 0x38000100 8 .read := by unfold State.readable; decide +kernel
theorem wit_hostConflict :
    let rd : BitVec 64 := 0x180007003C000008
    let s := { (regsOn [(MEM_CFG_EN 0 1, 1), (MEM_CFG_R 0 1, 1), (MEM_BASE_BASE 0 1, 0x3C0000), (MEM_LIMIT_LIMIT 0 1, 0x3C00FF)]) with
      elec := { inReset := false }, mem := { mbox := { fw := [0x3C000008] } } }
    reqOp rd = 1 ∧ reqSize rd = 2 ∧ reqCount rd = 1 ∧ reqBad rd = false ∧ reqAddr rd = 0x3C000008 ∧ inMbox (reqAddr rd) = true
      ∧ s.regionOk .host (reqAddr rd) 8 .read = true ∧ s.bit (FLT_INJ_ARM 0x46) = false ∧ (s.mboxBegin (reqAddr rd) .last).mem.mbox.wrote true (reqAddr rd) = true
      ∧ reqAddr 0x240000000000A000 < 0x10000000 ∧ s.fld MEM_CNT_MBOX < 2 ^ MEM_CNT_MBOX.w - 1 := by decide +kernel
/-- Bytes of a word on the port (R63): data bits 63 to 56 first, the check byte last. -/
theorem test_portBytes : portBytes (0xAB#8 ++ 0x0123456789ABCDEF#64) = [0x01, 0x23, 0x45, 0x67, 0x89, 0xAB, 0xCD, 0xEF, 0xAB] := by decide

/-! BoundaryScanAndDebugAccess -/
theorem wit_scan : ({ runState with dbg := { scan := true } } : State).dbg.scan = true ∧ runState.dbg.scan = false ∧ runState.fld SEC_STAT_DBG_LEVEL = 0
    ∧ (runState.setFld SEC_STAT_DBG_LEVEL 1).fld SEC_STAT_DBG_LEVEL ≠ 0 ∧ 3 ∉ runState.elec.below ∧ 10 ∉ runState.elec.below := by decide +kernel
/-- The 32 bits of the identification leave IDCODE least significant bit first. -/
theorem test_idcode : (drScan runState 2 [] (List.replicate 32 false)).dbg.tdo = 0xB9600A4D := by decide +kernel
/-- KDA is selected, one response waits, policy as given, region 1 of the debug port over sequencer memory. -/
def kdaState (policy : Nat) (req : Option (BitVec 64 × List (Option (BitVec 64)))) : State :=
  { { (regsOn [(MEM_CFG_EN 1 1, 1), (MEM_CFG_R 1 1, 1), (MEM_CFG_W 1 1, 1), (MEM_BASE_BASE 1 1, 0x380000), (MEM_LIMIT_LIMIT 1 1, 0x3807FF)]) with elec := { inReset := false } }
    with regs := mput (regsOn [(MEM_CFG_EN 1 1, 1), (MEM_CFG_R 1 1, 1), (MEM_CFG_W 1 1, 1), (MEM_BASE_BASE 1 1, 0x380000), (MEM_LIMIT_LIMIT 1 1, 0x3807FF)]).regs (32 * SEC_STAT_DBG_POLICY.addr + 2) policy,
         dbg := { ir := 0x10, kda := [5], kdaReq := req } }
theorem wit_kdaState :
    (kdaState 0 none).dbg.ir = 0x10 ∧ (kdaState 0 none).elec.inReset = false ∧ (kdaState 0 none).bit (FLT_INJ_ARM 0x45) = false ∧ (kdaState 0 none).dbg.kda = [5]
      ∧ reqBad 0x1800070038000100 = false ∧ reqOp 0x1800070038000100 = 1 ∧ reqSize 0x1800070038000100 = 2 ∧ reqCount 0x1800070038000100 = 1
      ∧ reqBad 0x2800070038000100 = false ∧ reqOp 0x2800070038000100 = 2 ∧ reqSize 0x2800070038000100 = 2 ∧ reqCount 0x2800070038000100 = 1
      ∧ (kdaState 0 none).kdaAllowed (reqAddr 0x1800070038000100) false = true ∧ (kdaState 2 none).kdaAllowed (reqAddr 0x1800070038000100) false = false
      ∧ (kdaState 0 (some (0x2800070038000100, []))).kdaAllowed (reqAddr 0x2800070038000100) true = true
      ∧ (kdaState 2 (some (0x2800070038000100, []))).kdaAllowed (reqAddr 0x2800070038000100) true = false
      ∧ (kdaState 0 (some (0x2800070038000100, []))).dbg.kdaReq = some (0x2800070038000100, []) := by decide +kernel
theorem wit_kdaMem : ((kdaState 0 none).mboxBegin (reqAddr 0x1800070038000100) .no).readable .debug (reqAddr 0x1800070038000100) 8 .read
    ∧ ((kdaState 0 (some (0x2800070038000100, []))).mboxBegin (reqAddr 0x2800070038000100) .no).writable .debug (reqAddr 0x2800070038000100) 8 := by
  unfold State.readable State.writable; decide +kernel

/-! HaltsAndBreakpoints -/
/-- Level 2 in an operating state, a running sequencer at its reset vector, a breakpoint there, an ADDI in memory. -/
def haltState (op : Nat) (halt : Bool) : State :=
  let s : State := { (regsOn [(CLK_STATE_STATE, op), (DBG_BP_EN 1, 1), (DBG_BP_ADDR 1, 0x0E000000)]) with seq := { run := true, pc := 0x38000000, halt := halt } }
  { s with regs := mput s.regs (32 * SEC_STAT_DBG_POLICY.addr + 2) 0 }
theorem wit_halt :
    (haltState 6 false).dbgLevel = 2 ∧ (haltState 6 false).seq.run = true ∧ (haltState 6 false).seq.dead = false ∧ (haltState 6 false).seq.halt = false
      ∧ (haltState 6 true).seq.halt = true ∧ (haltState 6 false).seq.wait = none ∧ (haltState 6 false).breakHere = some 1 ∧ (haltState 6 false).bit DBG_HALT_BLOCK_EN = true
      ∧ ((haltState 6 false).setFld DBG_HALT_BLOCK_EN 0).bit DBG_HALT_BLOCK_EN = false ∧ (haltState 8 false).op = 8 ∧ (haltState 8 false).bit DBG_PIPE_HALTED = false
      ∧ 1 ≤ (haltState 8 false).fld DBG_PIPE_COUNT ∧ (haltState 8 false).fld DBG_PIPE_COUNT ≤ 255 ∧ ({ haltState 6 false with regs := mput (haltState 6 false).regs (32 * SEC_STAT_DBG_POLICY.addr + 2) 2 } : State).dbgLevel ≠ 2
      ∧ ((haltState 6 false).setFld (DBG_BP_EN 1) 0).breakHere = none := by decide +kernel
theorem wit_stepFetch : ((haltState 6 true).wr 0x38000000 4 ((seqEncode (.addi 1 2 5)).getD 0).toNat).readable .sequencer 0x38000000 4 .fetch
    ∧ seqDecode (BitVec.ofNat 32 (((haltState 6 true).wr 0x38000000 4 ((seqEncode (.addi 1 2 5)).getD 0).toNat).rd 0x38000000 4)) = some (.addi 1 2 5) := by
  unfold State.readable; decide +kernel

end Sys2Proof.Tests
end

section
/-! The arithmetic helpers of R16. -/
namespace Sys2Proof.Machine
open Sys2Proof

theorem clampI_below {x lo hi : Int} (h : x < lo) : clampI x lo hi = lo := if_pos h

theorem clampI_above {x lo hi : Int} (h : lo ≤ hi) (hx : hi < x) : clampI x lo hi = hi := by
  rw [clampI, if_neg (by omega), if_pos hx]

theorem clampI_inside {x lo hi : Int} (h : lo ≤ x) (hx : x ≤ hi) : clampI x lo hi = x := by
  rw [clampI, if_neg (by omega), if_neg (by omega)]

theorem le_clampI {x lo hi : Int} (h : lo ≤ hi) : lo ≤ clampI x lo hi := by
  unfold clampI; split_ifs <;> omega

/-- A shift that rounds, in the quotients of the rationals. -/
theorem roundShift_succ (x : Int) (k : Nat) : roundShift x (k + 1) = ⌊((x : ℚ) + 2 ^ k) / 2 ^ (k + 1)⌋ := by
  have := Rat.floor_intCast_div_natCast (x + (2 ^ k : Nat)) (2 ^ (k + 1))
  push_cast at this
  rw [this]; simp [roundShift]

theorem floorDiv_eq_floor (a : Int) (b : Nat) : floorDiv a b = ⌊(a : ℚ) / b⌋ :=
  (Rat.floor_intCast_div_natCast a b).symm

theorem floorShift_eq_floor (x : Int) (k : Nat) : floorShift x k = ⌊(x : ℚ) / 2 ^ k⌋ := by
  simpa [floorShift, floorDiv] using floorDiv_eq_floor x (2 ^ k)

theorem wrap_eq_emod (x : Int) (w : Nat) : (wrap x w : Int) = x % 2 ^ w := by
  rw [wrap, Int.toNat_of_nonneg (Int.emod_nonneg _ (by positivity))]; push_cast; rfl

theorem wrap_lt (x : Int) (w : Nat) : wrap x w < 2 ^ w := by
  have h := Int.emod_lt_of_pos x (b := 2 ^ w) (by positivity)
  rw [← wrap_eq_emod] at h; exact_mod_cast h

theorem testBit_bitsOf {x m l i : Nat} (h : l ≤ m) :
    (bitsOf x m l).testBit i = (decide (i ≤ m - l) && x.testBit (l + i)) := by
  rw [bitsOf, Nat.testBit_mod_two_pow, Nat.testBit_div_two_pow, Nat.add_comm i l]
  congr 2; rw [eq_iff_iff]; omega

/-- The residue and the range of a number read as signed. -/
theorem sext_spec (x : Nat) {w : Nat} (hw : 0 < w) :
    (sext x w - x) % 2 ^ w = 0 ∧ -(2 ^ (w - 1) : Int) ≤ sext x w ∧ sext x w < 2 ^ (w - 1) := by
  obtain ⟨k, rfl⟩ := Nat.exists_eq_succ_of_ne_zero hw.ne'
  have hlt : x % 2 ^ (k + 1) < 2 ^ (k + 1) := Nat.mod_lt _ (by positivity)
  have hdiv := Nat.div_add_mod x (2 ^ (k + 1))
  have hpow : 2 ^ (k + 1) = 2 * 2 ^ k := by rw [Nat.pow_succ, Nat.mul_comm]
  simp only [sext, Nat.succ_eq_add_one, Nat.add_sub_cancel]
  split
  case isTrue h =>
    refine ⟨Int.emod_eq_zero_of_dvd ⟨-(x / 2 ^ (k + 1) : Nat), ?_⟩, ?_, ?_⟩
    · have := congrArg (Nat.cast : Nat → Int) hdiv; push_cast at this ⊢; linarith
    · have : (0 : Int) < 2 ^ k := by positivity
      omega
    · exact_mod_cast h
  case isFalse h =>
    refine ⟨Int.emod_eq_zero_of_dvd ⟨-(x / 2 ^ (k + 1) : Nat) - 1, ?_⟩, ?_, ?_⟩
    · have := congrArg (Nat.cast : Nat → Int) hdiv; push_cast at this ⊢; linarith
    · zify at h hpow; push_cast; linarith
    · zify at hlt hpow; push_cast; linarith

/-- Settles O3: each helper by its own law. -/
theorem helpersOfR16 : Obligations.HelpersOfR16 := by
  refine ⟨fun x lo hi h => ⟨clampI_below, clampI_above h, clampI_inside⟩, fun x w _ => by simp [sat], fun x w => ?_,
    fun x k => ⟨rfl, roundShift_succ x k, floorShift_eq_floor x k⟩, fun a b _ => floorDiv_eq_floor a b,
    fun x w => ⟨wrap_eq_emod x w, wrap_lt x w⟩, fun x m l i h => testBit_bitsOf h, fun x w hw => sext_spec x hw,
    fun s f v => fld_setFld_same s f v⟩
  have top : (0 : Int) ≤ (2 ^ w : Nat) - 1 := by have := Nat.two_pow_pos w; omega
  rw [usat, Int.toNat_of_nonneg (le_clampI top)]; push_cast; rfl

end Sys2Proof.Machine
end
section
/-! Counters that stop at their largest value (R12). -/
namespace Sys2Proof.Machine
open Sys2Proof

theorem onlyRegs_count (s : State) (c o : Fld) (i k : Nat) : OnlyRegs [c, o] s (s.count c o i k) :=
  ⟨count_eq s c o i k, (sameRegs_refl _ s).count i k (by simp) (by simp)⟩

/-- The overflow register after an increment (R12). -/
theorem fld_count_ovf (s : State) {c o : Fld} (i k : Nat) (h : o.key ≠ c.key) :
    (s.count c o i k).fld o = if s.fld c + k < 2 ^ c.w then s.fld o else setBit (s.fld o) i % 2 ^ o.w := by
  unfold State.count
  simp only
  split
  · exact fld_setFld_ne _ _ h.symm
  · rw [fld_setFld_same]

/-- Settles O4: what a counter and its overflow register show after an increment, and the frame of counting. -/
theorem countersStopAtTop : Obligations.CountersStopAtTop := by
  intro s c o i k hne hc _ _
  refine ⟨fld_count_same s i k hne hc, fun j hj => ?_, onlyRegs_count s c o i k⟩
  rw [fld_count_ovf s i k hne]
  split
  · rw [decide_eq_false (p := 2 ^ c.w - 1 < _) (by omega)]; simp
  · rw [tbit_mod _ _ _ hj, tbit_setBit_eq, decide_eq_true (p := 2 ^ c.w - 1 < _) (by omega)]
    simp [eq_comm]

end Sys2Proof.Machine
end

section
/-! Requests to release the latched block (R242, R243), and the words that a bit sum packs. -/
namespace Sys2Proof.Machine
open Sys2Proof

/-- A message alone: nothing but the counter of merged messages and what waits for Sump changes. -/
theorem send_frame (s : State) (a k d : Nat) :
    s.send a k d = { s with regs := (s.send a k d).regs, sump := (s.send a k d).sump } ∧ SameRegs msgFlds s (s.send a k d) :=
  ⟨send_eq s a k d, (sameRegs_refl _ s).send a k d (by simp [msgFlds]) (by simp [msgFlds])⟩

/-- A message tells of what was there before the registers changed. -/
theorem told_send_of {s t : State} (a k d : Nat) (h : t.sump = s.sump) : Told a k d s (t.send a k d) := fun hs =>
  msgAt_send_empty t a k d (by simpa [State.msgAt, h] using hs)

theorem tbit_pack_zero (b : Bool) (n : Nat) : tbit (b2n b + 2 * n) 0 = b := by
  cases b <;> simp [tbit, b2n, Nat.add_mod]

theorem tbit_pack_succ (b : Bool) (n i : Nat) : tbit (b2n b + 2 * n) (i + 1) = tbit n i := by
  have : (b2n b + 2 * n) / 2 = n := by cases b <;> simp [b2n]; omega
  rw [tbit, tbit, Nat.pow_succ', ← Nat.div_div_eq_div_mul, this]

theorem b2n_le_one (b : Bool) : b2n b ≤ 1 := by cases b <;> decide

/-- The three conditions that stand in the lowest bits of the unmet word. -/
theorem unmet_pack (s : State) : ∃ c1 c2 c3 : Bool, ∃ n < 32, s.unmet = b2n c1 + 2 * (b2n c2 + 2 * (b2n c3 + 2 * n)) ∧
    (c1 = false → s.prot.setTick + s.fld PRT_REL_CFG_MINBLK * 10 ≤ s.now) ∧
    c2 = (upto 16).any (fun p => tbit (s.fld PRT_PIN_CFG_EN) p && s.pinActive p) ∧
    c3 = (upto 32).any (fun n => s.bit (PRT_CMP_STAT_TRIP n)) := by
  unfold State.unmet
  simp only
  generalize State.partnerBlk s = c8
  generalize (s.prot.plnOff && _) = c7
  generalize (s.bit DBG_PIPE_HALTED || _) = c6
  generalize (s.prot.clkSrc.any _) = c5
  generalize (s.prot.sumpSrc.any _) = c4
  refine ⟨_, _, _, b2n c4 + 2 * b2n c5 + 4 * b2n c6 + 8 * b2n c7 + 16 * b2n c8, ?_, by ring, fun h => ?_, rfl, rfl⟩
  · have := b2n_le_one c4; have := b2n_le_one c5; have := b2n_le_one c6; have := b2n_le_one c7; have := b2n_le_one c8
    omega
  · simp only [Bool.not_eq_false', Bool.or_eq_true, Bool.and_eq_true, decide_eq_true_eq] at h
    omega

theorem any_upto {n : Nat} {p : Nat → Bool} : (upto n).any p = true ↔ ∃ i : Fin n, p i = true := by
  simp [upto, List.any_eq_true, Fin.exists_iff]

theorem unmet_lt (s : State) : s.unmet < 256 := by
  obtain ⟨c1, c2, c3, n, hn, e, -⟩ := unmet_pack s
  have := b2n_le_one c1; have := b2n_le_one c2; have := b2n_le_one c3
  omega

theorem unmet_minblk (s : State) (h : tbit s.unmet 0 = false) :
    s.prot.setTick + s.fld PRT_REL_CFG_MINBLK * 10 ≤ s.now := by
  obtain ⟨c1, c2, c3, n, -, e, h1, -⟩ := unmet_pack s
  rw [e, tbit_pack_zero] at h
  exact h1 h

theorem unmet_pin (s : State) :
    tbit s.unmet 1 = true ↔ ∃ p : Fin 16, tbit (s.fld PRT_PIN_CFG_EN) p = true ∧ s.pinActive p = true := by
  obtain ⟨c1, c2, c3, n, -, e, -, h2, -⟩ := unmet_pack s
  rw [e, tbit_pack_succ, tbit_pack_zero, h2, any_upto]
  simp only [Bool.and_eq_true]

theorem unmet_comparator (s : State) : tbit s.unmet 2 = true ↔ ∃ n : Fin 32, s.bit (PRT_CMP_STAT_TRIP n) = true := by
  obtain ⟨c1, c2, c3, n, -, e, -, -, h3⟩ := unmet_pack s
  rw [e, tbit_pack_succ, tbit_pack_succ, tbit_pack_zero, h3, any_upto]

/-- The upper half of a word is the key of a request register (R10). -/
theorem wbits_key (val : Word) {f : Fld} (hlo : f.lo = 16) (hw : f.w = 16) : wbits val.toNat f = val.toNat / 2 ^ 16 := by
  have := val.isLt
  rw [wbits, hlo, hw]; omega

theorem tbit_toNat {w : Nat} (val : BitVec w) (i : Nat) : tbit val.toNat i = val.getLsbD i := tbit_eq_testBit _ _

theorem relWrite_go (s : State) (val : Word) (hk : val.toNat / 2 ^ 16 = 0x5AC3) (hg : val.getLsbD 0 = true) :
    relWrite s val.toNat = releaseRequest s := by
  rw [relWrite, wbits_key val rfl rfl, if_neg (not_not.mpr hk), tbit_toNat, if_pos hg]

theorem relWrite_badKey (s : State) (val : Word) (hk : val.toNat / 2 ^ 16 ≠ 0x5AC3) :
    relWrite s val.toNat = s.send 0x300 0x03 0 := by
  rw [relWrite, wbits_key val rfl rfl, if_pos hk]; rfl

/-- A request that is turned down (R243): its flag, its counter and its message. -/
theorem releaseRequest_rejected (s : State) (hl : s.latched = true) (hr : s.bit PRT_STAT_REL_READY = false) :
    releaseRequest s = ((s.flag PRT_STAT_REL_REJ).count PRT_CNT_RELREJ PRT_CNT_OVF 1 1).send 0x332 0x1A (s.unmet * 2 ^ 24) := by
  simp [releaseRequest, hl, hr]

/-- A count shows in its counter the same, whatever other field was written before. -/
theorem fld_count_setFld (s : State) {c o f : Fld} (v i k : Nat) (hc : f.key ≠ c.key) (h : o.key ≠ c.key) :
    ((s.setFld f v).count c o i k).fld c = (s.count c o i k).fld c := by
  have e : (s.setFld f v).fld c = s.fld c := fld_setFld_ne s v hc
  unfold State.count
  simp only [e]
  split
  · rw [fld_setFld_same, fld_setFld_same]
  · rw [fld_setFld_ne _ _ h, fld_setFld_ne _ _ h, fld_setFld_same, fld_setFld_same]

/-- What a rejected request leaves (R243, R247). -/
theorem releaseRejected_spec (s : State) :
    let t := ((s.flag PRT_STAT_REL_REJ).count PRT_CNT_RELREJ PRT_CNT_OVF 1 1).send 0x332 0x1A (s.unmet * 2 ^ 24)
    t = { s with regs := t.regs, sump := t.sump } ∧
    SameRegs [PRT_STAT_REL_REJ, PRT_CNT_RELREJ, PRT_CNT_OVF, FLT_CNT_MERGED, FLT_CNT_OVF] s t ∧ t.fld PRT_STAT_REL_REJ = 1 ∧
    t.fld PRT_CNT_RELREJ = (s.count PRT_CNT_RELREJ PRT_CNT_OVF 1 1).fld PRT_CNT_RELREJ ∧ Told 0x332 0x1A (s.unmet * 2 ^ 24) s t := by
  refine ⟨?_, ?_, ?_, ?_, told_send_of _ _ _ (by simp)⟩
  · rw [send_eq, count_eq]; rfl
  · exact (((sameRegs_refl _ s).flag (by simp)).count _ _ (by simp) (by simp)).send _ _ _ (by simp) (by simp)
  · rw [fld_send_ne _ _ _ _ (by decide) (by decide), fld_count_ne _ _ _ (by decide) (by decide)]
    exact fld_setFld_same s _ 1
  · rw [fld_send_ne _ _ _ _ (by decide) (by decide)]
    exact fld_count_setFld s 1 1 1 (by decide) (by decide)

/-- Settles O27: the three outcomes of a request, the key, the minimum block time and the unmet word. -/
theorem releaseRequests : Obligations.ReleaseRequests := by
  intro s m
  refine ⟨fun val hk hg => ⟨fun hl => ?_, fun hl hr => ?_, fun hl hr => ?_⟩, fun val hk => ?_, fun hl ht => ?_, fun h => ?_,
    unmet_lt s, unmet_minblk s, unmet_pin s, unmet_comparator s⟩
  · exact congrArg Host.Outcome.next ((relWrite_go s val hk hg).trans (by simp [releaseRequest, hl]))
  · exact congrArg Host.Outcome.next ((relWrite_go s val hk hg).trans (by simp [releaseRequest, hl, hr]))
  · exact ⟨_, congrArg Host.Outcome.next ((relWrite_go s val hk hg).trans (releaseRequest_rejected s hl hr)), releaseRejected_spec s⟩
  · exact ⟨_, congrArg Host.Outcome.next (relWrite_badKey s val hk), (send_frame s _ _ _).1, (send_frame s _ _ _).2, told_send s _ _ _⟩
  · simp [exec, execMinblkExpiry, hl, ht]
  · rcases h with hl | ht
    · simp [exec, execMinblkExpiry, hl]
    · simp [exec, execMinblkExpiry, Nat.not_le.mpr ht]

end Sys2Proof.Machine
end

section
/-! Loads and stores of the sequencer (R432, R433, R435). -/
namespace Sys2Proof.Machine
open Sys2Proof

/-- The mailbox's notes of an access leave the stored bytes alone. -/
theorem mboxBegin_eq (s : State) (a : Nat) (sh : Share) :
    s.mboxBegin a sh = { s with mem := { s.mem with mbox := (s.mboxBegin a sh).mem.mbox } } := by
  unfold State.mboxBegin State.setMbox; split_ifs <;> rfl

theorem rd_mboxBegin (s : State) (a b n : Nat) (sh : Share) : (s.mboxBegin a sh).rd b n = s.rd b n := by
  rw [mboxBegin_eq]; rfl

theorem mboxOver_eq (s : State) (a : Nat) (sh : Share) :
    s.mboxOver a sh = { s with mem := { s.mem with mbox := (s.mboxOver a sh).mem.mbox } } := by
  unfold State.mboxOver State.setMbox; split_ifs <;> rfl

theorem looked_eq (s : State) (m : Master) (a : Nat) :
    s.looked m a = { s with mem := { s.mem with mbox := (s.looked m a).mem.mbox } } := by
  unfold State.looked State.setMbox; split_ifs <;> rfl

theorem lookedAlone_eq (s : State) (m : Master) (a : Nat) :
    s.lookedAlone m a = { s with mem := { s.mem with mbox := (s.lookedAlone m a).mem.mbox } } := by
  unfold State.lookedAlone; rw [mboxOver_eq, looked_eq, mboxBegin_eq]

theorem lookedAlone_out (s : State) (m : Master) {a : Nat} (h : inMbox a = false) : s.lookedAlone m a = s := by
  simp [State.lookedAlone, State.mboxBegin, State.looked, State.mboxOver, h]

/-- A load that meets no obstacle. -/
theorem seqLoad_readable (s : State) (rd : Fin 16) {a n : Nat} (h : (s.mboxBegin a .no).readable .sequencer a n .read) :
    s.seqLoad rd a n = (s.lookedAlone .sequencer a).seqSet rd (s.rd a n) := by
  have ha : ¬ (n = 4 ∧ a % 4 ≠ 0) := by rintro ⟨rfl, h4⟩; exact h4 h.2.2.2.1
  have e : s.mboxAlone a (·.fabricRead .sequencer a n .read) = (some (s.rd a n), s.lookedAlone .sequencer a) := by
    rw [State.mboxAlone, fabricRead_readable _ _ _ _ _ h, rd_mboxBegin]; rfl
  rw [State.seqLoad, if_neg ha, e]

theorem seqLoad_writes (s : State) (rd : Fin 16) {a n : Nat} (h : (s.mboxBegin a .no).readable .sequencer a n .read) :
    SeqWrites rd (s.rd a n) (s.seq.pc + 4) (s.lookedAlone .sequencer a) (s.seqLoad rd a n) := by
  have hpc : (s.lookedAlone .sequencer a).seq.pc = s.seq.pc := by rw [lookedAlone_eq]
  rw [seqLoad_readable s rd h, ← hpc]
  exact seqSet_writes _ _ _

/-- What an unhindered store of a cycle of its own leaves. -/
def State.storedAlone (s : State) (m : Master) (a n v : Nat) : State := ((s.mboxBegin a .no).stored m a n v).mboxOver a .no

theorem storedAlone_eq (s : State) (m : Master) (a n v : Nat) :
    s.storedAlone m a n v = { s.wr a n v with mem := { (s.wr a n v).mem with mbox := (s.storedAlone m a n v).mem.mbox } } := by
  unfold State.storedAlone; rw [mboxOver_eq, mboxBegin_eq]
  unfold State.stored State.setMbox; split_ifs <;> rfl

theorem storedAlone_out (s : State) (m : Master) {a : Nat} (n v : Nat) (h : inMbox a = false) : s.storedAlone m a n v = s.wr a n v := by
  simp [State.storedAlone, State.mboxBegin, State.stored, State.mboxOver, h]

/-- A store that meets no obstacle. -/
theorem seqStore_writable (s : State) {a n : Nat} (v : Nat) (h : (s.mboxBegin a .no).writable .sequencer a n) :
    s.seqStore a n v = (s.storedAlone .sequencer a n v).seqNext := by
  have ha : ¬ (n = 4 ∧ a % 4 ≠ 0) := by rintro ⟨rfl, h4⟩; exact h4 h.2.2.2.1
  have e : s.mboxAlone a (·.fabricWrite .sequencer a n v) = (true, s.storedAlone .sequencer a n v) := by
    rw [State.mboxAlone, fabricWrite_writable _ _ _ _ _ h]; rfl
  rw [State.seqStore, if_neg ha, e]

theorem seqStore_spec (s : State) {a n : Nat} (v : Nat) (h : (s.mboxBegin a .no).writable .sequencer a n) :
    let t := s.seqStore a n v
    t.rd a n = v % 256 ^ n ∧ SameMemBut a n s t ∧ t.seq.pc = (s.seq.pc + 4) % 2 ^ 32 ∧ (inMbox a = false → t.mem.mbox = s.mem.mbox) ∧
      t = { s with mem := { s.mem with bytes := t.mem.bytes, err := t.mem.err, mbox := t.mem.mbox },
                   seq := { s.seq with pc := t.seq.pc, pass := false } } := by
  rw [seqStore_writable s v h]
  refine ⟨?_, fun b hb => ?_, ?_, fun ho => ?_, ?_⟩
  · rw [storedAlone_eq]; exact rd_wr_same s a n v
  · rw [storedAlone_eq]; exact byteAt_wr_out s v hb
  · rw [storedAlone_eq]; rfl
  · rw [storedAlone_out s _ n v ho]; rfl
  · rw [storedAlone_eq]; rfl

/-- A misaligned load or store ends without effect but its message (R433). -/
theorem seqLoad_misaligned (s : State) (rd : Fin 16) {a : Nat} (h : a % 4 ≠ 0) : s.seqLoad rd a 4 = (s.seqAccess a).seqSet rd 0 := by
  rw [State.seqLoad, if_pos ⟨rfl, h⟩]

theorem seqStore_misaligned (s : State) {a : Nat} (v : Nat) (h : a % 4 ≠ 0) : s.seqStore a 4 v = (s.seqAccess a).seqNext := by
  rw [State.seqStore, if_pos ⟨rfl, h⟩]

theorem msgAt_seqSet (s : State) (rd : Fin 16) (v src : Nat) : (s.seqSet rd v).msgAt src = s.msgAt src := by
  unfold State.seqSet State.setSx; split <;> rfl

theorem seqAccess_told (s : State) {a : Nat} (ha : a < 2 ^ 32) (hs : s.msgAt 0x3E1 = none) :
    (s.seqAccess a).msgAt 0x3E1 = some (0x31, a) := by
  rw [State.seqAccess, msgAt_send_empty s _ _ _ hs, Nat.mod_eq_of_lt ha]

/-- The slot that SRD and SWR name lies in the signal bus, on a word boundary. -/
theorem seqSlot_bounds (s : State) (ra : Fin 16) (imm : BitVec 18) :
    0x10000000 ≤ s.seqSlot ra imm ∧ s.seqSlot ra imm < 0x10001000 ∧ s.seqSlot ra imm % 4 = 0 := by
  have := wrap_lt ((s.sx ra : Int) + (imm.toNat % 1024 : Nat)) 10
  unfold State.seqSlot; omega

/-- A whole slot stored by its producer on a unit that is not paired is staged (R29, R30, R435). -/
theorem fabricWrite_staged (s : State) {a v : Nat} (h1 : 0x10000000 ≤ a) (h2 : a < 0x10001000) (h : s.readable .sequencer a 4 .write)
    (hp : s.produces .sequencer ((a - 0x10000000) / 4) = true) (hr : s.bit RED_CFG_PAIR = false) :
    s.fabricWrite .sequencer a 4 v = (true, s.stage ((a - 0x10000000) / 4) (v % 2 ^ 32)) := by
  obtain ⟨hok, hmem, -, hal, hsl, -, hinj, -⟩ := h
  have hb : writeBarred .sequencer a = false := by unfold writeBarred; rw [if_neg (by omega), if_neg (by omega)]
  have hacc : s.memAccept .sequencer a 4 v = (true, s.stage ((a - 0x10000000) / 4) (v % 2 ^ 32)) := by
    rw [State.memAccept, if_pos h2, slotsWrite_word s _ a v 4 rfl, slotWrite_staged s _ _ _ hp hr]
  rw [State.fabricWrite, if_neg (by simp [hok, hb]), if_neg (by omega), if_neg (by simp [hmem]), if_neg (by omega), if_neg (by simp [hsl]),
    inject_idle s _ _ hinj]
  exact hacc

theorem seqStore_staged (s : State) {a v : Nat} (h1 : 0x10000000 ≤ a) (h2 : a < 0x10001000) (h : s.readable .sequencer a 4 .write)
    (hp : s.produces .sequencer ((a - 0x10000000) / 4) = true) (hr : s.bit RED_CFG_PAIR = false) :
    s.seqStore a 4 v = (s.stage ((a - 0x10000000) / 4) (v % 2 ^ 32)).seqNext := by
  have hm : inMbox a = false := by simp [inMbox]; omega
  have e := mboxAlone_out s a (fun s => s.fabricWrite .sequencer a 4 v) hm
  have hal : a % 4 = 0 := h.2.2.2.1
  rw [State.seqStore, if_neg (by simp [hal]), e, fabricWrite_staged s h1 h2 h hp hr]

/-- Settles O54: the instruction's own address meets the rules of its load or store. -/
theorem seqMemoryAccess : Obligations.SeqMemoryAccess := by
  intro s rd ra imm hr
  have run {f : State → State} : (Host.Outcome.next (if s.seqReady then f s else s) : Host.Outcome State Fault Refusal) = .next (f s) := by
    rw [if_pos hr]
  obtain ⟨b1, b2, b3⟩ := seqSlot_bounds s ra imm
  have hlt : s.seqAddr ra imm < 2 ^ 32 := Nat.mod_lt _ (by decide)
  have hmb : inMbox (s.seqSlot ra imm) = false := by simp [inMbox]; omega
  refine ⟨fun h => ⟨_, run, seqLoad_writes s rd h⟩, fun h => ⟨_, run, seqLoad_writes s rd h⟩,
    fun h => ⟨_, run, seqStore_spec s (s.sx rd) h⟩, fun h => ⟨_, run, ?_⟩, fun ha hs => ⟨⟨_, run, ?_⟩, ⟨_, run, ?_⟩⟩, fun hi h => ?_,
    fun hi h hp hpair hv => ?_⟩
  · obtain ⟨h1, h2⟩ := seqStore_spec s (s.sx rd % 256) h
    exact ⟨h1.trans (by rw [Nat.pow_one, Nat.mod_mod]), h2⟩
  · obtain ⟨-, -, hx, -, hm⟩ := seqSet_writes (s.seqAccess (s.seqAddr ra imm)) rd 0
    rw [show seqILw rd ra imm s = _ from seqLoad_misaligned s rd ha]
    refine ⟨hx, ?_, fun b => (hm b).trans (sameMem_of_mem (by simp [State.seqAccess]) b)⟩
    exact (msgAt_seqSet _ _ _ _).trans (seqAccess_told s hlt hs)
  · rw [show seqISw rd ra imm s = _ from seqStore_misaligned s (s.sx rd) ha]
    refine ⟨?_, sameMem_of_mem (show (s.seqAccess _).mem = s.mem by simp [State.seqAccess])⟩
    exact seqAccess_told s hlt hs
  · have e : seqISrd rd ra imm s = s.seqLoad rd (s.seqSlot ra imm) 4 := if_pos (by simpa [seqSlotOk] using hi)
    have hb : s.mboxBegin (s.seqSlot ra imm) .no = s := by simp [State.mboxBegin, hmb]
    have hw := seqLoad_writes s rd (by rw [hb]; exact h)
    rw [lookedAlone_out s _ hmb, ← e] at hw
    exact ⟨_, run, hw⟩
  · have e : seqISwr rd ra imm s = s.seqStore (s.seqSlot ra imm) 4 (s.sx rd) := if_pos (by simpa [seqSlotOk] using hi)
    refine ⟨_, run, ?_⟩
    rw [e, seqStore_staged s b1 b2 h hp hpair, Nat.mod_eq_of_lt hv]
    exact ⟨rfl, rfl, rfl, fun _ => rfl⟩

end Sys2Proof.Machine
end

section
/-! Register writes by the access code of each field (R6 to R10). -/
namespace Sys2Proof.Machine
open Sys2Proof

/-! ### The register table -/

/-- The registers of every block window. -/
def allRegs : List RegDef := (upto 21).flatMap fun i => windowRegs (i * 0x10000)

theorem windowRegs_base (a : Nat) : windowRegs a = windowRegs (a / 0x10000 * 0x10000) := by
  unfold windowRegs; rw [Nat.mul_div_cancel _ (by decide)]

theorem mem_allRegs {a : Nat} {r : RegDef} (h : r ∈ windowRegs a) : r ∈ allRegs := by
  have ha : a / 0x10000 < 21 := by
    by_contra hc
    obtain ⟨k, hk⟩ := Nat.exists_eq_add_of_le (Nat.le_of_not_lt hc)
    rw [windowRegs, hk, Nat.add_comm] at h
    exact List.not_mem_nil h
  rw [windowRegs_base] at h
  exact List.mem_flatMap.mpr ⟨a / 0x10000, List.mem_range.mpr ha, h⟩

/-- Fields of a register stand at different places inside its 32 bits, and none is empty. -/
def RegDef.sound (r : RegDef) : Bool := decide (r.flds.map (·.lo)).Nodup && r.flds.all fun f => decide (f.lo < 32 ∧ 0 < f.w)

theorem allRegs_sound : allRegs.all RegDef.sound = true := by decide +kernel

theorem sound_of_regAt {a : Nat} {r : RegDef} (h : regAt a = some r) :
    (r.flds.map (·.lo)).Nodup ∧ ∀ f ∈ r.flds, f.lo < 32 ∧ 0 < f.w := by
  have hs := List.all_eq_true.mp allRegs_sound r (mem_allRegs (List.mem_of_find?_eq_some h))
  simpa [RegDef.sound] using hs

theorem fldAt_key (a : Nat) (f : FldDef) : (fldAt a f).key = 32 * a + f.lo := rfl

/-- A field of the register at an address has a named field's key only at that field's own address. -/
theorem addr_of_key {a : Nat} {f : FldDef} {g : Fld} (h : f.lo < 32) (hg : g.lo < 32) (hk : (fldAt a f).key = g.key) :
    a = g.addr ∧ f.lo = g.lo := by
  rw [fldAt_key, Fld.key] at hk; omega

theorem clkState_readOnly : ∀ r ∈ regAt CLK_STATE_STATE.addr, ∀ f ∈ r.flds, f.lo = CLK_STATE_STATE.lo → f.acc = .ro := by decide

/-- The fields that a write of another register may touch beside its own (R324, R419). -/
def sideFlds : List Fld := [CFG_STAT_MODIFIED, FLT_CNT_MERGED, FLT_CNT_OVF]

theorem sideFlds_plain : ∀ g ∈ sideFlds, g.lo < 32 ∧ ∀ r ∈ regAt g.addr, ∀ f ∈ r.flds, f.acc ≠ .rw ∧ f.acc ≠ .rwl := by decide

theorem ro_of_clkState {a : Nat} {r : RegDef} (h : regAt a = some r) {f : FldDef} (hf : f ∈ r.flds)
    (hk : (fldAt a f).key = CLK_STATE_STATE.key) : f.acc = .ro := by
  obtain ⟨rfl, hlo⟩ := addr_of_key ((sound_of_regAt h).2 f hf).1 (by decide) hk
  exact clkState_readOnly r h f hf hlo

/-- A register with an RW or RWL field holds none of the side fields. -/
theorem side_apart {a : Nat} {r : RegDef} (h : regAt a = some r) (hw : ∃ f ∈ r.flds, f.acc = .rw ∨ f.acc = .rwl) {g : Fld}
    (hg : g ∈ sideFlds) {f : FldDef} (hf : f ∈ r.flds) : g.key ≠ (fldAt a f).key := by
  intro hk
  obtain ⟨hlo, hp⟩ := sideFlds_plain g hg
  obtain ⟨rfl, -⟩ := addr_of_key ((sound_of_regAt h).2 f hf).1 hlo hk.symm
  obtain ⟨f', hf', hacc⟩ := hw
  obtain ⟨h1, h2⟩ := hp r h f' hf'
  exact hacc.elim h1 h2

/-! ### One field -/

/-- The value that a write offers a field (R325). -/
def offered (a val : Nat) (f : FldDef) : Nat := heldOnes a f.lo (val / 2 ^ f.lo % 2 ^ f.w)

/-- What a field holds after a write, by its access code (R7 to R10). -/
def taken (locked : Bool) (v : Nat) (f : FldDef) (old : Nat) : Nat :=
  match f.acc with
  | .rw => if legalVal f v then v % 2 ^ f.w else old
  | .rwl => if locked = false ∧ legalVal f v = true then v % 2 ^ f.w else old
  | .w1c => (upto f.w).foldl (fun x i => if tbit v i then clrBit x i else x) old % 2 ^ f.w
  | .w1s => (upto f.w).foldl (fun x i => if tbit v i then setBit x i else x) old % 2 ^ f.w
  | .ro => old
  | .wo => old

/-- A field turns a write down: because it is locked, or because the value is reserved. -/
def lockHit (locked : Bool) (f : FldDef) : Prop := f.acc = .rwl ∧ locked = true
def badHit (locked : Bool) (v : Nat) (f : FldDef) : Prop := (f.acc = .rw ∨ (f.acc = .rwl ∧ locked = false)) ∧ legalVal f v = false

/-- The effect of a write on one field: its content, nothing else, and what the write has met. -/
theorem field_spec (w : Wr) (a val : Nat) (f : FldDef) :
    let w' := Wr.field w a val false f
    w'.s = { w.s with regs := w'.s.regs } ∧
    w'.s.fld (fldAt a f) = taken w.s.locked (offered a val f) f (w.s.fld (fldAt a f)) ∧
    (∀ g : Fld, f.acc = .ro ∨ g.key ≠ (fldAt a f).key → w'.s.fld g = w.s.fld g) ∧
    (w'.lock = true ↔ w.lock = true ∨ lockHit w.s.locked f) ∧
    (w'.bad = true ↔ w.bad = true ∨ badHit w.s.locked (offered a val f) f) ∧
    (w'.hit = true → w.hit = true ∨ f.acc = .rwl) := by
  have hne (g : Fld) (x : Nat) (h : g.key ≠ (fldAt a f).key) : (w.s.setFld (fldAt a f) x).fld g = w.s.fld g :=
    fld_setFld_ne _ _ h.symm
  simp only [Wr.field, taken, lockHit, badHit, ← offered.eq_def]
  cases hacc : f.acc with
  | rw =>
    by_cases hv : legalVal f (offered a val f) = true
    · simp only [hv, if_true]
      exact ⟨rfl, fld_setFld_same .., fun g h => hne g _ (h.resolve_left (by simp)), by simp, by simp, fun h => .inl h⟩
    · simp [hv]
  | rwl =>
    by_cases hl : w.s.locked = true
    · simp [hl]
    · by_cases hv : legalVal f (offered a val f) = true
      · simp only [hl, hv, if_true]
        exact ⟨rfl, by simp [fldAt], fun g h => hne g _ (h.resolve_left (by simp)), by simp, by simp, fun _ => .inr trivial⟩
      · simp [hl, hv]
  | w1c => exact ⟨rfl, fld_setFld_same .., fun g h => hne g _ (h.resolve_left (by simp)), by simp, by simp, fun h => .inl h⟩
  | w1s => exact ⟨rfl, fld_setFld_same .., fun g h => hne g _ (h.resolve_left (by simp)), by simp, by simp, fun h => .inl h⟩
  | ro => simp
  | wo => simp

/-! ### All fields of a register -/

/-- The fields of a register after a write, field by field. -/
theorem fields_spec (a val : Nat) (lk : Bool) (l : List FldDef) : ∀ w : Wr, w.s.locked = lk → (l.map (·.lo)).Nodup →
    (∀ f ∈ l, f.acc = .ro ∨ CLK_STATE_STATE.key ≠ (fldAt a f).key) →
    let w' := l.foldl (fun w f => Wr.field w a val false f) w
    w'.s = { w.s with regs := w'.s.regs } ∧
    (∀ f ∈ l, w'.s.fld (fldAt a f) = taken lk (offered a val f) f (w.s.fld (fldAt a f))) ∧
    (∀ g : Fld, (∀ f ∈ l, g.key ≠ (fldAt a f).key) → w'.s.fld g = w.s.fld g) ∧
    (w'.lock = true ↔ w.lock = true ∨ ∃ f ∈ l, lockHit lk f) ∧
    (w'.bad = true ↔ w.bad = true ∨ ∃ f ∈ l, badHit lk (offered a val f) f) ∧
    (w'.hit = true → w.hit = true ∨ ∃ f ∈ l, f.acc = .rwl) := by
  induction l with
  | nil => intro w _ _ _; simp
  | cons f t ih =>
    intro w hlk hnd hro
    obtain ⟨f1, f2, f3, f4, f5, f6⟩ := field_spec w a val f
    have hlk' : (Wr.field w a val false f).s.locked = lk := by
      rw [← hlk]; unfold State.locked State.op; rw [f3 _ (hro f (by simp))]
    rw [List.map_cons, List.nodup_cons] at hnd
    have hap : ∀ g ∈ t, (fldAt a f).key ≠ (fldAt a g).key := fun g hg hk =>
      hnd.1 (List.mem_map.mpr ⟨g, hg, by rw [fldAt_key, fldAt_key] at hk; omega⟩)
    obtain ⟨i1, i2, i3, i4, i5, i6⟩ := ih _ hlk' hnd.2 (fun g hg => hro g (by simp [hg]))
    rw [hlk] at f2 f4 f5
    simp only [List.foldl_cons, List.forall_mem_cons, List.exists_mem_cons_iff]
    refine ⟨by rw [i1, f1], ⟨by rw [i3 _ hap, f2], fun g hg => ?_⟩, fun g hg => ?_, by rw [i4, f4, or_assoc], by rw [i5, f5, or_assoc],
      fun h => ?_⟩
    · rw [i2 g hg, f3 _ (.inr (hap g hg).symm)]
    · rw [i3 _ hg.2, f3 _ (.inr hg.1)]
    · rcases i6 h with h | h
      · exact (f6 h).imp_right .inl
      · exact .inr (.inr h)

/-! ### The bits of a field -/

theorem tbit_foldl_clrBit (v : Nat) (l : List Nat) : ∀ x j : Nat,
    tbit (l.foldl (fun x i => if tbit v i then clrBit x i else x) x) j = (tbit x j && !(tbit v j && decide (j ∈ l))) := by
  induction l with
  | nil => simp
  | cons i t ih =>
    intro x j
    rw [List.foldl_cons, ih]
    by_cases hv : tbit v i = true
    · rw [if_pos hv, tbit_clrBit_eq]
      by_cases h : i = j
      · subst h; simp [hv]
      · simp [h, Ne.symm h]
    · rw [if_neg hv]
      by_cases h : i = j
      · subst h; simp [hv]
      · simp [Ne.symm h]

theorem tbit_foldl_setBit_if (v : Nat) (l : List Nat) : ∀ x j : Nat,
    tbit (l.foldl (fun x i => if tbit v i then setBit x i else x) x) j = (tbit x j || (tbit v j && decide (j ∈ l))) := by
  induction l with
  | nil => simp
  | cons i t ih =>
    intro x j
    rw [List.foldl_cons, ih]
    by_cases hv : tbit v i = true
    · rw [if_pos hv, tbit_setBit_eq]
      by_cases h : i = j
      · subst h; simp [hv]
      · simp [h, Ne.symm h]
    · rw [if_neg hv]
      by_cases h : i = j
      · subst h; simp [hv]
      · simp [Ne.symm h]

theorem tbit_taken_w1c {lk : Bool} {v old : Nat} {f : FldDef} (hf : f.acc = .w1c) {i : Nat} (hi : i < f.w) :
    tbit (taken lk v f old) i = (tbit old i && !tbit v i) := by
  simp [taken, hf, tbit_mod _ _ _ hi, tbit_foldl_clrBit, upto, hi]

theorem tbit_taken_w1s {lk : Bool} {v old : Nat} {f : FldDef} (hf : f.acc = .w1s) {i : Nat} (hi : i < f.w) :
    tbit (taken lk v f old) i = (tbit old i || tbit v i) := by
  simp [taken, hf, tbit_mod _ _ _ hi, tbit_foldl_setBit_if, upto, hi]

theorem taken_rw {lk : Bool} {v old : Nat} {f : FldDef} (hf : f.acc = .rw) (hv : v < 2 ^ f.w) :
    taken lk v f old = if legalVal f v then v else old := by simp [taken, hf, Nat.mod_eq_of_lt hv]

theorem taken_rwl {lk : Bool} {v old : Nat} {f : FldDef} (hf : f.acc = .rwl) (hv : v < 2 ^ f.w) :
    taken lk v f old = if lk = false ∧ legalVal f v = true then v else old := by simp [taken, hf, Nat.mod_eq_of_lt hv]

theorem taken_kept {lk : Bool} {v old : Nat} {f : FldDef} (hf : f.acc = .ro ∨ f.acc = .wo) : taken lk v f old = old := by
  rcases hf with hf | hf <;> simp [taken, hf]

/-- What is offered to a field fits it. -/
theorem offered_lt (a val : Nat) {f : FldDef} (hw : 0 < f.w) : offered a val f < 2 ^ f.w := by
  have hlt : val / 2 ^ f.lo % 2 ^ f.w < 2 ^ f.w := Nat.mod_lt _ (Nat.two_pow_pos _)
  obtain ⟨k, hk⟩ := Nat.exists_eq_succ_of_ne_zero hw.ne'
  have hp : 2 ^ f.w = 2 * 2 ^ k := by rw [hk, Nat.succ_eq_add_one, Nat.pow_succ, Nat.mul_comm]
  unfold offered heldOnes setBit
  generalize val / 2 ^ f.lo % 2 ^ f.w = v at hlt
  split
  · split
    · exact hlt
    · rename_i hb
      simp only [tbit, Nat.pow_zero, Nat.div_one, beq_iff_eq] at hb
      omega
  · exact hlt

/-! ### The end of a write: the mark of a changed configuration and the messages -/

/-- Nothing changes but registers and waiting messages. -/
def RegsSump (s t : State) : Prop := t = { s with regs := t.regs, sump := t.sump }

theorem RegsSump.trans {s t u : State} (h : RegsSump s t) (k : RegsSump t u) : RegsSump s u := by
  unfold RegsSump at *; rw [k, h]

theorem regsSump_sendIf (s : State) (c : Bool) (a k d : Nat) : RegsSump s (s.sendIf c a k d) := by
  cases c
  · rfl
  · exact send_eq s a k d

theorem SameRegs.sendIf {fs : List Fld} {s t : State} (h : SameRegs fs s t) (c : Bool) (a k d : Nat) (m : FLT_CNT_MERGED ∈ fs)
    (n : FLT_CNT_OVF ∈ fs) : SameRegs fs s (t.sendIf c a k d) := by
  cases c
  · exact h
  · exact h.send a k d m n

/-- A message to a slot that is taken leaves what waits there. -/
theorem msgAt_send_taken {s : State} {a : Nat} {x : Nat × Nat} (k d : Nat) (h : s.msgAt a = some x) : (s.send a k d).msgAt a = some x := by
  unfold State.msgAt at h ⊢
  cases hs : s.sump.slots.find? (fun p => decide (p.1 = a)) with
  | none => simp [hs] at h
  | some p =>
    unfold State.send State.sendAs
    simp only [hs, count_sump, find_mput, Option.map_some] at h ⊢
    split <;> exact h

theorem Told.sendIf {src k d : Nat} {s t : State} (h : Told src k d s t) (c : Bool) (k' d' : Nat) : Told src k d s (t.sendIf c src k' d') := by
  cases c
  · exact h
  · exact fun hs => msgAt_send_taken k' d' (h hs)

/-- What a write leaves once its fields are written (R8, R10, R419). -/
def Wr.close (w : Wr) (m : Master) (a : Nat) : State :=
  ((w.s.when (w.hit && Master.modifies m && (w.s.op == 4 || w.s.op == 8)) (·.flag CFG_STAT_MODIFIED)).sendIf w.lock (blockSrc a) 0x02 0).sendIf
    w.bad (blockSrc a) 0x03 0

/-- A function reset of the block in progress has no say in a write of RW and RWL fields (R497). -/
def freeOfReset (s : State) (a : Nat) (r : RegDef) : Prop := s.inFreset a = false ∨ ∀ f ∈ r.flds, f.acc ≠ .w1c ∧ f.acc ≠ .w1s

theorem field_of_config (w : Wr) (a val : Nat) (fr : Bool) {f : FldDef} (h : f.acc ≠ .w1c ∧ f.acc ≠ .w1s) :
    Wr.field w a val fr f = Wr.field w a val false f := by
  unfold Wr.field
  cases hacc : f.acc with
  | w1c => exact absurd hacc h.1
  | w1s => exact absurd hacc h.2
  | _ => rfl

theorem regWrite_eq (s : State) (m : Master) {a : Nat} (val : Nat) {r : RegDef} (h : regAt a = some r) (hf : freeOfReset s a r) :
    s.regWrite m a val = (r.flds.foldl (fun w f => Wr.field w a val false f) { s := s }).close m a := by
  have hfold : r.flds.foldl (fun w f => Wr.field w a val (s.inFreset a) f) { s := s }
      = r.flds.foldl (fun w f => Wr.field w a val false f) ({ s := s } : Wr) := by
    rcases hf with hf | hf
    · rw [hf]
    · exact List.foldl_ext _ _ _ fun w f hm => field_of_config w a val _ (hf f hm)
  unfold State.regWrite; rw [h]; simp only [hfold]; rfl

/-- The end of a write touches the side fields and the waiting messages alone. -/
theorem close_frame (w : Wr) (m : Master) (a : Nat) :
    RegsSump w.s (w.close m a) ∧ SameRegs sideFlds w.s (w.close m a) := by
  unfold Wr.close
  generalize (w.hit && _ && _) = c
  constructor
  · have hm : RegsSump w.s (w.s.when c (·.flag CFG_STAT_MODIFIED)) := by cases c <;> rfl
    exact (hm.trans (regsSump_sendIf ..)).trans (regsSump_sendIf ..)
  · have hm : SameRegs sideFlds w.s (w.s.when c (·.flag CFG_STAT_MODIFIED)) := by
      cases c
      · exact sameRegs_refl _ _
      · exact (sameRegs_refl _ w.s).flag (by simp [sideFlds])
    exact (hm.sendIf _ _ _ _ (by simp [sideFlds]) (by simp [sideFlds])).sendIf _ _ _ _ (by simp [sideFlds]) (by simp [sideFlds])

/-- A write that has met no locked field and no reserved value, and has reached no RWL field, ends as it stands. -/
theorem close_plain {w : Wr} (m : Master) (a : Nat) (hl : w.lock = false) (hb : w.bad = false) (hh : w.hit = false) : w.close m a = w.s := by
  simp [Wr.close, hl, hb, hh, State.when, State.sendIf]

theorem close_told (w : Wr) (m : Master) (a : Nat) :
    (w.lock = true → Told (blockSrc a) 0x02 0 w.s (w.close m a)) ∧
    (w.lock = false → w.bad = true → Told (blockSrc a) 0x03 0 w.s (w.close m a)) ∧
    (w.lock = false → w.bad = false → (w.close m a).sump = w.s.sump) := by
  unfold Wr.close
  generalize hu : w.s.when _ _ = u
  have hm : u.sump = w.s.sump := by rw [← hu]; unfold State.when; split <;> rfl
  refine ⟨fun hl => ?_, fun hl hb => ?_, fun hl hb => ?_⟩
  · rw [hl]; exact Told.sendIf (told_send_of _ _ _ hm) _ _ _
  · rw [hl, hb]; exact told_send_of _ _ _ hm
  · rw [hl, hb]; exact hm

/-- A field of the register keeps what the fields' writes gave it: a write that has a side effect is of a register apart from
the side fields. -/
theorem fld_close {a : Nat} {r : RegDef} (h : regAt a = some r) {w : Wr} (m : Master)
    (hw : w.lock = true ∨ w.bad = true ∨ w.hit = true → ∃ f ∈ r.flds, f.acc = .rw ∨ f.acc = .rwl) {f : FldDef} (hf : f ∈ r.flds) :
    (w.close m a).fld (fldAt a f) = w.s.fld (fldAt a f) := by
  by_cases hc : w.lock = true ∨ w.bad = true ∨ w.hit = true
  · exact (close_frame w m a).2 _ fun g hg => (side_apart h (hw hc) hg hf).symm
  · simp only [not_or, Bool.not_eq_true] at hc
    rw [close_plain m a hc.1 hc.2.1 hc.2.2]

/-- A write of a register without behaviour of its own (R7 to R10). -/
theorem regWrite_spec (s : State) (m : Master) {a : Nat} (val : Nat) {r : RegDef} (h : regAt a = some r) (hf : freeOfReset s a r) :
    let t := s.regWrite m a val
    RegsSump s t ∧
    (∀ f ∈ r.flds, t.fld (fldAt a f) = taken s.locked (offered a val f) f (s.fld (fldAt a f))) ∧
    SameRegs (r.flds.map (fldAt a) ++ sideFlds) s t ∧
    ((∃ f ∈ r.flds, lockHit s.locked f) → Told (blockSrc a) 0x02 0 s t) ∧
    (¬ (∃ f ∈ r.flds, lockHit s.locked f) → (∃ f ∈ r.flds, badHit s.locked (offered a val f) f) → Told (blockSrc a) 0x03 0 s t) ∧
    (¬ (∃ f ∈ r.flds, lockHit s.locked f) → ¬ (∃ f ∈ r.flds, badHit s.locked (offered a val f) f) → t.sump = s.sump) := by
  obtain ⟨hnd, -⟩ := sound_of_regAt h
  have hro : ∀ f ∈ r.flds, f.acc = .ro ∨ CLK_STATE_STATE.key ≠ (fldAt a f).key := fun f hf' =>
    (Classical.em _).imp_right fun hne hk => hne (ro_of_clkState h hf' hk.symm)
  have hspec := fields_spec a val s.locked r.flds { s := s } rfl hnd hro
  rw [regWrite_eq s m val h hf]
  generalize r.flds.foldl _ _ = w at hspec ⊢
  obtain ⟨he, hfld, hsame, hlock, hbad, hhit⟩ := hspec
  simp only [Bool.false_eq_true, false_or] at hlock hbad hhit
  obtain ⟨hframe, hside⟩ := close_frame w m a
  obtain ⟨t1, t2, t3⟩ := close_told w m a
  have hsump : w.s.sump = s.sump := by rw [he]
  have hmsg {k : Nat} (ht : Told (blockSrc a) k 0 w.s (w.close m a)) : Told (blockSrc a) k 0 s (w.close m a) := fun hs =>
    ht (by simpa [State.msgAt, hsump] using hs)
  have hwr : w.lock = true ∨ w.bad = true ∨ w.hit = true → ∃ f ∈ r.flds, f.acc = .rw ∨ f.acc = .rwl := by
    rintro (h | h | h)
    · obtain ⟨f, hf, ha, -⟩ := hlock.mp h; exact ⟨f, hf, .inr ha⟩
    · obtain ⟨f, hf, ha, -⟩ := hbad.mp h; exact ⟨f, hf, ha.imp_right And.left⟩
    · obtain ⟨f, hf, ha⟩ := hhit h; exact ⟨f, hf, .inr ha⟩
  simp only [← hlock, ← hbad, Bool.not_eq_true]
  have hregs : RegsSump s w.s := by rw [he]; rfl
  refine ⟨hregs.trans hframe, fun f hf => (fld_close h m hwr hf).trans (hfld f hf), fun g hg => ?_, fun h => hmsg (t1 h),
    fun h h' => hmsg (t2 h h'), fun h h' => (t3 h h').trans hsump⟩
  rw [hside g fun k hk => hg k (by simp [hk])]
  exact hsame g fun f hf => hg _ (by simp; exact .inl ⟨f, hf, rfl⟩)

/-! ### The write itself (R6, R384, R454, R470) -/

theorem mboxAlone_reg {α : Type} (s : State) {a : Nat} (h : a < 0x150000) (f : State → α × State) : s.mboxAlone a f = f s :=
  mboxAlone_out s a f (by simp [inMbox]; omega)

theorem fabricWrite_reg (s : State) (m : Master) {a : Nat} (val : Word) (ha : a < 0x150000) (hal : a % 4 = 0)
    (hd : debugOnly a = false ∨ m = .debug) (hr : s.regionOk m a 4 .write = true) :
    s.fabricWrite m a 4 val.toNat = (true, s.writeReg m a val.toNat) := by
  have hb : writeBarred m a = false := by unfold writeBarred; rw [if_neg (by omega), if_neg (by omega)]
  have hdo : ¬ (debugOnly a = true ∧ m ≠ .debug) := by rintro ⟨h1, h2⟩; simp [h1, h2] at hd
  rw [State.fabricWrite, if_neg (by simp [hr, hb]), if_pos (by omega), if_neg (by omega), if_neg (by omega), if_neg hdo,
    Nat.mod_eq_of_lt val.isLt]

theorem registerWrite_master (s : State) {m : Master} {addr : Word} (val : Word) (ha : addr.toNat < 0x150000) (hal : addr.toNat % 4 = 0)
    (hm : m ≠ .debug) (hd : debugOnly addr.toNat = false) (hr : s.regionOk m addr.toNat 4 .write = true) :
    exec (.registerWrite m addr .word val) s = .next (s.writeReg m addr.toNat val.toNat) := by
  show Host.Outcome.next (s.mboxAlone addr.toNat fun s => masterWrite s m addr.toNat 4 val.toNat).2 = _
  rw [mboxAlone_reg s ha, masterWrite, if_neg hm, fabricWrite_reg s m val ha hal (.inl hd) hr]

theorem registerWrite_debug (s : State) {addr : Word} (val : Word) (ha : addr.toNat < 0x150000) (hal : addr.toNat % 4 = 0)
    (hk : s.kdaAllowed addr.toNat true = true) (hr : debugOnly addr.toNat = true ∨ s.regionOk .debug addr.toNat 4 .write = true)
    (hn : addr.toNat ≠ 0xF8030) :
    exec (.registerWrite .debug addr .word val) s = .next (s.debugTouch.writeReg .debug addr.toNat val.toNat) := by
  show Host.Outcome.next (s.mboxAlone addr.toNat fun s => kdaWrite s addr.toNat 4 val.toNat).2 = _
  rw [mboxAlone_reg s ha, kdaWrite, if_neg (by simp [hk])]
  by_cases hd : debugOnly addr.toNat = true
  · rw [if_pos ⟨hd, rfl, hal⟩]; simp [hn]
  · rw [if_neg (by simp [hd]), fabricWrite_reg s.debugTouch _ val ha hal (.inr rfl) (hr.resolve_left hd)]

theorem registerWrite_refused (s : State) {addr : Word} (val : Word) (ha : addr.toNat < 0x150000)
    (hk : s.kdaAllowed addr.toNat true = false) : exec (.registerWrite .debug addr .word val) s = .next (s.send 0x0F0 0x01 0) := by
  show Host.Outcome.next (s.mboxAlone addr.toNat fun s => kdaWrite s addr.toNat 4 val.toNat).2 = _
  rw [mboxAlone_reg s ha, kdaWrite, if_pos (by simp [hk])]; rfl

/-- Settles O12: the way to the register, and then each field by its access code. -/
theorem registerWritesByAccessCode : Obligations.RegisterWritesByAccessCode := by
  constructor
  · intro s m addr val a ha hal
    refine ⟨fun hm hd hr => registerWrite_master s val ha hal hm hd hr, ?_, ?_⟩
    · rintro rfl hk hr hn
      exact registerWrite_debug s val ha hal hk hr hn
    · rintro rfl hk
      exact ⟨_, registerWrite_refused s val ha hk, (send_frame s _ _ _).1, (send_frame s _ _ _).2, told_send s _ _ _⟩
  · intro s m a val r v old lock bad t _ hr hfr ht
    obtain ⟨he, hfld, hsame, h1, h2, h3⟩ := regWrite_spec s m val hr (.inl hfr)
    rw [← ht] at he hfld hsame h1 h2 h3
    refine ⟨he, fun f hf => ?_, hsame, h1, h2, h3⟩
    have hv := offered_lt a val ((sound_of_regAt hr).2 f hf).2
    have hx := hfld f hf
    exact ⟨fun h => hx.trans (taken_rw h hv), fun h => hx.trans (taken_rwl h hv), fun h i hi => hx ▸ tbit_taken_w1c h hi,
      fun h i hi => hx ▸ tbit_taken_w1s h hi, fun h => hx.trans (taken_kept h)⟩

end Sys2Proof.Machine
end

section
/-! Counter clears (R15), latched words (R14), staged slots (R29, R30) and the execution offset (R52). -/
namespace Sys2Proof.Machine
open Sys2Proof

/-! ### Fields set to 0 -/

/-- The places of a list of fields are all different. -/
def keysApart (l : List Fld) : Prop := l.Pairwise fun f g => f.key ≠ g.key

theorem SameRegs.zero {fs : List Fld} {s : State} (c : List Fld) : ∀ {t : State}, SameRegs fs s t → (∀ f ∈ c, f ∈ fs) →
    SameRegs fs s (c.foldl (fun s f => s.setFld f 0) t) := by
  induction c with
  | nil => intro t h _; exact h
  | cons f c ih => intro t h hc; exact ih (h.setFld 0 (hc f (by simp))) fun g hg => hc g (by simp [hg])

theorem zero_eq (c : List Fld) (s : State) :
    c.foldl (fun s f => s.setFld f 0) s = { s with regs := (c.foldl (fun s f => s.setFld f 0) s).regs } := by
  induction c generalizing s with
  | nil => rfl
  | cons f c ih => rw [List.foldl_cons, ih]; rfl

theorem fld_zero {c : List Fld} (hc : keysApart c) : ∀ {f : Fld} (s : State), f ∈ c → (c.foldl (fun s f => s.setFld f 0) s).fld f = 0 := by
  induction c with
  | nil => intro f s h; simp at h
  | cons g c ih =>
    intro f s hf
    rw [keysApart, List.pairwise_cons] at hc
    rw [List.foldl_cons]
    rcases List.mem_cons.mp hf with rfl | hf
    · rw [(sameRegs_refl c _).zero c (fun _ h => h) f fun k hk => hc.1 k hk, fld_setFld_same, Nat.zero_mod]
    · exact ih hc.2 _ hf

/-! ### Counter clears (R15) -/

theorem sameRegs_clearCounters (ovf : Fld) (val : Nat) (cs : List (List Fld)) : ∀ (s : State) (i : Nat),
    SameRegs (cs.flatten ++ [ovf]) s (s.clearCounters ovf val i cs) := by
  induction cs with
  | nil => intro s i; exact sameRegs_refl _ _
  | cons c t ih =>
    intro s i
    refine SameRegs.trans ?_ ((ih _ (i + 1)).mono (by intro f hf; simp only [List.flatten_cons, List.mem_append] at hf ⊢; tauto))
    split
    · exact ((sameRegs_refl _ s).zero c (by intro f hf; simp [hf])).unflagBit i (by simp)
    · exact sameRegs_refl _ _

theorem clearCounters_eq (ovf : Fld) (val : Nat) (cs : List (List Fld)) : ∀ (s : State) (i : Nat),
    s.clearCounters ovf val i cs = { s with regs := (s.clearCounters ovf val i cs).regs } := by
  induction cs with
  | nil => intro s i; rfl
  | cons c t ih =>
    intro s i
    rw [State.clearCounters, ih]
    split
    · unfold State.unflagBit; rw [zero_eq]; rfl
    · rfl

/-- A counter is cleared by its bit alone. -/
theorem fld_clearCounters {ovf : Fld} (val : Nat) {cs : List (List Fld)} : ∀ (s : State) (i : Nat), keysApart (cs.flatten ++ [ovf]) →
    ∀ {j : Nat} {c : List Fld} {f : Fld}, cs[j]? = some c → f ∈ c →
    (s.clearCounters ovf val i cs).fld f = if tbit val (i + j) then 0 else s.fld f := by
  induction cs with
  | nil => intro s i _ j c f h; simp at h
  | cons c t ih =>
    intro s i hk j c' f hj hf
    rw [List.flatten_cons, List.append_assoc, keysApart, List.pairwise_append] at hk
    obtain ⟨hc, ht, hx⟩ := hk
    rw [State.clearCounters]
    cases j with
    | zero =>
      obtain rfl : c = c' := by simpa using hj
      rw [sameRegs_clearCounters ovf val t _ _ f fun g hg => hx f hf g hg, Nat.add_zero]
      split
      · rw [State.unflagBit, fld_setFld_ne _ _ (hx f hf ovf (by simp)).symm, fld_zero hc _ hf]
      · rfl
    | succ j =>
      have hft : f ∈ t.flatten := List.mem_flatten.mpr ⟨c', List.mem_of_getElem? hj, hf⟩
      rw [ih _ _ ht hj hf, show i + 1 + j = i + (j + 1) by omega]
      have hkeep : (if tbit val i = true then (c.foldl (fun s f => s.setFld f 0) s).unflagBit ovf i else s).fld f = s.fld f := by
        split
        · rw [State.unflagBit, fld_setFld_ne _ _ ((List.pairwise_append.mp ht).2.2 f hft ovf (by simp)).symm,
            (sameRegs_refl c s).zero c (fun _ h => h) f fun g hg => (hx g hg f (by simp [hft])).symm]
        · rfl
      rw [hkeep]

/-- The overflow bits of the cleared counters are cleared with them. -/
theorem ovf_clearCounters {ovf : Fld} (val : Nat) {cs : List (List Fld)} : ∀ (s : State) (i : Nat),
    (∀ f ∈ cs.flatten, f.key ≠ ovf.key) → ∀ {k : Nat}, k < ovf.w →
    tbit ((s.clearCounters ovf val i cs).fld ovf) k = (tbit (s.fld ovf) k && !(tbit val k && decide (i ≤ k ∧ k < i + cs.length))) := by
  induction cs with
  | nil => intro s i _ k _; simp [State.clearCounters]; omega
  | cons c t ih =>
    intro s i hk k hkw
    have hle (hik : ¬ i = k) : decide (i + 1 ≤ k ∧ k < i + 1 + t.length) = decide (i ≤ k ∧ k < i + (t.length + 1)) :=
      decide_eq_decide.mpr (by omega)
    rw [State.clearCounters, ih _ _ (fun f hf => hk f (by simp [hf])) hkw]
    by_cases hv : tbit val i = true
    · rw [if_pos hv, State.unflagBit, fld_setFld_same, tbit_mod _ _ _ hkw, tbit_clrBit_eq,
        (sameRegs_refl c s).zero c (fun _ h => h) ovf fun g hg => (hk g (by simp [hg])).symm]
      by_cases hik : i = k
      · subst hik; simp [hv]
      · simp only [hik, ne_eq, not_false_eq_true, decide_true, Bool.and_true, List.length_cons]
        rw [hle hik]
    · rw [if_neg hv]
      by_cases hik : i = k
      · subst hik; simp [hv]
      · rw [List.length_cons, hle hik]

/-- The counters of a lane with a word each, in the order of their clear bits (R89). -/
def laneCounters (l : Nat) : List Fld :=
  [CL_CNT_LOS l, CL_CNT_LOL l, CL_CNT_MISS l, CL_CNT_STUFF l, CL_CNT_MFIX l, CL_CNT_MBAD l, CL_CNT_DEFER l, CL_CNT_LB l]

/-- The clear bits of a lane: eight counters, and the two words of the received frames. -/
def laneClears (l : Nat) : List (List Fld) := (laneCounters l).map (fun f => [f]) ++ [[CL_CNT_RXFRM_LO l, CL_CNT_RXFRM_HI l]]

theorem clearTable_lane : ∀ l : Fin 40, clearTable (lineBase l + 0x80) = some (laneClears l, CL_CNT_OVF l) := by decide

theorem laneClears_apart : ∀ l : Fin 40, ((laneClears l).flatten ++ [CL_CNT_OVF l]).Pairwise fun f g => f.key ≠ g.key := by decide

theorem lineBase_lt : ∀ l : Fin 40, lineBase l + 0x80 < 2 ^ 32 ∧ lineBase l + 0x80 ≠ 0x40054 := by decide

theorem counterClear_lane (s : State) (m : Master) (l : Fin 40) (val : Word) (h : s.inFreset (lineBase l + 0x80) = false) :
    exec (.counterClear m (BitVec.ofNat 32 (lineBase l + 0x80)) val) s
      = .next (s.clearCounters (CL_CNT_OVF l) val.toNat 0 (laneClears l)) := by
  obtain ⟨hlt, hne⟩ := lineBase_lt l
  have ha : (BitVec.ofNat 32 (lineBase l + 0x80)).toNat = lineBase l + 0x80 := by rw [BitVec.toNat_ofNat, Nat.mod_eq_of_lt hlt]
  have hc : s.clearWrite (lineBase l + 0x80) val.toNat = some (s.clearCounters (CL_CNT_OVF l) val.toNat 0 (laneClears l)) := by
    unfold State.clearWrite; rw [clearTable_lane]; simp [hne]
  show Host.Outcome.next (if s.inFreset _ then s else _) = _
  rw [ha, h, hc]; rfl

theorem laneClears_get (l : Nat) (i : Fin 8) : (laneClears l)[i.val]? = some [(laneCounters l).getD i (CL_CNT_LOS l)] := by
  fin_cases i <;> rfl

/-! ### Latched words (R14) -/

/-- A read of the tick's low word latches the high word for its master (R14, R46). -/
theorem readReg_tickLow (s : State) (m : Master) : s.readReg m 0x20 =
    (s.now % 2 ^ 32, { s with latches := mput s.latches (16 * 0x24 + Master.num m) (s.now / 2 ^ 32 % 2 ^ 32) }) := rfl

/-- A read of a latched word gives what was latched for its master, in any state that holds the latch. -/
theorem readReg_latched (u : State) (m : Master) (l : NMap Nat) (v : Nat) (h : u.latches = mput l (16 * 0x24 + Master.num m) v) :
    (u.readReg m 0x24).1 = v := by
  have hf : u.latches.find? (fun p => p.1 == 16 * 0x24 + Master.num m) = some (16 * 0x24 + Master.num m, v) := h ▸ find_mput l _ v
  unfold State.readReg
  rw [show latchedBy 0x24 = some 0x20 from rfl, Option.bind_some, hf]

theorem fabricRead_tickLow (s : State) (m : Master) (h : s.regionOk m 0x20 4 .read = true) :
    s.fabricRead m 0x20 4 .read = (some (s.now % 2 ^ 32),
      { s with latches := mput s.latches (16 * 0x24 + Master.num m) (s.now / 2 ^ 32 % 2 ^ 32) }) := by
  have hd : ¬ (debugOnly 0x20 = true ∧ m ≠ .debug) := by simp [debugOnly]
  rw [State.fabricRead, if_neg (by simp [h]), if_pos (by decide), if_neg (by decide), if_neg (by decide), if_neg hd, readReg_tickLow]

theorem kdaRead_tickLow (s : State) (hk : s.kdaAllowed 0x20 false = true) (hr : s.regionOk .debug 0x20 4 .read = true) :
    (kdaRead s 0x20 4).2 = { s.debugTouch with latches := mput s.latches (16 * 0x24 + Master.num .debug) (s.now / 2 ^ 32 % 2 ^ 32) } := by
  have e := fabricRead_tickLow s.debugTouch .debug hr
  unfold kdaRead
  simp only [hk, Bool.not_true, Bool.false_eq_true, if_false, show debugOnly 0x20 = false from rfl, false_and, e]
  split <;> rfl

theorem counterLowRead_tick (s : State) (m : Master)
    (h : m = .debug → s.kdaAllowed 0x20 false = true ∧ s.regionOk m 0x20 4 .read = true) :
    exec (.counterLowRead m 0x20) s = .next { s with
      latches := mput s.latches (16 * 0x24 + Master.num m) (s.now / 2 ^ 32 % 2 ^ 32),
      sec := { s.sec with dbgTick := if m = .debug then s.now else s.sec.dbgTick } } := by
  show Host.Outcome.next (counterLowRead s m 0x20) = _
  by_cases hm : m = .debug
  · obtain ⟨hk, hr⟩ := h hm
    subst hm
    rw [counterLowRead, if_pos rfl, mboxAlone_reg s (by decide), kdaRead_tickLow s hk hr, if_pos rfl]; rfl
  · rw [counterLowRead, if_neg hm, readReg_tickLow, if_neg hm]

/-! ### Slots (R29, R30) -/

theorem sext_toNat {w : Nat} (v : BitVec w) (hw : 0 < w) : sext v.toNat w = v.toInt := by
  obtain ⟨k, rfl⟩ := Nat.exists_eq_succ_of_ne_zero hw.ne'
  have hp : 2 ^ (k + 1) = 2 * 2 ^ k := by rw [Nat.pow_succ, Nat.mul_comm]
  rw [sext, BitVec.toInt_eq_toNat_cond, Nat.mod_eq_of_lt v.isLt]
  simp only [Nat.succ_eq_add_one, Nat.add_sub_cancel, hp]
  split <;> split <;> omega

theorem slotWrite_other (s : State) (m : Master) (i v : Nat) (h : s.produces m i = false) :
    slotWrite s m i v = s.send 0x0F0 0x04 (0x10000000 + 4 * i) := by simp [slotWrite, h]

/-! ### The execution offset (R52) -/

@[simp] theorem setCe_regs (s : State) (g : Nat) (f : CeFld) (v : Nat) : (s.setCe g f v).regs = s.regs := rfl
@[simp] theorem setCe_cells (s : State) (g : Nat) (f : CeFld) (v : Nat) : (s.setCe g f v).cells = s.cells := rfl
@[simp] theorem setCc_regs (s : State) (g : Nat) (x : CmpCell) : (s.setCc g x).regs = s.regs := rfl
@[simp] theorem setCc_cells (s : State) (g : Nat) (x : CmpCell) : (s.setCc g x).cells = s.cells := rfl

/-- A change of the offset evaluates the delays of the cells again: their entries, their records and messages (R54). -/
theorem lateEval_frame (s : State) (g : Nat) : (s.lateEval g).cells = s.cells ∧ SameRegs msgFlds s (s.lateEval g) := by
  unfold State.lateEval
  extract_lets d late was _ u
  have hc : u.cells = s.cells := by rw [setCe_cells, setCc_cells]
  have hr : u.regs = s.regs := by rw [setCe_regs, setCc_regs]
  clear_value u
  exact ⟨(sendIf_cells ..).trans hc, SameRegs.sendIf (sameRegs_of_regs _ hr) _ _ _ _ (by simp [msgFlds]) (by simp [msgFlds])⟩

theorem lateAll_frame (s : State) : s.lateAll.cells = s.cells ∧ SameRegs msgFlds s s.lateAll := by
  refine foldl_inv (fun t : State => t.cells = s.cells ∧ SameRegs msgFlds s t) _ (fun t g h => ?_) _ _ ⟨rfl, sameRegs_refl _ _⟩
  split
  · exact ⟨(lateEval_frame t g).1.trans h.1, h.2.trans (lateEval_frame t g).2⟩
  · exact h

theorem writeReg_execOffset (s : State) (m : Master) (val : Nat) : s.writeReg m 0x70010 val = (s.regWrite m 0x70010 val).lateAll := by
  have hc : (if s.inFreset 0x70010 then none else s.clearWrite 0x70010 val) = none := by split <;> rfl
  unfold State.writeReg; rw [hc]; rfl

/-- A legal offset outside the locked states is stored, and nothing of the cells changes. -/
theorem execOffset_stored (s : State) (m : Master) (val : Nat) (hl : s.locked = false) (h1 : 200 ≤ val % 1024) (h2 : val % 1024 ≤ 900) :
    let t := s.writeReg m 0x70010 val
    t.fld CMP_EXEC_OFS = val % 1024 ∧ t.op = s.op ∧ t.cells = s.cells := by
  obtain ⟨r, hr, hf⟩ : ∃ r, regAt 0x70010 = some r ∧ r.flds = [⟨0, 10, .rwl, some 400, [(200, 900)]⟩] := ⟨_, rfl, rfl⟩
  obtain ⟨he, hfld, hsame, -⟩ := regWrite_spec s m val hr (.inr (by simp [hf]))
  rw [writeReg_execOffset]
  obtain ⟨hc, hx⟩ := lateAll_frame (s.regWrite m 0x70010 val)
  refine ⟨?_, ?_, ?_⟩
  · rw [hx _ (by decide)]
    refine (hfld ⟨0, 10, .rwl, some 400, [(200, 900)]⟩ (by simp [hf])).trans ?_
    have hv : offered 0x70010 val ⟨0, 10, .rwl, some 400, [(200, 900)]⟩ = val % 1024 := by simp [offered, heldOnes]
    rw [taken_rwl rfl (offered_lt _ _ (by decide)), hv, hl, if_pos]
    simp [legalVal, h1, h2]
  · unfold State.op
    rw [hx _ (by decide), hsame _ (by rw [hf]; decide)]
  · rw [hc, he]

/-- Settles O13: the clear of a lane's counters, the latched high word, the slot's producer and the stored offset. -/
theorem countersLatchesAndSlots : Obligations.CountersLatchesAndSlots := by
  refine ⟨fun s m l val hf => ?_, fun s m h => ?_, fun s m i v => ⟨fun hp hr => ?_, fun hp => ?_⟩, fun s m val hl h1 h2 => ?_⟩
  · intro cs
    have hap := laneClears_apart l
    have hget (i : Fin 8) : (laneClears l)[i.val]? = some [cs.getD i (CL_CNT_LOS l)] := laneClears_get l i
    have hrx : (laneClears l)[8]? = some [CL_CNT_RXFRM_LO l, CL_CNT_RXFRM_HI l] := rfl
    refine ⟨_, counterClear_lane s m l val hf, ⟨clearCounters_eq .., sameRegs_clearCounters (CL_CNT_OVF l) _ (laneClears l) s 0⟩,
      fun i => ?_, ?_, ?_, fun i => ?_⟩
    · rw [fld_clearCounters _ s 0 hap (hget i) (List.mem_singleton.mpr rfl), Nat.zero_add, tbit_toNat]
    · rw [fld_clearCounters _ s 0 hap hrx (by simp), Nat.zero_add, tbit_toNat]
    · rw [fld_clearCounters _ s 0 hap hrx (by simp), Nat.zero_add, tbit_toNat]
    · have hov : ∀ f ∈ (laneClears l).flatten, f.key ≠ (CL_CNT_OVF l).key := fun f hm =>
        (List.pairwise_append.mp hap).2.2 f hm _ (by simp)
      rw [ovf_clearCounters _ s 0 hov i.isLt, tbit_toNat, decide_eq_true (by rw [show (laneClears l).length = 9 from rfl]; omega),
        Bool.and_true]
  · exact ⟨_, counterLowRead_tick s m h, rfl, by rw [readReg_tickLow], fun u hu => readReg_latched u m s.latches _ hu⟩
  · show Host.Outcome.next (slotWrite s m i v.toNat) = _
    rw [slotWrite_staged s m i v.toNat hp hr, State.stage, sext_toNat v (by decide)]
  · exact ⟨_, congrArg Host.Outcome.next (slotWrite_other s m i v.toNat hp), (send_frame s _ _ _).1, (send_frame s _ _ _).2,
      told_send s _ _ _⟩
  · exact ⟨_, rfl, execOffset_stored s m val.toNat hl h1 h2⟩

end Sys2Proof.Machine
end

section
/-! Trip pins (R230) and the force register (R244). -/
namespace Sys2Proof.Machine
open Sys2Proof

/-! ### Levels and PRT_PIN_STAT -/

theorem pins_setPin (s : State) {p q : Nat} (hi : Bool) (hq : q < 16) :
    (s.setPin p hi).prot.pins.getLsbD q = if q = p then hi else s.prot.pins.getLsbD q := by
  have hb : (BitVec.ofNat 16 (2 ^ p)).getLsbD q = decide (q = p) := by
    rw [BitVec.getLsbD_ofNat, decide_eq_true hq, Bool.true_and, Nat.testBit_two_pow]; exact decide_eq_decide.mpr eq_comm
  unfold State.setPin
  cases hi
  · simp only [Bool.false_eq_true, if_false, BitVec.getLsbD_and, BitVec.getLsbD_not, hb, hq, decide_true, Bool.true_and]
    by_cases h : q = p <;> simp [h]
  · simp only [if_true, BitVec.getLsbD_or, hb]
    by_cases h : q = p <;> simp [h]

/-- Powers of two summed over the numbers below n. -/
theorem tbit_sum_two_pow (f : Nat → Bool) (n : Nat) :
    (upto n).foldl (fun x p => x + b2n (f p) * 2 ^ p) 0 < 2 ^ n ∧
    ∀ i < n, tbit ((upto n).foldl (fun x p => x + b2n (f p) * 2 ^ p) 0) i = f i := by
  induction n with
  | zero => simp [upto]
  | succ n ih =>
    obtain ⟨hlt, hbit⟩ := ih
    have e : (upto (n + 1)).foldl (fun x p => x + b2n (f p) * 2 ^ p) 0
        = (upto n).foldl (fun x p => x + b2n (f p) * 2 ^ p) 0 + b2n (f n) * 2 ^ n := by
      rw [upto, List.range_succ, List.foldl_append]; rfl
    rw [e]
    generalize (upto n).foldl (fun x p => x + b2n (f p) * 2 ^ p) 0 = x at hlt hbit
    have hx : tbit x n = false := by rw [tbit, Nat.div_eq_of_lt hlt]; rfl
    cases hf : f n
    · simp only [b2n, Bool.false_eq_true, if_false, Nat.zero_mul, Nat.add_zero]
      refine ⟨by rw [Nat.pow_succ]; omega, fun i hi => ?_⟩
      rcases Nat.lt_succ_iff_lt_or_eq.mp hi with h | rfl
      · exact hbit i h
      · rw [hx, hf]
    · simp only [b2n, if_true, Nat.one_mul]
      refine ⟨by rw [Nat.pow_succ]; omega, fun i hi => ?_⟩
      rw [tbit_add x n i hx]
      rcases Nat.lt_succ_iff_lt_or_eq.mp hi with h | rfl
      · simp [hbit i h]; omega
      · simp [hf]

theorem pinStat_eq (s : State) : s.pinStat = { s with regs := s.pinStat.regs, acq := s.pinStat.acq } := by
  unfold State.pinStat State.setFld; rfl

theorem sameRegs_pinStat (s : State) : SameRegs [PRT_PIN_STAT_ACTIVE, PRT_PIN_STAT_SEEN] s s.pinStat :=
  SameRegs.setFld (SameRegs.setFld (sameRegs_of_regs _ rfl) _ (by simp)) _ (by simp)

/-- ACTIVE shows the pins at their active level. -/
theorem pinStat_active (s : State) {p : Nat} (hp : p < 16) : tbit (s.pinStat.fld PRT_PIN_STAT_ACTIVE) p = s.pinActive p := by
  unfold State.pinStat
  extract_lets act acq u
  rw [fld_setFld_ne _ _ (by decide), fld_setFld_same, show PRT_PIN_STAT_ACTIVE.w = 16 from rfl, tbit_mod _ _ _ hp]
  exact (tbit_sum_two_pow s.pinActive 16).2 p hp

theorem tbit_foldl_setBit_cond (c : Nat → Bool) (l : List Nat) : ∀ x j : Nat,
    tbit (l.foldl (fun x i => if c i then setBit x i else x) x) j = (tbit x j || (c j && decide (j ∈ l))) := by
  induction l with
  | nil => simp
  | cons i t ih =>
    intro x j
    rw [List.foldl_cons, ih]
    by_cases hc : c i = true
    · rw [if_pos hc, tbit_setBit_eq]
      by_cases h : i = j
      · subst h; simp [hc]
      · simp [h, Ne.symm h]
    · rw [if_neg hc]
      by_cases h : i = j
      · subst h; simp [hc]
      · simp [Ne.symm h]

/-- SEEN takes every pin that has become active. -/
theorem pinStat_seen (s : State) {p : Nat} (hp : p < 16) : tbit (s.pinStat.fld PRT_PIN_STAT_SEEN) p =
    (tbit (s.fld PRT_PIN_STAT_SEEN) p || (s.pinActive p && !tbit (s.fld PRT_PIN_STAT_ACTIVE) p)) := by
  unfold State.pinStat
  extract_lets act acq u
  have hact : tbit act p = s.pinActive p := (tbit_sum_two_pow s.pinActive 16).2 p hp
  rw [fld_setFld_same, show PRT_PIN_STAT_SEEN.w = 16 from rfl, tbit_mod _ _ _ hp,
    tbit_foldl_setBit_cond (fun p => tbit act p && !tbit (u.fld PRT_PIN_STAT_ACTIVE) p), hact, decide_eq_true (show p ∈ upto 16 from List.mem_range.mpr hp),
    Bool.and_true]
  rfl

/-- What a pin's level counts for depends on the supplies, the levels and the polarities alone. -/
theorem pinActive_congr {s t : State} (he : t.elec = s.elec) (hp : t.prot.pins = s.prot.pins)
    (hf : t.fld PRT_PIN_CFG_POL = s.fld PRT_PIN_CFG_POL) (q : Nat) : t.pinActive q = s.pinActive q := by
  unfold State.pinActive; rw [he, hp, hf]

theorem pinActive_pinStat (s : State) (q : Nat) : s.pinStat.pinActive q = s.pinActive q :=
  pinActive_congr (s := s) (t := s.pinStat) (by rw [pinStat_eq]) (by rw [pinStat_eq]) (sameRegs_pinStat s _ (by decide)) q

theorem pinActive_setPin (s : State) {p q : Nat} (hi : Bool) (hq : q < 16) : (s.setPin p hi).pinActive q =
    (!s.elec.below.contains 10 && (if q = p then hi else s.prot.pins.getLsbD q) != tbit (s.fld PRT_PIN_CFG_POL) q) := by
  unfold State.pinActive; rw [pins_setPin s hi hq]; rfl

theorem pinActive_setPin_other (s : State) {p q : Nat} (hi : Bool) (hq : q < 16) (h : q ≠ p) :
    (s.setPin p hi).pinActive q = s.pinActive q := by
  rw [pinActive_setPin s hi hq, if_neg h]; rfl

/-! ### A pin that trips -/

theorem driveBlockOut_pins (s : State) : s.driveBlockOut.prot.pins = s.prot.pins := by
  unfold State.driveBlockOut; split <;> rfl

theorem blockCause_pins (s : State) (c : BlkCause) : (s.blockCause c).prot.pins = s.prot.pins := by
  unfold State.blockCause
  simp only
  rw [driveBlockOut_pins]
  unfold State.seqEvent State.flagBit
  rw [commitBlockMarkers_eq]
  unfold State.count
  split <;> (simp only; split <;> rfl)

/-- The source, kind and detail of the message of a pin that trips. -/
theorem pinTrip_eq (s : State) (p : Nat) (b : Bool) :
    s.pinTrip p b = (s.blockCause .pin).send (if b then 0x300 + p else 0x333) 0x10 (if b then 0 else 2 ^ 31) := by
  cases b <;> rfl

theorem blockCause_sump (s : State) (c : BlkCause) : (s.blockCause c).sump = s.sump := by rw [blockCause_eq]

/-- A pin that trips sets the block, tells, and leaves levels and settings as they are. -/
theorem pinTrip_spec (s : State) (p : Nat) (b : Bool) :
    Blocked 0 s (s.pinTrip p b) ∧ OnlyBlock [] s (s.pinTrip p b) ∧ (s.pinTrip p b).prot.pins = s.prot.pins ∧
    Told (if b then 0x300 + p else 0x333) 0x10 (if b then 0 else 2 ^ 31) s (s.pinTrip p b) := by
  rw [pinTrip_eq]
  refine ⟨(blockCause_blocked s .pin).send _ _ _, onlyBlock_send s .pin _ _ _ [], ?_, told_send_of _ _ _ (blockCause_sump s _)⟩
  rw [send_prot, blockCause_pins]

theorem OnlyBlock.elec {fs : List Fld} {s t : State} (h : OnlyBlock fs s t) : t.elec = s.elec := by rw [h.1]

theorem pinActive_pinTrip (s : State) (p q : Nat) (b : Bool) : (s.pinTrip p b).pinActive q = s.pinActive q := by
  obtain ⟨-, ho, hp, -⟩ := pinTrip_spec s p b
  exact pinActive_congr ho.elec hp (ho.2 _ (by decide)) q

/-- The state in which a pin has entered a level and is shown. -/
theorem shownPin_frame (s : State) (p : Nat) (hi : Bool) :
    let u := (s.setPin p hi).pinStat
    u = { s with regs := u.regs, prot := u.prot, acq := u.acq } ∧ SameRegs [PRT_PIN_STAT_ACTIVE, PRT_PIN_STAT_SEEN] s u := by
  refine ⟨?_, SameRegs.trans (sameRegs_of_regs _ rfl) (sameRegs_pinStat _)⟩
  generalize hv : s.setPin p hi = v
  rw [pinStat_eq, ← hv]; rfl

/-- A pin at its active level, with VDD_IO33 within limits, is shown active, and seen when it was not shown before. -/
theorem shownPin_active (s : State) (p : Fin 16) (hb : s.elec.below.contains 10 = false) :
    let u := (s.setPin p (!tbit (s.fld PRT_PIN_CFG_POL) p)).pinStat
    u.pinActive p = true ∧ tbit (u.fld PRT_PIN_STAT_ACTIVE) p = true ∧
    (tbit (s.fld PRT_PIN_STAT_ACTIVE) p = false → tbit (u.fld PRT_PIN_STAT_SEEN) p = true) := by
  have ha : (s.setPin p (!tbit (s.fld PRT_PIN_CFG_POL) p)).pinActive p = true := by
    rw [pinActive_setPin s _ p.isLt, if_pos rfl, hb]; cases tbit (s.fld PRT_PIN_CFG_POL) p <;> rfl
  refine ⟨(pinActive_pinStat _ _).trans ha, (pinStat_active _ p.isLt).trans ha, fun hs => ?_⟩
  have hs' : tbit ((s.setPin p (!tbit (s.fld PRT_PIN_CFG_POL) p)).fld PRT_PIN_STAT_ACTIVE) p = false := hs
  rw [pinStat_seen _ p.isLt, ha, hs']; exact Bool.or_true _

/-- A pin at its inactive level is shown inactive. -/
theorem shownPin_inactive (s : State) (p : Fin 16) :
    let u := (s.setPin p (tbit (s.fld PRT_PIN_CFG_POL) p)).pinStat
    tbit (u.fld PRT_PIN_STAT_ACTIVE) p = false ∧ ∀ q : Fin 16, q ≠ p → u.pinActive q = s.pinActive q := by
  refine ⟨?_, fun q hq => ?_⟩
  · rw [pinStat_active _ p.isLt, pinActive_setPin s _ p.isLt, if_pos rfl, bne_self_eq_false, Bool.and_false]
  · rw [pinActive_pinStat, pinActive_setPin_other s _ q.isLt fun h => hq (Fin.ext h)]

/-- A trip after a pin is shown, in terms of the state before (R230). -/
theorem tripPin_enabled (s : State) (p : Fin 16) (hb : s.elec.below.contains 10 = false) :
    let u := (s.setPin p (!tbit (s.fld PRT_PIN_CFG_POL) p)).pinStat
    let t := u.pinTrip p true
    Blocked 0 s t ∧ OnlyBlock [PRT_PIN_STAT_ACTIVE, PRT_PIN_STAT_SEEN] s t ∧ t.pinActive p = true ∧
    tbit (t.fld PRT_PIN_STAT_ACTIVE) p = true ∧
    (tbit (s.fld PRT_PIN_STAT_ACTIVE) p = false → tbit (t.fld PRT_PIN_STAT_SEEN) p = true) ∧ Told (0x300 + p) 0x10 0 s t := by
  intro u t
  obtain ⟨hu, hur⟩ := shownPin_frame s p (!tbit (s.fld PRT_PIN_CFG_POL) p)
  obtain ⟨ha, hact, hseen⟩ := shownPin_active s p hb
  obtain ⟨hblk, hob, -, htold⟩ := pinTrip_spec u p true
  have hlat : u.latched = s.latched := by unfold State.latched State.bit; rw [hur _ (by decide)]
  refine ⟨hblk.after hlat (hur _ (by decide)) rfl rfl, ⟨?_, ?_⟩, (pinActive_pinTrip u p p true).trans ha, ?_, fun h => ?_, htold⟩
  · have hfr : u = { s with regs := u.regs, prot := u.prot, acq := u.acq } := hu
    have htr : t = { u with regs := t.regs, prot := t.prot, acq := t.acq, lanes := t.lanes, sump := t.sump } := hob.1
    rw [htr, hfr]
  · exact (hur.mono (by simp)).trans (hob.2.mono fun f hf => by simp only [List.append_nil] at hf; exact List.mem_append_left _ hf)
  · rw [hob.2 _ (by decide)]; exact hact
  · rw [hob.2 _ (by decide)]; exact hseen h

/-! ### Writes of PRT_PIN_CFG (R230) -/

/-- EN and POL after a write outside the locked states, and what stays (R8, R230). -/
theorem pinCfg_regs (s : State) (m : Master) (val : Word) (hl : s.locked = false) :
    let u := s.regWrite m 0x30010 val.toNat
    RegsSump s u ∧ u.fld PRT_PIN_CFG_EN = val.toNat % 2 ^ 16 ∧ u.fld PRT_PIN_CFG_POL = val.toNat / 2 ^ 16 ∧ u.sump = s.sump ∧
    u.latched = s.latched := by
  obtain ⟨r, hr, hf⟩ : ∃ r, regAt 0x30010 = some r ∧ r.flds = [⟨0, 16, .rwl, some 0, []⟩, ⟨16, 16, .rwl, some 0, []⟩] := ⟨_, rfl, rfl⟩
  obtain ⟨he, hfld, hsame, -, -, hquiet⟩ := regWrite_spec s m val.toNat hr (.inr (by simp [hf]))
  have hval {f : FldDef} (hm : f ∈ r.flds) (ha : f.acc = .rwl) (hok : f.ok = []) (hw : 0 < f.w) :
      (s.regWrite m 0x30010 val.toNat).fld (fldAt 0x30010 f) = val.toNat / 2 ^ f.lo % 2 ^ f.w := by
    rw [hfld f hm, taken_rwl ha (offered_lt _ _ hw), if_pos ⟨hl, by simp [legalVal, hok]⟩]; rfl
  have hsump : (s.regWrite m 0x30010 val.toNat).sump = s.sump :=
    hquiet (by simp [hf, lockHit, hl]) (by simp [hf, badHit, legalVal])
  refine ⟨he, ?_, ?_, hsump, ?_⟩
  · exact (hval (f := ⟨0, 16, .rwl, some 0, []⟩) (by simp [hf]) rfl rfl (by decide)).trans (by rw [Nat.pow_zero, Nat.div_one])
  · refine (hval (f := ⟨16, 16, .rwl, some 0, []⟩) (by simp [hf]) rfl rfl (by decide)).trans (Nat.mod_eq_of_lt (Nat.div_lt_of_lt_mul ?_))
    exact val.isLt
  · unfold State.latched State.bit; rw [hsame _ (by rw [hf]; decide)]

theorem tbit_div_pow (x k i : Nat) : tbit (x / 2 ^ k) i = tbit x (k + i) := by
  rw [tbit, tbit, Nat.div_div_eq_div_mul, ← Nat.pow_add]

/-- Pins that a condition picks trip one after the other. -/
def tripEach (c : Nat → Bool) (l : List Nat) (s : State) : State := l.foldl (fun s p => if c p then s.pinTrip p true else s) s

/-- The levels do not change while pins trip, so that the pins that trip are known beforehand. -/
theorem each_pinTrip (e : Nat → Bool) (l : List Nat) : ∀ s u : State, (∀ q, u.pinActive q = s.pinActive q) →
    State.each u l (fun u p => if e p && u.pinActive p then u.pinTrip p true else u) = tripEach (fun p => e p && s.pinActive p) l u := by
  induction l with
  | nil => intro s u _; rfl
  | cons p t ih =>
    intro s u h
    rw [State.each, List.foldl_cons, tripEach, List.foldl_cons, h p]
    refine ih s _ fun q => ?_
    split
    · rw [pinActive_pinTrip, h q]
    · exact h q

theorem tripEach_none {c : Nat → Bool} {l : List Nat} (h : ∀ p ∈ l, c p = false) (s : State) : tripEach c l s = s := by
  induction l generalizing s with
  | nil => rfl
  | cons p t ih => rw [tripEach, List.foldl_cons, h p (by simp)]; exact ih (fun q hq => h q (by simp [hq])) s

/-- The latched block is set with cause PIN. -/
def pinBlocked (t : State) : Prop := t.latched = true ∧ tbit (t.fld PRT_CAUSE_ALL) 0 = true

theorem tripEach_spec (c : Nat → Bool) (l : List Nat) : ∀ s : State,
    SameRegs (blockFlds ++ msgFlds) s (tripEach c l s) ∧ (pinBlocked s ∨ (∃ p ∈ l, c p = true) → pinBlocked (tripEach c l s)) := by
  induction l with
  | nil => intro s; exact ⟨sameRegs_refl _ _, by simp [tripEach]⟩
  | cons p t ih =>
    intro s
    rw [tripEach, List.foldl_cons]
    cases hc : c p
    · refine ⟨(ih s).1, fun h => (ih s).2 (h.imp_right ?_)⟩
      rintro ⟨q, hq, hcq⟩
      rcases List.mem_cons.mp hq with rfl | hq
      · simp [hc] at hcq
      · exact ⟨q, hq, hcq⟩
    · obtain ⟨hb, ho, -⟩ := pinTrip_spec s p true
      have hr : SameRegs (blockFlds ++ msgFlds) s (s.pinTrip p true) := ho.2.mono (by simp)
      exact ⟨hr.trans (ih _).1, fun _ => (ih _).2 (.inl ⟨hb.1, hb.2.1⟩)⟩

/-- A write of PRT_PIN_CFG outside the locked states: the pins that trip are those enabled and active under the new setting
whose enable or polarity is new. -/
theorem pinCfgWrite_spec (s : State) (m : Master) (val : Word) (hl : s.locked = false) : ∃ u : State,
    u.fld PRT_PIN_CFG_EN = val.toNat % 2 ^ 16 ∧ u.fld PRT_PIN_CFG_POL = val.toNat / 2 ^ 16 ∧ u.latched = s.latched ∧ u.sump = s.sump ∧
    u.prot.pins = s.prot.pins ∧ u.elec = s.elec ∧
    pinCfgWrite s m val.toNat = tripEach (fun p => (tbit (val.toNat % 2 ^ 16) p &&
      (!tbit (s.fld PRT_PIN_CFG_EN) p || tbit (s.fld PRT_PIN_CFG_POL) p != tbit (val.toNat / 2 ^ 16) p)) && u.pinActive p) (upto 16) u := by
  obtain ⟨he, hen, hpol, hsump, hlat⟩ := pinCfg_regs s m val hl
  have hst := sameRegs_pinStat (s.regWrite m 0x30010 val.toNat)
  have hen' := (hst PRT_PIN_CFG_EN (by decide)).trans hen
  have hpol' := (hst PRT_PIN_CFG_POL (by decide)).trans hpol
  refine ⟨(s.regWrite m 0x30010 val.toNat).pinStat, hen', hpol', ?_, hsump, ?_, ?_, ?_⟩
  · rw [← hlat]; unfold State.latched State.bit; rw [hst _ (by decide)]
  · rw [pinStat_eq, he]
  · rw [pinStat_eq, he]
  · rw [← each_pinTrip _ (upto 16) _ _ (fun _ => rfl)]
    unfold pinCfgWrite
    simp only [hen', hpol', Bool.and_right_comm]

/-! ### The force register (R244) -/

theorem forceWrite_set (s : State) (val : Word) (hk : val.toNat / 2 ^ 16 = 0x5AC3) (hg : val.getLsbD 0 = true) :
    forceWrite s val.toNat = s.blockCause .force := by
  rw [forceWrite, wbits_key val rfl rfl, if_neg (not_not.mpr hk), tbit_toNat, if_pos hg]

theorem forceWrite_badKey (s : State) (val : Word) (hk : val.toNat / 2 ^ 16 ≠ 0x5AC3) :
    forceWrite s val.toNat = s.send 0x300 0x03 0 := by
  rw [forceWrite, wbits_key val rfl rfl, if_pos hk]; rfl

theorem onlyBlock_blockCause (s : State) (c : BlkCause) : OnlyBlock [] s (s.blockCause c) :=
  ⟨by rw [blockCause_eq], (sameRegs_blockCause s c).mono fun f hf => by simp [hf]⟩

theorem tripPin_inactive (s : State) (p : Nat) (sampled : Bool) (ha : s.pinActive p = false) (hb : s.elec.below.contains 10 = false) :
    tripPin s p sampled =
      let u := if sampled then (s.setPin p (!tbit (s.fld PRT_PIN_CFG_POL) p)).pinStat else s
      if tbit (s.fld PRT_PIN_CFG_EN) p then u.pinTrip p sampled else u := by
  rw [tripPin, ha, if_neg Bool.false_ne_true, hb, if_neg Bool.false_ne_true]

/-- Settles O25: the pin as it enters and leaves its active level, the settings' write, and the force register. -/
theorem tripPinsAndForce : Obligations.TripPinsAndForce := by
  intro s p m
  refine ⟨fun ha hb he => ⟨?_, ?_⟩, fun ha hb he => ?_, ?_, fun val hl hb => ⟨fun hq => ?_, fun hv he hp => ?_⟩, fun val hk hg => ?_,
    fun val hk => ?_⟩
  · obtain ⟨h1, h2, h3, h4, h5, h6⟩ := tripPin_enabled s p hb
    exact ⟨_, congrArg Host.Outcome.next ((tripPin_inactive s p true ha hb).trans (if_pos he)), h1, h2, h3, h4, h5, h6⟩
  · obtain ⟨h1, h2, h3, h4⟩ := pinTrip_spec s p false
    exact ⟨_, congrArg Host.Outcome.next ((tripPin_inactive s p false ha hb).trans (if_pos he)), h1, h2, h3, h4⟩
  · obtain ⟨h1, h2⟩ := shownPin_frame s p (!tbit (s.fld PRT_PIN_CFG_POL) p)
    exact ⟨_, congrArg Host.Outcome.next ((tripPin_inactive s p true ha hb).trans (if_neg (by simp [he]))), h1, h2,
      (shownPin_active s p hb).2.1⟩
  · obtain ⟨h1, h2⟩ := shownPin_frame s p (tbit (s.fld PRT_PIN_CFG_POL) p)
    exact ⟨_, rfl, h1, h2, shownPin_inactive s p⟩
  · obtain ⟨u, hen, hpol, hlat, hsump, hpins, -, e⟩ := pinCfgWrite_spec s m val hl
    have hnone : pinCfgWrite s m val.toNat = u := by
      rw [e]
      refine tripEach_none (fun q hmem => ?_) u
      have hlt : q < 16 := List.mem_range.mp hmem
      cases hen' : tbit (val.toNat % 2 ^ 16) q
      · rfl
      · have hv : val.getLsbD q = true := by rwa [tbit_mod _ _ _ hlt, tbit_toNat] at hen'
        have hu : u.pinActive q = false := by
          rw [State.pinActive, hpins, hpol, hq ⟨q, hlt⟩ hv, ← tbit_toNat, tbit_div_pow, bne_self_eq_false, Bool.and_false]
        rw [hu, Bool.and_false]
    exact ⟨_, congrArg Host.Outcome.next hnone, hen, hpol, hlat, hsump⟩
  · obtain ⟨u, hen, hpol, -, -, hpins, helec, e⟩ := pinCfgWrite_spec s m val hl
    obtain ⟨hsame, hblk⟩ := tripEach_spec (fun p => (tbit (val.toNat % 2 ^ 16) p &&
      (!tbit (s.fld PRT_PIN_CFG_EN) p || tbit (s.fld PRT_PIN_CFG_POL) p != tbit (val.toNat / 2 ^ 16) p)) && u.pinActive p) (upto 16) u
    have hu : u.pinActive p = true := by
      rw [State.pinActive, helec, hb, hpins, hpol, tbit_div_pow, tbit_toNat]; simpa using hp
    have hblocked := hblk (.inr ⟨p, List.mem_range.mpr p.isLt, by rw [tbit_mod _ _ _ p.isLt, tbit_toNat, hv, he, hu]; rfl⟩)
    exact ⟨_, congrArg Host.Outcome.next e, (hsame _ (by decide)).trans hen, (hsame _ (by decide)).trans hpol, hblocked⟩
  · exact ⟨_, congrArg Host.Outcome.next (forceWrite_set s val hk hg), blockCause_blocked s .force, onlyBlock_blockCause s .force,
      blockCause_sump s .force⟩
  · exact ⟨_, congrArg Host.Outcome.next (forceWrite_badKey s val hk), (send_frame s _ _ _).1, (send_frame s _ _ _).2, told_send s _ _ _⟩

end Sys2Proof.Machine
end


section
/-! PROOFS. O30 fails in its clause on PLL_LOCK. The clause says of every state that all four lock flags read 1 after the
last lock, and takes a flag as set before when its field is not 0. A state whose one-bit field holds a larger number (no
command leaves one, since `State.setFld` cuts to the width) shows the lock and keeps that number. -/
namespace Sys2Proof.Machine
open Sys2Proof

/-- In RESET with the reset released and every PLL locked, the one-bit flag of PLL_SYS holding the number 2. -/
def wideLockFlag : State :=
  { regs := [(CLK_MON_SYS_LOCK.key, 2), (CLK_MON_TIME_LOCK.key, 1), (CLK_MON_LANE_LOCK.key, 1), (CLK_MON_STN_LOCK.key, 1)],
    elec := { inReset := false } }

/-- The state meets the hypotheses of the clause: RESET, released, and every flag shows its lock. -/
theorem wideLockFlag_locked : wideLockFlag.op = 0 ∧ wideLockFlag.elec.inReset = false ∧
    wideLockFlag.ctl.lost.contains 0x016 = false ∧ ∀ i < 4, wideLockFlag.bit (lockFlds.getD i CLK_MON_SYS_LOCK) = true := by
  decide

/-- PLL_LOCK without a further lock goes on to LOAD and leaves the flag of PLL_SYS as it was. -/
theorem pllLock_wideLockFlag : (pllLock wideLockFlag 0 false).fld CLK_MON_SYS_LOCK = 2 := by decide +kernel

/-- Refutes O30: the flag of PLL_SYS that holds 2 shows a lock, and after PLL_LOCK it reads 2, not 1. -/
theorem not_resetsSuppliesAndTemperature : ¬ Obligations.ResetsSuppliesAndTemperature := by
  unfold Obligations.ResetsSuppliesAndTemperature
  rintro ⟨-, -, -, -, -, -, lock, -⟩
  obtain ⟨hop, hrst, hlost, hlock⟩ := wideLockFlag_locked
  obtain ⟨t, ht, hflags, -⟩ := (lock wideLockFlag 0 false hop hrst hlost).1 fun i hi => (Bool.or_eq_true _ _).mpr (Or.inr (hlock i hi))
  obtain rfl : pllLock wideLockFlag 0 false = t := Host.Outcome.next.inj ht
  have hone := hflags CLK_MON_SYS_LOCK (by decide)
  rw [pllLock_wideLockFlag] at hone
  exact absurd hone (by decide)

end Sys2Proof.Machine
end


section
/-! PROOFS. What every function reset does before its own part (R328): it is recorded as in progress, an escalated one
sets the latched block, and the status fields of its block return to their reset values (R11). -/
namespace Sys2Proof.Machine
open Sys2Proof

/-! ### The record of a function reset -/

/-- A function reset is in progress, by its number 64 × function + index. -/
def State.inProgress (s : State) (code : Nat) : Bool := s.sump.fresets.any fun p => p.1 == code

theorem inProgress_congr {s t : State} (h : t.sump.fresets = s.sump.fresets) (code : Nat) : t.inProgress code = s.inProgress code := by
  rw [State.inProgress, h]; rfl

theorem count_fresets (s : State) (c o : Fld) (i k : Nat) : (s.count c o i k).sump.fresets = s.sump.fresets := by rw [count_eq]

theorem sendAs_fresets (s : State) (a k d c i : Nat) : (s.sendAs a k d c i).sump.fresets = s.sump.fresets := by
  unfold State.sendAs
  extract_lets slot
  split
  · rfl
  · rw [count_fresets]

theorem send_fresets (s : State) (a k d : Nat) : (s.send a k d).sump.fresets = s.sump.fresets := sendAs_fresets ..

/-- The part of a request that comes before its record: the latched block where the function escalates. -/
theorem fresetRequest_new {s : State} {fn idx : Nat} (h : s.inProgress (64 * fn + idx) = false) (esc : Bool) :
    s.fresetRequest fn idx 0 esc =
      { s.when esc (·.blockCause .sump) with
        sump := { (s.when esc (·.blockCause .sump)).sump with fresets := s.sump.fresets ++ [(64 * fn + idx, 0)] } } := by
  unfold State.fresetRequest
  rw [State.inProgress] at h
  simp only [h, Bool.false_eq_true, if_false, if_true]
  cases esc
  · rfl
  · simp only [State.when, if_true, blockCause_sump]

theorem fresetRequest_old {s : State} {fn idx : Nat} (h : s.inProgress (64 * fn + idx) = true) (esc : Bool) :
    s.fresetRequest fn idx 0 esc = s := by
  unfold State.fresetRequest
  exact if_pos h

/-- A function reset that starts is in progress. -/
theorem fresetBegin_inProgress (s : State) (fn idx : Nat) : (s.fresetBegin fn idx).inProgress (64 * fn + idx) = true := by
  unfold State.fresetBegin State.inProgress
  cases h : s.inProgress (64 * fn + idx)
  · rw [fresetRequest_new h]; simp
  · rw [fresetRequest_old h]; exact h

/-- One that does not escalate changes nothing but its record. -/
theorem fresetBegin_plain (s : State) {fn : Nat} (idx : Nat) (h : escalated fn = false) :
    s.fresetBegin fn idx = { s with sump := (s.fresetBegin fn idx).sump } := by
  unfold State.fresetBegin
  cases hp : s.inProgress (64 * fn + idx)
  · rw [fresetRequest_new hp, h]; rfl
  · rw [fresetRequest_old hp]

/-- One that escalates changes beside its record what a block cause does (R228). -/
theorem fresetBegin_eq (s : State) (fn idx : Nat) : s.fresetBegin fn idx =
    { s with regs := (s.fresetBegin fn idx).regs, prot := (s.fresetBegin fn idx).prot, acq := (s.fresetBegin fn idx).acq,
             lanes := (s.fresetBegin fn idx).lanes, sump := (s.fresetBegin fn idx).sump } := by
  unfold State.fresetBegin
  cases hp : s.inProgress (64 * fn + idx)
  · rw [fresetRequest_new hp]
    cases escalated fn
    · rfl
    · simp only [State.when, if_true]; rw [blockCause_eq]
  · rw [fresetRequest_old hp]

theorem fresetBegin_mem (s : State) (fn idx : Nat) : (s.fresetBegin fn idx).mem = s.mem := by rw [fresetBegin_eq]

theorem fresetBegin_regs (s : State) {fn : Nat} (idx : Nat) (h : escalated fn = false) : (s.fresetBegin fn idx).regs = s.regs := by
  rw [fresetBegin_plain s idx h]

theorem fresetBegin_lanes (s : State) {fn : Nat} (idx : Nat) (h : escalated fn = false) : (s.fresetBegin fn idx).lanes = s.lanes := by
  rw [fresetBegin_plain s idx h]

theorem sameRegs_fresetBegin (s : State) (fn idx : Nat) : SameRegs blockFlds s (s.fresetBegin fn idx) := by
  unfold State.fresetBegin
  cases hp : s.inProgress (64 * fn + idx)
  · rw [fresetRequest_new hp]
    cases escalated fn
    · exact sameRegs_of_regs _ rfl
    · exact sameRegs_blockCause s .sump
  · rw [fresetRequest_old hp]; exact sameRegs_of_regs _ rfl

theorem fresetBegin_latched {s : State} {fn idx : Nat} (he : escalated fn = true) (hp : s.inProgress (64 * fn + idx) = false) :
    (s.fresetBegin fn idx).latched = true := by
  unfold State.fresetBegin
  rw [fresetRequest_new hp, he]
  exact blockCause_latched s .sump

/-! ### Registers that return to reset -/

/-- A table from which some keys are taken reads as before at the others and as its default at these. -/
theorem mget_filter_key {α : Type} (d : α) (p : Nat → Bool) (m : NMap α) (i : Nat) :
    mget d (m.filter fun q => p q.1) i = if p i then mget d m i else d := by
  induction m with
  | nil => simp [mget]
  | cons q m ih =>
    obtain ⟨k, v⟩ := q
    by_cases hk : k = i
    · subst hk
      cases hp : p k <;> simp_all [mget]
    · cases hp : p k <;> simp_all [mget]

/-- The places that the reset of a function leaves alone. -/
def keptKey (code : Nat) (kept : Nat → Bool) (k : Nat) : Bool :=
  !(addrFunctions (k / 32)).contains code || kept (k / 32) || configKey k

theorem resetStatus_eq (s : State) (code : Nat) (kept : Nat → Bool) :
    s.resetStatus code kept = { s with regs := (s.resetStatus code kept).regs } := rfl

theorem fld_resetStatus (s : State) (code : Nat) (kept : Nat → Bool) (f : Fld) :
    (s.resetStatus code kept).fld f = if keptKey code kept f.key then s.fld f else f.rst :=
  mget_filter_key f.rst (keptKey code kept) s.regs f.key

theorem fld_resetStatus_kept (s : State) {code : Nat} {kept : Nat → Bool} {f : Fld} (h : keptKey code kept f.key = true) :
    (s.resetStatus code kept).fld f = s.fld f := by rw [fld_resetStatus, if_pos h]

/-! ### Fields set to 0 -/

/-- Fields set to 0 group by group are set to 0 one by one. -/
theorem each_zero (l : List Nat) (fs : Nat → List Fld) (s : State) :
    s.each l (fun s n => (fs n).foldl (fun s f => s.setFld f 0) s) = (l.flatMap fs).foldl (fun s f => s.setFld f 0) s := by
  rw [List.foldl_flatMap]; rfl

theorem zero_mem (c : List Fld) (s : State) : (c.foldl (fun s f => s.setFld f 0) s).mem = s.mem := by rw [zero_eq]
theorem zero_sump (c : List Fld) (s : State) : (c.foldl (fun s f => s.setFld f 0) s).sump = s.sump := by rw [zero_eq]

theorem fld_zero_ne {c : List Fld} (s : State) {f : Fld} (h : ∀ g ∈ c, f.key ≠ g.key) :
    (c.foldl (fun s f => s.setFld f 0) s).fld f = s.fld f :=
  (sameRegs_refl c s).zero c (fun _ h => h) f h

end Sys2Proof.Machine
end


section
/-! PROOFS. Function resets of ports, sensors, station ports and time domains (R83, R259, R280, R401). -/
namespace Sys2Proof.Machine
open Sys2Proof

/-! ### CL, ML and SL lines -/

/-- The status and counter fields of a lane, all cleared by its function reset (R83, R89). -/
def lineStatus (l : Nat) : List Fld :=
  [CL_STAT_STATE l, CL_STAT_LOS l, CL_STAT_LOL l, CL_STAT_CDR_LOCK l, CL_STAT_MISS_RUN l,
    CL_STAT_PORT_SILENT l, CL_STAT_PORT_ID l, CL_STAT_LB_ENDED l, CL_STAT_ALERT_SEEN l,
    CL_CNT_LOS l, CL_CNT_LOL l, CL_CNT_MISS l, CL_CNT_STUFF l, CL_CNT_MFIX l, CL_CNT_MBAD l, CL_CNT_DEFER l,
    CL_CNT_LB l, CL_CNT_RXFRM_LO l, CL_CNT_RXFRM_HI l, CL_CNT_OVF l]

/-- The delays of a CL port's cells go first (R116). -/
def lineLeft (s : State) (l : Nat) : State := if l < 32 then s.portLeft l else s

/-- The loop-back shown as it is set, and the lane's own state of a port that is not up. -/
def laneIdle (s : State) (l : Nat) : State :=
  let s := s.setFld (CL_STAT_LB_ACTIVE l) (b2n (s.fld (CL_CTRL_LB l) != 0))
  s.setLane l { s.lane l with faultedBy := .none, faultedAt := 0, wrongRun := 0, rx := [], seen := false, spaced := false }

/-- The lane at rest: its status cleared, before the port comes up again. -/
def lineIdle (s : State) (l : Nat) : State := laneIdle ((lineStatus l).foldl (fun s f => s.setFld f 0) (lineLeft s l)) l

theorem lineReset_eq (s : State) (l : Nat) :
    lineReset s l = if (lineIdle s l).bit (CL_CTRL_EN l) then portUp (lineIdle s l) l else lineIdle s l := rfl

theorem lineLeft_eq (s : State) (l : Nat) : lineLeft s l =
    { s with pdly := (lineLeft s l).pdly, ccell := (lineLeft s l).ccell, mem := (lineLeft s l).mem } := by
  unfold lineLeft
  split
  · exact portLeft_eq s l
  · rfl

theorem laneIdle_eq (s : State) (l : Nat) : laneIdle s l = { s with regs := (laneIdle s l).regs, lanes := (laneIdle s l).lanes } := rfl

theorem fld_laneIdle_ne (s : State) {l : Nat} {f : Fld} (h : (CL_STAT_LB_ACTIVE l).key ≠ f.key) : (laneIdle s l).fld f = s.fld f :=
  (fld_setLane ..).trans (fld_setFld_ne _ _ h)

theorem lineIdle_eq (s : State) (l : Nat) : lineIdle s l =
    { s with regs := (lineIdle s l).regs, lanes := (lineIdle s l).lanes, pdly := (lineIdle s l).pdly,
             ccell := (lineIdle s l).ccell, mem := (lineIdle s l).mem } := by
  unfold lineIdle
  rw [laneIdle_eq, zero_eq, lineLeft_eq]

theorem lineIdle_mem (s : State) {l : Nat} (h : 32 ≤ l) : (lineIdle s l).mem = s.mem := by
  unfold lineIdle lineLeft
  rw [laneIdle_eq, zero_eq, if_neg (by omega)]

/-- The places of a lane's fields. -/
theorem lineFlds_apart : ∀ l : Fin 40, (CL_STAT_LB_ACTIVE l :: CL_CTRL_EN l :: lineStatus l).Pairwise fun f g => f.key ≠ g.key := by
  decide

/-- A lane at rest reads 0 in all its status and keeps its enable. -/
theorem fld_lineIdle (s : State) (l : Fin 40) :
    (∀ f ∈ lineStatus l, (lineIdle s l).fld f = 0) ∧ (lineIdle s l).fld (CL_CTRL_EN l) = s.fld (CL_CTRL_EN l) := by
  obtain ⟨hlb, hen⟩ := List.pairwise_cons.mp (lineFlds_apart l)
  obtain ⟨hen, hst⟩ := List.pairwise_cons.mp hen
  unfold lineIdle
  constructor
  · intro f hf
    rw [fld_laneIdle_ne _ (hlb f (by simp [hf])), fld_zero hst _ hf]
  · rw [fld_laneIdle_ne _ (hlb _ (by simp)), fld_zero_ne _ hen, lineLeft_eq]; rfl

/-- The port's registers when it comes up. -/
def upRegs (s : State) (l : Nat) : State :=
  (((s.flag (CL_CTRL_EN l)).setFld (CL_STAT_STATE l) 1).flag (CL_STAT_LOS l)).flag (CL_STAT_LOL l)

theorem portUp_off (s : State) {l : Nat} (h : s.portState l = 0) : portUp s l = { upRegs s l with lanes := (portUp s l).lanes } := by
  have hs : (s.flag (CL_CTRL_EN l)).portState l = 0 := h ▸ fld_setFld_ne _ _ (by simp [Fld.key, CL_CTRL_EN, CL_STAT_STATE])
  obtain ⟨hp, hc, hm⟩ := setPort_keep (s.flag (CL_CTRL_EN l)) l 1 (Or.inr (by rw [hs]; decide))
  have hport : (s.flag (CL_CTRL_EN l)).setPort l 1 = (s.flag (CL_CTRL_EN l)).setFld (CL_STAT_STATE l) 1 := by
    rw [setPort_eq, hp, hc, hm]; rfl
  unfold portUp
  simp only [hs, if_true, hport]
  rfl

theorem fld_portUp_off {s : State} {l : Nat} (h : s.portState l = 0) (f : Fld) : (portUp s l).fld f = (upRegs s l).fld f :=
  fld_congr (by rw [portUp_off s h]) f

/-- What a port that comes up shows. -/
theorem fld_upRegs (s : State) (l : Fin 40) :
    (upRegs s l).fld (CL_CTRL_EN l) = 1 ∧ (upRegs s l).portState l = 1 ∧ (upRegs s l).fld (CL_STAT_LOS l) = 1 ∧
      (upRegs s l).fld (CL_STAT_LOL l) = 1 := by
  have apart : [CL_CTRL_EN l, CL_STAT_STATE l, CL_STAT_LOS l, CL_STAT_LOL l].Pairwise fun f g => g.key ≠ f.key := by
    revert l; decide
  simp only [List.pairwise_cons, List.mem_cons, List.not_mem_nil, or_false, forall_eq_or_imp, forall_eq, IsEmpty.forall_iff,
    implies_true, List.Pairwise.nil, and_true] at apart
  obtain ⟨⟨a1, a2, a3⟩, ⟨b1, b2⟩, c1⟩ := apart
  unfold upRegs State.portState State.flag
  refine ⟨?_, ?_, ?_, ?_⟩
  · rw [fld_setFld_ne _ _ a3, fld_setFld_ne _ _ a2, fld_setFld_ne _ _ a1, fld_setFld_same]; rfl
  · rw [fld_setFld_ne _ _ b2, fld_setFld_ne _ _ b1, fld_setFld_same]; rfl
  · rw [fld_setFld_ne _ _ c1, fld_setFld_same]; rfl
  · rw [fld_setFld_same]; rfl

theorem sameRegs_upRegs (s : State) (l : Nat) : SameRegs [CL_CTRL_EN l, CL_STAT_STATE l, CL_STAT_LOS l, CL_STAT_LOL l] s (upRegs s l) :=
  ((((sameRegs_refl _ s).flag (by simp)).setFld 1 (by simp)).flag (by simp)).flag (by simp)

/-- The counters named in the statement lie apart from what a port's coming up writes. -/
theorem counters_apart : ∀ l : Fin 40, ∀ f ∈ [CL_CNT_LOS l, CL_CNT_MISS l, CL_CNT_STUFF l],
    f ∈ lineStatus l ∧ ∀ g ∈ [CL_CTRL_EN l, CL_STAT_STATE l, CL_STAT_LOS l, CL_STAT_LOL l], f.key ≠ g.key := by
  decide

/-- What a function reset of a line leaves (R83): counters at 0, the enable kept, and the port OFF, or DARK with both losses. -/
theorem lineReset_port (s : State) (l : Fin 40) :
    (∀ f ∈ [CL_CNT_LOS l, CL_CNT_MISS l, CL_CNT_STUFF l], (lineReset s l).fld f = 0) ∧
      (s.fld (CL_CTRL_EN l) = 0 → (lineReset s l).fld (CL_CTRL_EN l) = 0 ∧ (lineReset s l).portState l = 0) ∧
      (s.fld (CL_CTRL_EN l) = 1 → (lineReset s l).fld (CL_CTRL_EN l) = 1 ∧ (lineReset s l).portState l = 1 ∧
        (lineReset s l).fld (CL_STAT_LOS l) = 1 ∧ (lineReset s l).fld (CL_STAT_LOL l) = 1) := by
  obtain ⟨hzero, hen⟩ := fld_lineIdle s l
  have hoff : (lineIdle s l).portState l = 0 := hzero _ (by simp [lineStatus])
  rw [lineReset_eq]
  split
  next hb =>
    have h0 : s.fld (CL_CTRL_EN l) ≠ 0 := by rw [← hen]; simpa [State.bit] using hb
    have hf := fld_portUp_off hoff
    refine ⟨fun f hf' => ?_, fun h => absurd h h0, fun _ => ?_⟩
    · obtain ⟨hm, ha⟩ := counters_apart l f hf'
      rw [hf, sameRegs_upRegs _ _ f ha, hzero f hm]
    · rw [State.portState, hf, hf, hf, hf]; exact fld_upRegs _ l
  next hb =>
    have h0 : s.fld (CL_CTRL_EN l) = 0 := by rw [← hen]; simpa [State.bit] using hb
    exact ⟨fun f hf => hzero f (counters_apart l f hf).1, fun _ => ⟨hen.trans h0, hoff⟩, fun h => absurd (h0.symm.trans h) (by decide)⟩

/-- Nothing changes but registers, lanes and what a CL port's cells have. -/
def LineFrame (s t : State) : Prop :=
  t = { s with regs := t.regs, lanes := t.lanes, pdly := t.pdly, ccell := t.ccell, mem := t.mem }

theorem LineFrame.trans {s t u : State} (h : LineFrame s t) (k : LineFrame t u) : LineFrame s u := by
  unfold LineFrame at *; rw [k, h]

theorem LineFrame.sump {s t : State} (h : LineFrame s t) : t.sump = s.sump := by rw [h]

theorem lineFrame_portUp (s : State) {l : Nat} (h : s.portState l = 0) :
    LineFrame s (portUp s l) ∧ (portUp s l).mem = s.mem := by
  rw [portUp_off s h]; exact ⟨rfl, rfl⟩

theorem lineFrame_lineReset (s : State) (l : Fin 40) :
    LineFrame s (lineReset s l) ∧ (32 ≤ l.val → (lineReset s l).mem = s.mem) := by
  have hoff : (lineIdle s l).portState l = 0 := (fld_lineIdle s l).1 _ (by simp [lineStatus])
  have hidle : LineFrame s (lineIdle s l) := lineIdle_eq s l
  obtain ⟨hup, hmem⟩ := lineFrame_portUp _ hoff
  rw [lineReset_eq]
  split
  · exact ⟨hidle.trans hup, fun h => hmem.trans (lineIdle_mem s h)⟩
  · exact ⟨hidle, fun h => lineIdle_mem s h⟩

/-- The enable is a configuration field, which the reset of its port keeps (R11). -/
theorem enable_kept : (∀ n : Fin 32, keptKey (64 + n) noKept (CL_CTRL_EN n).key = true) ∧
    ∀ n : Fin 4, keptKey (192 + n) noKept (CL_CTRL_EN (36 + n)).key = true := by
  decide

/-- What begins every function reset that does not escalate: the record, and the status fields of the block. -/
theorem fld_begun (s : State) {fn : Nat} (idx : Nat) (he : escalated fn = false) {code : Nat} {kept : Nat → Bool} {f : Fld}
    (hk : keptKey code kept f.key = true) : ((s.fresetBegin fn idx).resetStatus code kept).fld f = s.fld f := by
  rw [fld_resetStatus_kept _ hk, fld_congr (fresetBegin_regs s idx he)]

theorem begun_inProgress (s : State) (fn idx code : Nat) (kept : Nat → Bool) :
    ((s.fresetBegin fn idx).resetStatus code kept).inProgress (64 * fn + idx) = true := by
  rw [← fresetBegin_inProgress s fn idx]; exact inProgress_congr rfl _

/-- A function reset of a port (R83), in the terms of the statement. -/
theorem portFreset_spec (s : State) {fn : Nat} (idx : Nat) (l : Fin 40) (he : escalated fn = false)
    (hk : keptKey (64 * fn + idx) noKept (CL_CTRL_EN l).key = true) :
    (s.portFreset fn idx l).inProgress (64 * fn + idx) = true ∧ (32 ≤ l.val → (s.portFreset fn idx l).mem = s.mem) ∧
    (∀ f ∈ [CL_CNT_LOS l, CL_CNT_MISS l, CL_CNT_STUFF l], (s.portFreset fn idx l).fld f = 0) ∧
      (s.fld (CL_CTRL_EN l) = 0 → (s.portFreset fn idx l).fld (CL_CTRL_EN l) = 0 ∧ (s.portFreset fn idx l).portState l = 0) ∧
      (s.fld (CL_CTRL_EN l) = 1 → (s.portFreset fn idx l).fld (CL_CTRL_EN l) = 1 ∧ (s.portFreset fn idx l).portState l = 1 ∧
        (s.portFreset fn idx l).fld (CL_STAT_LOS l) = 1 ∧ (s.portFreset fn idx l).fld (CL_STAT_LOL l) = 1) := by
  have hport := lineReset_port ((s.fresetBegin fn idx).resetStatus (64 * fn + idx) noKept) l
  obtain ⟨hframe, hmem⟩ := lineFrame_lineReset ((s.fresetBegin fn idx).resetStatus (64 * fn + idx) noKept) l
  rw [fld_begun s idx he hk] at hport
  refine ⟨?_, fun h => ?_, hport⟩
  · exact (inProgress_congr (congrArg Sump.fresets hframe.sump) _).trans (begun_inProgress ..)
  · exact (hmem h).trans (fresetBegin_mem s fn idx)

/-! ### Sensor ports -/

/-- The fields of a sensor port and of a sensor channel that its function reset clears (R259). -/
def snsPortStatus (m : Nat) : List Fld :=
  [SNS_P_STAT_DCOMP m, SNS_P_STAT_TBIN m, SNS_P_STAT_SYNC m, SNS_P_STAT_CFCODE m, SNS_P_HLTH m, SNS_P_CNT_CRC m,
    SNS_P_CNT_MISS m, SNS_P_CNT_LATE m, SNS_P_CNT_OVF m]
def snsChanStatus (n : Nat) : List Fld := [SNS_CH_STAT_NOW n, SNS_CH_STAT_SEEN n, SNS_CH_STAT_CNT n]
def snsStatus : List Fld := (upto 4).flatMap snsPortStatus ++ (upto 32).flatMap snsChanStatus

theorem snsFreset_eq (s : State) : s.snsFreset = { snsStatus.foldl (fun s f => s.setFld f 0) s with sns := [] } := by
  rw [snsStatus, List.foldl_append, ← each_zero, ← each_zero]; rfl

theorem snsFreset_regs (s : State) : s.snsFreset.regs = (snsStatus.foldl (fun s f => s.setFld f 0) s).regs := by rw [snsFreset_eq]

theorem snsFreset_rest (s : State) : s.snsFreset.sump = s.sump ∧ s.snsFreset.lanes = s.lanes ∧ s.snsFreset.mem = s.mem ∧ s.snsFreset.sns = [] := by
  rw [snsFreset_eq, zero_eq]; exact ⟨rfl, rfl, rfl, rfl⟩

theorem snsStatus_apart : snsStatus.Pairwise fun f g => f.key ≠ g.key := by decide +kernel

theorem snsFlds : ∀ m : Fin 4, (∀ f ∈ [SNS_P_CNT_CRC m, SNS_P_CNT_MISS m, SNS_P_CNT_LATE m], f ∈ snsStatus) ∧
    (∀ g ∈ snsStatus, (SNS_P_CFG_ID m).key ≠ g.key) ∧ keptKey 128 noKept (SNS_P_CFG_ID m).key = true := by
  decide +kernel

theorem fresetSensor_spec (s : State) :
    let t := ((s.fresetBegin 2 0).resetStatus 128 noKept).snsFreset
    t.inProgress 128 = true ∧ t.sns = [] ∧ t.lanes = s.lanes ∧ t.mem = s.mem ∧
    ∀ m : Fin 4, t.fld (SNS_P_CNT_CRC m) = 0 ∧ t.fld (SNS_P_CNT_MISS m) = 0 ∧ t.fld (SNS_P_CNT_LATE m) = 0 ∧
      t.fld (SNS_P_CFG_ID m) = s.fld (SNS_P_CFG_ID m) := by
  obtain ⟨hsump, hlanes, hmem, hsns⟩ := snsFreset_rest ((s.fresetBegin 2 0).resetStatus 128 noKept)
  have hf := fld_congr (snsFreset_regs ((s.fresetBegin 2 0).resetStatus 128 noKept))
  refine ⟨?_, hsns, hlanes.trans (fresetBegin_lanes s 0 rfl), hmem.trans (fresetBegin_mem s 2 0), fun m => ?_⟩
  · exact (inProgress_congr (congrArg Sump.fresets hsump) _).trans (begun_inProgress s 2 0 128 noKept)
  · obtain ⟨hz, hne, hk⟩ := snsFlds m
    rw [hf, hf, hf, hf]
    exact ⟨fld_zero snsStatus_apart _ (hz _ (by simp)), fld_zero snsStatus_apart _ (hz _ (by simp)),
      fld_zero snsStatus_apart _ (hz _ (by simp)), (fld_zero_ne _ hne).trans (fld_begun s 0 rfl hk)⟩

/-! ### Station ports -/

/-- The status and counters of a station port (R401). -/
def stnStatus (p : Nat) : List Fld :=
  [STN_STAT_LINK p, STN_STAT_HIBER p, STN_STAT_DOWN_SEEN p, STN_C0_LAT_LAST p, STN_C0_LAT_MAX p, STN_CNT_OVF p]
    ++ (upto 10).map (STN_CNT p)

theorem stnFreset_eq (s : State) (p : Nat) :
    s.stnFreset p = { (stnStatus p).foldl (fun s f => s.setFld f 0) s with stn := (s.stnFreset p).stn } := by
  rw [stnStatus, List.foldl_append, List.foldl_map]; rfl

theorem stnFreset_regs (s : State) (p : Nat) : (s.stnFreset p).regs = ((stnStatus p).foldl (fun s f => s.setFld f 0) s).regs := by
  rw [stnFreset_eq]

theorem stnFreset_rest (s : State) (p : Nat) : (s.stnFreset p).sump = s.sump ∧ (s.stnFreset p).mem = s.mem := by
  rw [stnFreset_eq, zero_eq]; exact ⟨rfl, rfl⟩

theorem stnFlds : ∀ p : Fin 4, ((stnStatus p).Pairwise fun f g => f.key ≠ g.key) ∧ (∀ g ∈ stnStatus p, (STN_CTRL_EN p).key ≠ g.key) := by
  decide

theorem fresetStation_spec (s : State) (n : Fin 4) :
    let t := (s.fresetBegin 4 n).stnFreset n
    t.inProgress (256 + n.val) = true ∧ t.fld (STN_STAT_LINK n) = 0 ∧ (∀ i : Fin 10, t.fld (STN_CNT n i) = 0) ∧
      t.fld (STN_CTRL_EN n) = s.fld (STN_CTRL_EN n) ∧ t.mem = s.mem := by
  obtain ⟨hz, hne⟩ := stnFlds n
  have hcnt (i : Fin 10) : STN_CNT n i ∈ stnStatus n := List.mem_append_right _ (List.mem_map.mpr ⟨i, List.mem_range.mpr i.isLt, rfl⟩)
  obtain ⟨hsump, hmem⟩ := stnFreset_rest (s.fresetBegin 4 n) n
  have hf := fld_congr (stnFreset_regs (s.fresetBegin 4 n) n)
  simp only [hf]
  refine ⟨?_, fld_zero hz _ (by simp [stnStatus]), fun i => fld_zero hz _ (hcnt i), ?_, hmem.trans (fresetBegin_mem s 4 n)⟩
  · exact (inProgress_congr (congrArg Sump.fresets hsump) _).trans (fresetBegin_inProgress s 4 n)
  · exact (fld_zero_ne _ hne).trans (fld_congr (fresetBegin_regs s _ rfl) _)

/-! ### Time domains -/

/-- The status fields of a domain that its function reset clears (R280). -/
def domStatus (d : Nat) : List Fld := [TIM_D_FREQ d, TIM_D_OFS d, TIM_D_STAT_QT d]

theorem domFlds : ∀ d : Fin 2, ((domStatus d).Pairwise fun f g => f.key ≠ g.key) ∧
    (∀ f ∈ TIM_D_STAT_STATE (1 - d.val) :: domStatus d, (TIM_D_STAT_STATE d).key ≠ f.key) ∧
    ∀ g ∈ domStatus d, (TIM_D_STAT_STATE (1 - d.val)).key ≠ g.key := by
  decide

theorem domFreset_regs (s : State) (d : Nat) : (s.domFreset d).regs =
    (((domStatus d).foldl (fun s f => s.setFld f 0) s).setFld (TIM_D_STAT_STATE d)
      (if s.fld (TIM_D_CFG_SRC d) = 0 then 0 else 2)).regs := by
  unfold State.domFreset State.setDom
  split <;> rfl

theorem dom_domFreset (s : State) (d : Fin 2) : (s.domFreset d).dom d = { ld := s.time.l16 / 65536 } ∧
    (s.domFreset d).dom (1 - d.val) = s.dom (1 - d.val) ∧ (s.domFreset d).sump = s.sump := by
  fin_cases d <;> exact ⟨rfl, rfl, rfl⟩

theorem fld_domFreset (s : State) (d : Fin 2) :
    (s.domFreset d).domSt d = (if s.fld (TIM_D_CFG_SRC d) = 0 then 0 else 2) ∧ (s.domFreset d).fld (TIM_D_FREQ d) = 0 ∧
    (s.domFreset d).fld (TIM_D_OFS d) = 0 ∧ (s.domFreset d).domSt (1 - d.val) = s.domSt (1 - d.val) := by
  have hf := fld_congr (domFreset_regs s d)
  obtain ⟨hz, hst, hother⟩ := domFlds d
  unfold State.domSt
  refine ⟨?_, ?_, ?_, ?_⟩
  · rw [hf, fld_setFld_same]; split <;> rfl
  · rw [hf, fld_setFld_ne _ _ (hst _ (by simp [domStatus])), fld_zero hz _ (by simp [domStatus])]
  · rw [hf, fld_setFld_ne _ _ (hst _ (by simp [domStatus])), fld_zero hz _ (by simp [domStatus])]
  · rw [hf, fld_setFld_ne _ _ (hst _ (by simp)), fld_zero_ne _ hother]

theorem fresetTime_spec (s : State) (d : Fin 2) :
    let t := (s.fresetBegin 5 d).domFreset d
    t.inProgress (320 + d.val) = true ∧ t.domSt d = (if s.fld (TIM_D_CFG_SRC d) = 0 then 0 else 2) ∧
      t.fld (TIM_D_FREQ d) = 0 ∧ t.fld (TIM_D_OFS d) = 0 ∧ t.dom d = { ld := s.time.l16 / 65536 } ∧
      t.dom (1 - d.val) = s.dom (1 - d.val) ∧ t.domSt (1 - d.val) = s.domSt (1 - d.val) := by
  obtain ⟨hst, hfreq, hofs, hother⟩ := fld_domFreset (s.fresetBegin 5 d) d
  obtain ⟨hdom, hdom', hsump⟩ := dom_domFreset (s.fresetBegin 5 d) d
  have htime : (s.fresetBegin 5 d).time = s.time := by rw [fresetBegin_eq]
  refine ⟨?_, ?_, hfreq, hofs, ?_, ?_, ?_⟩
  · exact (inProgress_congr (congrArg Sump.fresets hsump) _).trans (fresetBegin_inProgress s 5 d)
  · rw [hst, fld_congr (fresetBegin_regs s _ rfl)]
  · rw [hdom, htime]
  · rw [hdom', State.dom, htime, State.dom]
  · rw [hother, State.domSt, fld_congr (fresetBegin_regs s _ rfl), State.domSt]

end Sys2Proof.Machine
end


section
/-! PROOFS. The function resets that escalate (R328): engine, planner, selection, composer and protection (R125, R175,
R191, R227, R246). -/
namespace Sys2Proof.Machine
open Sys2Proof

/-- What every function reset that escalates answers for: its record, and the latched block where it is new. -/
theorem escalated_spec {s t : State} {fn idx : Nat} (he : escalated fn = true)
    (hs : t.sump = (s.fresetBegin fn idx).sump) (hl : t.fld PRT_STAT_LATCHED = (s.fresetBegin fn idx).fld PRT_STAT_LATCHED) :
    t.inProgress (64 * fn + idx) = true ∧ (s.inProgress (64 * fn + idx) = false → t.latched = true) := by
  refine ⟨(inProgress_congr (congrArg Sump.fresets hs) _).trans (fresetBegin_inProgress s fn idx), fun hp => ?_⟩
  rw [State.latched, State.bit, hl]
  exact fresetBegin_latched he hp

/-! ### Protection -/

/-- The flags and counters of the protection unit that its function reset clears (R246). -/
def cmpStatus (n : Nat) : List Fld :=
  [PRT_CMP_STAT_TRIP n, PRT_CMP_STAT_RUN n, PRT_CMP_STAT_HI_SEEN n, PRT_CMP_STAT_LO_SEEN n, PRT_CMP_STAT_RATE_SEEN n, PRT_CMP_STAT_BAD_SEEN n]
def protStatus : List Fld :=
  (upto 32).flatMap cmpStatus ++ [PRT_STAT_REL_REJ, PRT_PIN_STAT_SEEN, PRT_CNT_SET, PRT_CNT_RELREJ, PRT_CNT_OVF, PRT_CMP_SEEN]

theorem protFreset_eq (s : State) : s.protFreset =
    { protStatus.foldl (fun s f => s.setFld f 0) s with prot := s.protFreset.prot } := by
  rw [protStatus, List.foldl_append, ← each_zero]; rfl

theorem protFreset_regs (s : State) : s.protFreset.regs = (protStatus.foldl (fun s f => s.setFld f 0) s).regs := by rw [protFreset_eq]

theorem protFreset_rest (s : State) : s.protFreset.sump = s.sump ∧ s.protFreset.mem = s.mem ∧ s.protFreset.prot.cmps = [] := by
  refine ⟨?_, ?_, rfl⟩
  · rw [protFreset_eq, zero_eq]
  · rw [protFreset_eq, zero_eq]

theorem protFlds : (protStatus.Pairwise fun f g => f.key ≠ g.key) ∧ (∀ n : Fin 32, PRT_CMP_STAT_TRIP n ∈ protStatus) ∧
    ∀ g ∈ protStatus, PRT_STAT_LATCHED.key ≠ g.key := by
  decide +kernel

theorem fresetProtection_spec (s : State) :
    let t := (s.fresetBegin 15 0).protFreset
    (t.inProgress 960 = true ∧ (s.inProgress 960 = false → t.latched = true)) ∧ t.prot.cmps = [] ∧ t.mem = s.mem ∧
      ∀ n : Fin 32, t.fld (PRT_CMP_STAT_TRIP n) = 0 := by
  obtain ⟨hz, htrip, hl⟩ := protFlds
  obtain ⟨hsump, hmem, hcmps⟩ := protFreset_rest (s.fresetBegin 15 0)
  have hf := fld_congr (protFreset_regs (s.fresetBegin 15 0))
  refine ⟨escalated_spec rfl hsump ((hf _).trans (fld_zero_ne _ hl)), hcmps, hmem.trans (fresetBegin_mem s 15 0), fun n => ?_⟩
  exact (hf _).trans (fld_zero hz _ (htrip n))

/-! ### Engine -/

/-- The record of a state-block word of every channel rewritten (R227). -/
def engWord (s : State) (c : Nat) : State := s.wr (chanAddr c 10) 8 0x100000

theorem each_engWord_eq (l : List Nat) (s : State) : s.each l engWord = { s with mem := (s.each l engWord).mem } := by
  refine foldl_inv (fun t : State => t = { s with mem := t.mem }) engWord ?_ l s rfl
  intro a b h
  unfold engWord
  rw [wr_eq, h]

/-- Word 10 of a channel holds its reset value once it has been rewritten, whatever other channels follow. -/
theorem each_engWord_rd (l : List Nat) (c : Nat) : ∀ s : State, (c ∈ l ∨ s.rd (chanAddr c 10) 8 = 0x100000) →
    (s.each l engWord).rd (chanAddr c 10) 8 = 0x100000 := by
  induction l with
  | nil => intro s h; exact h.resolve_left (by simp)
  | cons b l ih =>
    intro s h
    refine ih _ ?_
    by_cases hb : c = b
    · subst hb; exact Or.inr (rd_wr_same ..)
    · rcases h with h | h
      · exact Or.inl ((List.mem_cons.mp h).resolve_left hb)
      · refine Or.inr ((rd_wr_out _ _ ?_).trans h)
        unfold chanAddr; omega

/-- What the function reset of the engine shows once the words are rewritten: the check of the Turn Order and the pending swap. -/
def engShown (s : State) (bad pend : Nat) : State :=
  { (s.setFld CE_STAT_TURN_ERR bad).setFld CE_SWAP_CTRL_PEND pend with eng := { s.eng with badRun := [] } }

theorem engShown_eq (s : State) (v w : Nat) : engShown s v w = { s with regs := (engShown s v w).regs, eng := { s.eng with badRun := [] } } := rfl

theorem engShown_regs (s : State) (v w : Nat) : (engShown s v w).regs = ((s.setFld CE_STAT_TURN_ERR v).setFld CE_SWAP_CTRL_PEND w).regs := rfl

theorem engFreset_shown (s : State) : ∃ z bad, s.engFreset = engShown z bad (b2n z.eng.swap.isSome) ∧ z = s.each (upto 192) engWord := by
  simp only [State.engFreset, show (fun (s : State) c => s.wr (chanAddr c 10) 8 0x100000) = engWord from rfl]
  exact ⟨_, _, rfl, rfl⟩

theorem engFreset_rest (s : State) : s.engFreset.sump = s.sump ∧ s.engFreset.eng = { s.eng with badRun := [] } ∧
    s.engFreset.mem = (s.each (upto 192) engWord).mem := by
  obtain ⟨z, bad, h, hz⟩ := engFreset_shown s
  have hsump : z.sump = s.sump := by rw [hz, each_engWord_eq]
  have heng : z.eng = s.eng := by rw [hz, each_engWord_eq]
  rw [h, engShown_eq]
  exact ⟨hsump, by rw [heng], by rw [hz]⟩

theorem fld_engFreset (s : State) : s.engFreset.fld CE_SWAP_CTRL_PEND = (if s.eng.swap.isSome then 1 else 0) ∧
    SameRegs [CE_STAT_TURN_ERR, CE_SWAP_CTRL_PEND] s s.engFreset := by
  obtain ⟨z, bad, h, hz⟩ := engFreset_shown s
  have hregs : z.regs = s.regs := by rw [hz, each_engWord_eq]
  have heng : z.eng = s.eng := by rw [hz, each_engWord_eq]
  have hf := fld_congr (engShown_regs z bad (b2n z.eng.swap.isSome))
  rw [h]
  constructor
  · rw [hf, fld_setFld_same, heng]
    cases s.eng.swap.isSome <;> rfl
  · intro f hm
    rw [hf, fld_setFld_ne _ _ (hm _ (by simp)).symm, fld_setFld_ne _ _ (hm _ (by simp)).symm, fld_congr hregs]

/-- The places of the engine that its function reset leaves alone: the banks (R205) and the latched block of the protection unit. -/
theorem engFlds : ∀ f ∈ PRT_STAT_LATCHED :: (upto 6).map CE_BANK_ACT, (∀ g ∈ [CE_STAT_TURN_ERR, CE_SWAP_CTRL_PEND], f.key ≠ g.key) ∧
    keptKey 704 (fun a => decide (0x40010 ≤ a ∧ a < 0x40028)) f.key = true := by
  decide

theorem bankFlds_blockCause : ∀ i < 6, ∀ g ∈ blockFlds, (CE_BANK_ACT i).key ≠ g.key := by decide

theorem fresetEngine_spec (s : State) :
    let t := ((s.fresetBegin 11 0).resetStatus 704 fun a => decide (0x40010 ≤ a ∧ a < 0x40028)).engFreset
    (t.inProgress 704 = true ∧ (s.inProgress 704 = false → t.latched = true)) ∧ t.eng = { s.eng with badRun := [] } ∧
      t.fld CE_SWAP_CTRL_PEND = (if s.eng.swap.isSome then 1 else 0) ∧
      ∀ c : Fin 192, t.rd (chanAddr c 10) 8 = 0x100000 ∧ t.bankOf c = s.bankOf c := by
  have heng : (s.fresetBegin 11 0).eng = s.eng := by rw [fresetBegin_eq]
  intro t
  obtain ⟨hsump, he, hmem⟩ := engFreset_rest ((s.fresetBegin 11 0).resetStatus 704 fun a => decide (0x40010 ≤ a ∧ a < 0x40028))
  obtain ⟨hpend, hregs⟩ := fld_engFreset ((s.fresetBegin 11 0).resetStatus 704 fun a => decide (0x40010 ≤ a ∧ a < 0x40028))
  have hkept : ∀ f ∈ PRT_STAT_LATCHED :: (upto 6).map CE_BANK_ACT, t.fld f = (s.fresetBegin 11 0).fld f := fun f hf =>
    (hregs f (engFlds f hf).1).trans (fld_resetStatus_kept _ (engFlds f hf).2)
  have hesc := escalated_spec (t := t) (fn := 11) (idx := 0) rfl hsump (hkept _ List.mem_cons_self)
  have heng' : t.eng = { s.eng with badRun := [] } := he.trans (by rw [resetStatus_eq, heng])
  refine ⟨hesc, heng', hpend.trans (by rw [resetStatus_eq, heng]), fun c => ⟨?_, ?_⟩⟩
  · rw [State.rd, hmem]
    exact each_engWord_rd (upto 192) c _ (Or.inl (List.mem_range.mpr c.isLt))
  · have hc : c.val / 32 < 6 := by omega
    rw [State.bankOf, hkept _ (List.mem_cons_of_mem _ (List.mem_map.mpr ⟨_, List.mem_range.mpr hc, rfl⟩)),
      sameRegs_fresetBegin s 11 0 _ (bankFlds_blockCause _ hc), State.bankOf]

/-! ### Planner -/

/-- An arm in its safe state: no count, no pip, nothing given out. -/
def safeArm (x : PlnArm) : Prop := x.act = false ∧ x.n = 0 ∧ x.pip = none

/-- Nothing changes but the planner's arms. -/
def PlnOnly (s t : State) : Prop := t = { s with pln := t.pln }

theorem PlnOnly.trans {s t u : State} (h : PlnOnly s t) (k : PlnOnly t u) : PlnOnly s u := by
  unfold PlnOnly at *; rw [k, h]

theorem safeArm_pointer {x : PlnArm} (h : safeArm x) (p : Nat) : safeArm { x with pptr := p } := h

theorem PlnOnly.rest {s t : State} (h : PlnOnly s t) : t.regs = s.regs ∧ t.sump = s.sump ∧ t.pat = s.pat := by
  unfold PlnOnly at h; rw [h]; exact ⟨rfl, rfl, rfl⟩

theorem plnOnly_setPlnA (s : State) (a : Nat) (x : PlnArm) : PlnOnly s (s.setPlnA a x) := rfl

theorem pipSeed_safe (s : State) (hs : ∀ a, safeArm (s.plnA a)) : PlnOnly s s.pipSeed ∧ ∀ a, safeArm (s.pipSeed.plnA a) := by
  unfold State.pipSeed State.each
  refine foldl_inv (fun t : State => PlnOnly s t ∧ ∀ a, safeArm (t.plnA a)) _ ?_ (upto 6) s ⟨rfl, hs⟩
  rintro t b ⟨ht, ha⟩
  refine ⟨ht.trans (plnOnly_setPlnA ..), fun a => ?_⟩
  rw [State.plnA, State.setPlnA, mget_mset]
  split
  · exact safeArm_pointer (ha b) _
  · exact ha a

/-- The registers that show an arm's pip. -/
def armFlds (a : Nat) : List Fld := [PLN_ARM_PIP_PIPG a, PLN_ARM_PIP_VALID a, PLN_ARM_PIP_PS a, PLN_ARM_PIP_TL a, PLN_ARM_BAL a]

theorem sameRegs_showArm (s : State) (a : Nat) : SameRegs (armFlds a) s (s.showArm a) :=
  (((((sameRegs_refl _ s).setFld _ (by simp [armFlds])).setFld _ (by simp [armFlds])).setFld _ (by simp [armFlds])).setFld _
    (by simp [armFlds])).setFld _ (by simp [armFlds])

theorem showArm_noPip (s : State) (a : Nat) (h : safeArm (s.plnA a)) : (s.showArm a).fld (PLN_ARM_PIP_VALID a) = 0 := by
  unfold State.showArm
  rw [fld_setFld_ne _ _ (by simp only [Fld.key, PLN_ARM_BAL, PLN_ARM_PIP_VALID]; omega),
    fld_setFld_ne _ _ (by simp only [Fld.key, PLN_ARM_PIP_TL, PLN_ARM_PIP_VALID]; omega),
    fld_setFld_ne _ _ (by simp only [Fld.key, PLN_ARM_PIP_PS, PLN_ARM_PIP_VALID]; omega), fld_setFld_same, h.2.2]
  rfl

theorem valid_apart {a b : Nat} (h : a ≠ b) : ∀ g ∈ armFlds b, (PLN_ARM_PIP_VALID a).key ≠ g.key := by
  simp only [armFlds, List.mem_cons, List.not_mem_nil, or_false, forall_eq_or_imp, forall_eq, Fld.key, PLN_ARM_PIP_PIPG, PLN_ARM_PIP_VALID,
    PLN_ARM_PIP_PS, PLN_ARM_PIP_TL, PLN_ARM_BAL]
  omega

/-- The arms shown one after another: an arm in its safe state shows no pip, and nothing else is written. -/
theorem each_showArm (l : List Nat) : ∀ s : State, (∀ a, safeArm (s.plnA a)) →
    OnlyRegs (l.flatMap armFlds) s (s.each l State.showArm) ∧
    ∀ a, (a ∈ l ∨ s.fld (PLN_ARM_PIP_VALID a) = 0) → (s.each l State.showArm).fld (PLN_ARM_PIP_VALID a) = 0 := by
  induction l with
  | nil => exact fun s _ => ⟨⟨rfl, sameRegs_refl _ _⟩, fun a h => h.resolve_left (by simp)⟩
  | cons b l ih =>
    intro s hs
    obtain ⟨⟨h1, h2⟩, h3⟩ := ih (s.showArm b) hs
    refine ⟨⟨h1, ((sameRegs_showArm s b).mono fun f hf => List.mem_append_left _ hf).trans
      (h2.mono fun f hf => List.mem_append_right _ hf)⟩, fun a ha => h3 a ?_⟩
    by_cases hb : a = b
    · subst hb; exact Or.inr (showArm_noPip s a (hs a))
    · rcases ha with ha | ha
      · exact Or.inl ((List.mem_cons.mp ha).resolve_left hb)
      · exact Or.inr ((sameRegs_showArm s b _ (valid_apart hb)).trans ha)

theorem OnlyRegs.rest {fs : List Fld} {s t : State} (h : OnlyRegs fs s t) : t.sump = s.sump ∧ t.pat = s.pat ∧ t.pln = s.pln := by
  obtain ⟨h, -⟩ := h; rw [h]; exact ⟨rfl, rfl, rfl⟩

/-- The planner without a pattern being written and with every arm at rest. -/
def plnCleared (s : State) : State :=
  ({ s with pln := [], pat := { s.pat with perW := false, dutyW := false } }).setFld PLN_STAT_COMMIT_PEND 0

theorem plnFlds : ∀ g ∈ (upto 6).flatMap armFlds, PLN_STAT_COMMIT_PEND.key ≠ g.key ∧ PRT_STAT_LATCHED.key ≠ g.key := by decide

theorem plnFreset_spec (s : State) :
    let t := s.plnFreset
    t.sump = s.sump ∧ t.pat.lo = s.pat.lo ∧ t.pat.hi = s.pat.hi ∧ t.fld PRT_STAT_LATCHED = s.fld PRT_STAT_LATCHED ∧
      t.fld PLN_STAT_COMMIT_PEND = 0 ∧ (∀ a, safeArm (t.plnA a)) ∧ ∀ a : Fin 6, t.fld (PLN_ARM_PIP_VALID a) = 0 := by
  obtain ⟨hseed, hsafe⟩ := pipSeed_safe (plnCleared s) fun a => ⟨rfl, rfl, rfl⟩
  obtain ⟨hregs0, hsump0, hpat0⟩ := hseed.rest
  obtain ⟨hshow, hvalid⟩ := each_showArm (upto 6) (plnCleared s).pipSeed hsafe
  obtain ⟨hsump, hpat, hpln⟩ := hshow.rest
  have ht : s.plnFreset = (plnCleared s).pipSeed.each (upto 6) State.showArm := rfl
  rw [ht]
  refine ⟨hsump.trans hsump0, (congrArg PatCommit.lo (hpat.trans hpat0) :), (congrArg PatCommit.hi (hpat.trans hpat0) :), ?_, ?_, fun a => ?_,
    fun a => hvalid a (Or.inl (List.mem_range.mpr a.isLt))⟩
  · rw [hshow.2 _ fun g hg => (plnFlds g hg).2, fld_congr hregs0]; exact fld_setFld_ne _ _ (by decide)
  · rw [hshow.2 _ fun g hg => (plnFlds g hg).1, fld_congr hregs0]; exact fld_setFld_same ..
  · rw [State.plnA, hpln]; exact hsafe a

theorem fresetPlanner_spec (s : State) :
    let t := ((s.fresetBegin 12 0).resetStatus 768 fun a => a == 0x50034).plnFreset
    (t.inProgress 768 = true ∧ (s.inProgress 768 = false → t.latched = true)) ∧ t.fld PLN_STAT_COMMIT_PEND = 0 ∧
      t.pat.lo = s.pat.lo ∧ t.pat.hi = s.pat.hi ∧ ∀ a : Fin 6, (t.plnA a).act = false ∧ (t.plnA a).n = 0 ∧ (t.plnA a).pip = none ∧
        t.fld (PLN_ARM_PIP_VALID a) = 0 := by
  have hpat : (s.fresetBegin 12 0).pat = s.pat := by rw [fresetBegin_eq]
  obtain ⟨hsump, hlo, hhi, hl, hpend, hsafe, hvalid⟩ := plnFreset_spec ((s.fresetBegin 12 0).resetStatus 768 fun a => a == 0x50034)
  refine ⟨escalated_spec rfl hsump (hl.trans (fld_resetStatus_kept _ (by decide))), hpend, hlo.trans (congrArg PatCommit.lo hpat),
    hhi.trans (congrArg PatCommit.hi hpat), fun a => ?_⟩
  obtain ⟨hact, hn, hpip⟩ := hsafe a
  exact ⟨hact, hn, hpip, hvalid a⟩

/-! ### Selection -/

/-- An arm's tie pointer seeded and its CHARGE set (R164, R175). -/
def seedArm (s : State) (a : Nat) : State :=
  ((s.setFld (SEL_ARM_PTR_PTR a) (s.seed 0x9E37 a)).setFld (SEL_ARM_PTR_NCONF a) (s.armCells a).length).setFld (SEL_ARM_STAT_CHARGE a) 1

/-- The registers that the seeding of an arm writes. -/
def seedFlds (a : Nat) : List Fld := [SEL_ARM_PTR_PTR a, SEL_ARM_PTR_NCONF a, SEL_ARM_STAT_CHARGE a]

theorem OnlyRegs.trans {fs gs hs : List Fld} {s t u : State} (h : OnlyRegs fs s t) (k : OnlyRegs gs t u) (hf : ∀ f ∈ fs, f ∈ hs)
    (hg : ∀ f ∈ gs, f ∈ hs) : OnlyRegs hs s u := by
  obtain ⟨h, hr⟩ := h
  obtain ⟨k, kr⟩ := k
  exact ⟨by rw [k, h], (hr.mono hf).trans (kr.mono hg)⟩

theorem onlyRegs_refl (fs : List Fld) (s : State) : OnlyRegs fs s s := ⟨rfl, sameRegs_refl _ _⟩

theorem onlyRegs_setFld (s : State) (f : Fld) (v : Nat) : OnlyRegs [f] s (s.setFld f v) :=
  ⟨rfl, (sameRegs_refl _ s).setFld v (by simp)⟩

theorem onlyRegs_seedArm (s : State) (a : Nat) : OnlyRegs (seedFlds a) s (seedArm s a) := by
  have hptr : OnlyRegs (seedFlds a) s (s.setFld (SEL_ARM_PTR_PTR a) (s.seed 0x9E37 a)) :=
    (onlyRegs_setFld ..).trans (onlyRegs_refl _ _) (by simp [seedFlds]) fun _ h => h
  have hconf := hptr.trans (onlyRegs_setFld _ (SEL_ARM_PTR_NCONF a) (s.armCells a).length) (fun _ h => h) (by simp [seedFlds])
  exact hconf.trans (onlyRegs_setFld _ (SEL_ARM_STAT_CHARGE a) 1) (fun _ h => h) (by simp [seedFlds])

theorem seedArm_charge (s : State) (a : Nat) : (seedArm s a).fld (SEL_ARM_STAT_CHARGE a) = 1 := fld_setFld_same ..

theorem charge_apart {a b : Nat} (h : a ≠ b) : ∀ g ∈ seedFlds b, (SEL_ARM_STAT_CHARGE a).key ≠ g.key := by
  simp only [seedFlds, List.mem_cons, List.not_mem_nil, or_false, forall_eq_or_imp, forall_eq, Fld.key, SEL_ARM_PTR_PTR, SEL_ARM_PTR_NCONF,
    SEL_ARM_STAT_CHARGE]
  omega

theorem each_seedArm (l : List Nat) : ∀ s : State, OnlyRegs (l.flatMap seedFlds) s (s.each l seedArm) ∧
    ∀ a, (a ∈ l ∨ s.fld (SEL_ARM_STAT_CHARGE a) = 1) → (s.each l seedArm).fld (SEL_ARM_STAT_CHARGE a) = 1 := by
  induction l with
  | nil => exact fun s => ⟨⟨rfl, sameRegs_refl _ _⟩, fun a h => h.resolve_left (by simp)⟩
  | cons b l ih =>
    intro s
    obtain ⟨hframe, hcharge⟩ := ih (seedArm s b)
    refine ⟨(onlyRegs_seedArm s b).trans hframe (fun f hf => List.mem_append_left _ hf) fun f hf => List.mem_append_right _ hf,
      fun a ha => hcharge a ?_⟩
    by_cases hb : a = b
    · subst hb; exact Or.inr (seedArm_charge s a)
    · rcases ha with ha | ha
      · exact Or.inl ((List.mem_cons.mp ha).resolve_left hb)
      · exact Or.inr (((onlyRegs_seedArm s b).2 _ (charge_apart hb)).trans ha)

/-- Selection without requests, records and arms. -/
def selCleared (s : State) : State := { s with sel := [], selArm := [], excl := [] }

theorem selFlds : (∀ g ∈ (upto 6).flatMap seedFlds, PRT_STAT_LATCHED.key ≠ g.key) ∧
    ∀ a : Fin 6, SEL_EXCL_STAT_PENDING.key ≠ (SEL_ARM_STAT_CHARGE a).key := by decide

theorem selFreset_spec (s : State) :
    let t := s.selFreset
    t.sump = s.sump ∧ t.fld PRT_STAT_LATCHED = s.fld PRT_STAT_LATCHED ∧ t.sel = [] ∧ t.excl = [] ∧ t.fld SEL_EXCL_STAT_PENDING = 0 ∧
      ∀ a : Fin 6, t.fld (SEL_ARM_STAT_CHARGE a) = 1 := by
  obtain ⟨⟨hrest, hregs⟩, hcharge⟩ := each_seedArm (upto 6) (selCleared s)
  obtain ⟨z, hz⟩ : ∃ z, z = (selCleared s).each (upto 6) seedArm := ⟨_, rfl⟩
  have ht : s.selFreset = z.setFld SEL_EXCL_STAT_PENDING z.exclCells.length := by rw [hz]; rfl
  rw [← hz] at hrest hregs hcharge
  have hexcl : z.excl = [] := by rw [hrest]; rfl
  rw [ht]
  refine ⟨?_, ?_, ?_, hexcl, ?_, fun a => ?_⟩
  · rw [setFld_sump, hrest]; rfl
  · rw [fld_setFld_ne _ _ (by decide), hregs _ selFlds.1]; rfl
  · rw [setFld_sel, hrest]; rfl
  · rw [fld_setFld_same, State.exclCells, hexcl]; rfl
  · rw [fld_setFld_ne _ _ (selFlds.2 a)]; exact hcharge a (Or.inl (List.mem_range.mpr a.isLt))

theorem fresetSelection_spec (s : State) :
    let t := ((s.fresetBegin 13 0).resetStatus 832 noKept).selFreset
    (t.inProgress 832 = true ∧ (s.inProgress 832 = false → t.latched = true)) ∧ t.sel = [] ∧ t.excl = [] ∧
      t.fld SEL_EXCL_STAT_PENDING = 0 ∧ ∀ a : Fin 6, t.fld (SEL_ARM_STAT_CHARGE a) = 1 := by
  obtain ⟨hsump, hl, hrest⟩ := selFreset_spec ((s.fresetBegin 13 0).resetStatus 832 noKept)
  exact ⟨escalated_spec (fn := 13) (idx := 0) rfl hsump (hl.trans (fld_resetStatus_kept _ (by decide))), hrest⟩

/-! ### Composer -/

theorem rd_lt (s : State) (a n : Nat) : s.rd a n < 256 ^ n := crd_lt ..

/-- The two delay marks of an entry, cleared one after the other (R118, R125). -/
def clearDelay (s : State) (g : Nat) : State := (s.setCe g ceDlyOk 0).setCe g ceDmv 0

theorem rd_setCe_same (s : State) (g : Nat) (f : CeFld) :
    (s.setCe g f 0).rd (ceAddr g) 16 = s.rd (ceAddr g) 16 - s.rd (ceAddr g) 16 / 2 ^ f.lo % 2 ^ f.w * 2 ^ f.lo := by
  have h := rd_lt s (ceAddr g) 16
  unfold State.setCe
  rw [rd_wr_same, Nat.zero_mod, Nat.zero_mul, Nat.add_zero]
  exact Nat.mod_eq_of_lt (lt_of_le_of_lt (Nat.sub_le ..) h)

theorem rd_setCe_other (s : State) {g h : Nat} (f : CeFld) (v : Nat) (hn : g ≠ h) : (s.setCe g f v).rd (ceAddr h) 16 = s.rd (ceAddr h) 16 := by
  unfold State.setCe
  refine rd_wr_out _ _ ?_
  unfold ceAddr; omega

theorem clearDelay_marks (s : State) (g : Nat) : (clearDelay s g).ce g ceDlyOk = 0 ∧ (clearDelay s g).ce g ceDmv = 0 := by
  have h := rd_lt s (ceAddr g) 16
  unfold clearDelay State.ce
  rw [rd_setCe_same, rd_setCe_same]
  generalize s.rd (ceAddr g) 16 = x at h ⊢
  simp only [ceDlyOk, ceDmv]
  constructor
  · omega
  · omega

theorem clearDelay_eq (s : State) (g : Nat) : clearDelay s g = { s with mem := (clearDelay s g).mem } := by
  unfold clearDelay; rw [setCe_eq, setCe_eq s]

theorem clearDelay_other (s : State) {g h : Nat} (f : CeFld) (hn : g ≠ h) : (clearDelay s g).ce h f = s.ce h f := by
  unfold clearDelay State.ce
  rw [rd_setCe_other _ _ _ hn, rd_setCe_other _ _ _ hn]

/-- What the function reset of the composer does to a cell (R125): its delay is no longer valid, its item and its test are gone. -/
def cellCleared (s : State) (g : Nat) : State :=
  (clearDelay s g).setCc g { ccReset with late := ((clearDelay s g).cc g).late, prof := if (clearDelay s g).portState (g / 128) = 4 then some 0 else none }

/-- Nothing changes but memory and what the composer keeps for the cells. -/
def CellFrame (s t : State) : Prop := t = { s with mem := t.mem, ccell := t.ccell }

theorem CellFrame.trans {s t u : State} (h : CellFrame s t) (k : CellFrame t u) : CellFrame s u := by
  unfold CellFrame at *; rw [k, h]

theorem CellFrame.rest {s t : State} (h : CellFrame s t) : t.regs = s.regs ∧ t.sump = s.sump ∧ t.cmp = s.cmp ∧ t.pdly = s.pdly ∧ t.ld = s.ld := by
  unfold CellFrame at h; rw [h]; exact ⟨rfl, rfl, rfl, rfl, rfl⟩

theorem cellFrame_clearDelay (s : State) (g : Nat) : CellFrame s (clearDelay s g) := by
  unfold CellFrame; rw [clearDelay_eq]

theorem cellFrame_cellCleared (s : State) (g : Nat) : CellFrame s (cellCleared s g) := (cellFrame_clearDelay s g).trans rfl

/-- A cell without a valid delay, an item in hand or a test. -/
def cellIdle (s : State) (g : Nat) : Prop := s.ce g ceDlyOk = 0 ∧ s.ce g ceDmv = 0 ∧ (s.cc g).cur = none ∧ (s.cc g).stest = 0

theorem ce_setCc (s : State) (g h : Nat) (x : CmpCell) (f : CeFld) : (s.setCc g x).ce h f = s.ce h f := rfl

theorem cellCleared_ce (s : State) (g h : Nat) (f : CeFld) : (cellCleared s g).ce h f = (clearDelay s g).ce h f := by
  rw [cellCleared, ce_setCc]

theorem cellCleared_idle (s : State) (g : Nat) : cellIdle (cellCleared s g) g := by
  obtain ⟨h1, h2⟩ := clearDelay_marks s g
  refine ⟨(cellCleared_ce ..).trans h1, (cellCleared_ce ..).trans h2, ?_, ?_⟩
  · rw [cellCleared, State.cc, State.setCc, mget_mset_same]; rfl
  · rw [cellCleared, State.cc, State.setCc, mget_mset_same]; rfl

theorem cellCleared_other (s : State) {g h : Nat} (hn : g ≠ h) (hi : cellIdle s h) : cellIdle (cellCleared s g) h := by
  have hcc : (cellCleared s g).cc h = s.cc h := by
    have hd : (clearDelay s g).ccell = s.ccell := by rw [clearDelay_eq]
    rw [State.cc, cellCleared, State.setCc, mget_mset_ne _ _ _ hn, hd, State.cc]
  obtain ⟨h1, h2, h3, h4⟩ := hi
  exact ⟨by rw [cellCleared_ce, clearDelay_other s _ hn, h1], by rw [cellCleared_ce, clearDelay_other s _ hn, h2], by rw [hcc, h3], by rw [hcc, h4]⟩

theorem each_cellCleared (l : List Nat) : ∀ s : State, CellFrame s (s.each l cellCleared) ∧
    ∀ g, (g ∈ l ∨ cellIdle s g) → cellIdle (s.each l cellCleared) g := by
  induction l with
  | nil => exact fun s => ⟨rfl, fun g h => h.resolve_left (by simp)⟩
  | cons b l ih =>
    intro s
    obtain ⟨hframe, hidle⟩ := ih (cellCleared s b)
    refine ⟨(cellFrame_cellCleared s b).trans hframe, fun g hg => hidle g ?_⟩
    by_cases hb : g = b
    · subst hb; exact Or.inr (cellCleared_idle s g)
    · rcases hg with hg | hg
      · exact Or.inl ((List.mem_cons.mp hg).resolve_left hb)
      · exact Or.inr (cellCleared_other s (Ne.symm hb) hg)

/-- The composer without items and delays. -/
def cmpCleared (s : State) : State := { s with pdly := [], cmp := { s.cmp with queue := [] } }

/-- What the composer shows of its queue, tests and downloads. -/
def cmpShown (s : State) (pend : Nat) : State := ((s.setFld CMP_STEST_STAT_ACTIVE 0).auxLevel).setFld CMP_PROF_STAT_PENDING pend

theorem cmpShown_eq (s : State) (n : Nat) : cmpShown s n = { s with regs := (cmpShown s n).regs } := rfl

theorem cmpShown_level (s : State) (n : Nat) (h : s.cmp.queue = []) : (cmpShown s n).fld CMP_AUX_STAT_LEVEL = 0 := by
  unfold cmpShown State.auxLevel
  rw [fld_setFld_ne _ _ (by decide), fld_setFld_ne _ _ (by decide), fld_setFld_same, setFld_cmp, h]
  rfl

theorem cmpShown_latched (s : State) (n : Nat) : (cmpShown s n).fld PRT_STAT_LATCHED = s.fld PRT_STAT_LATCHED := by
  unfold cmpShown State.auxLevel
  rw [fld_setFld_ne _ _ (by decide), fld_setFld_ne _ _ (by decide), fld_setFld_ne _ _ (by decide), fld_setFld_ne _ _ (by decide)]

theorem cmpShown_idle (s : State) (n : Nat) {g : Nat} (h : cellIdle s g) : cellIdle (cmpShown s n) g := by rw [cmpShown_eq]; exact h

theorem cmpFreset_shown (s : State) : ∃ n, s.cmpFreset = cmpShown ((cmpCleared s).each s.confCells cellCleared) n := ⟨_, rfl⟩

theorem cmpFreset_spec (s : State) :
    let t := s.cmpFreset
    t.sump = s.sump ∧ t.fld PRT_STAT_LATCHED = s.fld PRT_STAT_LATCHED ∧ t.cmp.queue = [] ∧ t.fld CMP_AUX_STAT_LEVEL = 0 ∧ t.pdly = [] ∧
      ∀ g ∈ s.confCells, cellIdle t g := by
  obtain ⟨hframe, hidle⟩ := each_cellCleared s.confCells (cmpCleared s)
  obtain ⟨hregs, hsump, hcmp, hpdly, -⟩ := hframe.rest
  obtain ⟨n, ht⟩ := cmpFreset_shown s
  have hqueue : ((cmpCleared s).each s.confCells cellCleared).cmp.queue = [] := congrArg Composer.queue hcmp
  rw [ht]
  refine ⟨?_, ?_, ?_, cmpShown_level _ n hqueue, ?_, fun g hg => cmpShown_idle _ n (hidle g (Or.inl hg))⟩
  · rw [cmpShown_eq]; exact hsump
  · rw [cmpShown_latched, fld_congr hregs]; rfl
  · rw [cmpShown_eq]; exact hqueue
  · rw [cmpShown_eq]; exact hpdly

theorem fresetComposer_spec (s : State) :
    let t := ((s.fresetBegin 14 0).resetStatus 896 noKept).cmpFreset
    (t.inProgress 896 = true ∧ (s.inProgress 896 = false → t.latched = true)) ∧ t.cmp.queue = [] ∧ t.fld CMP_AUX_STAT_LEVEL = 0 ∧
      t.pdly = [] ∧ ∀ g, s.isConf g = true → t.ce g ceDlyOk = 0 ∧ t.ce g ceDmv = 0 ∧ (t.cc g).cur = none ∧ (t.cc g).stest = 0 := by
  have hld : (s.fresetBegin 14 0).ld = s.ld := by rw [fresetBegin_eq]
  obtain ⟨hsump, hl, hqueue, hlevel, hpdly, hidle⟩ := cmpFreset_spec ((s.fresetBegin 14 0).resetStatus 896 noKept)
  refine ⟨escalated_spec (fn := 14) (idx := 0) rfl hsump (hl.trans (fld_resetStatus_kept _ (by decide))), hqueue, hlevel, hpdly,
    fun g hg => hidle g ?_⟩
  have hcells : ((s.fresetBegin 14 0).resetStatus 896 noKept).confCells = s.confCells := by
    rw [resetStatus_eq, State.confCells, hld, State.confCells]
  rw [hcells]
  obtain ⟨p, hp, hpg⟩ := List.any_eq_true.mp hg
  exact List.mem_map.mpr ⟨p, hp, by simpa using hpg⟩

end Sys2Proof.Machine
end


section
/-! PROOFS. The function resets of the sequencer, the security unit and the acquisition (R354, R385, R429). -/
namespace Sys2Proof.Machine
open Sys2Proof

/-! ### Sequencer -/

/-- Nothing changes but registers and the security unit's own state. -/
def RegsSec (s t : State) : Prop := t = { s with regs := t.regs, sec := t.sec }

theorem RegsSec.trans {s t u : State} (h : RegsSec s t) (k : RegsSec t u) : RegsSec s u := by
  unfold RegsSec at *; rw [k, h]

theorem RegsSec.rest {s t : State} (h : RegsSec s t) : t.sump = s.sump ∧ t.mem = s.mem ∧ t.seq = s.seq := by
  unfold RegsSec at h; rw [h]; exact ⟨rfl, rfl, rfl⟩

/-- What a function reset of the sequencer makes of the SIGN that is outstanding (R444). -/
def signEnded (s : State) : State :=
  if s.sec.wait.any fun r => r.kind == 3 then s.signWithdrawn
  else if s.fld SEQ_SIGN_STAT_STATE == 2 then s
  else (s.setFld SEQ_SIGN_STAT_STATE 0).setFld SEQ_SIGN_STAT_RESULT 0

theorem regsSec_signEnded (s : State) : RegsSec s (signEnded s) := by
  unfold signEnded
  split_ifs <;> rfl

/-- The sequencer without pending events and requests. -/
def seqCalm (s : State) : State :=
  { s with seq := { s.seq with nmi := false, held := false, role := none }, ctl := { s.ctl with seqReq := none } }

theorem seqCalm_rest (s : State) : (seqCalm s).regs = s.regs ∧ (seqCalm s).sump = s.sump ∧ (seqCalm s).mem = s.mem := ⟨rfl, rfl, rfl⟩

/-- The sequencer's registers and pending events cleared (R445). -/
def seqCleared (s : State) : State := seqCalm (seqResetFlds.foldl (fun s f => s.setFld f 0) s)

theorem seqFreset_eq (s : State) :
    s.seqFreset = if s.op < 4 then seqCleared (signEnded s) else (seqCleared (signEnded s)).seqStart seqResetVec 1 true := by
  unfold State.seqFreset signEnded seqCleared seqCalm
  simp only [decide_eq_true_eq]

theorem seqCleared_regs (s : State) : (seqCleared s).regs = (seqResetFlds.foldl (fun s f => s.setFld f 0) s).regs := (seqCalm_rest _).1

theorem seqCleared_rest (s : State) : (seqCleared s).sump = s.sump ∧ (seqCleared s).mem = s.mem := by
  obtain ⟨-, hsump, hmem⟩ := seqCalm_rest (seqResetFlds.foldl (fun s f => s.setFld f 0) s)
  exact ⟨hsump.trans (zero_sump ..), hmem.trans (zero_mem ..)⟩

theorem seqResetFlds_apart : seqResetFlds.Pairwise fun f g => f.key ≠ g.key := by decide

theorem fld_seqStart_ne (s : State) (vec entry : Nat) (c : Bool) {f : Fld}
    (h : ∀ g ∈ [SEQ_STAT_ENTRY, SEQ_STAT_MODE, SEQ_STAT_NMI_PEND], f.key ≠ g.key) : (s.seqStart vec entry c).fld f = s.fld f := by
  unfold State.seqStart
  rw [fld_showSeq_ne _ (h _ (by simp)).symm (h _ (by simp)).symm, fld_setFld_ne _ _ (h _ (by simp)).symm]
  rfl

/-- A start from the reset vector (R429). -/
theorem seqStart_fresh (s : State) : let t := s.seqStart seqResetVec 1 true
    t.seq.pc = 0x38000000 ∧ t.seq.run = true ∧ t.seq.dead = false ∧ t.seq.wait = none ∧ t.fld SEQ_STAT_ENTRY = 1 ∧
      ∀ r : Fin 16, t.sx r = 0 := by
  refine ⟨rfl, rfl, rfl, rfl, ?_, fun r => ?_⟩
  · unfold State.seqStart
    rw [fld_showSeq_ne _ (by decide) (by decide), fld_setFld_same]; rfl
  · unfold State.sx
    split <;> rfl

theorem fresetSequencer_spec (s : State) :
    let t := (s.fresetBegin 10 0).seqFreset
    t.inProgress 640 = true ∧ t.fld SEQ_CNT_LS = 0 ∧ t.fld SEQ_CNT_NMI = 0 ∧ t.fld SEQ_CNT_ILL = 0 ∧ t.mem = s.mem ∧
      (4 ≤ s.op → t.seq.pc = 0x38000000 ∧ t.seq.run = true ∧ t.seq.dead = false ∧ t.seq.wait = none ∧ t.fld SEQ_STAT_ENTRY = 1 ∧
        ∀ r : Fin 16, t.sx r = 0) := by
  have hop : (s.fresetBegin 10 0).op = s.op := fld_congr (fresetBegin_regs s 0 rfl) _
  have hprog := fresetBegin_inProgress s 10 0
  have hmem := fresetBegin_mem s 10 0
  obtain ⟨u, hu⟩ : ∃ u, u = s.fresetBegin 10 0 := ⟨_, rfl⟩
  rw [← hu] at hop hprog hmem ⊢
  obtain ⟨hsump, hmem1, -⟩ := (regsSec_signEnded u).rest
  obtain ⟨hsump', hmem'⟩ := seqCleared_rest (signEnded u)
  have hzero : ∀ f ∈ [SEQ_CNT_LS, SEQ_CNT_NMI, SEQ_CNT_ILL], (seqCleared (signEnded u)).fld f = 0 ∧
      ∀ g ∈ [SEQ_STAT_ENTRY, SEQ_STAT_MODE, SEQ_STAT_NMI_PEND], f.key ≠ g.key := fun f hf =>
    ⟨(fld_congr (seqCleared_regs _) f).trans (fld_zero seqResetFlds_apart _ (by revert f; decide)), by revert f; decide⟩
  have hon : (seqCleared (signEnded u)).inProgress 640 = true :=
    (inProgress_congr (congrArg Sump.fresets (hsump'.trans hsump)) _).trans hprog
  have hmem2 := hmem'.trans (hmem1.trans hmem)
  rw [seqFreset_eq]
  generalize seqCleared (signEnded u) = v at hzero hon hmem2 ⊢
  split
  next h => exact ⟨hon, (hzero _ (by simp)).1, (hzero _ (by simp)).1, (hzero _ (by simp)).1, hmem2, fun h4 => absurd h4 (by omega)⟩
  next h =>
    have hcnt : ∀ f ∈ [SEQ_CNT_LS, SEQ_CNT_NMI, SEQ_CNT_ILL], (v.seqStart seqResetVec 1 true).fld f = 0 :=
      fun f hf => (fld_seqStart_ne _ _ _ _ (hzero f hf).2).trans (hzero f hf).1
    exact ⟨hon, hcnt _ (by simp), hcnt _ (by simp), hcnt _ (by simp), hmem2, fun _ => seqStart_fresh _⟩

/-! ### Security unit -/

/-- The registers that the end of a debug session writes (R384, R474). -/
def sessionFlds : List Fld := [SEC_STAT_DBG_LEVEL, DBG_SEQ_HALTED, SEQ_STAT_MODE, SEQ_STAT_NMI_PEND, DBG_PIPE_HALTED, DBG_PIPE_LEFT]

theorem sameRegs_showSeq (s : State) : SameRegs [SEQ_STAT_MODE, SEQ_STAT_NMI_PEND] s s.showSeq := fun f hf =>
  fld_showSeq_ne s (hf _ (by simp)).symm (hf _ (by simp)).symm

theorem seqResume_spec (s : State) : s.seqResume = { s with regs := s.seqResume.regs, seq := s.seqResume.seq } ∧
    SameRegs [DBG_SEQ_HALTED, SEQ_STAT_MODE, SEQ_STAT_NMI_PEND] s s.seqResume := by
  unfold State.seqResume
  split
  · exact ⟨rfl, (((sameRegs_refl _ s).setFld (f := DBG_SEQ_HALTED) 0 (by simp)).trans (sameRegs_of_regs _ rfl)).trans
      ((sameRegs_showSeq _).mono (by simp))⟩
  · exact ⟨rfl, sameRegs_refl _ _⟩

theorem sessionEnd_spec (s : State) : s.sessionEnd = { s with regs := s.sessionEnd.regs, seq := s.sessionEnd.seq } ∧
    SameRegs sessionFlds s s.sessionEnd := by
  unfold State.sessionEnd
  split
  · exact ⟨rfl, sameRegs_refl _ _⟩
  · obtain ⟨h, hr⟩ := seqResume_spec (s.setFld SEC_STAT_DBG_LEVEL 0)
    constructor
    · unfold State.pipeResume; rw [h]; rfl
    · have hlevel := (sameRegs_refl sessionFlds s).setFld (f := SEC_STAT_DBG_LEVEL) 0 (by simp [sessionFlds])
      exact ((hlevel.trans (hr.mono (by simp [sessionFlds]))).setFld 0 (by simp [sessionFlds])).setFld 0 (by simp [sessionFlds])

/-- The registers that the end of a command writes (R377, R386). -/
def cmdFlds : List Fld :=
  [SEC_CMD_STAT_BUSY, SEC_CMD_STAT_DONE, SEC_CMD_STAT_RESULT, SEC_CMD_STAT_OP, SEQ_EVT] ++
    ([SEC_CNT_DENIED, SEC_CNT_OVF] ++ msgFlds) ++ (upto 8).map SEC_NONCE

/-- A fold keeps a property that each step with a listed entry keeps. -/
theorem foldl_inv_mem {α β : Type} (P : α → Prop) (f : α → β → α) (l : List β) (h : ∀ a, ∀ b ∈ l, P a → P (f a b)) :
    ∀ a, P a → P (l.foldl f a) := by
  induction l with
  | nil => exact fun a ha => ha
  | cons b l ih => exact fun a ha => ih (fun a c hc => h a c (List.mem_cons_of_mem _ hc)) _ (h a b List.mem_cons_self ha)

/-- A command's result is shown and the unit is free of it. -/
def cmdShown (s : State) (op r : Nat) : State :=
  { ((((s.setFld SEC_CMD_STAT_BUSY 0).flag SEC_CMD_STAT_DONE).setFld SEC_CMD_STAT_RESULT r).setFld
    SEC_CMD_STAT_OP op).seqEvent 10 with sec := { s.sec with job := none } }

/-- A refused command is counted and told. -/
def cmdDenied (s : State) (op r : Nat) : State :=
  (s.count SEC_CNT_DENIED SEC_CNT_OVF 2 1).secTell 1 0x23 (op * 2 ^ 24 + r * 2 ^ 20)

theorem cmdEnd_eq (s : State) (op r : Nat) (auth : Bool) (h : r ≠ 0) :
    s.cmdEnd op r auth = if auth then (cmdDenied (cmdShown s op r) op r).newNonce else cmdDenied (cmdShown s op r) op r := by
  unfold State.cmdEnd
  simp only [h, if_false]
  rfl

theorem cmdShown_spec (s : State) (op : Nat) :
    cmdShown s op 6 = { s with regs := (cmdShown s op 6).regs, sec := { s.sec with job := none } } ∧
    SameRegs [SEC_CMD_STAT_BUSY, SEC_CMD_STAT_DONE, SEC_CMD_STAT_RESULT, SEC_CMD_STAT_OP, SEQ_EVT] s (cmdShown s op 6) ∧
    (cmdShown s op 6).fld SEC_CMD_STAT_DONE = 1 ∧ (cmdShown s op 6).fld SEC_CMD_STAT_RESULT = 6 := by
  have apart : [SEC_CMD_STAT_BUSY, SEC_CMD_STAT_DONE, SEC_CMD_STAT_RESULT, SEC_CMD_STAT_OP, SEQ_EVT].Pairwise fun f g => g.key ≠ f.key := by
    decide
  simp only [List.pairwise_cons, List.mem_cons, List.not_mem_nil, or_false, forall_eq_or_imp, forall_eq, IsEmpty.forall_iff,
    implies_true, List.Pairwise.nil, and_true] at apart
  obtain ⟨-, ⟨d1, d2, d3⟩, ⟨r1, r2⟩, -⟩ := apart
  refine ⟨rfl, ?_, ?_, ?_⟩
  · exact (((((sameRegs_refl _ s).setFld 0 (by simp)).flag (by simp)).setFld 6 (by simp)).setFld op (by simp)).seqEvent 10 (by simp)
  · show (State.seqEvent _ _).fld SEC_CMD_STAT_DONE = 1
    unfold State.seqEvent State.flagBit State.flag
    rw [fld_setFld_ne _ _ d3, fld_setFld_ne _ _ d2, fld_setFld_ne _ _ d1, fld_setFld_same]; rfl
  · show (State.seqEvent _ _).fld SEC_CMD_STAT_RESULT = 6
    unfold State.seqEvent State.flagBit
    rw [fld_setFld_ne _ _ r2, fld_setFld_ne _ _ r1, fld_setFld_same]; rfl

/-- The registers that a refusal and a fresh nonce write. -/
def deniedFlds : List Fld := [SEC_CNT_DENIED, SEC_CNT_OVF] ++ msgFlds ++ (upto 8).map SEC_NONCE

theorem cmdDenied_spec (s : State) (op r : Nat) :
    cmdDenied s op r = { s with regs := (cmdDenied s op r).regs, sump := (cmdDenied s op r).sump } ∧
    (cmdDenied s op r).sump.fresets = s.sump.fresets ∧ SameRegs deniedFlds s (cmdDenied s op r) := by
  unfold cmdDenied State.secTell
  refine ⟨?_, ?_, ?_⟩
  · rw [send_eq, count_eq]
  · rw [send_fresets, count_fresets]
  · exact ((sameRegs_refl _ s).count 2 1 (by simp [deniedFlds]) (by simp [deniedFlds])).send _ _ _ (by simp [deniedFlds, msgFlds])
      (by simp [deniedFlds, msgFlds])

theorem newNonce_spec (s : State) : s.newNonce = { s with regs := s.newNonce.regs, fresh := s.newNonce.fresh } ∧
    SameRegs deniedFlds s s.newNonce := by
  unfold State.newNonce State.draw
  refine foldl_inv_mem (fun t : State => t = { s with regs := t.regs, fresh := t.fresh } ∧ SameRegs deniedFlds s t) _ (upto 8) ?_ _
    ⟨rfl, sameRegs_of_regs _ rfl⟩
  rintro t i hi ⟨ht, hr⟩
  refine ⟨by rw [ht]; rfl, hr.setFld _ ?_⟩
  exact List.mem_append_right _ (List.mem_map.mpr ⟨i, hi, rfl⟩)

/-- Nothing changes but registers, messages, free values and the security unit's own state, and no function reset's record. -/
def CmdFrame (s t : State) : Prop :=
  t = { s with regs := t.regs, sump := t.sump, fresh := t.fresh, sec := t.sec } ∧ t.sump.fresets = s.sump.fresets

theorem CmdFrame.trans {s t u : State} (h : CmdFrame s t) (k : CmdFrame t u) : CmdFrame s u := by
  obtain ⟨h, hf⟩ := h
  obtain ⟨k, kf⟩ := k
  exact ⟨by rw [k, h], kf.trans hf⟩

theorem CmdFrame.mem {s t : State} (h : CmdFrame s t) : t.mem = s.mem := by rw [h.1]

/-- A command that a function reset ends (R385): result RESET, and the unit's other state as it was. -/
theorem cmdEnd_reset (s : State) (op : Nat) (auth : Bool) : CmdFrame s (s.cmdEnd op 6 auth) ∧
    (s.cmdEnd op 6 auth).sec = { s.sec with job := none } ∧ SameRegs cmdFlds s (s.cmdEnd op 6 auth) ∧
    (s.cmdEnd op 6 auth).fld SEC_CMD_STAT_DONE = 1 ∧ (s.cmdEnd op 6 auth).fld SEC_CMD_STAT_RESULT = 6 := by
  obtain ⟨h1, r1, hdone, hres⟩ := cmdShown_spec s op
  obtain ⟨h2, f2, r2⟩ := cmdDenied_spec (cmdShown s op 6) op 6
  obtain ⟨h3, r3⟩ := newNonce_spec (cmdDenied (cmdShown s op 6) op 6)
  have hne : ∀ f ∈ [SEC_CMD_STAT_DONE, SEC_CMD_STAT_RESULT], ∀ g ∈ deniedFlds, f.key ≠ g.key := by decide
  have hsub1 : ∀ f ∈ [SEC_CMD_STAT_BUSY, SEC_CMD_STAT_DONE, SEC_CMD_STAT_RESULT, SEC_CMD_STAT_OP, SEQ_EVT], f ∈ cmdFlds := by decide
  have hsub2 : ∀ f ∈ deniedFlds, f ∈ cmdFlds := by decide
  rw [cmdEnd_eq s op 6 auth (by decide)]
  generalize cmdShown s op 6 = u at *
  generalize cmdDenied u op 6 = v at *
  have hu : CmdFrame s u ∧ u.sec = { s.sec with job := none } := by rw [h1]; exact ⟨⟨rfl, rfl⟩, rfl⟩
  have hv : CmdFrame u v ∧ v.sec = u.sec := by rw [h2]; exact ⟨⟨rfl, f2⟩, rfl⟩
  have hn : CmdFrame v v.newNonce ∧ v.newNonce.sec = v.sec := by rw [h3]; exact ⟨⟨rfl, rfl⟩, rfl⟩
  have hvr := (r1.mono hsub1).trans (r2.mono hsub2)
  have hvf : ∀ f ∈ [SEC_CMD_STAT_DONE, SEC_CMD_STAT_RESULT], v.fld f = u.fld f := fun f hf => r2 f (hne f hf)
  have hnf : ∀ f ∈ [SEC_CMD_STAT_DONE, SEC_CMD_STAT_RESULT], v.newNonce.fld f = v.fld f := fun f hf => r3 f (hne f hf)
  cases auth
  · exact ⟨hu.1.trans hv.1, hv.2.trans hu.2, hvr, (hvf _ (by simp)).trans hdone, (hvf _ (by simp)).trans hres⟩
  · exact ⟨(hu.1.trans hv.1).trans hn.1, hn.2.trans (hv.2.trans hu.2), hvr.trans (r3.mono hsub2),
      (hnf _ (by simp)).trans ((hvf _ (by simp)).trans hdone), (hnf _ (by simp)).trans ((hvf _ (by simp)).trans hres)⟩

theorem signAbandon_spec (s : State) : RegsSec s s.signAbandon ∧ SameRegs [SEQ_SIGN_STAT_STATE] s s.signAbandon ∧
    s.signAbandon.sec.cur = none ∧ s.signAbandon.sec.job = s.sec.job := by
  unfold State.signAbandon
  split
  next h => exact ⟨rfl, sameRegs_refl _ _, h, rfl⟩
  next r b h =>
    have hset : SameRegs [SEQ_SIGN_STAT_STATE] s (s.setFld SEQ_SIGN_STAT_STATE 1) := (sameRegs_refl _ s).setFld 1 (by simp)
    by_cases h3 : r.kind = 3
    · simp only [h3, if_true]
      exact ⟨rfl, hset.trans (sameRegs_of_regs _ rfl), trivial, rfl⟩
    · simp only [h3, if_false]
      exact ⟨rfl, sameRegs_of_regs _ rfl, trivial, trivial⟩

/-- The counters and status of the security unit that its function reset clears (R385). -/
def secStatus : List Fld :=
  [SEC_CNT_SIGN, SEC_CNT_VERIFY, SEC_CNT_DENIED, SEC_CNT_OVF, SEC_CMD_STAT_DONE, SEC_CMD_STAT_RESULT,
    SEC_CMD_STAT_OP, SEC_STAT_DBG_LEVEL, SEC_STAT_READY, SEC_STAT_KEYS_LOADED]

/-- The signature in hand given up, with its statements. -/
def signDropped (s : State) : State := { s.signAbandon with sec := { s.signAbandon.sec with wait := s.signAbandon.sec.wait.filter fun r => r.kind != 1 } }

theorem signDropped_spec (s : State) : RegsSec s (signDropped s) ∧ SameRegs [SEQ_SIGN_STAT_STATE] s (signDropped s) ∧
    (signDropped s).sec.cur = none ∧ (signDropped s).sec.job = s.sec.job := by
  obtain ⟨hf, hr, hcur, hjob⟩ := signAbandon_spec s
  exact ⟨hf.trans rfl, hr.trans (sameRegs_of_regs _ rfl), hcur, hjob⟩

/-- The security unit with its status cleared, before a command in progress ends. -/
def secCleared (s : State) : State := secStatus.foldl (fun s f => s.setFld f 0) (signDropped s)

/-- The command in progress, ended with RESET. -/
def jobReset (s : State) : State := match s.sec.job with | some j => s.cmdEnd j.op 6 j.auth | none => s

theorem secFreset_eq (s : State) :
    s.secFreset = { jobReset (secCleared s) with sec := { (jobReset (secCleared s)).sec with reload := true } } := rfl

theorem secFlds : (secStatus.Pairwise fun f g => f.key ≠ g.key) ∧
    (∀ f ∈ [SEC_STAT_DBG_LEVEL, SEC_STAT_READY, SEC_STAT_KEYS_LOADED], f ∈ secStatus ∧ ∀ g ∈ cmdFlds, f.key ≠ g.key) ∧
    ∀ f ∈ otpFlds, (∀ g ∈ secStatus, f.key ≠ g.key) ∧ (∀ g ∈ cmdFlds, f.key ≠ g.key) ∧ (∀ g ∈ [SEQ_SIGN_STAT_STATE], f.key ≠ g.key) ∧
      ∀ g ∈ sessionFlds, f.key ≠ g.key := by
  decide

theorem secCleared_spec (s : State) : CmdFrame s (secCleared s) ∧ (secCleared s).sec.cur = none ∧ (secCleared s).sec.job = s.sec.job ∧
    (∀ f ∈ secStatus, (secCleared s).fld f = 0) ∧ ∀ f ∈ otpFlds, (secCleared s).fld f = s.fld f := by
  obtain ⟨hf, hr, hcur, hjob⟩ := signDropped_spec s
  have hz : secCleared s = { signDropped s with regs := (secCleared s).regs } := zero_eq secStatus (signDropped s)
  have hsump := hf.rest.1
  refine ⟨?_, by rw [hz, hcur], by rw [hz, hjob], fun f h => fld_zero secFlds.1 _ h, fun f h => ?_⟩
  · unfold RegsSec at hf
    constructor
    · rw [hz, hf]
    · rw [hz]; exact congrArg Sump.fresets hsump
  · obtain ⟨hs, -, hq, -⟩ := secFlds.2.2 f h
    exact (fld_zero_ne _ hs).trans (hr f hq)

theorem jobReset_spec (s : State) : CmdFrame s (jobReset s) ∧ (jobReset s).sec = { s.sec with job := none } ∧
    SameRegs cmdFlds s (jobReset s) ∧
    (s.sec.job ≠ none → (jobReset s).fld SEC_CMD_STAT_DONE = 1 ∧ (jobReset s).fld SEC_CMD_STAT_RESULT = 6) := by
  unfold jobReset
  split
  next j hj =>
    obtain ⟨h1, h2, h3, h4⟩ := cmdEnd_reset s j.op j.auth
    exact ⟨h1, h2, h3, fun _ => h4⟩
  next hj => exact ⟨⟨rfl, rfl⟩, by rw [← hj], sameRegs_refl _ _, fun h => absurd hj h⟩

theorem secFreset_spec (s : State) :
    let t := s.secFreset
    t.sump.fresets = s.sump.fresets ∧ t.fld SEC_STAT_DBG_LEVEL = 0 ∧ t.sec.reload = true ∧ t.sec.cur = none ∧ t.sec.job = none ∧
      t.fld SEC_STAT_READY = 0 ∧ t.fld SEC_STAT_KEYS_LOADED = 0 ∧ t.mem = s.mem ∧ (∀ f ∈ otpFlds, t.fld f = s.fld f) ∧
      (s.sec.job ≠ none → t.fld SEC_CMD_STAT_DONE = 1 ∧ t.fld SEC_CMD_STAT_RESULT = 6) := by
  obtain ⟨hf, hcur, hjob, hzero, hotp⟩ := secCleared_spec s
  obtain ⟨kf, ksec, kregs, kres⟩ := jobReset_spec (secCleared s)
  have hst : ∀ f ∈ [SEC_STAT_DBG_LEVEL, SEC_STAT_READY, SEC_STAT_KEYS_LOADED], (jobReset (secCleared s)).fld f = 0 := fun f h =>
    (kregs f (secFlds.2.1 f h).2).trans (hzero f (secFlds.2.1 f h).1)
  have hframe := hf.trans kf
  rw [hjob] at kres
  rw [secFreset_eq]
  generalize jobReset (secCleared s) = u at *
  have hfld (f : Fld) : ({ u with sec := { u.sec with reload := true } } : State).fld f = u.fld f := rfl
  simp only [hfld]
  exact ⟨hframe.2, hst _ (by simp), trivial, by rw [ksec]; exact hcur, by rw [ksec], hst _ (by simp), hst _ (by simp), hframe.mem,
    fun f h => (kregs f (secFlds.2.2 f h).2.1).trans (hotp f h), kres⟩

theorem fresetSecurity_spec (s : State) :
    let t := (s.fresetBegin 8 0).sessionEnd.secFreset
    t.inProgress 512 = true ∧ t.fld SEC_STAT_DBG_LEVEL = 0 ∧ t.sec.reload = true ∧ t.sec.cur = none ∧ t.sec.job = none ∧
      t.fld SEC_STAT_READY = 0 ∧ t.fld SEC_STAT_KEYS_LOADED = 0 ∧ t.mem = s.mem ∧ (∀ f ∈ otpFlds, t.fld f = s.fld f) ∧
      (s.sec.job ≠ none → t.fld SEC_CMD_STAT_DONE = 1 ∧ t.fld SEC_CMD_STAT_RESULT = 6) := by
  obtain ⟨hend, hendr⟩ := sessionEnd_spec (s.fresetBegin 8 0)
  obtain ⟨hres, hlevel, hreload, hcur, hjob, hready, hkeys, hmem, hotp, hcmd⟩ := secFreset_spec (s.fresetBegin 8 0).sessionEnd
  have hsec : (s.fresetBegin 8 0).sessionEnd.sec = s.sec := by rw [hend, fresetBegin_eq]
  have hsump : (s.fresetBegin 8 0).sessionEnd.sump = (s.fresetBegin 8 0).sump := by rw [hend]
  have hm : (s.fresetBegin 8 0).sessionEnd.mem = s.mem := by rw [hend]; exact fresetBegin_mem s 8 0
  rw [hsec] at hcmd
  refine ⟨?_, hlevel, hreload, hcur, hjob, hready, hkeys, hmem.trans hm, fun f h => ?_, hcmd⟩
  · exact (inProgress_congr (hres.trans (congrArg Sump.fresets hsump)) _).trans (fresetBegin_inProgress s 8 0)
  · rw [hotp f h, hendr f (secFlds.2.2 f h).2.2.2, fld_congr (fresetBegin_regs s 0 rfl)]

/-! ### Acquisition -/

theorem wrWords_mem_only (l : List (BitVec 64)) : ∀ (s : State) (a : Nat), s.wrWords a l = { s with mem := (s.wrWords a l).mem } := by
  induction l with
  | nil => intro s a; rfl
  | cons w l ih =>
    intro s a
    have h := ih (s.wr a 8 w.toNat) (a + 8)
    rw [wr_eq] at h
    exact h

/-- What the header of a record comes to: words in memory, the recorder's next number, its closed segment and a message (R347, R349). -/
theorem writeHeader_parts (s : State) (r : Nat) (abort : Bool) : ∃ u a ws x i, (u = s ∨ u = (s.draw 192).2) ∧
    s.writeHeader r abort = (((u.wrWords a ws).setRecd r x).flagBit (ACQ_R_STAT_CLOSED r) i).send (0x3C0 + r) 0x16 0 := by
  unfold State.writeHeader
  extract_lets x c pre0 rho row post pre old nrows
  split
  next v u hu =>
    have hus : u = s ∨ u = (s.draw 192).2 := by
      split at hu
      · exact Or.inl (congrArg Prod.snd hu).symm
      · exact Or.inr (congrArg Prod.snd hu).symm
    extract_lets a
    split
    exact ⟨u, a, _, _, _, hus, rfl⟩

theorem SameRegs.wrWords {fs : List Fld} {s t : State} (h : SameRegs fs s t) (a : Nat) (l : List (BitVec 64)) : SameRegs fs s (t.wrWords a l) :=
  h.trans (sameRegs_of_regs _ (by rw [wrWords_mem_only]))

theorem writeHeader_spec (s : State) (r : Nat) (abort : Bool) :
    (s.writeHeader r abort).sump.fresets = s.sump.fresets ∧ SameRegs (ACQ_R_STAT_CLOSED r :: msgFlds) s (s.writeHeader r abort) := by
  obtain ⟨u, a, ws, x, i, hu, h⟩ := writeHeader_parts s r abort
  have hsump : u.sump = s.sump := by rcases hu with rfl | rfl <;> rfl
  have hregs : u.regs = s.regs := by rcases hu with rfl | rfl <;> rfl
  rw [h]
  constructor
  · rw [send_fresets, flagBit_sump, State.setRecd, wrWords_mem_only]
    exact congrArg Sump.fresets hsump
  · have hrecd : SameRegs (ACQ_R_STAT_CLOSED r :: msgFlds) s ((u.wrWords a ws).setRecd r x) :=
      ((sameRegs_of_regs _ hregs).wrWords a ws).trans (sameRegs_of_regs _ rfl)
    exact (hrecd.flagBit i (by simp)).send _ _ _ (by simp [msgFlds]) (by simp [msgFlds])

/-- A recorder stopped and its settings' rejection and segment cleared (R354). -/
def recReset (s : State) (r : Nat) : State := ((recorderStop s r).setFld (ACQ_R_STAT_REJ r) 0).setFld (ACQ_R_STAT_SEG r) 0

/-- The registers that a recorder's reset writes. -/
def recFlds (r : Nat) : List Fld := [ACQ_R_STAT_STATE r, ACQ_R_STAT_REJ r, ACQ_R_STAT_SEG r, ACQ_R_STAT_CLOSED r] ++ msgFlds

theorem recReset_spec (s : State) (r : Nat) : (recReset s r).sump.fresets = s.sump.fresets ∧ SameRegs (recFlds r) s (recReset s r) ∧
    (recReset s r).recSt r = 0 := by
  have hhead (b : Bool) : (s.writeHeader r b).sump.fresets = s.sump.fresets ∧ SameRegs (recFlds r) s (s.writeHeader r b) :=
    ⟨(writeHeader_spec s r b).1, (writeHeader_spec s r b).2.mono (by simp +contextual [recFlds])⟩
  have hstop : ∃ u, recorderStop s r = u.setFld (ACQ_R_STAT_STATE r) 0 ∧ u.sump.fresets = s.sump.fresets ∧ SameRegs (recFlds r) s u := by
    unfold recorderStop
    extract_lets st v
    refine ⟨v, rfl, ?_⟩
    unfold v
    split_ifs
    · exact hhead _
    · exact hhead _
    · exact ⟨rfl, sameRegs_refl _ _⟩
  obtain ⟨u, hu, hf, hr⟩ := hstop
  unfold recReset
  rw [hu]
  refine ⟨hf, ((hr.setFld 0 (by simp [recFlds])).setFld 0 (by simp [recFlds])).setFld 0 (by simp [recFlds]), ?_⟩
  rw [State.recSt, fld_setFld_ne _ _ (by simp [Fld.key, ACQ_R_STAT_SEG, ACQ_R_STAT_STATE]),
    fld_setFld_ne _ _ (by simp [Fld.key, ACQ_R_STAT_REJ, ACQ_R_STAT_STATE]), fld_setFld_same, Nat.zero_mod]

theorem recState_apart : ∀ r q : Fin 4, r ≠ q → ∀ g ∈ recFlds r, (ACQ_R_STAT_STATE q).key ≠ g.key := by decide

/-- The recorders reset one after another: those of the list are IDLE, and no function reset's record changes. -/
theorem each_recReset (l : List (Fin 4)) : ∀ s : State,
    (s.each (l.map Fin.val) recReset).sump.fresets = s.sump.fresets ∧
    ∀ q : Fin 4, (q ∈ l ∨ s.recSt q = 0) → (s.each (l.map Fin.val) recReset).recSt q = 0 := by
  induction l with
  | nil => exact fun s => ⟨rfl, fun q h => h.resolve_left (by simp)⟩
  | cons r l ih =>
    intro s
    obtain ⟨hf, hr, hst⟩ := recReset_spec s r
    obtain ⟨ihf, ihst⟩ := ih (recReset s r)
    refine ⟨ihf.trans hf, fun q hq => ihst q ?_⟩
    by_cases hb : r = q
    · subst hb; exact Or.inr hst
    · rcases hq with hq | hq
      · exact Or.inl ((List.mem_cons.mp hq).resolve_left (Ne.symm hb))
      · exact Or.inr ((hr _ (recState_apart r q hb)).trans hq)

/-- The trigger units unarmed and the bus delays to be measured afresh. -/
def acqCleared (s : State) : State :=
  let s := (s.setFld ACQ_BUS_DLY_D2 0).setFld ACQ_BUS_DLY_D3 0
  { s with acq := { s.acq with units := [], wait := [], pend2 := [], pend3 := [] }, time := { s.time with bus2 := [], bus3 := [] } }

theorem acqFreset_eq (s : State) : s.acqFreset = acqCleared (s.each ((List.finRange 4).map Fin.val) recReset) := by
  rw [show (List.finRange 4).map Fin.val = upto 4 from by decide]
  unfold State.acqFreset acqCleared recReset
  rfl

theorem acqCleared_regs (s : State) : (acqCleared s).regs = ((s.setFld ACQ_BUS_DLY_D2 0).setFld ACQ_BUS_DLY_D3 0).regs := rfl

theorem fresetAcquisition_spec (s : State) :
    let t := (s.fresetBegin 6 0).acqFreset
    t.inProgress 384 = true ∧ t.acq.units = [] ∧ t.acq.wait = [] ∧ t.fld ACQ_BUS_DLY_D2 = 0 ∧ t.fld ACQ_BUS_DLY_D3 = 0 ∧
      ∀ r : Fin 4, t.recSt r = 0 := by
  obtain ⟨hf, hst⟩ := each_recReset (List.finRange 4) (s.fresetBegin 6 0)
  rw [acqFreset_eq]
  generalize (s.fresetBegin 6 0).each ((List.finRange 4).map Fin.val) recReset = u at hf hst ⊢
  have hfld := fld_congr (acqCleared_regs u)
  have hapart : ∀ r : Fin 4, ACQ_BUS_DLY_D3.key ≠ (ACQ_R_STAT_STATE r).key ∧ ACQ_BUS_DLY_D2.key ≠ (ACQ_R_STAT_STATE r).key := by decide
  refine ⟨?_, rfl, rfl, ?_, ?_, fun r => ?_⟩
  · exact (inProgress_congr hf _).trans (fresetBegin_inProgress s 6 0)
  · rw [hfld, fld_setFld_ne _ _ (by decide), fld_setFld_same, Nat.zero_mod]
  · rw [hfld, fld_setFld_same, Nat.zero_mod]
  · rw [State.recSt, hfld, fld_setFld_ne _ _ (hapart r).1, fld_setFld_ne _ _ (hapart r).2]
    exact hst r (Or.inl (List.mem_finRange r))

end Sys2Proof.Machine
end


section
/-! PROOFS. What the reads and writes of the units' own masters leave alone (R331, R451, R452, R456), and the taking up of
requests by the security unit (R371): neither reaches the record of the function resets, the metering or the redundancy
manager. -/
namespace Sys2Proof.Machine
open Sys2Proof

/-- The registers that a unit's access to memory and the security unit's next request write. -/
def readFlds : List Fld :=
  [SEC_CMD_STAT_OP, SEQ_SIGN_STAT_STATE, SEQ_SIGN_STAT_RESULT, SEQ_EVT, SEC_CNT_VERIFY, SEC_CNT_OVF, MEM_CNT_UE, MEM_CNT_CE, MEM_CNT_MBOX,
    MEM_CNT_OVF] ++ msgFlds ++ (upto 128).map FLT_INJ_ARM

/-- Nothing changes but these registers, memory, messages, free values, the host's responses, the security unit's own state and the
reading of control time; no function reset's record changes. -/
def ReadFrame (s t : State) : Prop :=
  t = { s with regs := t.regs, mem := t.mem, sump := t.sump, fresh := t.fresh, dbg := t.dbg, sec := t.sec, time := t.time } ∧
    t.sump.fresets = s.sump.fresets ∧ SameRegs readFlds s t

theorem ReadFrame.refl (s : State) : ReadFrame s s := ⟨rfl, rfl, sameRegs_refl _ _⟩

theorem ReadFrame.trans {s t u : State} (h : ReadFrame s t) (k : ReadFrame t u) : ReadFrame s u := by
  obtain ⟨h, hf, hr⟩ := h
  obtain ⟨k, kf, kr⟩ := k
  exact ⟨by rw [k, h], kf.trans hf, hr.trans kr⟩

theorem ReadFrame.setFld {s t : State} (h : ReadFrame s t) (f : Fld) (v : Nat) (m : f ∈ readFlds) : ReadFrame s (t.setFld f v) :=
  h.trans ⟨rfl, rfl, (sameRegs_refl _ t).setFld v m⟩

theorem ReadFrame.count {s t : State} (h : ReadFrame s t) (c o : Fld) (i k : Nat) (m : c ∈ readFlds) (m' : o ∈ readFlds) :
    ReadFrame s (t.count c o i k) :=
  h.trans ⟨by rw [count_eq], count_fresets .., (sameRegs_refl _ t).count i k m m'⟩

theorem msgFlds_read : FLT_CNT_MERGED ∈ readFlds ∧ FLT_CNT_OVF ∈ readFlds := by simp [readFlds, msgFlds]

theorem sendAs_frame (s : State) (a k d c i : Nat) :
    s.sendAs a k d c i = { s with regs := (s.sendAs a k d c i).regs, sump := (s.sendAs a k d c i).sump } := by
  unfold State.sendAs
  extract_lets slot
  split
  · rfl
  · rw [count_eq]

theorem ReadFrame.sendAs {s t : State} (h : ReadFrame s t) (a k d c i : Nat) : ReadFrame s (t.sendAs a k d c i) :=
  h.trans ⟨by rw [sendAs_frame], sendAs_fresets .., (sameRegs_refl _ t).sendAs a k d c i msgFlds_read.1 msgFlds_read.2⟩

theorem ReadFrame.send {s t : State} (h : ReadFrame s t) (a k d : Nat) : ReadFrame s (t.send a k d) := h.sendAs ..

theorem ReadFrame.sendIf {s t : State} (h : ReadFrame s t) (c : Bool) (a k d : Nat) : ReadFrame s (t.sendIf c a k d) := by
  unfold State.sendIf
  split
  · exact h.send a k d
  · exact h

theorem ReadFrame.draw {s t : State} (h : ReadFrame s t) (w : Nat) : ReadFrame s (t.draw w).2 := h.trans ⟨rfl, rfl, sameRegs_of_regs _ rfl⟩

theorem ReadFrame.withMem {s t : State} (h : ReadFrame s t) (m : Memory) : ReadFrame s { t with mem := m } :=
  h.trans ⟨rfl, rfl, sameRegs_of_regs _ rfl⟩

theorem ReadFrame.withSec {s t : State} (h : ReadFrame s t) (x : Sec) : ReadFrame s { t with sec := x } :=
  h.trans ⟨rfl, rfl, sameRegs_of_regs _ rfl⟩

theorem ReadFrame.setMbox {s t : State} (h : ReadFrame s t) (x : MboxPort) : ReadFrame s (t.setMbox x) := h.withMem _

theorem checkerOf_lt (a : Nat) : checkerOf a < 128 := by
  unfold checkerOf
  split_ifs <;> omega

theorem injArm_read {i : Nat} (h : i < 128) : FLT_INJ_ARM i ∈ readFlds :=
  List.mem_append_right _ (List.mem_map.mpr ⟨i, List.mem_range.mpr h, rfl⟩)

/-! ### Checked reads -/

theorem readFrame_inject (s : State) {i : Nat} (syn : BitVec 8) (h : i < 128) : ReadFrame s (s.inject i syn).1 := by
  unfold State.inject
  split
  · exact .refl s
  · extract_lets mask u obs
    have hu : ReadFrame s u := by
      unfold u
      split
      · exact .refl s
      · exact (ReadFrame.refl s).setFld _ _ (injArm_read h)
    split
    · exact hu.sendAs ..
    · exact hu.sendAs ..

theorem readFrame_checkedRead (s : State) (a : Nat) : ReadFrame s (s.checkedRead a).2 := by
  have hi := readFrame_inject s (s.synAt a) (checkerOf_lt a)
  unfold State.checkedRead
  extract_lets i syn
  split
  next u rep hu =>
    have huf : ReadFrame s u := by rw [hu] at hi; exact hi
    extract_lets w
    split
    · exact huf
    · exact (huf.count _ _ _ _ (by simp [readFlds]) (by simp [readFlds])).sendIf ..
    · exact ((huf.count _ _ _ _ (by simp [readFlds]) (by simp [readFlds])).sendIf ..).withMem _

theorem ReadFrame.mboxConflict {s t : State} (h : ReadFrame s t) (a : Nat) : ReadFrame s (t.mboxConflict a) :=
  (h.count _ _ _ _ (by simp [readFlds]) (by simp [readFlds])).send ..

/-- One word of a unit's read: it may meet the host's write, and its checker. -/
def readWord (s : State) (a : Nat) : Bool × State :=
  if s.quiet a ∧ !inMbox a then (true, s)
  else if inMbox a ∧ s.mem.mbox.hw.contains a then (false, (s.setMbox (s.mem.mbox.note false false a)).mboxConflict a)
  else
    let s := if inMbox a then s.setMbox (s.mem.mbox.note false false a) else s
    if s.quiet a then (true, s)
    else
      let (e, s) := s.checkedRead a
      (e.good, s)

theorem readEach_cons (s : State) (a : Nat) (t : List Nat) :
    s.readEach (a :: t) = ((readWord s a).1 && ((readWord s a).2.readEach t).1, ((readWord s a).2.readEach t).2) := rfl

theorem readFrame_readWord (s : State) (a : Nat) : ReadFrame s (readWord s a).2 := by
  unfold readWord
  split
  · exact .refl s
  · split
    · exact ((ReadFrame.refl s).setMbox _).mboxConflict a
    · extract_lets u
      have hu : ReadFrame s u := by
        unfold u
        split
        · exact (ReadFrame.refl s).setMbox _
        · exact .refl s
      split
      · exact hu
      · exact hu.trans (readFrame_checkedRead u a)

theorem readFrame_readEach (l : List Nat) : ∀ s : State, ReadFrame s (s.readEach l).2 := by
  induction l with
  | nil => exact .refl
  | cons a l ih =>
    intro s
    rw [readEach_cons]
    exact (readFrame_readWord s a).trans (ih _)

theorem ReadFrame.mboxBegin {s t : State} (h : ReadFrame s t) (a : Nat) (sh : Share) : ReadFrame s (t.mboxBegin a sh) := by
  rw [mboxBegin_eq]; exact h.withMem _

theorem ReadFrame.mboxOver {s t : State} (h : ReadFrame s t) (a : Nat) (sh : Share) : ReadFrame s (t.mboxOver a sh) := by
  rw [mboxOver_eq]; exact h.withMem _

theorem readFrame_readBytes (s : State) (a n : Nat) : ReadFrame s (s.readBytes a n).2 := by
  unfold State.readBytes
  exact (((ReadFrame.refl s).mboxBegin a .no).trans (readFrame_readEach (spanWords a n) _)).mboxOver a .no

theorem readFrame_of_eq {α : Type} {s t : State} {p : α × State} {x : α} (h : ReadFrame s p.2) (e : p = (x, t)) : ReadFrame s t := by
  rw [e] at h; exact h

/-! ### Signatures -/

theorem readFrame_keyLost (s : State) (n : Nat) : ReadFrame s (s.keyLost n) := ⟨rfl, rfl, sameRegs_of_regs _ rfl⟩

theorem readFrame_keyFetch (s : State) (n a m : Nat) : ReadFrame s (s.keyFetch n a m).2 := by
  unfold State.keyFetch
  split
  · exact .refl s
  · have h := readFrame_readBytes s a m
    split
    next r u hu =>
      have huf := readFrame_of_eq h hu
      split
      · exact huf
      · exact huf.trans (readFrame_keyLost u n)

theorem readFrame_signKey (s : State) : ReadFrame s s.signKey.2 := by
  have h := readFrame_keyFetch s 8 (keyAddr 8) 2305
  unfold State.signKey
  split
  next k u hu => exact readFrame_of_eq h hu

theorem readFrame_seqBody (s : State) (a : Nat) : ReadFrame s (s.seqBody a).2 := by
  have h := readFrame_readBytes s a 256
  unfold State.seqBody
  split
  next r u hu =>
    have huf := readFrame_of_eq h hu
    split <;> exact huf

theorem readFrame_ctRead (s : State) : ReadFrame s s.ctRead.2 := by
  unfold State.ctRead
  split
  · exact .refl s
  · exact ⟨rfl, rfl, sameRegs_of_regs _ rfl⟩

theorem readFrame_statement (s : State) (n : Nat) : ReadFrame s (s.statement n).2 := by
  have h := readFrame_ctRead s
  unfold State.statement
  split
  next ct u hu => exact (readFrame_of_eq h hu).withSec _

theorem readFrame_takeWaiting (l : List SigReq) : ∀ s : State, ReadFrame s (s.takeWaiting l) := by
  induction l with
  | nil => intro s; exact (ReadFrame.refl s).withSec _
  | cons r l ih =>
    intro s
    have hbody := readFrame_seqBody s r.arg
    have hstmt := readFrame_statement s r.nonce
    unfold State.takeWaiting
    split
    · split
      next ws u hu => exact ((readFrame_of_eq hbody hu).setFld _ _ (by simp [readFlds])).withSec _
      next u hu =>
        have huf := ((readFrame_of_eq hbody hu).setFld SEQ_SIGN_STAT_STATE 3 (by simp [readFlds])).setFld SEQ_SIGN_STAT_RESULT 1 (by simp [readFlds])
        exact (huf.setFld SEQ_EVT _ (by simp [readFlds])).trans (ih _)
    · split
      next ws u hu => exact (readFrame_of_eq hstmt hu).withSec _

theorem readFrame_signWaiting (s : State) : ReadFrame s s.signWaiting := by
  have h := readFrame_signKey s
  unfold State.signWaiting
  split
  · exact .refl s
  · split
    next ok u hu =>
      have huf := readFrame_of_eq h hu
      split
      · exact huf.trans (readFrame_takeWaiting ..)
      · exact huf

theorem readFrame_signQueue (s : State) (r : SigReq) : ReadFrame s (s.signQueue r).2 := by
  unfold State.signQueue
  split
  · exact .refl s
  · exact (ReadFrame.refl s).withSec _

theorem readFrame_cmdTake (s : State) (j : SecJob) : ReadFrame s (s.cmdTake j) := by
  unfold State.cmdTake
  extract_lets a
  have h0 := readFrame_readBytes s a 8
  split
  next w0 u hu =>
    have hu0 := readFrame_of_eq h0 hu
    extract_lets w op len use room
    have h1 : ReadFrame s (if room = true then u.readBytes a len else (none, u)).2 := by
      split
      · exact hu0.trans (readFrame_readBytes ..)
      · exact hu0
    split
    next blk v hv =>
      have hv0 := readFrame_of_eq h1 hv
      extract_lets b v1 vpp k
      have hv1 : ReadFrame s v1 := hv0.setFld _ _ (by simp [readFlds])
      split
      · exact hv1.withSec _
      · split
        · exact hv1.withSec _
        · clear_value room use
          cases use with
          | none =>
            dsimp only
            split
            · exact hv1.withSec _
            · have hq := readFrame_signQueue v1 ⟨1, blockWord b 1 % 65536, 0, leNat (b.drop 16)⟩
              split
              · exact ((hv1.trans hq).withSec _).trans (readFrame_signWaiting _)
              · exact (hv1.trans hq).withSec _
          | some _ =>
            dsimp only
            split
            · exact hv1.withSec _
            · exact (hv1.count _ _ _ _ (by simp [readFlds]) (by simp [readFlds])).withSec _

theorem readFrame_secNext (s : State) : ReadFrame s s.secNext := by
  have hkey := readFrame_signKey s
  unfold State.secNext
  split
  · exact .refl s
  · split
    · split
      next ok u hu =>
        have huf := readFrame_of_eq hkey hu
        split
        · exact huf.withSec _
        · exact huf
    · split
      · exact readFrame_cmdTake ..
      · exact readFrame_signWaiting s
    · exact readFrame_signWaiting s

end Sys2Proof.Machine
end


section
/-! PROOFS. The function resets of metering and of the redundancy manager (R368, R305), and O42 from the resets of all fifteen
functions. -/
namespace Sys2Proof.Machine
open Sys2Proof

/-! ### Writes of the units' own masters -/

theorem readFrame_foldl {β : Type} (f : State → β → State) (h : ∀ u b, ReadFrame u (f u b)) (l : List β) (s : State) :
    ReadFrame s (l.foldl f s) :=
  foldl_inv (ReadFrame s) f (fun u b hu => hu.trans (h u b)) l s (.refl s)

theorem readFrame_openResp (l : List ECWord) : ∀ s : State, ReadFrame s (s.openResp l).2 := by
  induction l with
  | nil => exact .refl
  | cons w l ih =>
    intro s
    exact ((ReadFrame.refl s).draw 64).trans (ih _)

theorem readFrame_hostUndone (s : State) : ReadFrame s s.hostUndone := by
  unfold State.hostUndone
  split
  next r t hr =>
    split
    next h l hl =>
      have hq := readFrame_openResp l s
      exact hq.trans ⟨rfl, rfl, sameRegs_of_regs _ rfl⟩
    next => exact .refl s
  next => exact .refl s

theorem readFrame_wr (s : State) (a n v : Nat) : ReadFrame s (s.wr a n v) := (ReadFrame.refl s).withMem _

theorem readFrame_wrBytes (s : State) (a : Nat) (l : List Byte) : ReadFrame s (s.wrBytes a l) := by
  rw [wrBytes_eq]; exact (ReadFrame.refl s).withMem _

theorem readFrame_writeBytes (s : State) (a : Nat) (l : List Byte) : ReadFrame s (s.writeBytes a l) := by
  unfold State.writeBytes
  extract_lets ws part bad s1 s2 x s3 s4 s5
  have h1 : ReadFrame s s1 := (ReadFrame.refl s).mboxBegin a .no
  have h2 : ReadFrame s s2 := h1.trans <| readFrame_foldl _ (fun u w => by
    split
    · exact .refl u
    · exact readFrame_checkedRead u w) part s1
  have h3 : ReadFrame s s3 := h2.trans <| readFrame_foldl _
    (fun u w => ((ReadFrame.refl u).mboxConflict w).trans (readFrame_hostUndone _)) (ws.filter x.hr.contains) s2
  have h4 : ReadFrame s s4 := by
    unfold s4
    split
    · exact h2
    · exact h3.setMbox _
  have h5 : ReadFrame s s5 := by
    unfold s5
    split
    · exact h4.trans (readFrame_wrBytes ..)
    · refine h4.trans (readFrame_foldl _ (fun u p => ?_) _ _)
      split
      · exact .refl u
      · exact readFrame_wr ..
  exact h5.mboxOver a .no

/-! ### Metering -/

/-- Metering without waiting, signed and offered records, and without a record in the signer's hand. -/
def nrgCleared (s : State) : State :=
  let s := { s with nrg := { s.nrg with queue := [], signed := [], offered := [] } }
  match s.sec.cur with
  | some (r, _) => if r.kind = 0 then { s with sec := { s.sec with cur := none } } else s
  | none => s

/-- Its status cleared. -/
def nrgShown (s : State) : State := (s.setFld NRG_STAT_QUEUE 0).setFld NRG_STAT_SIGN_PEND 0

theorem nrgFreset_eq (s : State) : s.nrgFreset = (nrgShown (nrgCleared s)).secNext := rfl

theorem nrgCleared_rest (s : State) : (nrgCleared s).nrg = { s.nrg with queue := [], signed := [], offered := [] } ∧
    (nrgCleared s).sump = s.sump ∧ (nrgCleared s).mem = s.mem ∧ (nrgCleared s).sec.job = s.sec.job ∧ (nrgCleared s).sec.wait = s.sec.wait := by
  unfold nrgCleared
  extract_lets u
  split
  · split
    · exact ⟨rfl, rfl, rfl, rfl, rfl⟩
    · exact ⟨rfl, rfl, rfl, rfl, rfl⟩
  · exact ⟨rfl, rfl, rfl, rfl, rfl⟩

theorem nrgShown_eq (s : State) : nrgShown s = { s with regs := (nrgShown s).regs } := rfl

theorem nrgShown_flds (s : State) : (nrgShown s).fld NRG_STAT_QUEUE = 0 ∧ (nrgShown s).fld NRG_STAT_SIGN_PEND = 0 := by
  unfold nrgShown
  rw [fld_setFld_ne _ _ (by decide), fld_setFld_same, fld_setFld_same]
  exact ⟨rfl, rfl⟩

/-- With no command and no request waiting, nothing is taken up. -/
theorem secNext_idle (s : State) (hq : s.nrg.queue = []) (hj : s.sec.job = none) (hw : s.sec.wait = []) : s.secNext = s := by
  have hwait : s.signWaiting = s := by
    unfold State.signWaiting
    rw [hw]; simp
  unfold State.secNext
  split
  · rfl
  · rw [hq, hj, ite_self]
    exact hwait

theorem nrgFlds_apart : ∀ f ∈ [NRG_STAT_QUEUE, NRG_STAT_SIGN_PEND], ∀ g ∈ readFlds, f.key ≠ g.key := by decide +kernel

theorem ReadFrame.nrg {s t : State} (h : ReadFrame s t) : t.nrg = s.nrg := by rw [h.1]

theorem fresetEnergy_spec (s : State) :
    let t := (s.fresetBegin 7 0).nrgFreset
    t.inProgress 448 = true ∧ t.nrg = { s.nrg with queue := [], signed := [], offered := [] } ∧ t.fld NRG_STAT_QUEUE = 0 ∧
      t.fld NRG_STAT_SIGN_PEND = 0 ∧ (s.sec.job = none → s.sec.wait = [] → t.mem = s.mem) := by
  have hbegin := fresetBegin_plain s 0 (show escalated 7 = false from rfl)
  have hnrg : (s.fresetBegin 7 0).nrg = s.nrg := by rw [hbegin]
  have hsec : (s.fresetBegin 7 0).sec = s.sec := by rw [hbegin]
  obtain ⟨h1, h2, h3, h4, h5⟩ := nrgCleared_rest (s.fresetBegin 7 0)
  rw [hnrg] at h1
  rw [hsec] at h4 h5
  have h3' := h3.trans (fresetBegin_mem s 7 0)
  have hon := (inProgress_congr (congrArg Sump.fresets h2) _).trans (fresetBegin_inProgress s 7 0)
  rw [nrgFreset_eq]
  generalize nrgCleared (s.fresetBegin 7 0) = u at *
  obtain ⟨hz1, hz2⟩ := nrgShown_flds u
  have hshown := nrgShown_eq u
  have hframe := readFrame_secNext (nrgShown u)
  have hrest : (nrgShown u).nrg = u.nrg ∧ (nrgShown u).sec = u.sec ∧ (nrgShown u).mem = u.mem ∧ (nrgShown u).sump = u.sump := by
    rw [hshown]; exact ⟨rfl, rfl, rfl, rfl⟩
  generalize nrgShown u = v at *
  obtain ⟨r1, r2, r3, r4⟩ := hrest
  refine ⟨?_, hframe.nrg.trans (r1.trans h1), ?_, ?_, fun hj hw => ?_⟩
  · exact (inProgress_congr (hframe.2.1.trans (congrArg Sump.fresets r4)) _).trans hon
  · exact (hframe.2.2 _ (nrgFlds_apart _ (by simp))).trans hz1
  · exact (hframe.2.2 _ (nrgFlds_apart _ (by simp))).trans hz2
  · rw [secNext_idle v (by rw [r1, h1]) (by rw [r2, h4, hj]) (by rw [r2, h5, hw])]
    exact r3.trans h3'

/-! ### Redundancy manager -/

/-- The registers that a unit becoming ACTIVE writes beside those of its accesses to memory (R285, R288). -/
def roleFlds : List Fld := [RED_STAT_EPOCH_EXH, RED_EPOCH_EPOCH, RED_STAT_ROLE, RED_STAT_SUB] ++ readFlds

/-- A function reset's record and the redundancy manager's own state stay, and of the registers all but these. -/
def RoleFrame (s t : State) : Prop := t.sump.fresets = s.sump.fresets ∧ t.red = s.red ∧ SameRegs roleFlds s t

theorem RoleFrame.refl (s : State) : RoleFrame s s := ⟨rfl, rfl, sameRegs_refl _ _⟩

theorem RoleFrame.trans {s t u : State} (h : RoleFrame s t) (k : RoleFrame t u) : RoleFrame s u :=
  ⟨k.1.trans h.1, k.2.1.trans h.2.1, h.2.2.trans k.2.2⟩

theorem ReadFrame.role {s t : State} (h : ReadFrame s t) : RoleFrame s t :=
  ⟨h.2.1, by rw [h.1], h.2.2.mono fun _ hf => List.mem_append_right _ hf⟩

theorem RoleFrame.setFld {s t : State} (h : RoleFrame s t) (f : Fld) (v : Nat) (m : f ∈ roleFlds) : RoleFrame s (t.setFld f v) :=
  h.trans ⟨rfl, rfl, (sameRegs_refl _ t).setFld v m⟩

theorem roleFrame_storedEpoch (s : State) : RoleFrame s s.storedEpoch.2 := by
  have h := readFrame_readBytes s epochAddr 4
  unfold State.storedEpoch
  split
  next l u hu => exact (readFrame_of_eq h hu).role
  next u hu => exact ((readFrame_of_eq h hu).draw 24).role

theorem roleFrame_setEpoch (s : State) (e : Nat) : RoleFrame s (s.setEpoch e) := by
  unfold State.setEpoch
  split
  · exact .refl s
  · have h := (RoleFrame.refl s).setFld RED_EPOCH_EPOCH e (by simp [roleFlds])
    unfold State.storeEpoch
    split
    · exact h
    · exact h.trans (readFrame_writeBytes ..).role

theorem evt_read : SEQ_EVT ∈ readFlds := by simp [readFlds]

theorem evt_role : SEQ_EVT ∈ roleFlds := by simp [roleFlds, evt_read]

theorem roleFrame_setRole (s : State) (role sub : Nat) : RoleFrame s (s.setRole role sub) := by
  unfold State.setRole
  split
  · exact .refl s
  · exact (((RoleFrame.refl s).setFld RED_STAT_ROLE role (by simp [roleFlds])).setFld RED_STAT_SUB sub (by simp [roleFlds])).setFld
      SEQ_EVT _ evt_role

theorem roleFrame_roleChange (s : State) (role sub reason : Nat) : RoleFrame s (s.roleChange role sub reason) := by
  have h := roleFrame_setRole s role sub
  unfold State.roleChange
  extract_lets u
  split
  · exact h.trans ⟨rfl, rfl, sameRegs_of_regs _ rfl⟩
  · exact h

/-- What a unit that becomes ACTIVE leaves alone. -/
theorem becomeActive_spec (s : State) (reason : Nat) : (s.becomeActive reason).sump.fresets = s.sump.fresets ∧
    SameRegs roleFlds s (s.becomeActive reason) ∧ (s.becomeActive reason).red.queue = s.red.queue ∧
    (s.becomeActive reason).red.hdr = s.red.hdr ∧ (s.becomeActive reason).red.adopted = s.red.adopted ∧
    (s.red.rx = none → (s.becomeActive reason).red.rx = none) := by
  have h := roleFrame_storedEpoch s
  unfold State.becomeActive
  split
  next st u hu =>
    have huf : RoleFrame s u := by rw [hu] at h; exact h
    extract_lets e v r
    split
    · obtain ⟨h1, h2, h3⟩ := (huf.setFld RED_STAT_EPOCH_EXH 1 (by simp [roleFlds])).trans ((ReadFrame.refl _).send 0x380 0x12 0).role
      exact ⟨h1, h3, congrArg Red.queue h2, congrArg Red.hdr h2, congrArg Red.adopted h2, fun hr => (congrArg Red.rx h2).trans hr⟩
    · obtain ⟨h1, h2, h3⟩ := huf.trans ((roleFrame_setEpoch u e).trans (roleFrame_roleChange _ 1 0 reason))
      have hr : r = s.red := huf.2.1
      exact ⟨h1, h3.trans (sameRegs_of_regs _ rfl), (congrArg Red.queue hr :), (congrArg Red.hdr hr :), (congrArg Red.adopted hr :),
        fun _ => rfl⟩

/-- The manager's own state after its function reset: nothing received, decided or counted, the queue and the health kept (R305). -/
def redKept (r : Red) : Red :=
  { unitSel := r.unitSel, hbOwn := r.hbOwn, hbSeen := r.hbSeen, hbAt := r.hbAt, queue := r.queue, now := r.now }

/-- Its registers reset but the unit number and the epoch, and its own state cleared. -/
def redCleared (s : State) : State :=
  let s := s.resetStatus (64 * 9) fun a => a == 0x80000 || a == 0x8000C
  { s with red := redKept s.red }

/-- Role and sub-state shown again. -/
def roleShown (s : State) (role sub : Nat) : State := (s.setFld RED_STAT_ROLE role).setFld RED_STAT_SUB sub

theorem redFreset_eq (s : State) : s.redFreset =
    if s.role = 1 ∨ (roleShown (redCleared s) s.role s.sub).op < 4 then roleShown (redCleared s) s.role s.sub
    else (roleShown (redCleared s) s.role s.sub).pairEnter := rfl

theorem redCleared_rest (s : State) : (redCleared s).sump = s.sump ∧ (redCleared s).mem = s.mem ∧ (redCleared s).red = redKept s.red ∧
    (redCleared s).now = s.now ∧ (redCleared s).regs = (s.resetStatus 576 fun a => a == 0x80000 || a == 0x8000C).regs :=
  ⟨rfl, rfl, rfl, rfl, rfl⟩

/-- Kept through the manager's reset, and apart from the role and sub-state. -/
theorem redFlds_kept : ∀ f ∈ [RED_ID_UNIT, RED_EPOCH_EPOCH, RED_CFG_PAIR, CLK_STATE_STATE],
    keptKey 576 (fun a => a == 0x80000 || a == 0x8000C) f.key = true ∧ RED_STAT_ROLE.key ≠ f.key ∧ RED_STAT_SUB.key ≠ f.key := by
  decide

/-- The state in which an ACTIVE unit stays, and in which any other enters the pair again. -/
def redBegun (s : State) : State := roleShown (redCleared (s.fresetBegin 9 0)) s.role s.sub

theorem redBegun_rest (s : State) : (redBegun s).inProgress 576 = true ∧ (redBegun s).mem = s.mem ∧ (redBegun s).red = redKept s.red ∧
    (redBegun s).now = s.now := by
  refine ⟨fresetBegin_inProgress s 9 0, fresetBegin_mem s 9 0, ?_, ?_⟩
  · exact (congrArg (fun u : State => redKept u.red) (fresetBegin_plain s 0 (show escalated 9 = false from rfl)) :)
  · exact (congrArg State.now (fresetBegin_plain s 0 (show escalated 9 = false from rfl)) :)

theorem redBegun_kept (s : State) : ∀ f ∈ [RED_ID_UNIT, RED_EPOCH_EPOCH, RED_CFG_PAIR, CLK_STATE_STATE], (redBegun s).fld f = s.fld f := by
  intro f hf
  obtain ⟨hk, h1, h2⟩ := redFlds_kept f hf
  unfold redBegun roleShown
  rw [fld_setFld_ne _ _ h2, fld_setFld_ne _ _ h1, fld_congr (redCleared_rest _).2.2.2.2, fld_resetStatus_kept _ hk,
    fld_congr (fresetBegin_regs s 0 rfl)]

theorem redBegun_shown (s : State) : (redBegun s).fld RED_CNT_TAKE = 0 ∧ (redBegun s).role = s.role % 4 ∧ (redBegun s).sub = s.sub % 4 := by
  unfold redBegun roleShown
  refine ⟨?_, ?_, fld_setFld_same ..⟩
  · rw [fld_setFld_ne _ _ (by decide), fld_setFld_ne _ _ (by decide), fld_congr (redCleared_rest _).2.2.2.2, fld_resetStatus,
      if_neg (by decide)]
    rfl
  · exact (fld_setFld_ne _ _ (by decide)).trans (fld_setFld_same ..)

theorem fresetRedundancy_eq (s : State) : (s.fresetBegin 9 0).redFreset =
    if s.role = 1 ∨ s.op < 4 then redBegun s else (redBegun s).pairEnter := by
  have hregs := fresetBegin_regs s 0 (show escalated 9 = false from rfl)
  have hrole : (s.fresetBegin 9 0).role = s.role := fld_congr hregs _
  have hsub : (s.fresetBegin 9 0).sub = s.sub := fld_congr hregs _
  have hop : (redBegun s).op = s.op := redBegun_kept s _ (by simp)
  rw [redFreset_eq, hrole, hsub]
  change (if s.role = 1 ∨ (redBegun s).op < 4 then redBegun s else (redBegun s).pairEnter) = _
  rw [hop]

theorem roleFlds_apart : (∀ g ∈ roleFlds, RED_ID_UNIT.key ≠ g.key) ∧ ∀ g ∈ roleFlds, RED_CNT_TAKE.key ≠ g.key := by decide +kernel

theorem roleFlds_first : ∀ f ∈ [RED_STAT_ROLE, RED_STAT_SUB, SEQ_EVT], f ∈ roleFlds := by simp [roleFlds, evt_read]

/-- A unit without a role. -/
theorem setRole_none (s : State) : s.setRole 0 0 = { s with regs := (s.setRole 0 0).regs } ∧
    SameRegs [RED_STAT_ROLE, RED_STAT_SUB, SEQ_EVT] s (s.setRole 0 0) ∧ (s.setRole 0 0).role = 0 ∧ (s.setRole 0 0).sub = 0 := by
  unfold State.setRole
  split
  next h => exact ⟨rfl, sameRegs_refl _ _, h⟩
  next =>
    refine ⟨rfl, (((sameRegs_refl _ s).setFld 0 (by simp)).setFld 0 (by simp)).flagBit 5 (by simp), ?_, ?_⟩
    · exact (fld_setFld_ne _ _ (by decide)).trans ((fld_setFld_ne _ _ (by decide)).trans (fld_setFld_same ..))
    · exact (fld_setFld_ne _ _ (by decide)).trans (fld_setFld_same ..)

/-- A paired unit that has heard nothing waits for its role (R286). -/
theorem pairEnter_paired {s : State} (hp : s.bit RED_CFG_PAIR = true) (hh : s.red.hdr = none) :
    s.pairEnter = { s.setRole 0 0 with red := { s.red with waitFrom := some s.now } } := by
  unfold State.pairEnter
  rw [hp]
  simp [hh]

theorem pairEnter_alone {s : State} (hp : s.bit RED_CFG_PAIR = false) : s.pairEnter = s.becomeActive 0 := by
  unfold State.pairEnter
  rw [hp]; rfl

/-- Nothing in the pair's entry reaches the record of the function resets or what the manager's reset has cleared. -/
theorem pairEnter_frame {s : State} (hh : s.red.hdr = none) (hr : s.red.rx = none) (ha : s.red.adopted = false) :
    s.pairEnter.sump.fresets = s.sump.fresets ∧ SameRegs roleFlds s s.pairEnter ∧ s.pairEnter.red.queue = s.red.queue ∧
      s.pairEnter.red.hdr = none ∧ s.pairEnter.red.rx = none ∧ s.pairEnter.red.adopted = false := by
  cases hp : s.bit RED_CFG_PAIR
  case false =>
    obtain ⟨h1, h2, h3, h4, h5, h6⟩ := becomeActive_spec s 0
    rw [pairEnter_alone hp]
    exact ⟨h1, h2, h3, h4.trans hh, h6 hr, h5.trans ha⟩
  case true =>
    obtain ⟨h1, h2, -, -⟩ := setRole_none s
    rw [pairEnter_paired hp hh]
    exact ⟨(congrArg (fun u : State => u.sump.fresets) h1 :), (h2.mono roleFlds_first).trans (sameRegs_of_regs _ rfl), rfl, hh, hr, ha⟩

theorem pairEnter_waits {s : State} (hp : s.bit RED_CFG_PAIR = true) (hh : s.red.hdr = none) :
    s.pairEnter.fld RED_EPOCH_EPOCH = s.fld RED_EPOCH_EPOCH ∧ s.pairEnter.mem = s.mem ∧ s.pairEnter.role = 0 ∧ s.pairEnter.sub = 0 ∧
      s.pairEnter.red.waitFrom = some s.now := by
  obtain ⟨h1, h2, h3, h4⟩ := setRole_none s
  rw [pairEnter_paired hp hh]
  exact ⟨h2 _ (by decide), (congrArg State.mem h1 :), h3, h4, rfl⟩

theorem fresetRedundancy_spec (s : State) :
    let t := (s.fresetBegin 9 0).redFreset
    t.inProgress 576 = true ∧ t.fld RED_ID_UNIT = s.fld RED_ID_UNIT ∧ t.red.queue = s.red.queue ∧ t.red.hdr = none ∧ t.red.rx = none ∧
      t.red.adopted = false ∧ t.fld RED_CNT_TAKE = 0 ∧
      (s.role = 1 ∨ s.op < 4 ∨ s.bit RED_CFG_PAIR = true → t.fld RED_EPOCH_EPOCH = s.fld RED_EPOCH_EPOCH ∧ t.mem = s.mem) ∧
      (s.role = 1 ∨ s.op < 4 → t.role = s.role % 4 ∧ t.sub = s.sub % 4) ∧
      (s.role ≠ 1 → 4 ≤ s.op → s.bit RED_CFG_PAIR = true → t.role = 0 ∧ t.sub = 0 ∧ t.red.waitFrom = some s.now) := by
  obtain ⟨hon, hmem, hred, hnow⟩ := redBegun_rest s
  obtain ⟨htake, hrole, hsub⟩ := redBegun_shown s
  have hkept := redBegun_kept s
  have hunit := hkept RED_ID_UNIT (by simp)
  have hepoch := hkept RED_EPOCH_EPOCH (by simp)
  have hpair : (redBegun s).bit RED_CFG_PAIR = s.bit RED_CFG_PAIR := by rw [State.bit, hkept RED_CFG_PAIR (by simp), State.bit]
  have hhdr : (redBegun s).red.hdr = none := by rw [hred]; rfl
  have hrx : (redBegun s).red.rx = none := by rw [hred]; rfl
  have hadopted : (redBegun s).red.adopted = false := by rw [hred]; rfl
  have hqueue : (redBegun s).red.queue = s.red.queue := by rw [hred]; rfl
  rw [fresetRedundancy_eq]
  generalize redBegun s = u at *
  split
  next h =>
    exact ⟨hon, hunit, hqueue, hhdr, hrx, hadopted, htake, fun _ => ⟨hepoch, hmem⟩, fun _ => ⟨hrole, hsub⟩,
      fun h1 h4 => absurd h (by omega)⟩
  next h =>
    obtain ⟨f1, f2, f3, f4, f5, f6⟩ := pairEnter_frame hhdr hrx hadopted
    have hwait (hp : s.bit RED_CFG_PAIR = true) := pairEnter_waits (hpair.trans hp) hhdr
    refine ⟨(inProgress_congr f1 _).trans hon, (f2 _ roleFlds_apart.1).trans hunit, f3.trans hqueue, f4, f5, f6,
      (f2 _ roleFlds_apart.2).trans htake, fun hp => ?_, fun h' => absurd h' h, fun _ _ hp => ?_⟩
    · obtain ⟨w1, w2, -⟩ := hwait (by tauto)
      exact ⟨w1.trans hepoch, w2.trans hmem⟩
    · obtain ⟨-, -, w3, w4, w5⟩ := hwait hp
      exact ⟨w3, w4, by rw [w5, hnow]⟩

end Sys2Proof.Machine
end


section
/-! PROOFS. O42: the reset of every function, from the resets of each (R328). -/
namespace Sys2Proof.Machine
open Sys2Proof

/-- What the function reset of a port leaves of it (R83). -/
def portAtRest (l : Nat) (s t : State) : Prop :=
  t.fld (CL_CNT_LOS l) = 0 ∧ t.fld (CL_CNT_MISS l) = 0 ∧ t.fld (CL_CNT_STUFF l) = 0 ∧
    (s.fld (CL_CTRL_EN l) = 0 → t.fld (CL_CTRL_EN l) = 0 ∧ t.portState l = 0) ∧
    (s.fld (CL_CTRL_EN l) = 1 → t.fld (CL_CTRL_EN l) = 1 ∧ t.portState l = 1 ∧ t.fld (CL_STAT_LOS l) = 1 ∧ t.fld (CL_STAT_LOL l) = 1)

theorem portFreset_atRest (s : State) {fn idx l : Nat} (hl : l < 40) (he : escalated fn = false)
    (hk : keptKey (64 * fn + idx) noKept (CL_CTRL_EN l).key = true) :
    (s.portFreset fn idx l).inProgress (64 * fn + idx) = true ∧ portAtRest l s (s.portFreset fn idx l) ∧
      (32 ≤ l → (s.portFreset fn idx l).mem = s.mem) := by
  obtain ⟨hon, hmem, hcnt, hoff, hdark⟩ := portFreset_spec s idx ⟨l, hl⟩ he hk
  exact ⟨hon, ⟨hcnt _ (by simp), hcnt _ (by simp), hcnt _ (by simp), hoff, hdark⟩, hmem⟩

theorem fresetClPort_spec (s : State) (n : Fin 32) :
    (s.portFreset 1 n n).inProgress (64 + n.val) = true ∧ portAtRest n s (s.portFreset 1 n n) := by
  obtain ⟨hon, hport, -⟩ := portFreset_atRest s (fn := 1) (idx := n) (l := n) (by omega) rfl (enable_kept.1 n)
  exact ⟨hon, hport⟩

theorem fresetMlPort_spec (s : State) (n : Fin 4) :
    (s.portFreset 3 n (36 + n)).inProgress (192 + n.val) = true ∧ portAtRest (36 + n) s (s.portFreset 3 n (36 + n)) ∧
      (s.portFreset 3 n (36 + n)).mem = s.mem := by
  obtain ⟨hon, hport, hmem⟩ := portFreset_atRest s (fn := 3) (idx := n) (l := 36 + n) (by omega) rfl (enable_kept.2 n)
  exact ⟨hon, hport, hmem (by omega)⟩

/-! Each command is the reset of its function. -/

theorem exec_fresetClPort (s : State) (n : Fin 32) : exec (.fresetClPort n) s = .next (s.portFreset 1 n n) := rfl
theorem exec_fresetMlPort (s : State) (n : Fin 4) : exec (.fresetMlPort n) s = .next (s.portFreset 3 n (36 + n)) := rfl
theorem exec_fresetSensor (s : State) : exec .fresetSensor s = .next (((s.fresetBegin 2 0).resetStatus 128 noKept).snsFreset) :=
  rfl
theorem exec_fresetStationPort (s : State) (n : Fin 4) : exec (.fresetStationPort n) s = .next ((s.fresetBegin 4 n).stnFreset n) :=
  rfl
theorem exec_fresetTimeDomain (s : State) (d : Fin 2) : exec (.fresetTimeDomain d) s = .next ((s.fresetBegin 5 d).domFreset d) :=
  rfl
theorem exec_fresetAcquisition (s : State) : exec .fresetAcquisition s = .next ((s.fresetBegin 6 0).acqFreset) := rfl
theorem exec_fresetEnergy (s : State) : exec .fresetEnergy s = .next ((s.fresetBegin 7 0).nrgFreset) := rfl
theorem exec_fresetSecurity (s : State) : exec .fresetSecurity s = .next ((s.fresetBegin 8 0).sessionEnd.secFreset) := rfl
theorem exec_fresetRedundancy (s : State) : exec .fresetRedundancy s = .next ((s.fresetBegin 9 0).redFreset) := rfl
theorem exec_fresetSequencer (s : State) : exec .fresetSequencer s = .next ((s.fresetBegin 10 0).seqFreset) := rfl
theorem exec_fresetEngine (s : State) : exec .fresetEngine s = .next (((s.fresetBegin 11 0).resetStatus 704 fun a => decide (0x40010 ≤ a ∧ a < 0x40028)).engFreset) :=
  rfl
theorem exec_fresetPlanner (s : State) : exec .fresetPlanner s = .next (((s.fresetBegin 12 0).resetStatus 768 fun a => a == 0x50034).plnFreset) :=
  rfl
theorem exec_fresetSelection (s : State) : exec .fresetSelection s = .next (((s.fresetBegin 13 0).resetStatus 832 noKept).selFreset) :=
  rfl
theorem exec_fresetComposer (s : State) : exec .fresetComposer s = .next (((s.fresetBegin 14 0).resetStatus 896 noKept).cmpFreset) :=
  rfl
theorem exec_fresetProtection (s : State) : exec .fresetProtection s = .next ((s.fresetBegin 15 0).protFreset) := rfl

/-- Settles O42: the fifteen function resets, each from the lemma about its own function. -/
theorem functionResets : Obligations.FunctionResets := by
  unfold Obligations.FunctionResets
  intro on esc port
  exact ⟨fun s n => ⟨_, exec_fresetClPort s n, fresetClPort_spec s n⟩,
    fun s n => ⟨_, exec_fresetMlPort s n, fresetMlPort_spec s n⟩,
    fun s => ⟨_, exec_fresetSensor s, fresetSensor_spec s⟩,
    fun s n => ⟨_, exec_fresetStationPort s n, fresetStation_spec s n⟩,
    fun s d => ⟨_, exec_fresetTimeDomain s d, fresetTime_spec s d⟩,
    fun s => ⟨_, exec_fresetAcquisition s, fresetAcquisition_spec s⟩,
    fun s => ⟨_, exec_fresetEnergy s, fresetEnergy_spec s⟩,
    fun s => ⟨_, exec_fresetSecurity s, fresetSecurity_spec s⟩,
    fun s => ⟨_, exec_fresetRedundancy s, fresetRedundancy_spec s⟩,
    fun s => ⟨_, exec_fresetSequencer s, fresetSequencer_spec s⟩,
    fun s => ⟨_, exec_fresetEngine s, fresetEngine_spec s⟩,
    fun s => ⟨_, exec_fresetPlanner s, fresetPlanner_spec s⟩,
    fun s => ⟨_, exec_fresetSelection s, fresetSelection_spec s⟩,
    fun s _ => ⟨_, exec_fresetComposer s, fresetComposer_spec s⟩,
    fun s => ⟨_, exec_fresetProtection s, fresetProtection_spec s⟩⟩

end Sys2Proof.Machine
end

section
/-! PROOFS. What leaves the loader alone: every helper of the model but the few through which a command reaches a reset, a flash
command, an offline port or an image. A rule a helper, in the order of the model's files, tagged for simp; the loader of the result
is that of the state given -/
namespace Sys2Proof.Machine
open Sys2Proof

-- The proofs are checked one after another: many at a time need more memory than a compile may have.
set_option Elab.async false

/-! ### Composition -/

@[simp] theorem ite_ld (c : Prop) [Decidable c] (s t : State) : (if c then s else t).ld = if c then s.ld else t.ld := apply_ite ..

theorem ite_ld_eq {c : Prop} [Decidable c] {s t : State} {l : Loader} (hs : s.ld = l) (ht : t.ld = l) :
    (if c then s else t).ld = l := by split <;> assumption

theorem ite_fst_ld {α : Type} {c : Prop} [Decidable c] {p q : State × α} {l : Loader} (hp : p.1.ld = l) (hq : q.1.ld = l) :
    (if c then p else q).1.ld = l := by split <;> assumption

theorem withSec_ld (s : State) (x : Sec) : ({ s with sec := x } : State).ld = s.ld := rfl

theorem withRed_ld (s : State) (x : Red) : ({ s with red := x } : State).ld = s.ld := rfl

@[simp] theorem ite_snd_ld {α : Type} (c : Prop) [Decidable c] (p q : α × State) :
    (if c then p else q).2.ld = if c then p.2.ld else q.2.ld :=
  apply_ite (fun p : α × State => p.2.ld) c p q

@[simp] theorem foldl_ld {β : Type} {f : State → β → State} (h : ∀ s b, (f s b).ld = s.ld) (l : List β) (s : State) :
    (l.foldl f s).ld = s.ld := foldl_keep State.ld f h l s

theorem foldl_fst_ld {α β : Type} {f : State × α → β → State × α} (h : ∀ p b, (f p b).1.ld = p.1.ld) (l : List β)
    (p : State × α) :
    (l.foldl f p).1.ld = p.1.ld := foldl_keep (fun p : State × α => p.1.ld) f h l p

@[simp] theorem each_ld {f : State → Nat → State} (h : ∀ s i, (f s i).ld = s.ld) (s : State) (l : List Nat) :
    (s.each l f).ld = s.ld :=
  foldl_ld h l s

@[simp] theorem when_ld {f : State → State} (h : ∀ s, (f s).ld = s.ld) (s : State) (c : Bool) : (s.when c f).ld = s.ld := by
  simp [State.when, h]

@[simp] theorem inPhase_ld {f : State → State} (h : ∀ s, (f s).ld = s.ld) (s : State) : (s.inPhase f).ld = s.ld := by
  simp [State.inPhase, h]

@[simp] theorem foldUpto_ld {f : State → Nat → State} (h : ∀ s i, (f s i).ld = s.ld) (n : Nat) (s : State) :
    (foldUpto n f s).ld = s.ld :=
  foldl_ld h _ s

/-! ### Operands and memory words -/

@[simp] theorem wrBytes_ld (s : State) (a : Nat) (a' : List Byte) : (s.wrBytes a a').ld = s.ld := by
  fun_induction State.wrBytes <;> simp_all

@[simp] theorem wrWords_ld (s : State) (a : Nat) (a' : List (BitVec 64)) : (s.wrWords a a').ld = s.ld := by
  fun_induction State.wrWords <;> simp_all

@[simp] theorem setSlot_ld (s : State) (i : Nat) (v : Int) : (s.setSlot i v).ld = s.ld := rfl

@[simp] theorem setSlotBits_ld (s : State) (i v : Nat) : (s.setSlotBits i v).ld = s.ld := rfl

/-! ### Flags, counters and messages -/

@[simp] theorem commitBlockMarkers_ld (s : State) (c : BlkCause) :
    (s.commitBlockMarkers c).ld = s.ld := by simp [State.commitBlockMarkers]

@[simp] theorem driveBlockOut_ld (s : State) : s.driveBlockOut.ld = s.ld := by simp [State.driveBlockOut]

@[simp] theorem noteCause_ld (s : State) (c : BlkCause) : (s.noteCause c).ld = s.ld := rfl

@[simp] theorem blockCause_ld (s : State) (c : BlkCause) : (s.blockCause c).ld = s.ld := by simp [State.blockCause]

@[simp] theorem joinSump_ld (s : State) (n : Nat) : (s.joinSump n).ld = s.ld := rfl

@[simp] theorem joinClk_ld (s : State) (n : Nat) : (s.joinClk n).ld = s.ld := rfl

@[simp] theorem joinPln_ld (s : State) : s.joinPln.ld = s.ld := rfl

/-! ### Sump and reactions -/

@[simp] theorem setSumpSrc_ld (s : State) (n : Nat) (x : SumpSrc) : (s.setSumpSrc n x).ld = s.ld := rfl

@[simp] theorem driveErr_ld (s : State) : s.driveErr.ld = s.ld := rfl

@[simp] theorem driveInt_ld (s : State) : s.driveInt.ld = s.ld := rfl

@[simp] theorem nmiRequest_ld (s : State) : s.nmiRequest.ld = s.ld := by
  simp only [State.nmiRequest]
  split <;> simp

@[simp] theorem classify_ld (s : State) (n cls t m kind : Nat) :
    (s.classify n cls t m kind).1.ld = s.ld := by simp -implicitDefEqProofs [State.classify]

@[simp] theorem logEntry_ld (s : State) (n kind detail tick16 react : Nat) (sev : Bool) (cls m t : Nat) :
    (s.logEntry n kind detail tick16 react sev cls m t).ld = s.ld := by simp -implicitDefEqProofs [State.logEntry]

@[simp] theorem sumpBlock_ld (s : State) (n : Nat) : (s.sumpBlock n).ld = s.ld := by simp [State.sumpBlock]

@[simp] theorem fresetRequest_ld (s : State) (fn idx src : Nat) (esc : Bool) :
    (s.fresetRequest fn idx src esc).ld = s.ld := by simp [State.fresetRequest]

@[simp] theorem cresetAt_ld (s : State) (n d : Nat) : (s.cresetAt n d).ld = s.ld := rfl

@[simp] theorem cresetReaction_ld (s : State) (n kind mask : Nat) :
    (s.cresetReaction n kind mask).ld = s.ld := by simp [State.cresetReaction]

@[simp] theorem applyReactions_ld (s : State) (n kind react mask : Nat) : (s.applyReactions n kind react mask).ld = s.ld := by
  simp -implicitDefEqProofs only [State.applyReactions]
  repeat' split
  all_goals simp -implicitDefEqProofs

@[simp] theorem countedEvent_ld (s : State) (n kind detail tick16 cls m : Nat) :
    (s.countedEvent n kind detail tick16 cls m).ld = s.ld := by simp [State.countedEvent]

@[simp] theorem notedEvent_ld (s : State) (n kind detail tick16 inj m : Nat) :
    (s.notedEvent n kind detail tick16 inj m).ld = s.ld := by simp -implicitDefEqProofs [State.notedEvent]

@[simp] theorem serveSlot_ld (s : State) (n : Nat) (x : SumpSlot) : (s.serveSlot n x).ld = s.ld := by simp [State.serveSlot]

@[simp] theorem sumpService_ld (s : State) : (sumpService s).ld = s.ld := by
  simp only [sumpService]
  repeat' split
  all_goals simp

@[simp] theorem quietCheck_ld (s : State) (n : Nat) : (s.quietCheck n).ld = s.ld := by simp [State.quietCheck]

@[simp] theorem quietAll_ld (s : State) : s.quietAll.ld = s.ld := by simp [State.quietAll]

@[simp] theorem errClear_ld (s : State) : (errClear s).ld = s.ld := by simp [errClear]

/-! ### Checked memory -/

@[simp] theorem inject_ld (s : State) (i : Nat) (syn : BitVec 8) : (s.inject i syn).1.ld = s.ld := by
  simp only [State.inject]
  repeat' split
  all_goals simp

theorem ReadFrame.ld {s t : State} (h : ReadFrame s t) : t.ld = s.ld := by rw [h.1]

@[simp] theorem checkedRead_ld (s : State) (a : Nat) : (s.checkedRead a).2.ld = s.ld := (readFrame_checkedRead s a).ld

@[simp] theorem pipeRead_ld (s : State) (ws : List Nat) : (s.pipeRead ws).ld = s.ld := by simp [State.pipeRead]

@[simp] theorem readEntries_ld (s : State) (cells : List Nat) : (s.readEntries cells).ld = s.ld := by simp [State.readEntries]

@[simp] theorem injectWords_ld (s : State) (i : Nat) (l : List (BitVec 8)) : (s.injectWords i l).1.ld = s.ld := by
  induction l generalizing s with
  | nil => rfl
  | cons y t ih => simp [State.injectWords, ih]

@[simp] theorem laneCheck_ld (s : State) (l : Nat) (syns : List (BitVec 8)) : (s.laneCheck l syns).1.ld = s.ld := by
  unfold State.laneCheck
  split <;> simp

@[simp] theorem setMbox_ld (s : State) (x : MboxPort) : (s.setMbox x).ld = s.ld := rfl

@[simp] theorem mboxBegin_ld (s : State) (a : Nat) (sh : Share) : (s.mboxBegin a sh).ld = s.ld := by simp [State.mboxBegin]

@[simp] theorem mboxOver_ld (s : State) (a : Nat) (sh : Share) : (s.mboxOver a sh).ld = s.ld := by simp [State.mboxOver]

@[simp] theorem mboxConflict_ld (s : State) (a : Nat) : (s.mboxConflict a).ld = s.ld := by simp [State.mboxConflict]

@[simp] theorem openResp_ld (s : State) (l : List ECWord) : (s.openResp l).2.ld = s.ld := (readFrame_openResp l s).ld

@[simp] theorem hostUndone_ld (s : State) : s.hostUndone.ld = s.ld := (readFrame_hostUndone s).ld

@[simp] theorem memRead_ld (s : State) (a n : Nat) : (s.memRead a n).2.ld = s.ld := by simp [State.memRead]

@[simp] theorem memWrite_ld (s : State) (a n v : Nat) : (s.memWrite a n v).2.ld = s.ld := by
  simp only [State.memWrite]
  repeat' split
  all_goals simp

@[simp] theorem mboxRead_ld (s : State) (host : Bool) (a n : Nat) : (s.mboxRead host a n).2.ld = s.ld := by
  simp only [State.mboxRead]
  repeat' split
  all_goals simp

@[simp] theorem mboxWrite_ld (s : State) (host : Bool) (a n v : Nat) : (s.mboxWrite host a n v).2.ld = s.ld := by
  simp only [State.mboxWrite]
  split <;> simp

@[simp] theorem readEach_ld (s : State) (l : List Nat) : (s.readEach l).2.ld = s.ld := (readFrame_readEach l s).ld

@[simp] theorem readBytes_ld (s : State) (a n : Nat) : (s.readBytes a n).2.ld = s.ld := (readFrame_readBytes s a n).ld

@[simp] theorem writeBytes_ld (s : State) (a : Nat) (l : List Byte) : (s.writeBytes a l).ld = s.ld := (readFrame_writeBytes s a l).ld

/-! ### Blocks and their tables -/

@[simp] theorem setCe_ld (s : State) (g : Nat) (f : CeFld) (v : Nat) : (s.setCe g f v).ld = s.ld := rfl

@[simp] theorem setCc_ld (s : State) (g : Nat) (x : CmpCell) : (s.setCc g x).ld = s.ld := rfl

@[simp] theorem profPending_ld (s : State) : s.profPending.ld = s.ld := rfl

@[simp] theorem portLeft_ld (s : State) (n : Nat) : (s.portLeft n).ld = s.ld := by grind [State.portLeft, each_ld, setCc_ld, setCe_ld]

@[simp] theorem svcDenied_ld (s : State) : s.svcDenied.ld = s.ld := by simp [State.svcDenied]

@[simp] theorem unlessHold_ld {f : State → State} (h : ∀ s, (f s).ld = s.ld) (s : State) : (s.unlessHold f).ld = s.ld := by
  simp [State.unlessHold, h]

@[simp] theorem mirrored_ld {f : State → State} (h : ∀ s, (f s).ld = s.ld) (s : State) (m : Master) (k b : Nat) :
    (s.mirrored m k b f).ld = s.ld := by
  simp [State.mirrored, h]

/-! ### Port lines -/

@[simp] theorem setPort_ld (s : State) (l st : Nat) : (s.setPort l st).ld = s.ld := by simp [State.setPort]

@[simp] theorem lineCount_ld (s : State) (l : Nat) (c : Fld) (i : Nat) : (s.lineCount l c i).ld = s.ld := by simp [State.lineCount]

@[simp] theorem portFault_ld (s : State) (l : Nat) (why : FaultedBy) : (s.portFault l why).ld = s.ld := by simp [State.portFault]

@[simp] theorem seek_ld (s : State) (l : Nat) : (s.seek l).ld = s.ld := by simp [State.seek]

@[simp] theorem losAssert_ld (s : State) (l : Nat) : (losAssert s l).ld = s.ld := by simp [losAssert]

@[simp] theorem losFound_ld (s : State) (l : Nat) (a : LosCause) : (losFound s l a).ld = s.ld := by
  unfold losFound
  split <;> simp

@[simp] theorem losClear_ld (s : State) (l : Nat) (pin : Bool) : (losClear s l pin).ld = s.ld := by simp [losClear]

@[simp] theorem lolAssert_ld (s : State) (l : Nat) : (lolAssert s l).ld = s.ld := by simp [lolAssert]

@[simp] theorem lolClear_ld (s : State) (l : Nat) : (lolClear s l).ld = s.ld := by
  simp only [lolClear]
  repeat' split
  all_goals simp

@[simp] theorem frameMiss_ld (s : State) (l : Nat) : (frameMiss s l).ld = s.ld := by simp [frameMiss]

@[simp] theorem markerEvents_ld (s : State) (l : Nat) (a : MarkRx) : (markerEvents s l a).ld = s.ld := by
  unfold markerEvents
  split <;> simp

@[simp] theorem blockRx_ld (s : State) (l : Nat) (r : MarkRx) : (s.blockRx l r).ld = s.ld := by
  simp only [State.blockRx]
  repeat' split
  all_goals simp

@[simp] theorem alertMark_ld (s : State) (l : Nat) : (s.alertMark l).ld = s.ld := by simp [State.alertMark]

@[simp] theorem markerRx_ld (s : State) (l : Nat) (word : Word) : (s.markerRx l word).2.ld = s.ld := by
  simp only [State.markerRx]
  repeat' split
  all_goals simp

@[simp] theorem frameMark_ld (s : State) (l ui : Nat) : (s.frameMark l ui).ld = s.ld := by simp [State.frameMark]

@[simp] theorem frameMarkerRx_ld (s : State) (l : Nat) (word : Word) (ui : Nat) :
    (frameMarkerRx s l word ui).ld = s.ld := by simp [frameMarkerRx]

@[simp] theorem faultedRecovery_ld (s : State) (l : Nat) : (faultedRecovery s l).ld = s.ld := by simp [faultedRecovery]

@[simp] theorem portSilent_ld (s : State) (l : Nat) : (portSilent s l).ld = s.ld := by
  unfold portSilent
  split <;> simp

@[simp] theorem portUp_ld (s : State) (l : Nat) : (portUp s l).ld = s.ld := by simp [portUp]

@[simp] theorem portEnable_ld (s : State) (l : Nat) : (portEnable s l).ld = s.ld := by simp [portEnable]

@[simp] theorem portDown_ld (s : State) (l : Nat) : (portDown s l).ld = s.ld := rfl

@[simp] theorem portDisable_ld (s : State) (l : Nat) : (portDisable s l).ld = s.ld := by simp [portDisable]

@[simp] theorem portOff_ld (s : State) (l : Nat) : (portOff s l).ld = s.ld := by simp [portOff]

@[simp] theorem portsStop_ld (s : State) : (portsStop s).ld = s.ld := by simp [portsStop]

@[simp] theorem loopbackSelect_ld (s : State) (l lb : Nat) : (loopbackSelect s l lb).ld = s.ld := by simp [loopbackSelect]

@[simp] theorem reseek_ld (s : State) (l : Nat) : (s.reseek l).ld = s.ld := by simp [State.reseek]

@[simp] theorem loopbackEnd_ld (s : State) : (loopbackEnd s).ld = s.ld := by simp [loopbackEnd]

@[simp] theorem portIdentify_ld (s : State) (l : Nat) (expected : Bool) : (portIdentify s l expected).ld = s.ld := by simp [portIdentify]

@[simp] theorem noIdent_ld (s : State) (l : Nat) : (s.noIdent l).ld = s.ld := by simp [State.noIdent]

@[simp] theorem newFrame_ld (s : State) (l : Nat) (ws : List (BitVec 64)) (block : Bool) :
    (s.newFrame l ws block).ld = s.ld := by simp [State.newFrame]

@[simp] theorem blockUnsent_ld (s : State) (l b : Nat) : (s.blockUnsent l b).ld = s.ld := by simp -implicitDefEqProofs [State.blockUnsent]

@[simp] theorem loopCompare_ld (s : State) (l : Nat) (line : List Bool) (ws : List (BitVec 64)) :
    (loopCompare s l line ws).ld = s.ld := by simp [loopCompare]

@[simp] theorem stuffEvents_ld (s : State) (l v : Nat) : (stuffEvents s l v).ld = s.ld := by simp [stuffEvents]

@[simp] theorem markerPlace_ld (s : State) (l : Nat) (k : Marker) (b : Nat) : (markerPlace s l k b).ld = s.ld := by simp [markerPlace]

@[simp] theorem streamBlock_ld (s : State) (l w : Nat) : (s.streamBlock l w).ld = s.ld := rfl

@[simp] theorem priorityMarkerSend_ld (s : State) (l : Nat) (k : Marker) (w : Nat) : (priorityMarkerSend s l k w).ld = s.ld := by
  simp only [priorityMarkerSend]
  repeat' split
  all_goals simp

@[simp] theorem lolFound_ld (s : State) (l : Nat) (cdrUnlock : Bool) : (lolFound s l cdrUnlock).ld = s.ld := by simp [lolFound]

@[simp] theorem lineReset_ld (s : State) (l : Nat) : (lineReset s l).ld = s.ld := by simp -implicitDefEqProofs [lineReset]

/-! ### Cell controllers -/

@[simp] theorem setCell_ld (s : State) (g : Nat) (c : Cell) : (s.setCell g c).ld = s.ld := rfl

@[simp] theorem onCell_ld (s : State) (g : Nat) (f : Cell → Cell) : (s.onCell g f).ld = s.ld := rfl

@[simp] theorem cellItemCmd_ld (s : State) (g code data : Nat) : (cellItemCmd s g code data).ld = s.ld := rfl

@[simp] theorem setHub_ld (s : State) (n : Nat) (h : Hub) : (s.setHub n h).ld = s.ld := rfl

/-! ### Links -/

@[simp] theorem lateEval_ld (s : State) (g : Nat) : (s.lateEval g).ld = s.ld := by simp -implicitDefEqProofs [State.lateEval]

@[simp] theorem lateAll_ld (s : State) : s.lateAll.ld = s.ld := by simp [State.lateAll]

@[simp] theorem ownDelay_ld (s : State) (g : Nat) (dcell : Int) : (s.ownDelay g dcell).ld = s.ld := by
  simp only [State.ownDelay]
  repeat' split
  all_goals simp

@[simp] theorem probeAnswer_ld (s : State) (g rxt : Nat) : (s.probeAnswer g rxt).ld = s.ld := by
  simp -implicitDefEqProofs only [State.probeAnswer]
  repeat' split
  all_goals simp -implicitDefEqProofs

@[simp] theorem portDelay_ld (s : State) (n rtt : Nat) (thub : Int) (lh : Nat) :
    (s.portDelay n rtt thub lh).ld = s.ld := by simp [State.portDelay]

@[simp] theorem startProf_ld (s : State) (g : Nat) : (s.startProf g).ld = s.ld := rfl

@[simp] theorem hubView_ld (s : State) (n : Nat) (hdr : BitVec 64) : (s.hubView n hdr).ld = s.ld := rfl

@[simp] theorem statusS0_ld (s : State) (n rtt : Nat) (w : BitVec 64) : (s.statusS0 n rtt w).ld = s.ld := by simp [State.statusS0]

@[simp] theorem fcnt_ld (s : State) (n : Nat) (c : Fld) (i k : Nat) : (s.fcnt n c i k).ld = s.ld := by simp [State.fcnt]

@[simp] theorem cellFrameRx_ld (s : State) (n : Nat) (line : List Bool) (cyc rtt : Nat) :
    (cellFrameRx s n line cyc rtt).ld = s.ld := by
  grind [cellFrameRx, stuffEvents_ld, loopCompare_ld, laneCheck_ld, sendIf_ld, fcnt_ld, noIdent_ld, send_ld, portIdentify_ld, each_ld,
    startProf_ld, hubView_ld, statusS0_ld, setLane_ld]

@[simp] theorem hubFrameLaunch_ld (s : State) (n u j : Nat) (d : HubData) : (hubFrameLaunch s n u j d).ld = s.ld := rfl

/-! ### Selection -/

@[simp] theorem setSel_ld (s : State) (g : Nat) (x : SelRec) : (s.setSel g x).ld = s.ld := rfl

@[simp] theorem setSelA_ld (s : State) (a : Nat) (x : SelArm) : (s.setSelA a x).ld = s.ld := rfl

@[simp] theorem setPlnA_ld (s : State) (a : Nat) (x : PlnArm) : (s.setPlnA a x).ld = s.ld := rfl

@[simp] theorem selUpdate_ld (s : State) (g : Nat) : (s.selUpdate g).ld = s.ld := by simp -implicitDefEqProofs [State.selUpdate]

@[simp] theorem aggregates_ld (s : State) (a : Nat) : (s.aggregates a).ld = s.ld := by simp [State.aggregates]

@[simp] theorem exclPending_ld (s : State) : s.exclPending.ld = s.ld := rfl

@[simp] theorem exclRequest_ld (s : State) (g act : Nat) : (exclRequest s g act).ld = s.ld := by simp [exclRequest]

@[simp] theorem exclTake_ld (s : State) : s.exclTake.ld = s.ld := by simp [State.exclTake]

@[simp] theorem exclCell_ld (s : State) (g : Nat) : (s.exclCell g).ld = s.ld := by
  unfold State.exclCell
  split <;> simp

@[simp] theorem exclDenied_ld (s : State) (g : Nat) : (exclDenied s g).ld = s.ld := by
  simp only [exclDenied]
  repeat' split
  all_goals simp

@[simp] theorem classCell_ld (s : State) (a g : Nat) : (s.classCell a g).ld = s.ld := by simp [State.classCell]

@[simp] theorem dropPip_ld (s : State) (a g : Nat) : (s.dropPip a g).ld = s.ld := rfl

@[simp] theorem selectionThreshold_ld (s : State) :
    (selectionThreshold s).ld = s.ld := by grind [selectionThreshold, each_ld, dropPip_ld, pipeRead_ld, setFld_ld, setSelA_ld]

@[simp] theorem giveTarget_ld (s : State) (g : Nat) (t : Tgt) (pipEdge : Bool) (v : Visit) :
    (s.giveTarget g t pipEdge v).1.ld = s.ld := rfl

@[simp] theorem pass2Arm_ld (s : State) (a : Nat) : (s.pass2Arm a).ld = s.ld := by
  unfold State.pass2Arm
  extract_lets l nc ptr p
  split
  next u v hu =>
    have hf : u.ld = s.ld :=
      (congrArg (fun q : State × Visit => q.1.ld) hu.symm).trans (foldl_fst_ld (fun _ _ => giveTarget_ld ..) _ _)
    rw [← hf]
    cases v.last <;> simp -implicitDefEqProofs

@[simp] theorem pass2Block_ld (s : State) (a : Nat) : (s.pass2Block a).ld = s.ld := by
  simp -implicitDefEqProofs [State.pass2Block]

@[simp] theorem selectionPass2_ld (s : State) : (selectionPass2 s).ld = s.ld := by simp [selectionPass2]

@[simp] theorem selSeed_ld (s : State) : s.selSeed.ld = s.ld := by simp -implicitDefEqProofs [State.selSeed]

@[simp] theorem selSetup_ld (s : State) : s.selSetup.ld = s.ld := by simp -implicitDefEqProofs [State.selSetup]

@[simp] theorem selFreset_ld (s : State) : s.selFreset.ld = s.ld := by simp -implicitDefEqProofs [State.selFreset]

@[simp] theorem exclWrite_ld (s : State) (m : Master) (g act : Nat) : (exclWrite s m g act).ld = s.ld := by simp [exclWrite]

/-! ### Planner -/

@[simp] theorem showArm_ld (s : State) (a : Nat) : (s.showArm a).ld = s.ld := rfl

@[simp] theorem planSafe_ld (s : State) (a : Nat) : (s.planSafe a).ld = s.ld := by simp [State.planSafe]

@[simp] theorem pipDecide_ld (s : State) (a : Nat) : (s.pipDecide a).1.ld = s.ld := by
  simp only [State.pipDecide]
  repeat' split
  all_goals simp

@[simp] theorem planFlag_ld (s : State) (on : Bool) (f : Fld) : (s.planFlag on f).ld = s.ld := by simp [State.planFlag]

@[simp] theorem planArm_ld (s : State) (a : Nat) : (s.planArm a).ld = s.ld := by
  unfold State.planArm
  extract_lets was u c src0 b
  have hu : u.ld = s.ld := setPlnA_ld ..
  have hv := pipDecide_ld u a
  have hc : ∀ s on f i k, (c s on f i k).ld = s.ld := by simp [c]
  split
  next v moved h1 =>
    rw [h1] at hv
    rw [← hu, ← hv]
    simp -implicitDefEqProofs [hc]
    split <;> simp

@[simp] theorem plannerPhase_ld (s : State) :
    (plannerPhase s).ld = s.ld := by grind [plannerPhase, each_ld, planArm_ld, planSafe_ld, send_ld, flag_ld, joinPln_ld, sumpBlock_ld]

@[simp] theorem patternRequest_ld (s : State) : (patternRequest s).ld = s.ld := by simp -implicitDefEqProofs [patternRequest]

@[simp] theorem patternCommit_ld (s : State) : (patternCommit s).ld = s.ld := by simp [patternCommit]

@[simp] theorem pipSeed_ld (s : State) : s.pipSeed.ld = s.ld := by simp -implicitDefEqProofs [State.pipSeed]

@[simp] theorem plnFreset_ld (s : State) : s.plnFreset.ld = s.ld := by simp -implicitDefEqProofs [State.plnFreset]

@[simp] theorem logInputs_ld (s : State) : s.logInputs.ld = s.ld := by simp [State.logInputs]

/-! ### Composer -/

@[simp] theorem auxLevel_ld (s : State) : s.auxLevel.ld = s.ld := rfl

@[simp] theorem auxRequest_ld (s : State) (g code data : Nat) : (auxRequest s g code data).ld = s.ld := by simp [auxRequest]

@[simp] theorem auxWrite_ld (s : State) (m : Master) (g code data : Nat) : (auxWrite s m g code data).ld = s.ld := by simp [auxWrite]

@[simp] theorem unqueue_ld (s : State) (id : Nat) : (s.unqueue id).ld = s.ld := rfl

@[simp] theorem stestDone_ld (s : State) (g res : Nat) : (s.stestDone g res).ld = s.ld := by
  simp only [State.stestDone]
  repeat' split
  all_goals simp

@[simp] theorem stestReport_ld (s : State) (g : Nat) : (s.stestReport g).ld = s.ld := by simp [State.stestReport]

@[simp] theorem selftestPeriod_ld (s : State) (a : Nat) : (selftestPeriod s a).ld = s.ld := by
  simp only [selftestPeriod]
  repeat' split
  all_goals simp

@[simp] theorem stestTimeout_ld (s : State) (g : Nat) : (stestTimeout s g).ld = s.ld := by simp [stestTimeout]

@[simp] theorem profFailed_ld (s : State) (g : Nat) : (s.profFailed g).ld = s.ld := by simp [State.profFailed]

@[simp] theorem itemDone_ld (s : State) (g : Nat) (i : ItemRun) : (s.itemDone g i).ld = s.ld := by
  simp -implicitDefEqProofs only [State.itemDone]
  repeat' split
  all_goals simp -implicitDefEqProofs

@[simp] theorem itemDrop_ld (s : State) (g : Nat) (i : ItemRun) (rej : Bool) : (s.itemDrop g i rej).ld = s.ld := by
  simp only [State.itemDrop]
  split <;> simp

@[simp] theorem clearStep_ld (s : State) (g : Nat) (i : ItemRun) (x : Nat) : (s.clearStep g i x).ld = s.ld := by simp [State.clearStep]

@[simp] theorem itemRejected_ld (s : State) (g : Nat) : (s.itemRejected g).ld = s.ld := by simp [State.itemRejected]

@[simp] theorem itemReport_ld (s : State) (g seqe flags : Nat) :
    (s.itemReport g seqe flags).ld = s.ld := by
  grind [State.itemReport, setCc_ld, itemRejected_ld, setCe_ld, itemDrop_ld, clearStep_ld, itemDone_ld]

@[simp] theorem probeTimeout_ld (s : State) (g : Nat) : (s.probeTimeout g).ld = s.ld := by
  unfold State.probeTimeout
  split <;> simp

@[simp] theorem auxTimeout_ld (s : State) (g : Nat) : (auxTimeout s g).ld = s.ld := by
  simp only [auxTimeout]
  repeat' split
  all_goals simp

@[simp] theorem ageCell_ld (s : State) (g : Nat) : (s.ageCell g).ld = s.ld := by simp -implicitDefEqProofs [State.ageCell]

@[simp] theorem unpackWord_ld (s : State) (g j w : Nat) :
    (s.unpackWord g j w).ld = s.ld := by simp -implicitDefEqProofs [State.unpackWord]

@[simp] theorem unpackCell_ld (s : State) (g j : Nat) (f : Option RxFrame) : (s.unpackCell g j f).ld = s.ld := by
  simp only [State.unpackCell]
  repeat' split
  all_goals simp

@[simp] theorem unpackPort_ld (s : State) (n : Nat) : (s.unpackPort n).ld = s.ld := by simp [State.unpackPort]

@[simp] theorem tableSetup_ld (s : State) : s.tableSetup.ld = s.ld := by grind [State.tableSetup, each_ld, wr_ld]

@[simp] theorem dropBad_ld (s : State) (g a : Nat) : (s.dropBad g a).ld = s.ld := by
  fun_induction State.dropBad <;> simp_all

@[simp] theorem auxItem_ld (s : State) (g x : Nat) : (s.auxItem g x).1.ld = s.ld := by
  simp only [State.auxItem]
  repeat' split
  all_goals simp

@[simp] theorem composeWord_ld (s : State) (g x : Nat) : (s.composeWord g x).1.ld = s.ld := by
  unfold State.composeWord
  split <;> simp

@[simp] theorem composePort_ld (s : State) (n x h2 : Nat) : (s.composePort n x h2).ld = s.ld := by
  simp -implicitDefEqProofs [State.composePort, foldl_fst_ld]

@[simp] theorem composerPhase_ld (s : State) : (composerPhase s).ld = s.ld := by
  simp -implicitDefEqProofs [composerPhase]

@[simp] theorem adoptWord_ld (s : State) (g x : Nat) (w : BitVec 64) : (s.adoptWord g x w).1.ld = s.ld := by
  unfold State.adoptWord
  split <;> simp

@[simp] theorem sendWord_ld (s : State) (g x : Nat) (w : BitVec 64) : (s.sendWord g x w).1.ld = s.ld := by
  simp -implicitDefEqProofs only [State.sendWord]
  split <;> simp -implicitDefEqProofs

@[simp] theorem sendWords_ld (s : State) (n : Nat) : (s.sendWords n).1.ld = s.ld := by
  refine foldl_fst_ld (fun q p => ?_) _ _
  dsimp only
  split
  · exact sendWord_ld ..
  · rfl

@[simp] theorem launchCl_ld (s : State) (lph n : Nat) : (s.launchCl lph n).ld = s.ld := by
  simp -implicitDefEqProofs [State.launchCl]

@[simp] theorem cmpSetup_ld (s : State) : s.cmpSetup.ld = s.ld := rfl

@[simp] theorem cmpFreset_ld (s : State) :
    s.cmpFreset.ld = s.ld := by grind [State.cmpFreset, each_ld, setCe_ld, setCc_ld, profPending_ld, auxLevel_ld, setFld_ld]

/-! ### Accesses -/

@[simp] theorem blockSend_ld (s : State) (a kind : Nat) : (s.blockSend a kind).ld = s.ld := by simp [State.blockSend]

/-! ### Operands and memory words (continued) -/

theorem field_ld (w : Wr) (a val : Nat) (fr : Bool) (f : FldDef) : (w.field a val fr f).s.ld = w.s.ld := by
  unfold Wr.field
  dsimp only
  cases f.acc <;> dsimp only <;> (repeat' split) <;> simp

theorem foldl_wr_ld {f : Wr → FldDef → Wr} (h : ∀ w x, (f w x).s.ld = w.s.ld) (l : List FldDef) (w : Wr) :
    (l.foldl f w).s.ld = w.s.ld := foldl_keep (fun w : Wr => w.s.ld) f h l w

/-! ### Accesses (continued) -/

@[simp] theorem regWrite_ld (s : State) (m : Master) (a val : Nat) : (s.regWrite m a val).ld = s.ld := by
  unfold State.regWrite
  split
  · rfl
  · simp [foldl_wr_ld fun w x => field_ld ..]

/-! ### Protection -/

@[simp] theorem pinStat_ld (s : State) : s.pinStat.ld = s.ld := rfl

@[simp] theorem setPin_ld (s : State) (p : Nat) (hi : Bool) : (s.setPin p hi).ld = s.ld := rfl

@[simp] theorem pinTrip_ld (s : State) (p : Nat) (sampled : Bool) : (s.pinTrip p sampled).ld = s.ld := by simp [State.pinTrip]

@[simp] theorem tripPin_ld (s : State) (p : Nat) (sampled : Bool) : (tripPin s p sampled).ld = s.ld := by simp [tripPin]

@[simp] theorem pinCfgWrite_ld (s : State) (m : Master) (val : Nat) : (pinCfgWrite s m val).ld = s.ld := by simp [pinCfgWrite]

@[simp] theorem cmpCfgWrite_ld (s : State) (m : Master) (a val : Nat) : (s.cmpCfgWrite m a val).ld = s.ld := by simp [State.cmpCfgWrite]

@[simp] theorem comparatorSample_ld (s : State) (n : Nat) (x : Int) (ok : Bool) :
    (comparatorSample s n x ok).ld = s.ld := by simp [comparatorSample]

@[simp] theorem watchSample_ld (s : State) (ch : Nat) (x : Int) (ok : Bool) :
    (s.watchSample ch x ok).ld = s.ld := by simp [State.watchSample]

@[simp] theorem slRuns_ld (s : State) (m : Nat) : (s.slRuns m).ld = s.ld := by simp [State.slRuns]

@[simp] theorem portInvalid_ld (s : State) (m : Nat) : (s.portInvalid m).ld = s.ld := by simp [State.portInvalid]

@[simp] theorem blockMarkerRx_ld (s : State) (l : Nat) (word : Word) : (blockMarkerRx s l word).ld = s.ld := by simp [blockMarkerRx]

@[simp] theorem alertRx_ld (s : State) (l : Nat) (word : Word) : (alertRx s l word).ld = s.ld := by simp [alertRx]

@[simp] theorem escCount_ld (s : State) (c : FChange) : (s.escCount c).ld = s.ld := by simp [State.escCount]

@[simp] theorem escalate_ld (s : State) (c : FChange) (joins : Bool) : (s.escalate c joins).ld = s.ld := by simp [State.escalate]

@[simp] theorem cellEscalation_ld (s : State) : (cellEscalation s).ld = s.ld := by simp [cellEscalation]

@[simp] theorem releaseRequest_ld (s : State) : (releaseRequest s).ld = s.ld := by simp [releaseRequest]

@[simp] theorem release_ld (s : State) : s.release.ld = s.ld := by simp [State.release]

@[simp] theorem releaseOld_ld (s : State) : s.releaseOld.ld = s.ld := by simp [State.releaseOld]

@[simp] theorem protBoundary_ld (s : State) : s.protBoundary.ld = s.ld := by simp [State.protBoundary]

@[simp] theorem relWrite_ld (s : State) (val : Nat) : (relWrite s val).ld = s.ld := by simp [relWrite]

@[simp] theorem forceWrite_ld (s : State) (val : Nat) : (forceWrite s val).ld = s.ld := by simp [forceWrite]

@[simp] theorem protFreset_ld (s : State) : s.protFreset.ld = s.ld := by simp -implicitDefEqProofs [State.protFreset]

/-! ### Sensor lines -/

@[simp] theorem setSns_ld (s : State) (m : Nat) (x : SnsPort) : (s.setSns m x).ld = s.ld := rfl

@[simp] theorem setConc_ld (s : State) (m : Nat) (x : Conc) : (s.setConc m x).ld = s.ld := rfl

@[simp] theorem snsNote_ld (s : State) (m kind det : Nat) : (s.snsNote m kind det).ld = s.ld := by simp [State.snsNote]

@[simp] theorem snsTick_ld (s : State) : s.snsTick.ld = s.ld := by simp -implicitDefEqProofs [State.snsTick]

@[simp] theorem snsDelay_ld (s : State) (m rtt : Nat) (tc : Int) : (s.snsDelay m rtt tc).ld = s.ld := by simp [State.snsDelay]

@[simp] theorem sensorFrameRx_ld (s : State) (m : Nat) (line : List Bool) (cyc rtt : Nat) :
    (sensorFrameRx s m line cyc rtt).ld = s.ld := by
  simp -implicitDefEqProofs only [sensorFrameRx]
  simp -implicitDefEqProofs
  intros
  split <;> simp -implicitDefEqProofs

@[simp] theorem alignChannel_ld (s : State) (m c : Nat) (f : Option RxFrame) (st : Option Nat) : (s.alignChannel m c f st).ld = s.ld := by
  unfold State.alignChannel
  split <;> simp

@[simp] theorem alignPort_ld (s : State) (m : Nat) : (s.alignPort m).ld = s.ld := by
  simp -implicitDefEqProofs only [State.alignPort]
  repeat' split
  all_goals simp -implicitDefEqProofs

@[simp] theorem align_ld (s : State) : (align s).ld = s.ld := by simp [align]

@[simp] theorem launchSl_ld (s : State) (lph m : Nat) : (s.launchSl lph m).ld = s.ld := by simp [State.launchSl]

@[simp] theorem snsFreset_ld (s : State) : s.snsFreset.ld = s.ld := by simp -implicitDefEqProofs [State.snsFreset]

/-! ### Engine -/

@[simp] theorem setChan_ld (s : State) (c : Nat) (x : Chan) (u ur e : Int) (ks : List Nat) :
    (s.setChan c x u ur e ks).ld = s.ld := by grind [State.setChan, each_ld, wr_ld]

@[simp] theorem primeChan_ld (s : State) (c : Nat) : (s.primeChan c).ld = s.ld := rfl

@[simp] theorem chanSend_ld (s : State) (c kind detail : Nat) : (s.chanSend c kind detail).ld = s.ld := by simp [State.chanSend]

@[simp] theorem checkedReads_ld (s : State) (l : List Nat) (n : Nat) : (s.checkedReads l n).2.2.ld = s.ld := by
  induction l generalizing s n with
  | nil => rfl
  | cons a t ih =>
    have h := checkedRead_ld s a
    unfold State.checkedReads
    split <;> rename_i hu <;> rw [hu] at h
    · exact h
    · exact (ih ..).trans h

@[simp] theorem chanAbandon_ld (s : State) (c fin : Nat) : (s.chanAbandon c fin).ld = s.ld := rfl

@[simp] theorem chanRun_ld (s : State) (c : Nat) (cfg : ChCfg) (fin : Nat) (r f v pre : Int) :
    (s.chanRun c cfg fin r f v pre).ld = s.ld := by grind [State.chanRun, setChan_ld, setSlot_ld, chanSend_ld, flagBit_ld, when_ld]

@[simp] theorem channelStep_ld (s : State) (p : Nat) :
    (channelStep s p).ld = s.ld := by
  grind [channelStep, pipeRead_ld, checkedReads_ld, flag_ld, count_ld, chanAbandon_ld, primeChan_ld, chanSend_ld, chanRun_ld]

@[simp] theorem fenceAt_ld (s : State) (p : Nat) : (s.fenceAt p).ld = s.ld := by
  unfold State.fenceAt
  split <;> simp

@[simp] theorem controlFence_ld (s : State) : (controlFence s).ld = s.ld := by simp [controlFence]

@[simp] theorem swapGo_ld (s : State) : s.swapGo.ld = s.ld := by simp [State.swapGo]

@[simp] theorem swapWrite_ld (s : State) (m : Master) (val : Nat) : (swapWrite s m val).ld = s.ld := by simp [swapWrite]

@[simp] theorem swapChan_ld (s : State) (c : Nat) : (s.swapChan c).ld = s.ld := by simp [State.swapChan]

@[simp] theorem bankSwap_ld (s : State) : (bankSwap s).ld = s.ld := by
  unfold bankSwap
  split <;> simp

@[simp] theorem primeRequest_ld (s : State) (m : Master) (c : Nat) :
    (primeRequest s m c).ld = s.ld := by simp -implicitDefEqProofs [primeRequest]

@[simp] theorem turnCheck_ld (s : State) (report : Bool) : (s.turnCheck report).ld = s.ld := by simp [State.turnCheck]

@[simp] theorem primeOnState_ld (s : State) (old new : Nat) : (s.primeOnState old new).ld = s.ld := by simp [State.primeOnState]

@[simp] theorem engFreset_ld (s : State) : s.engFreset.ld = s.ld := by simp -implicitDefEqProofs [State.engFreset]

/-! ### Time -/

@[simp] theorem ctRead_ld (s : State) : s.ctRead.2.ld = s.ld := by
  unfold State.ctRead
  split <;> simp

@[simp] theorem ctStamp_ld (s : State) : s.ctStamp.2.ld = s.ld := by simp [State.ctStamp]

@[simp] theorem setDom_ld (s : State) (d : Nat) (x : Dom) : (s.setDom d x).ld = s.ld := by simp [State.setDom]

@[simp] theorem showDom_ld (s : State) (d : Nat) : (s.showDom d).ld = s.ld := rfl

@[simp] theorem disagreeCheck_ld (s : State) : s.disagreeCheck.ld = s.ld := by simp [State.disagreeCheck]

@[simp] theorem freqStep_ld (s : State) (x dt : Int) (sh : Nat) : (s.freqStep x dt sh).2.ld = s.ld := by
  unfold State.freqStep
  split <;> simp

@[simp] theorem domSample_ld (s : State) (d : Nat) (m : Int) (ls : Nat) (freq : Option Int) :
    (s.domSample d m ls freq).ld = s.ld := by simp -implicitDefEqProofs [State.domSample]

@[simp] theorem takeToken_ld (s : State) (p c : Nat) : (s.takeToken p c).2.ld = s.ld := rfl

@[simp] theorem ptpFrame_ld {f : State → State} (h : ∀ s, (f s).ld = s.ld) (s : State) (p : Nat) : (s.ptpFrame p f).ld = s.ld := by
  simp [State.ptpFrame, h]

@[simp] theorem ptpFor_ld {f : State → Nat → State} (h : ∀ s d, (f s d).ld = s.ld) (s : State) (p d : Nat) :
    (s.ptpFor p d f).ld = s.ld := by
  unfold State.ptpFor
  split
  · exact count_ld ..
  · exact foldl_ld h _ _

@[simp] theorem ptpSync_ld (s : State) (p : Nat) (msg : PtpSync) :
    (ptpSync s p msg).ld = s.ld := by grind [ptpSync, ptpFrame_ld, ptpFor_ld, setDom_ld, domSample_ld]

@[simp] theorem announceRx_ld (s : State) (p : Nat) (msg : PtpAnnounce) : (announceRx s p msg).ld = s.ld := by simp [announceRx]

@[simp] theorem ptpSend_ld (s : State) (a : PtpTx) : (s.ptpSend a).ld = s.ld := by simp [State.ptpSend]

@[simp] theorem pdelayReq_ld (s : State) (p : Nat) (msg : PtpPdelayReq) : (pdelayReq s p msg).ld = s.ld := by simp [pdelayReq]

@[simp] theorem pdelaySend_ld (s : State) (p : Nat) : (s.pdelaySend p).ld = s.ld := by
  simp only [State.pdelaySend]
  split <;> simp

@[simp] theorem pdelayResp_ld (s : State) (p : Nat) (msg : PtpPdelayResp) : (pdelayResp s p msg).ld = s.ld := by simp [pdelayResp]

@[simp] theorem tp0Pulse_ld (s : State) (t : Nat) (mhz : Option Nat) :
    (tp0Pulse s t mhz).ld = s.ld := by simp -implicitDefEqProofs [tp0Pulse]

@[simp] theorem domLost_ld (s : State) (d : Nat) : (domLost s d).ld = s.ld := by simp [domLost]

@[simp] theorem srcWritten_ld (s : State) (d : Nat) : (s.srcWritten d).ld = s.ld := by simp [State.srcWritten]

@[simp] theorem domCfgWrite_ld (s : State) (m : Master) (d val : Nat) : (domCfgWrite s m d val).ld = s.ld := by simp [domCfgWrite]

@[simp] theorem toFreerun_ld (s : State) : s.toFreerun.ld = s.ld := rfl

@[simp] theorem hoExpired_ld (s : State) : (hoExpired s).ld = s.ld := by simp [hoExpired]

@[simp] theorem ckTimeLost_ld (s : State) : s.ckTimeLost.ld = s.ld := by simp [State.ckTimeLost]

@[simp] theorem ckTimeBack_ld (s : State) : s.ckTimeBack.ld = s.ld := by simp [State.ckTimeBack]

@[simp] theorem domFreset_ld (s : State) (d : Nat) : (s.domFreset d).ld = s.ld := by simp [State.domFreset]

@[simp] theorem timeCross_ld (s : State) : s.timeCross.ld = s.ld := by simp [State.timeCross]

@[simp] theorem selectDomain_ld (s : State) : s.selectDomain.ld = s.ld := by simp [State.selectDomain]

@[simp] theorem modeStep_ld (s : State) (changed : Bool) (e : Int) : (s.modeStep changed e).ld = s.ld := by simp [State.modeStep]

@[simp] theorem showTime_ld (s : State) : s.showTime.ld = s.ld := by simp [State.showTime]

@[simp] theorem timeSlots_ld (s : State) : s.timeSlots.ld = s.ld := rfl

@[simp] theorem tp1Gate_ld (s : State) : s.tp1Gate.ld = s.ld := by simp [State.tp1Gate]

@[simp] theorem timeBoundary_ld (s : State) (old : Nat) : (s.timeBoundary old).ld = s.ld := by simp [State.timeBoundary]

@[simp] theorem tp1Edge_ld (s : State) (pps : Bool) (inst : Nat) : (tp1Edge s pps inst).ld = s.ld := by simp [tp1Edge]

/-! ### Modes -/

@[simp] theorem enterState_ld (s : State) (new cause : Nat) : (s.enterState new cause).ld = s.ld := by simp [State.enterState]

@[simp] theorem setRole_ld (s : State) (role sub : Nat) : (s.setRole role sub).ld = s.ld := by simp [State.setRole]

@[simp] theorem rejectState_ld (s : State) : s.rejectState.ld = s.ld := by simp [State.rejectState]

@[simp] theorem seqResult_ld (s : State) (tgt reason : Nat) : (s.seqResult tgt reason).ld = s.ld := rfl

@[simp] theorem seqRelease_ld (s : State) : s.seqRelease.ld = s.ld := by simp [State.seqRelease]

@[simp] theorem transition_ld (s : State) :
    s.transition.ld = s.ld := by grind [State.transition, enterState_ld, seqRelease_ld, seqResult_ld, rejectState_ld]

@[simp] theorem stateRequest_ld (s : State) (val : Nat) : (stateRequest s val).ld = s.ld := by simp [stateRequest]

@[simp] theorem statusSlots_ld (s : State) : s.statusSlots.ld = s.ld := by simp -implicitDefEqProofs [State.statusSlots]

/-! ### Checkpoints -/

@[simp] theorem setSelWord_ld (s : State) (g w : Nat) : (s.setSelWord g w).ld = s.ld := by simp -implicitDefEqProofs [State.setSelWord]

@[simp] theorem setArmScalars_ld (s : State) (a : Nat) (l : List Nat) : (s.setArmScalars a l).ld = s.ld := rfl

@[simp] theorem setItemWord_ld (s : State) (g w : Nat) : (s.setItemWord g w).ld = s.ld := rfl

@[simp] theorem setQueue_ld (s : State) (l : List QItem) : (s.setQueue l).ld = s.ld := by
  refine foldl_ld (fun t g => ?_) _ _
  dsimp only
  split
  · split <;> rfl
  · rfl

@[simp] theorem setExclWords_ld (s : State) (l : List (BitVec 64)) : (s.setExclWords l).ld = s.ld := rfl

@[simp] theorem setUnitWords_ld (s : State) (l : List (BitVec 64)) :
    (s.setUnitWords l).ld = s.ld := by simp -implicitDefEqProofs [State.setUnitWords]

@[simp] theorem loadGroup_ld (s : State) (g : Nat) (l : List (BitVec 64)) :
    (s.loadGroup g l).ld = s.ld := by simp -implicitDefEqProofs [State.loadGroup]

@[simp] theorem plnApply_ld (s : State) (k val : Nat) : (plnApply s k val).ld = s.ld := by
  unfold plnApply
  split <;> simp

@[simp] theorem stage_ld (s : State) (slot v : Nat) : (s.stage slot v).ld = s.ld := rfl

@[simp] theorem applyMsg_ld (s : State) (m : MirMsg) : (applyMsg s m).ld = s.ld := by
  unfold applyMsg
  split <;> simp

@[simp] theorem rerunChan_ld (s : State) (c : Nat) (x : Int × Int × Int × Int) : (s.rerunChan c x).ld = s.ld := by simp [State.rerunChan]

@[simp] theorem captureFor_ld (s : State) (k : Nat) (sl : List Nat) : (s.captureFor k sl).ld = s.ld := by simp [State.captureFor]

@[simp] theorem ckptBoundary_ld (s : State) (k : Nat) : (s.ckptBoundary k).ld = s.ld := by
  simp only [State.ckptBoundary]
  repeat' split
  all_goals simp

@[simp] theorem checkpointCycleStart_ld (s : State) : (checkpointCycleStart s).ld = s.ld := by simp [checkpointCycleStart]

@[simp] theorem cycleComplete_ld (s : State) (c : Cycle) : (s.cycleComplete c).ld = s.ld := by simp [State.cycleComplete]

@[simp] theorem primeGroup_ld (s : State) (g : Nat) :
    (s.primeGroup g).ld = s.ld := by grind [State.primeGroup, each_ld, primeChan_ld, setPlnA_ld, setSel_ld, setCc_ld]

@[simp] theorem loadKept_ld (s : State) : s.loadKept.ld = s.ld := by
  unfold State.loadKept
  split <;> simp

/-! ### The pair -/

@[simp] theorem storeEpoch_ld (s : State) : s.storeEpoch.ld = s.ld := by simp [State.storeEpoch]

@[simp] theorem storedEpoch_ld (s : State) : s.storedEpoch.2.ld = s.ld := by grind [State.storedEpoch, readBytes_ld, draw_ld]

@[simp] theorem setEpoch_ld (s : State) (e : Nat) : (s.setEpoch e).ld = s.ld := by simp [State.setEpoch]

@[simp] theorem roleChange_ld (s : State) (role sub reason : Nat) : (s.roleChange role sub reason).ld = s.ld := by simp [State.roleChange]

@[simp] theorem becomeActive_ld (s : State) (reason : Nat) : (s.becomeActive reason).ld = s.ld := by simp [State.becomeActive]

@[simp] theorem becomeStandby_ld (s : State) (sub reason : Nat) : (s.becomeStandby sub reason).ld = s.ld := by simp [State.becomeStandby]

@[simp] theorem roleDecide_ld (s : State) (partnerRole : Nat) : (s.roleDecide partnerRole).ld = s.ld := by simp [State.roleDecide]

@[simp] theorem pairEnter_ld (s : State) : s.pairEnter.ld = s.ld := by
  simp only [State.pairEnter]
  repeat' split
  all_goals simp

@[simp] theorem roleWaitExpiry_ld (s : State) : (roleWaitExpiry s).ld = s.ld := by
  unfold roleWaitExpiry
  split <;> simp

@[simp] theorem demoted_ld (s : State) : (demoted s).ld = s.ld := by simp [demoted]

@[simp] theorem epochClear_ld (s : State) : (epochClear s).ld = s.ld := by simp [epochClear]

@[simp] theorem pairPrepare_ld (s : State) (lph : Nat) : (s.pairPrepare lph).ld = s.ld := by simp [State.pairPrepare]

@[simp] theorem launchPair_ld (s : State) (m lph tp : Nat) : (s.launchPair m lph tp).ld = s.ld := by simp [State.launchPair]

@[simp] theorem pairDelay_ld (s : State) (x tp dl : Int) : (s.pairDelay x tp dl).ld = s.ld := by simp [State.pairDelay]

@[simp] theorem cycleSeen_ld (s : State) (m i j : Nat) : (s.cycleSeen m i j).ld = s.ld := by
  unfold State.cycleSeen
  split <;> simp

@[simp] theorem hashCheck_ld (s : State) (v : Nat) : (s.hashCheck v).ld = s.ld := by simp [State.hashCheck]

@[simp] theorem statLate_ld (s : State) : (statLate s).ld = s.ld := by simp [statLate]

@[simp] theorem followTo_ld (s : State) (a : Nat) : (s.followTo a).ld = s.ld := by simp [State.followTo]

@[simp] theorem stateFollow_ld (s : State) (stat : ECWord) : (stateFollow s stat).ld = s.ld := by simp [stateFollow]

@[simp] theorem mirroredApply_ld (s : State) (msgs : List ECWord) : (mirroredApply s msgs).ld = s.ld := by simp [mirroredApply]

@[simp] theorem pairMiss_ld (s : State) (m : Nat) : (s.pairMiss m).ld = s.ld := by simp [State.pairMiss]

@[simp] theorem digestCompare_ld (s : State) : (digestCompare s).ld = s.ld := by
  unfold digestCompare
  refine ite_ld_eq (setFld_ld ..) ?_
  · extract_lets u heard n v x w z own his p r
    have hz : z.ld = s.ld := by
      refine (sendIf_ld ..).trans ((withRed_ld v _).trans ?_)
      exact (setFld_ld ..).trans ((pairMiss_ld ..).trans (pairMiss_ld ..))
    rw [← hz]
    clear_value z r
    refine ite_ld_eq rfl ?_
    split
    · have h := (sendIf_ld (z.count RED_CNT_DMISS RED_CNT_OVF 1 1) (z.red.missRun + 1 == 1) 0x381 0x16 0).trans (count_ld ..)
      exact ite_ld_eq ((withRed_ld _ _).trans ((setRole_ld ..).trans h)) h
    · refine ite_ld_eq (withRed_ld _ _) ?_
      have h := (send_ld (State.count { z with red := { z.red with missRun := 0 } } RED_CNT_DMIS RED_CNT_OVF 0 1) 0x381 0x15 0).trans
        (count_ld ..)
      exact ite_ld_eq ((withRed_ld _ _).trans ((setRole_ld ..).trans h)) h

@[simp] theorem takeoverDecision_ld (s : State) : (takeoverDecision s).ld = s.ld := rfl

@[simp] theorem adoptDelays_ld (s : State) : s.adoptDelays.ld = s.ld := by
  simp -implicitDefEqProofs [State.adoptDelays]

@[simp] theorem dblEnd_ld (s : State) (next : Nat) : (s.dblEnd next).ld = s.ld := rfl

@[simp] theorem noTake_ld (s : State) : s.noTake.ld = s.ld := rfl

@[simp] theorem dropSwap_ld (s : State) (reason : Nat) : (s.dropSwap reason).ld = s.ld := by simp [State.dropSwap]

@[simp] theorem takeover_ld (s : State) (reason : Nat) : (s.takeover reason).ld = s.ld := by
  simp -implicitDefEqProofs [State.takeover]

@[simp] theorem announce_ld (s : State) : s.announce.ld = s.ld := by simp [State.announce]

@[simp] theorem doublesAnnounce_ld (s : State) : (doublesAnnounce s).ld = s.ld := by simp [doublesAnnounce]

@[simp] theorem doublesRequest_ld (s : State) (val : Nat) : (doublesRequest s val).ld = s.ld := by simp [doublesRequest]

@[simp] theorem doublesCheck_ld (s : State) : (doublesCheck s).ld = s.ld := by
  unfold doublesCheck
  split <;> simp

@[simp] theorem doublesSwap_ld (s : State) : (doublesSwap s).ld = s.ld := by
  unfold doublesSwap
  split <;> simp

@[simp] theorem heartbeatToggle_ld (s : State) : (heartbeatToggle s).ld = s.ld := by simp [heartbeatToggle]

@[simp] theorem hbLost_ld (s : State) : (hbLost s).ld = s.ld := by simp [hbLost]

@[simp] theorem pairBoundary_ld (s : State) : s.pairBoundary.ld = s.ld := rfl

/-! ### Acquisition -/

@[simp] theorem setRecd_ld (s : State) (r : Nat) (x : Recorder) : (s.setRecd r x).ld = s.ld := rfl

@[simp] theorem armInto_ld (s : State) (r : Nat) : (s.armInto r).ld = s.ld := by
  simp only [State.armInto]
  split <;> simp

@[simp] theorem recorderArm_ld (s : State) (r : Nat) : (recorderArm s r).ld = s.ld := by simp [recorderArm]

@[simp] theorem writeHeader_ld (s : State) (r : Nat) (abort : Bool) : (s.writeHeader r abort).ld = s.ld := by
  simp -implicitDefEqProofs only [State.writeHeader]
  split <;> simp -implicitDefEqProofs

@[simp] theorem holdEnd_ld (s : State) (r : Nat) : (s.holdEnd r).ld = s.ld := by simp [State.holdEnd]

@[simp] theorem headerWritten_ld (s : State) (r : Nat) : (headerWritten s r).ld = s.ld := by simp [headerWritten]

@[simp] theorem holdOffEnd_ld (s : State) (r : Nat) : (holdOffEnd s r).ld = s.ld := by simp [holdOffEnd]

@[simp] theorem recorderStop_ld (s : State) (r : Nat) : (recorderStop s r).ld = s.ld := by simp [recorderStop]

@[simp] theorem segmentFree_ld (s : State) (r g : Nat) : (segmentFree s r g).ld = s.ld := by simp [segmentFree]

@[simp] theorem missedClear_ld (s : State) (r : Nat) : (missedClear s r).ld = s.ld := by simp [missedClear]

@[simp] theorem busSend_ld (s : State) (lanes : Nat) (msg : BusMsg) : (s.busSend lanes msg).ld = s.ld := by simp [State.busSend]

@[simp] theorem recTrigger_ld (s : State) (r : Nat) (f : Fire) : (s.recTrigger r f).ld = s.ld := by
  unfold State.recTrigger
  split <;> simp

@[simp] theorem softTrigger_ld (s : State) (mask : Nat) : (softTrigger s mask).ld = s.ld := by simp [softTrigger]

@[simp] theorem recInput_ld (s : State) (r : Nat) (g : Int) (vals : List Int) (ev : Nat) :
    (s.recInput r g vals ev).ld = s.ld := by grind [State.recInput, setRecd_ld, wr_ld, setFld_ld]

@[simp] theorem unitFires_ld (s : State) (u : Nat) (frames : List (Option RxFrame)) (j : Option Nat) :
    (s.unitFires u frames j).1.ld = s.ld := by
  simp only [State.unitFires]
  repeat' split
  all_goals simp

@[simp] theorem runRecorder_ld (s : State) (r : Nat) (ins : List (Int × List Int × Nat)) (fires : List Fire) :
    (s.runRecorder r ins fires).ld = s.ld :=
  (foldl_ld (fun _ _ => recTrigger_ld ..) _ _).trans
    (foldl_fst_ld (fun _ _ => (recInput_ld ..).trans (foldl_ld (fun _ _ => recTrigger_ld ..) _ _)) _ _)

@[simp] theorem acqPhase_ld (s : State) : (acqPhase s).ld = s.ld := by
  simp -implicitDefEqProofs [acqPhase, foldl_fst_ld]

@[simp] theorem acqCommit_ld (s : State) : (acqCommit s).ld = s.ld := by
  simp only [acqCommit]
  simp

@[simp] theorem acqBoundary_ld (s : State) : (acqBoundary s).ld = s.ld := by simp [acqBoundary]

@[simp] theorem acqStep_ld (s : State) : (acqStep s).ld = s.ld := by simp [acqStep]

@[simp] theorem launchBus_ld (s : State) (m lph ta : Nat) : (s.launchBus m lph ta).ld = s.ld := by simp [State.launchBus]

@[simp] theorem busLaunched_ld (s : State) (lph : Nat) : (s.busLaunched lph).ld = s.ld := rfl

@[simp] theorem trigRx_ld (s : State) (l : Nat) (word : Word) (ofs : Nat) : (trigRx s l word ofs).ld = s.ld := by simp [trigRx]

@[simp] theorem busCorrect_ld (s : State) (r : Nat) (b : BusTrig) (tofs : Int) (origin tseq : Nat) :
    (s.busCorrect r b tofs origin tseq).ld = s.ld := by
  simp only [State.busCorrect]
  split <;> simp

@[simp] theorem busMessage_ld (s : State) (b : BusTrig) (w : Option (BitVec 64)) : (s.busMessage b w).ld = s.ld := by
  unfold State.busMessage
  split <;> simp

/-! ### Operands and memory words (continued) -/

@[simp] theorem busMessages'_ld (s : State) (l : Nat) (arr : Int) (ws : List (Option (BitVec 64))) :
    (s.busMessages' l arr ws).ld = s.ld := by simp [State.busMessages']

/-! ### Acquisition (continued) -/

@[simp] theorem busSample_ld (s : State) (m : Nat) (arr : Int) (w1 lph mode : Nat) :
    (s.busSample m arr w1 lph mode).ld = s.ld := by simp [State.busSample]

@[simp] theorem busFrameRx_ld (s : State) (m : Nat) (line : List Bool) (cyc rtt : Nat) : (busFrameRx s m line cyc rtt).ld = s.ld := by
  simp -implicitDefEqProofs only [busFrameRx]
  simp -implicitDefEqProofs
  intros
  repeat' split
  all_goals simp -implicitDefEqProofs

@[simp] theorem retentionEnter_ld (s : State) : (retentionEnter s).ld = s.ld := by
  simp only [retentionEnter]
  repeat' split
  all_goals simp

@[simp] theorem retentionWake_ld (s : State) : (retentionWake s).ld = s.ld := by simp [retentionWake]

@[simp] theorem retentionAwake_ld (s : State) : (retentionAwake s).ld = s.ld := by
  unfold retentionAwake
  split <;> simp

@[simp] theorem acqFreset_ld (s : State) : s.acqFreset.ld = s.ld := by simp [State.acqFreset]

/-! ### Key store -/

@[simp] theorem keyLost_ld (s : State) (n : Nat) : (s.keyLost n).ld = s.ld := rfl

@[simp] theorem keyFetch_ld (s : State) (n a m : Nat) : (s.keyFetch n a m).2.ld = s.ld := (readFrame_keyFetch s n a m).ld

@[simp] theorem portKey_ld (s : State) (p slot : Nat) : (s.portKey p slot).2.ld = s.ld := by
  unfold State.portKey
  split <;> simp

@[simp] theorem openBlob_ld (s : State) (a n : Nat) : (s.openBlob a n).2.ld = s.ld := by
  simp only [State.openBlob]
  split <;> simp

@[simp] theorem identityStore_ld (s : State) (sk : List Byte) :
    (s.identityStore sk).ld = s.ld := by simp -implicitDefEqProofs [State.identityStore]

@[simp] theorem identityUnwrap_ld (s : State) (ok : Bool) : (s.identityUnwrap ok).ld = s.ld := by
  simp only [State.identityUnwrap]
  split <;> simp

@[simp] theorem keyStore_ld (s : State) (n id : Nat) (key : List Byte) : (s.keyStore n id key).ld = s.ld := by simp [State.keyStore]

@[simp] theorem restoreKey_ld (s : State) (ok : Bool) (n : Nat) : (s.restoreKey ok n).ld = s.ld := by
  simp only [State.restoreKey]
  repeat' split
  all_goals simp

@[simp] theorem restoreKeys_ld (s : State) (ok : Nat) : (s.restoreKeys ok).ld = s.ld := by simp [State.restoreKeys]

/-! ### Station lines -/

@[simp] theorem setStn_ld (s : State) (p : Nat) (x : Stn) : (s.setStn p x).ld = s.ld := rfl

@[simp] theorem stnTell_ld (s : State) (p src kind det : Nat) : (s.stnTell p src kind det).ld = s.ld := by simp [State.stnTell]

@[simp] theorem stnCount_ld (s : State) (p i : Nat) : (s.stnCount p i).ld = s.ld := by simp [State.stnCount]

@[simp] theorem keyNamed_ld (s : State) (p kid : Nat) : (s.keyNamed p kid).2.ld = s.ld := by
  unfold State.keyNamed
  split <;> simp

@[simp] theorem stnCheck_ld (s : State) (p : Nat) (f : StnFrame) : (s.stnCheck p f).1.ld = s.ld := by
  simp only [State.stnCheck]
  repeat' split
  all_goals simp

@[simp] theorem stnSend_ld (s : State) (p ty : Nat) (body : List Byte) : (s.stnSend p ty body).ld = s.ld := by
  simp only [State.stnSend]
  repeat' split
  all_goals simp

@[simp] theorem statusSend_ld (s : State) (p : Nat) : (statusSend s p).ld = s.ld := by simp [statusSend]

@[simp] theorem ringReceive_ld (s : State) (p cls seq : Nat) (body : List Byte) : (s.ringReceive p cls seq body).ld = s.ld := by
  unfold State.ringReceive
  split <;> simp

@[simp] theorem responseSend_ld (s : State) (p : Nat) : (responseSend s p).ld = s.ld := by
  simp only [responseSend]
  repeat' split
  all_goals simp

@[simp] theorem setpointStage_ld (s : State) (p cls age : Nat) (body : List Byte) :
    (s.setpointStage p cls age body).ld = s.ld := by simp [State.setpointStage]

@[simp] theorem setpTake_ld (s : State) (p : Nat) (f : Setp) : (s.setpTake p f).ld = s.ld := by simp [State.setpTake]

@[simp] theorem setpointLatch_ld (s : State) : (setpointLatch s).ld = s.ld := by simp [setpointLatch]

@[simp] theorem c0Late_ld (s : State) (p : Nat) : (c0Late s p).ld = s.ld := by simp [c0Late]

@[simp] theorem linkDown_ld (s : State) (p : Nat) (hiBer : Bool) : (linkDown s p hiBer).ld = s.ld := by simp [linkDown]

@[simp] theorem linkUp_ld (s : State) (p : Nat) : (linkUp s p).ld = s.ld := by simp [linkUp]

@[simp] theorem stnFreset_ld (s : State) (p : Nat) : (s.stnFreset p).ld = s.ld := by simp -implicitDefEqProofs [State.stnFreset]

/-! ### Security unit -/

@[simp] theorem secTell_ld (s : State) (i kind det : Nat) : (s.secTell i kind det).ld = s.ld := by simp [State.secTell]

@[simp] theorem newNonce_ld (s : State) : s.newNonce.ld = s.ld := rfl

@[simp] theorem verify_ld (s : State) (pk msg sig : List Byte) : (s.verify pk msg sig).2.ld = s.ld := by simp [State.verify]

@[simp] theorem statement_ld (s : State) (nonce : Nat) : (s.statement nonce).2.ld = s.ld := by simp [State.statement]

@[simp] theorem seqBody_ld (s : State) (a : Nat) : (s.seqBody a).2.ld = s.ld := (readFrame_seqBody s a).ld

@[simp] theorem signKey_ld (s : State) : s.signKey.2.ld = s.ld := (readFrame_signKey s).ld

@[simp] theorem takeWaiting_ld (s : State) (l : List SigReq) : (s.takeWaiting l).ld = s.ld := (readFrame_takeWaiting l s).ld

@[simp] theorem signWaiting_ld (s : State) : s.signWaiting.ld = s.ld := (readFrame_signWaiting s).ld

@[simp] theorem signQueue_ld (s : State) (r : SigReq) : (s.signQueue r).2.ld = s.ld := by
  unfold State.signQueue
  split <;> simp

@[simp] theorem setJob_ld (s : State) (j : SecJob) : (s.setJob j).ld = s.ld := rfl

@[simp] theorem cmdTake_ld (s : State) (j : SecJob) : (s.cmdTake j).ld = s.ld := (readFrame_cmdTake s j).ld

@[simp] theorem secNext_ld (s : State) : s.secNext.ld = s.ld := (readFrame_secNext s).ld

@[simp] theorem signRequest_ld (s : State) (r : SigReq) : (s.signRequest r).2.ld = s.ld := by simp [State.signRequest]

@[simp] theorem showQueue_ld (s : State) : s.showQueue.ld = s.ld := rfl

@[simp] theorem signDeliver_ld (s : State) (r : SigReq) (ws : List (BitVec 64)) (sig : List Byte) :
    (s.signDeliver r ws sig).ld = s.ld := by
  unfold State.signDeliver
  split <;> simp

@[simp] theorem signatureDone_ld (s : State) : (signatureDone s).ld = s.ld := by
  unfold signatureDone
  split <;> simp

@[simp] theorem signAbandon_ld (s : State) : s.signAbandon.ld = s.ld := by
  unfold State.signAbandon
  split <;> simp

@[simp] theorem entFail_ld (s : State) : (entFail s).ld = s.ld := by simp [entFail]

@[simp] theorem entropyRecovery_ld (s : State) : (entropyRecovery s).ld = s.ld := by simp [entropyRecovery]

@[simp] theorem attestReq_ld (s : State) (nonce : List Byte) : (s.attestReq nonce).ld = s.ld := by simp [State.attestReq]

@[simp] theorem secOffset_ld (s : State) (ofs : Nat) : (s.secOffset ofs).ld = s.ld := by simp [State.secOffset]

@[simp] theorem secSubmit_ld (s : State) (ofs : Nat) : (s.secSubmit ofs).ld = s.ld := by simp [State.secSubmit]

@[simp] theorem arbLost_ld (s : State) : s.arbLost.ld = s.ld := by
  unfold State.arbLost
  split <;> simp

@[simp] theorem cmdPerform_ld (s : State) (op : Nat) (b : List Byte) : (s.cmdPerform op b).1.ld = s.ld := by
  unfold State.cmdPerform
  split
  · refine ite_fst_ld rfl ((withSec_ld _ _).trans ?_)
    rw [setFld_ld, setFld_ld, flagBit_ld]
  · exact ite_fst_ld rfl (flagBit_ld ..)
  · exact setFld_ld ..
  · exact ite_fst_ld rfl ((writeBytes_ld ..).trans (keyStore_ld ..))
  · refine ite_fst_ld rfl ?_
    split
    next pk u hk =>
      split
      next crt v hr =>
        have h : v.ld = s.ld := by
          have hu := keyFetch_ld s 8 publicAddr 1793
          have hv := readBytes_ld u certAddr certSize
          rw [hr] at hv
          rw [hk] at hu
          exact hv.trans hu
        split
        · exact (writeBytes_ld ..).trans h
        · exact h
        · exact h
  · exact ite_fst_ld rfl (setFld_ld ..)

@[simp] theorem cmdEnd_ld (s : State) (op r : Nat) (auth : Bool) : (s.cmdEnd op r auth).ld = s.ld := by simp [State.cmdEnd]

@[simp] theorem securityCommandEnd_ld (s : State) :
    (securityCommandEnd s).ld = s.ld := by grind [securityCommandEnd, stage_ld, secNext_ld, cmdEnd_ld, cmdPerform_ld, setJob_ld]

@[simp] theorem idRegen_ld (s : State) : (idRegen s).ld = s.ld := by simp [idRegen]

@[simp] theorem keyStoreReload_ld (s : State) (w : Nat) : (keyStoreReload s w).ld = s.ld := by
  simp only [keyStoreReload]
  split <;> simp

@[simp] theorem keyStoreReloadDone_ld (s : State) (ok : Nat) : (keyStoreReloadDone s ok).ld = s.ld := by simp [keyStoreReloadDone]

@[simp] theorem secFreset_ld (s : State) : s.secFreset.ld = s.ld := by
  simp only [State.secFreset]
  split <;> simp

/-! ### Energy metering -/

@[simp] theorem setEnergy_ld (s : State) (f : Nat → Fld) (v : Nat) : (s.setEnergy f v).ld = s.ld := rfl

@[simp] theorem energyAdd_ld (s : State) (f : Nat → Fld) (flag : Fld) (e : Nat) :
    (s.energyAdd f flag e).ld = s.ld := by simp -implicitDefEqProofs [State.energyAdd]

@[simp] theorem accumulate_ld (s : State) (p : Int) (sn : Nat) : (s.accumulate p sn).ld = s.ld := by simp [State.accumulate]

@[simp] theorem meterGap_ld (s : State) : s.meterGap.ld = s.ld := by simp [State.meterGap]

@[simp] theorem meterSample_ld (s : State) (x : Option (Int × Int × Int)) (sn : Nat) : (s.meterSample x sn).ld = s.ld := by
  simp only [State.meterSample]
  repeat' split
  all_goals simp

@[simp] theorem journalEntry_ld (s : State) (t : Nat) :
    (s.journalEntry t).ld = s.ld := by grind [State.journalEntry, setFld_ld, wrWords_ld]

@[simp] theorem journalRead_ld (s : State) : s.journalRead.1.ld = s.ld := by
  unfold State.journalRead
  refine foldl_fst_ld (fun p x => ?_) _ _
  have h := readBytes_ld p.1 (0x40000000 + 64 * x) 64
  split
  next r u hu =>
    rw [hu] at h
    split <;> exact h

@[simp] theorem journalRestore_ld (s : State) : s.journalRestore.ld = s.ld := by
  have h := journalRead_ld s
  unfold State.journalRestore
  split
  next u kept bad hu =>
    rw [hu] at h
    rw [← h]
    split <;> simp -implicitDefEqProofs

@[simp] theorem intervalOpen_ld (s : State) (start tick : Nat) : (s.intervalOpen start tick).ld = s.ld := rfl

@[simp] theorem intervalClose_ld (s : State) (i : Interval) (t tick : Nat) :
    (s.intervalClose i t tick).ld = s.ld := by simp [State.intervalClose]

@[simp] theorem secondReached_ld (s : State) (t tick : Nat) : (s.secondReached t tick).ld = s.ld := by
  unfold State.secondReached
  split <;> simp

@[simp] theorem meterHealth_ld (s : State) (hl : Nat) : (s.meterHealth hl).ld = s.ld := rfl

@[simp] theorem meterPhase_ld (s : State) : (meterPhase s).ld = s.ld := by simp [meterPhase]

@[simp] theorem ringRseq_ld (s : State) (rseq : Nat) : (s.ringRseq rseq).2.ld = s.ld := by simp [State.ringRseq]

@[simp] theorem recordSend_ld (s : State) (rseq : Nat) : (s.recordSend rseq).ld = s.ld := by
  simp only [State.recordSend]
  split <;> simp

@[simp] theorem recordCommit_ld (s : State) :
    (recordCommit s).ld = s.ld := by grind [recordCommit, ringRseq_ld, sendIf_ld, wrBytes_ld, wr_ld, recordSend_ld]

@[simp] theorem signFail_ld (s : State) : (signFail s).ld = s.ld := by
  unfold signFail
  split <;> simp

@[simp] theorem recordResend_ld (s : State) : (recordResend s).ld = s.ld := by simp [recordResend]

@[simp] theorem recordAck_ld (s : State) (rseq : Nat) : (s.recordAck rseq).ld = s.ld := rfl

@[simp] theorem recordReq_ld (s : State) (rseq : Nat) : (s.recordReq rseq).ld = s.ld := by simp [State.recordReq]

@[simp] theorem energyClear_ld (s : State) (val : Nat) : (energyClear s val).ld = s.ld := by simp [energyClear]

@[simp] theorem nrgFreset_ld (s : State) : s.nrgFreset.ld = s.ld := by
  simp only [State.nrgFreset]
  split <;> simp

/-! ### Station frames received -/

@[simp] theorem stationFrame_ld (s : State) (p : Nat) (f : StnFrame) :
    (stationFrame s p f).ld = s.ld := by
  grind [stationFrame, stnCheck_ld, setpointStage_ld, ringReceive_ld, recordAck_ld, stnCount_ld, recordReq_ld, attestReq_ld]

/-! ### Configuration writes -/

@[simp] theorem ctrlWrite_ld (s : State) (l val : Nat) : (s.ctrlWrite l val).ld = s.ld := by simp [State.ctrlWrite]

@[simp] theorem dropSlots_ld (old s : State) : (old.dropSlots s).ld = s.ld := foldl_ld (fun _ _ => setSlotBits_ld ..) _ _

@[simp] theorem fieldWrite_ld (s : State) (m : Master) (a val : Nat) : (s.fieldWrite m a val).ld = s.ld := by
  unfold State.fieldWrite
  split <;> simp -implicitDefEqProofs

@[simp] theorem plainWrite_ld (s : State) (m : Master) (a val : Nat) : (s.plainWrite m a val).ld = s.ld := by simp [State.plainWrite]

/-! ### Sequencer core -/

@[simp] theorem setSx_ld (s : State) (i v : Nat) : (s.setSx i v).ld = s.ld := by simp [State.setSx]

@[simp] theorem showSeq_ld (s : State) : s.showSeq.ld = s.ld := rfl

@[simp] theorem seqStart_ld (s : State) (vec entry : Nat) (clear : Bool) : (s.seqStart vec entry clear).ld = s.ld := rfl

@[simp] theorem seqNmi_ld (s : State) (epc entry : Nat) : (s.seqNmi epc entry).ld = s.ld := rfl

@[simp] theorem seqBoot_ld (s : State) : s.seqBoot.ld = s.ld := rfl

@[simp] theorem signWithdrawn_ld (s : State) : s.signWithdrawn.ld = s.ld := rfl

@[simp] theorem seqFreset_ld (s : State) : s.seqFreset.ld = s.ld := by simp -implicitDefEqProofs [State.seqFreset]

/-! ### Loader -/

@[simp] theorem classSlot_ld (s : State) (x : Nat) : (s.classSlot x).ld = s.ld := by simp [State.classSlot]

@[simp] theorem pllUp_ld (s : State) (i : Nat) : (s.pllUp i).ld = s.ld := by simp [State.pllUp]

@[simp] theorem clearSection_ld (s : State) (x : Nat) (e : Section) : (s.clearSection x e).ld = s.ld := by
  simp only [State.clearSection]
  repeat' split
  all_goals simp

@[simp] theorem sealCheck_ld (s : State) (x : Nat) : (s.sealCheck x).2.ld = s.ld := by
  simp only [State.sealCheck]
  repeat' split
  all_goals simp

@[simp] theorem entryDetail_ld (s : State) (a : Option (Nat × Nat)) : (s.entryDetail a).2.ld = s.ld := by
  unfold State.entryDetail
  split <;> simp

@[simp] theorem applyHeld_ld (s : State) (p : Nat × Nat) : (s.applyHeld p).ld = s.ld := by
  unfold State.applyHeld
  split <;> simp

@[simp] theorem enterParked_ld (s : State) : s.enterParked.ld = s.ld := by simp -implicitDefEqProofs [State.enterParked]

@[simp] theorem fresetWrite_ld (s : State) (val : Nat) : (fresetWrite s val).ld = s.ld := by simp [fresetWrite]

/-! ### Resets -/

@[simp] theorem memFree_ld (n : Nat) : ∀ (s : State) (a : Nat), (s.memFree n a).ld = s.ld := by
  induction n with
  | zero => exact fun _ _ => rfl
  | succ n ih => intro s a; unfold State.memFree; rw [ih, wr_ld, draw_ld]

@[simp] theorem caverLost_ld (s : State) (c : Option CaverRun) : (s.caverLost c).ld = s.ld := by
  unfold State.caverLost
  cases c <;> simp

@[simp] theorem setRegions_ld (s : State) : s.setRegions.ld = s.ld := by
  simp -implicitDefEqProofs [State.setRegions]

@[simp] theorem otpRead_ld (s : State) : s.otpRead.ld = s.ld := rfl

@[simp] theorem railEvent_ld (s : State) (tell : Bool) (rail kind : Nat) :
    (s.railEvent tell rail kind).ld = s.ld := by simp [State.railEvent]

@[simp] theorem supplyRecovery_ld (s : State) (rail : Nat) : (supplyRecovery s rail).ld = s.ld := by simp [supplyRecovery]

@[simp] theorem tempMaxClear_ld (s : State) : (tempMaxClear s).ld = s.ld := rfl

@[simp] theorem aonAssert_ld (s : State) (both : Bool) : (s.aonAssert both).ld = s.ld := rfl

@[simp] theorem clockBlock_ld (s : State) (src : Nat) : (s.clockBlock src).ld = s.ld := by simp [State.clockBlock]

@[simp] theorem coreLost_ld (s : State) : s.coreLost.ld = s.ld := by simp [State.coreLost]

@[simp] theorem clockReact_ld (s : State) (c : Nat) : (s.clockReact c).ld = s.ld := by
  unfold State.clockReact
  split <;> simp

@[simp] theorem clockLoss_ld (s : State) (mon c : Nat) : (clockLoss s mon c).ld = s.ld := by
  simp only [clockLoss]
  repeat' split
  all_goals simp

@[simp] theorem clockReturn_ld (s : State) (c : Nat) : (clockReturn s c).ld = s.ld := by
  simp only [clockReturn]
  repeat' split
  all_goals simp

/-! ### Debug -/

@[simp] theorem seqResume_ld (s : State) : s.seqResume.ld = s.ld := by simp [State.seqResume]

@[simp] theorem pipeResume_ld (s : State) : s.pipeResume.ld = s.ld := rfl

@[simp] theorem sessionEnd_ld (s : State) : s.sessionEnd.ld = s.ld := by simp [State.sessionEnd]

@[simp] theorem debugRefused_ld (s : State) : s.debugRefused.ld = s.ld := by simp [State.debugRefused]

@[simp] theorem debugTouch_ld (s : State) : s.debugTouch.ld = s.ld := rfl

@[simp] theorem atPolicy_ld {f : State → State} (h : ∀ s, (f s).ld = s.ld) (s : State) : (s.atPolicy f).ld = s.ld := by
  simp [State.atPolicy, h]

@[simp] theorem challengeRead_ld (s : State) : (challengeRead s).ld = s.ld := by simp -implicitDefEqProofs [challengeRead]

@[simp] theorem challenge_ld (s : State) : s.challenge.2.ld = s.ld := by
  unfold State.challenge
  split <;> simp

@[simp] theorem debugVerify_ld (s : State) (lvl : Nat) :
    (s.debugVerify lvl).2.ld = s.ld := by grind [State.debugVerify, challenge_ld, verify_ld]

@[simp] theorem debugAuth_ld (s : State) (val : Nat) : (debugAuth s val).ld = s.ld := by simp [debugAuth]

@[simp] theorem debugTimeout_ld (s : State) : (debugTimeout s).ld = s.ld := by simp [debugTimeout]

@[simp] theorem backoffEnd_ld (s : State) : (backoffEnd s).ld = s.ld := by simp [backoffEnd]

@[simp] theorem drScan_ld (s : State) (ir : Nat) (pins tdi : List Bool) : (drScan s ir pins tdi).ld = s.ld := by simp [drScan]

@[simp] theorem seqHalt_ld (s : State) : s.seqHalt.ld = s.ld := by
  simp only [State.seqHalt]
  repeat' split
  all_goals simp

@[simp] theorem breakpointHit_ld (s : State) : (breakpointHit s).ld = s.ld := by
  simp only [breakpointHit]
  repeat' split
  all_goals simp

@[simp] theorem pipeHalt_ld (s : State) : s.pipeHalt.ld = s.ld := by simp [State.pipeHalt]

@[simp] theorem dbgPipeWrite_ld (s : State) (val : Nat) : (dbgPipeWrite s val).ld = s.ld := by simp [dbgPipeWrite]

@[simp] theorem atLevel2_ld {f : State → State} (h : ∀ s, (f s).ld = s.ld) (s : State) : (s.atLevel2 f).ld = s.ld := by
  simp [State.atLevel2, h]

/-! ### Function resets -/

@[simp] theorem resetStatus_ld (s : State) (code : Nat) (kept : Nat → Bool) : (s.resetStatus code kept).ld = s.ld := rfl

@[simp] theorem fresetBegin_ld (s : State) (fn idx : Nat) : (s.fresetBegin fn idx).ld = s.ld := by simp [State.fresetBegin]

@[simp] theorem portFreset_ld (s : State) (fn idx l : Nat) : (s.portFreset fn idx l).ld = s.ld := by simp [State.portFreset]

@[simp] theorem redFreset_ld (s : State) : s.redFreset.ld = s.ld := by simp -implicitDefEqProofs [State.redFreset]

@[simp] theorem freset_ld (s : State) (fn idx : Nat) : (s.freset fn idx).ld = s.ld := by
  unfold State.freset
  split <;> simp

@[simp] theorem fresetDone_ld (s : State) (fn idx : Nat) : (fresetDone s fn idx).ld = s.ld := by
  unfold fresetDone
  split <;> simp

/-! ### Register writes -/

@[simp] theorem liveReg_ld (s : State) (a : Nat) : (s.liveReg a).2.ld = s.ld := by
  simp [State.liveReg]

@[simp] theorem latchRegs_ld (s : State) (m : Master) (l : List Nat) (ct : Nat) : (s.latchRegs m l ct).ld = s.ld := by
  induction l generalizing s with
  | nil => rfl
  | cons a t ih => simp [State.latchRegs, ih]

@[simp] theorem readReg_ld (s : State) (m : Master) (a : Nat) : (s.readReg m a).2.ld = s.ld := by
  unfold State.readReg
  split
  · rfl
  · split <;> simp

@[simp] theorem clearCounters_ld (s : State) (ovf : Fld) (val i : Nat) (l : List (List Fld)) :
    (s.clearCounters ovf val i l).ld = s.ld := by
  rw [clearCounters_eq]

theorem clearWrite_ld (s t : State) (a val : Nat) (h : s.clearWrite a val = some t) : t.ld = s.ld := by
  unfold State.clearWrite at h
  split at h
  · cases h
    simp
  · repeat' split at h
    all_goals cases h
    all_goals simp -implicitDefEqProofs

@[simp] theorem eventSet_ld (s : State) (val : Nat) : (eventSet s val).ld = s.ld := by simp -implicitDefEqProofs [eventSet]

@[simp] theorem recCtrlWrite_ld (s : State) (r val : Nat) : (recCtrlWrite s r val).ld = s.ld := by simp [recCtrlWrite]

@[simp] theorem acqCtrlWrite_ld (s : State) (val : Nat) : (acqCtrlWrite s val).ld = s.ld := by simp [acqCtrlWrite]

@[simp] theorem dbgSeqWrite_ld (s : State) (val : Nat) : (dbgSeqWrite s val).ld = s.ld := by simp [dbgSeqWrite]

@[simp] theorem exclReqWrite_ld (s : State) (m : Master) (val : Nat) : (exclReqWrite s m val).ld = s.ld := by simp [exclReqWrite]

@[simp] theorem authWrite_ld (s : State) (a val : Nat) : (authWrite s a val).ld = s.ld := rfl

theorem ite_some_ld {c : Prop} [Decidable c] {u : State} {o : Option State} {l : Loader} (hu : u.ld = l) (ho :
    ∀ t, o = some t → t.ld = l) :
    ∀ t, (if c then some u else o) = some t → t.ld = l := by
  intro t h
  split at h
  · cases h
    exact hu
  · exact ho t h

theorem requestLow_ld (s : State) (m : Master) (a val : Nat) : ∀ t, s.requestLow m a val = some t → t.ld = s.ld := by
  unfold State.requestLow
  refine ite_some_ld (stateRequest_ld ..) ?_
  refine ite_some_ld (ite_ld_eq ((tempMaxClear_ld _).trans (regWrite_ld ..)) (regWrite_ld ..)) ?_
  refine ite_some_ld (ite_ld_eq (errClear_ld _) rfl) ?_
  refine ite_some_ld (relWrite_ld ..) ?_
  refine ite_some_ld (forceWrite_ld ..) ?_
  refine ite_some_ld (swapWrite_ld ..) ?_
  refine ite_some_ld (ite_ld_eq ((primeRequest_ld ..).trans (regWrite_ld ..)) (regWrite_ld ..)) ?_
  refine ite_some_ld (exclReqWrite_ld ..) ?_
  refine ite_some_ld (auxWrite_ld ..) ?_
  intro t h
  obtain ⟨k, -, rfl⟩ := Option.map_eq_some_iff.mp h
  exact mirrored_ld (fun _ => plnApply_ld ..) s _ _ _

/-! ### Fabric -/

@[simp] theorem regionRefused_ld (s : State) (m : Master) (a : Nat) (wr : Bool) :
    (s.regionRefused m a wr).ld = s.ld := by simp [State.regionRefused]

@[simp] theorem badAccess_ld (s : State) (det : Nat) : (s.badAccess det).ld = s.ld := by simp [State.badAccess]

@[simp] theorem slotWrite_ld (s : State) (m : Master) (slot val : Nat) :
    (slotWrite s m slot val).ld = s.ld := by simp -implicitDefEqProofs [slotWrite]

@[simp] theorem slotsWrite_ld (s : State) (m : Master) (a n v : Nat) : (slotsWrite s m a n v).ld = s.ld := by
  unfold slotsWrite
  extract_lets slot old sh
  clear_value slot old sh
  split
  · exact ite_ld_eq (slotWrite_ld ..) (send_ld ..)
  · exact slotWrite_ld ..
  · exact (slotWrite_ld ..).trans (slotWrite_ld ..)

@[simp] theorem fabricRead_ld (s : State) (m : Master) (a n : Nat) (k : AccessKind) : (s.fabricRead m a n k).2.ld = s.ld := by
  simp only [State.fabricRead]
  repeat' split
  all_goals simp

@[simp] theorem memAccept_ld (s : State) (m : Master) (a n v : Nat) : (s.memAccept m a n v).2.ld = s.ld := by
  simp only [State.memAccept]
  repeat' split
  all_goals simp

@[simp] theorem correctedWriteback_ld (s : State) : (correctedWriteback s).ld = s.ld := by
  unfold correctedWriteback
  split <;> simp

@[simp] theorem saveWord_ld (s : State) (a : Nat) : (s.saveWord a).ld = s.ld := by simp [State.saveWord]

@[simp] theorem caverNext_ld (s : State) : s.caverNext.ld = s.ld := by simp [State.caverNext]

@[simp] theorem caverStart_ld (s : State) : (caverStart s).ld = s.ld := by simp -implicitDefEqProofs [caverStart]

@[simp] theorem caverEnd_ld (s : State) : s.caverEnd.ld = s.ld := by simp [State.caverEnd]

@[simp] theorem caverDone_ld (s : State) (mismatch : Option Nat) : (caverDone s mismatch).ld = s.ld := by
  simp only [caverDone]
  repeat' split
  all_goals simp

@[simp] theorem caverAbandon_ld (s : State) : (caverAbandon s).ld = s.ld := by
  unfold caverAbandon
  split <;> simp

@[simp] theorem mboxAlone_ld {α : Type} {f : State → α × State} (h : ∀ s, (f s).2.ld = s.ld) (s : State) (a : Nat) :
    (s.mboxAlone a f).2.ld = s.ld := by
  simp [State.mboxAlone, h]

/-! ### Sequencer -/

@[simp] theorem seqJump_ld (s : State) (pc : Nat) : (s.seqJump pc).ld = s.ld := rfl

@[simp] theorem seqNext_ld (s : State) : s.seqNext.ld = s.ld := rfl

@[simp] theorem seqBad_ld (s : State) : s.seqBad.ld = s.ld := by simp [State.seqBad]

@[simp] theorem seqAccess_ld (s : State) (a : Nat) : (s.seqAccess a).ld = s.ld := by simp [State.seqAccess]

@[simp] theorem seqSet_ld (s : State) (rd : Fin 16) (v : Nat) : (s.seqSet rd v).ld = s.ld := by simp [State.seqSet]

@[simp] theorem seqOp3_ld (s : State) (f : Nat → Nat → Nat) (rd ra rb : Fin 16) :
    (s.seqOp3 f rd ra rb).ld = s.ld := by simp [State.seqOp3]

@[simp] theorem seqLoad_ld (s : State) (rd : Fin 16) (a n : Nat) :
    (s.seqLoad rd a n).ld = s.ld := by grind [State.seqLoad, seqSet_ld, seqAccess_ld, mboxAlone_ld, fabricRead_ld]

@[simp] theorem seqBranch_ld (s : State) (taken : Bool) (off : BitVec 18) : (s.seqBranch taken off).ld = s.ld := by simp [State.seqBranch]

@[simp] theorem seqWtick_ld (s : State) (imm : BitVec 18) : (s.seqWtick imm).ld = s.ld := rfl

@[simp] theorem seqWevt_ld (s : State) (rd ra rb : Fin 16) : (s.seqWevt rd ra rb).ld = s.ld := by simp [State.seqWevt]

@[simp] theorem seqReq_ld (s : State) (imm : BitVec 18) : (s.seqReq imm).ld = s.ld := rfl

@[simp] theorem seqSign_ld (s : State) (rd ra rb : Fin 16) :
    (s.seqSign rd ra rb).ld = s.ld := by grind [State.seqSign, seqSet_ld, signRequest_ld, setFld_ld, send_ld]

@[simp] theorem seqSend_ld (s : State) (rd ra rb : Fin 16) :
    (s.seqSend rd ra rb).ld = s.ld := by grind [State.seqSend, seqSet_ld, readBytes_ld, send_ld, writeBytes_ld, setFld_ld]

@[simp] theorem seqSr_ld (s : State) (i : Nat) : (s.seqSr i).2.ld = s.ld := by
  unfold State.seqSr
  split <;> simp

@[simp] theorem seqRdsr_ld (s : State) (rd : Fin 16) (imm : BitVec 18) : (s.seqRdsr rd imm).ld = s.ld := by simp [State.seqRdsr]

@[simp] theorem seqRetn_ld (s : State) : s.seqRetn.ld = s.ld := rfl

@[simp] theorem seqDiv_ld (s : State) (rd ra rb : Fin 16) : (s.seqDiv rd ra rb).ld = s.ld := by simp [State.seqDiv]

@[simp] theorem seqIAdd_ld (rd ra rb : Fin 16) (s : State) : (seqIAdd rd ra rb s).ld = s.ld := by simp [seqIAdd]

@[simp] theorem seqISub_ld (rd ra rb : Fin 16) (s : State) : (seqISub rd ra rb s).ld = s.ld := by simp [seqISub]

@[simp] theorem seqIAnd_ld (rd ra rb : Fin 16) (s : State) : (seqIAnd rd ra rb s).ld = s.ld := by simp [seqIAnd]

@[simp] theorem seqIOr_ld (rd ra rb : Fin 16) (s : State) : (seqIOr rd ra rb s).ld = s.ld := by simp [seqIOr]

@[simp] theorem seqIXor_ld (rd ra rb : Fin 16) (s : State) : (seqIXor rd ra rb s).ld = s.ld := by simp [seqIXor]

@[simp] theorem seqISll_ld (rd ra rb : Fin 16) (s : State) : (seqISll rd ra rb s).ld = s.ld := by simp [seqISll]

@[simp] theorem seqISrl_ld (rd ra rb : Fin 16) (s : State) : (seqISrl rd ra rb s).ld = s.ld := by simp [seqISrl]

@[simp] theorem seqISra_ld (rd ra rb : Fin 16) (s : State) : (seqISra rd ra rb s).ld = s.ld := by simp [seqISra]

@[simp] theorem seqISlt_ld (rd ra rb : Fin 16) (s : State) : (seqISlt rd ra rb s).ld = s.ld := by simp [seqISlt]

@[simp] theorem seqISltu_ld (rd ra rb : Fin 16) (s : State) : (seqISltu rd ra rb s).ld = s.ld := by simp [seqISltu]

@[simp] theorem seqIMul_ld (rd ra rb : Fin 16) (s : State) : (seqIMul rd ra rb s).ld = s.ld := by simp [seqIMul]

@[simp] theorem seqIDiv_ld (rd ra rb : Fin 16) (s : State) : (seqIDiv rd ra rb s).ld = s.ld := by simp [seqIDiv]

@[simp] theorem seqIAddi_ld (rd ra : Fin 16) (imm : BitVec 18) (s : State) : (seqIAddi rd ra imm s).ld = s.ld := by simp [seqIAddi]

@[simp] theorem seqIAndi_ld (rd ra : Fin 16) (imm : BitVec 18) (s : State) : (seqIAndi rd ra imm s).ld = s.ld := by simp [seqIAndi]

@[simp] theorem seqIOri_ld (rd ra : Fin 16) (imm : BitVec 18) (s : State) : (seqIOri rd ra imm s).ld = s.ld := by simp [seqIOri]

@[simp] theorem seqISlli_ld (rd ra : Fin 16) (imm : BitVec 18) (s : State) : (seqISlli rd ra imm s).ld = s.ld := by simp [seqISlli]

@[simp] theorem seqISrli_ld (rd ra : Fin 16) (imm : BitVec 18) (s : State) : (seqISrli rd ra imm s).ld = s.ld := by simp [seqISrli]

@[simp] theorem seqISrai_ld (rd ra : Fin 16) (imm : BitVec 18) (s : State) : (seqISrai rd ra imm s).ld = s.ld := by simp [seqISrai]

@[simp] theorem seqILui_ld (rd : Fin 16) (imm : BitVec 14) (s : State) : (seqILui rd imm s).ld = s.ld := by simp [seqILui]

@[simp] theorem seqILw_ld (rd ra : Fin 16) (imm : BitVec 18) (s : State) : (seqILw rd ra imm s).ld = s.ld := by simp [seqILw]

@[simp] theorem seqILbu_ld (rd ra : Fin 16) (imm : BitVec 18) (s : State) : (seqILbu rd ra imm s).ld = s.ld := by simp [seqILbu]

@[simp] theorem seqIBeq_ld (ra rb : Fin 16) (off : BitVec 18) (s : State) : (seqIBeq ra rb off s).ld = s.ld := by simp [seqIBeq]

@[simp] theorem seqIBne_ld (ra rb : Fin 16) (off : BitVec 18) (s : State) : (seqIBne ra rb off s).ld = s.ld := by simp [seqIBne]

@[simp] theorem seqIBlt_ld (ra rb : Fin 16) (off : BitVec 18) (s : State) : (seqIBlt ra rb off s).ld = s.ld := by simp [seqIBlt]

@[simp] theorem seqIBge_ld (ra rb : Fin 16) (off : BitVec 18) (s : State) : (seqIBge ra rb off s).ld = s.ld := by simp [seqIBge]

@[simp] theorem seqIBltu_ld (ra rb : Fin 16) (off : BitVec 18) (s : State) : (seqIBltu ra rb off s).ld = s.ld := by simp [seqIBltu]

@[simp] theorem seqIBgeu_ld (ra rb : Fin 16) (off : BitVec 18) (s : State) : (seqIBgeu ra rb off s).ld = s.ld := by simp [seqIBgeu]

@[simp] theorem seqIJal_ld (rd : Fin 16) (off : BitVec 22) (s : State) : (seqIJal rd off s).ld = s.ld := by simp [seqIJal]

@[simp] theorem seqIJalr_ld (rd ra : Fin 16) (imm : BitVec 18) (s : State) : (seqIJalr rd ra imm s).ld = s.ld := by simp [seqIJalr]

@[simp] theorem seqIWtick_ld (imm : BitVec 18) (s : State) : (seqIWtick imm s).ld = s.ld := rfl

@[simp] theorem seqIWevt_ld (rd ra rb : Fin 16) (s : State) : (seqIWevt rd ra rb s).ld = s.ld := by simp [seqIWevt]

@[simp] theorem seqISrd_ld (rd ra : Fin 16) (imm : BitVec 18) (s : State) : (seqISrd rd ra imm s).ld = s.ld := by simp [seqISrd]

@[simp] theorem seqIReq_ld (imm : BitVec 18) (s : State) : (seqIReq imm s).ld = s.ld := rfl

@[simp] theorem seqIBlk_ld (s : State) : (seqIBlk s).ld = s.ld := by simp [seqIBlk]

@[simp] theorem seqIFlt_ld (ra : Fin 16) (imm : BitVec 18) (s : State) : (seqIFlt ra imm s).ld = s.ld := by simp [seqIFlt]

@[simp] theorem seqISign_ld (rd ra rb : Fin 16) (s : State) : (seqISign rd ra rb s).ld = s.ld := by simp [seqISign]

@[simp] theorem seqISend_ld (rd ra rb : Fin 16) (s : State) : (seqISend rd ra rb s).ld = s.ld := by simp [seqISend]

@[simp] theorem seqIRdsr_ld (rd : Fin 16) (imm : BitVec 18) (s : State) : (seqIRdsr rd imm s).ld = s.ld := by simp [seqIRdsr]

@[simp] theorem seqIRetn_ld (s : State) : (seqIRetn s).ld = s.ld := rfl

@[simp] theorem seqIKick_ld (s : State) : (seqIKick s).ld = s.ld := rfl

@[simp] theorem seqIllegal_ld (s : State) : (seqIllegal s).ld = s.ld := by simp [seqIllegal]

@[simp] theorem roleEntry_ld (s : State) (reason : Nat) : (s.roleEntry reason).ld = s.ld := by simp [State.roleEntry]

@[simp] theorem nmiEntry_ld (s : State) : (nmiEntry s).ld = s.ld := by
  unfold nmiEntry
  split <;> simp

@[simp] theorem lockstep_ld (s : State) : (lockstep s).ld = s.ld := by simp [lockstep]

@[simp] theorem watchdog_ld (s : State) : (watchdog s).ld = s.ld := by simp [watchdog]

@[simp] theorem seqWaitEnd_ld (s : State) (rd v : Nat) : (s.seqWaitEnd rd v).ld = s.ld := by simp [State.seqWaitEnd]

@[simp] theorem waitComplete_ld (s : State) : (waitComplete s).ld = s.ld := by
  simp only [waitComplete]
  repeat' split
  all_goals simp

@[simp] theorem seqBoundary_ld (s : State) : s.seqBoundary.ld = s.ld := by simp [State.seqBoundary]

/-! ### Host port -/

@[simp] theorem respWord_ld (s : State) (n v : Nat) : (s.respWord n v).2.ld = s.ld := by
  unfold State.respWord
  split <;> simp

@[simp] theorem respWords_ld (s : State) (n : Nat) (l : List Nat) : (s.respWords n l).2.ld = s.ld := by
  induction l generalizing s with
  | nil => rfl
  | cons v t ih => simp [State.respWords, ih]

@[simp] theorem openWords_ld (s : State) (n : Nat) : (s.openWords n).2.ld = s.ld := by
  induction n generalizing s with
  | zero => rfl
  | succ n ih => exact ih _

theorem readAll_ld {rd : State → Nat → Nat → Option Nat × State} (h : ∀ s a n, (rd s a n).2.ld = s.ld) (s0 : State) (n k : Nat) :
    ∀ (a : Nat) (s : State), s.ld = s0.ld → (readAll rd s0 n k a s).2.ld = s0.ld := by
  induction k with
  | zero => intro a s hs; exact hs
  | succ k ih =>
    intro a s hs
    unfold readAll
    have hr := h s a n
    split
    · exact h ..
    next v u hu =>
      rw [hu] at hr
      have hk := ih (a + n) u (hr.trans hs)
      split <;> rename_i hv <;> rw [hv] at hk <;> exact hk

theorem writeAll_ld {wr : State → Nat → Nat → Nat → Bool × State} (h :
    ∀ s a n v, (wr s a n v).2.ld = s.ld) (s0 : State) (n : Nat) (l : List Nat) :
    ∀ (a : Nat) (s : State), s.ld = s0.ld → (writeAll wr s0 n l a s).2.ld = s0.ld := by
  induction l with
  | nil => intro a s hs; exact hs
  | cons v t ih =>
    intro a s hs
    unfold writeAll
    have hr := h s a n v
    split
    · exact h ..
    next u hu =>
      rw [hu] at hr
      exact ih (a + n) u (hr.trans hs)

@[simp] theorem readFailed_ld (s : State) (h : BitVec 64) : (s.readFailed h).2.ld = s.ld := by simp [State.readFailed]

@[simp] theorem request_ld {rd : State → Nat → Nat → Option Nat × State} {wr : State → Nat → Nat → Nat → Bool × State}
    (hr : ∀ s a n, (rd s a n).2.ld = s.ld) (hw : ∀ s a n v, (wr s a n v).2.ld = s.ld) (s : State) (h : BitVec 64)
    (data : List (Option (BitVec 64))) : (s.request rd wr h data).2.ld = s.ld := by
  unfold State.request
  extract_lets a n ws
  have hR := readAll_ld hr s n (reqCount h) a s rfl
  have hW := writeAll_ld hw s n (ws.map fun w => w.toNat % 256 ^ n) a s rfl
  split
  · split <;> simp
  · split
    · split
      · simp [hr]
      · split
        next vs u hu => rw [hu] at hR; simpa using hR
        next u hu => rw [hu] at hR; simpa using hR
    · split
      · rfl
      · split
        · exact hw ..
        · split
          next u hu => rw [hu] at hW; exact hW
          next u hu => rw [hu] at hW; exact hW

@[simp] theorem portWord_ld (s : State) (i : Nat) (w : ECWord) : (s.portWord i w).2.ld = s.ld := by
  simp only [State.portWord]
  split <;> simp

@[simp] theorem portWords_ld (s : State) (i : Nat) (l : List ECWord) : (s.portWords i l).2.ld = s.ld := by
  induction l generalizing s with
  | nil => rfl
  | cons w t ih => simp [State.portWords, ih]

@[simp] theorem hostLevel_ld (s : State) : s.hostLevel.ld = s.ld := rfl

@[simp] theorem kdaRead_ld (s : State) (a n : Nat) : (kdaRead s a n).2.ld = s.ld := by
  simp only [kdaRead]
  repeat' split
  all_goals simp

@[simp] theorem masterRead_ld (s : State) (m : Master) (a n : Nat) (k : AccessKind) : (masterRead s m a n k).2.ld = s.ld := by
  unfold masterRead
  split <;> simp

@[simp] theorem counterLowRead_ld (s : State) (m : Master) (a : Nat) : (counterLowRead s m a).ld = s.ld := by simp [counterLowRead]

@[simp] theorem kdaOut_ld (s : State) : s.kdaOut.ld = s.ld := by
  unfold State.kdaOut
  split <;> simp

/-! ### Tick -/

@[simp] theorem tickLen_ld (s : State) (drift : Int) :
    (s.tickLen drift).ld = s.ld := by grind [State.tickLen, setFld_ld, flag_ld, when_ld, send_ld]

@[simp] theorem boundaryState_ld (s : State) : s.boundaryState.ld = s.ld := by simp [State.boundaryState]

@[simp] theorem cycleZero_ld (s : State) : s.cycleZero.ld = s.ld := by simp -implicitDefEqProofs [State.cycleZero]

@[simp] theorem tickFresh_ld (s : State) : s.tickFresh.ld = s.ld := by simp [State.tickFresh]

@[simp] theorem frameLaunch_ld (s : State) (lph : Nat) (d : LaunchData) : (frameLaunch s lph d).ld = s.ld := by simp [frameLaunch]

end Sys2Proof.Machine
end

section
/-! PROOFS. A pair frame leaves the loader alone (R286 to R290). A usable frame's words are taken one after the other; each has a helper
of its own here, and pairUsable_eq ties them to the model -/
namespace Sys2Proof.Machine
open Sys2Proof

-- The proofs are checked one after another: many at a time need more memory than a compile may have.
set_option Elab.async false

@[simp] theorem groupArrived_ld (s : State) (g cap : Nat) (ws : List (BitVec 64)) : (s.groupArrived g cap ws).ld = s.ld := by
  unfold State.groupArrived
  extract_lets same frm u v r
  have hu : u.ld = s.ld := loadGroup_ld ..
  have hv : v.ld = u.ld := when_ld (fun y => (send_ld ..).trans (count_ld ..)) u _
  exact ite_ld_eq rfl (ite_ld_eq rfl ((withRed_ld v _).trans (hv.trans hu)))

@[simp] theorem sliceRx_ld (s : State) (seq epoch i cap : Nat) (ws : List (BitVec 64)) : (s.sliceRx seq epoch i cap ws).ld = s.ld := by
  unfold State.sliceRx
  extract_lets cur low change u c r v r2 w c2 r3 x
  have hu : u.ld = s.ld := sendIf_ld ..
  have hv : v.ld = u.ld := ite_ld_eq (withRed_ld u _) rfl
  have hw : w.ld = v.ld := ite_ld_eq (withRed_ld v _) rfl
  have hx : x.ld = s.ld := (withRed_ld w _).trans (hw.trans (hv.trans hu))
  refine ite_ld_eq rfl ?_
  clear_value x c2
  split
  next f n _ =>
    extract_lets whole y
    have hy : y.ld = s.ld := ite_ld_eq ((groupArrived_ld ..).trans hx) hx
    exact ite_ld_eq ((cycleComplete_ld ..).trans hy) hy

/-- A usable frame's header is the partner's (R286). The helpers below take the partner becoming CURRENT, the STAT word, the clock
word, the delay word, the digest word, the partner's role and the checkpoint slice. -/
def State.pairHdrIn (s : State) (m j : Nat) (h : PairHdr) : State :=
  { s with red := { s.red with hdr := some h, lanesJ := mput s.red.lanesJ m j } }

def State.pairCurrentIn (s : State) (h : PairHdr) (wasCur : Bool) : State :=
  if h.role = 2 ∧ h.sub = 1 ∧ !wasCur then
    { s with red := { s.red with dblNext := s.now + s.fld RED_DBL_INT * 60000000 } } else s

def State.pairStatIn (s : State) (j : Nat) : Option Nat → State
  | some v =>
    let n2 := if s.role = 2 ∧ s.next2At j then some (tbit v 46) else s.red.next2
    { s with red := { s.red with stat := some (statOf v j), next2 := n2 } }
  | none => s

def State.pairClockIn (s : State) (j : Nat) : Option Nat → State
  | some v => { s with red := { s.red with lastW7 := some (v, j) } }
  | none => s

def State.pairDelayIn (s : State) (h j role : Nat) (x : Int) : Option Nat → State
  | some v =>
    let s := s.pairDelay x (sext v 16) (80 * ((bitsOf h 19 15 : Int) - s.cmp.lph))
    if role = 1 then
      let n := bitsOf v 63 59
      let old := mget [] s.red.dports n
      { s with red := { s.red with dports := mput s.red.dports n (((j, bitsOf v 58 43, bitsOf v 42 38) :: old).take 4) } }
    else s
  | none => s

def State.pairDigestIn (s : State) (m j : Nat) : Option Nat → State
  | some v => { s with red := { s.red with pdigs := ((m, j - 1, v) :: s.red.pdigs).take 8 } }
  | none => s

def State.pairRoleIn (s : State) (h : PairHdr) : State :=
  let s := s.roleDecide h.role
  if s.role = 2 ∧ h.role = 1 then s.setEpoch h.epoch else s

def State.pairSliceIn (s : State) (m j : Nat) (ws : List (Ecc × BitVec 64)) : Option Nat → State
  | some v =>
    let data := (ws.drop 9).take 128
    if bitsOf v 63 56 != 0xFF && s.role == 2 && data.all (fun p => p.1.good) then
      (if s.red.adopted then s.cycleSeen m (bitsOf v 63 56) j else s).sliceRx (bitsOf v 31 16) (bitsOf v 55 32) (bitsOf v 63 56)
        (v % 65536) (data.map (·.2))
    else s
  | none => s

def frameWord (f : FrameIn) (i : Nat) : Option Nat :=
  match f.words[i - 1]? with
  | some p => if p.1.good then some p.2.toNat else none
  | none => none

def pairHdrOf (h j : Nat) : PairHdr :=
  { epoch := bitsOf h 47 24, role := bitsOf h 23 22, sub := bitsOf h 21 20, token := tbit h 48, unit := bitsOf h 49 49, tick := j }

def State.partnerWasCurrent (s : State) : Bool :=
  match s.red.hdr with
  | some o => o.role == 2 && o.sub == 1
  | none => false

theorem pairUsable_eq (s : State) (m : Nat) (f : FrameIn) (j : Nat) (x : Int) :
    s.pairUsable m f j x =
      (((((((s.pairHdrIn m j (pairHdrOf f.hdr.toNat j)).pairCurrentIn (pairHdrOf f.hdr.toNat j) s.partnerWasCurrent).pairStatIn j
        (frameWord f 1)).pairClockIn j (frameWord f 7)).pairDelayIn f.hdr.toNat j (pairHdrOf f.hdr.toNat j).role x
        (frameWord f 8)).pairDigestIn m j (frameWord f 138)).pairRoleIn (pairHdrOf f.hdr.toNat j)).pairSliceIn m j f.words
        (frameWord f 9) := rfl

@[simp] theorem pairHdrIn_ld (s : State) (m j : Nat) (h : PairHdr) : (s.pairHdrIn m j h).ld = s.ld := rfl

@[simp] theorem pairCurrentIn_ld (s : State) (h : PairHdr) (wasCur : Bool) : (s.pairCurrentIn h wasCur).ld = s.ld :=
  ite_ld_eq rfl rfl

@[simp] theorem pairStatIn_ld (s : State) (j : Nat) (w : Option Nat) : (s.pairStatIn j w).ld = s.ld := by cases w <;> rfl

@[simp] theorem pairClockIn_ld (s : State) (j : Nat) (w : Option Nat) : (s.pairClockIn j w).ld = s.ld := by cases w <;> rfl

@[simp] theorem pairDelayIn_ld (s : State) (h j role : Nat) (x : Int) (w : Option Nat) : (s.pairDelayIn h j role x w).ld = s.ld := by
  cases w with
  | none => rfl
  | some v => exact ite_ld_eq ((withRed_ld _ _).trans (pairDelay_ld ..)) (pairDelay_ld ..)

@[simp] theorem pairDigestIn_ld (s : State) (m j : Nat) (w : Option Nat) : (s.pairDigestIn m j w).ld = s.ld := by cases w <;> rfl

@[simp] theorem pairRoleIn_ld (s : State) (h : PairHdr) : (s.pairRoleIn h).ld = s.ld :=
  ite_ld_eq ((setEpoch_ld ..).trans (roleDecide_ld ..)) (roleDecide_ld ..)

@[simp] theorem pairSliceIn_ld (s : State) (m j : Nat) (ws : List (Ecc × BitVec 64)) (w : Option Nat) :
    (s.pairSliceIn m j ws w).ld = s.ld := by
  cases w with
  | none => rfl
  | some v => exact ite_ld_eq ((sliceRx_ld ..).trans (ite_ld_eq (cycleSeen_ld ..) rfl)) rfl

@[simp] theorem pairUsable_ld (s : State) (m : Nat) (f : FrameIn) (j : Nat) (x : Int) : (s.pairUsable m f j x).ld = s.ld := by
  rw [pairUsable_eq]
  simp

@[simp] theorem pairFrameRx_ld (s : State) (m : Nat) (line : List Bool) (cyc : Nat) (x : Int) :
    (pairFrameRx s m line cyc x).ld = s.ld := by
  unfold pairFrameRx
  extract_lets l src f u v
  have hv : v.ld = s.ld := (loopCompare_ld ..).trans (stuffEvents_ld ..)
  refine ite_ld_eq rfl (ite_ld_eq hv ?_)
  have hw := laneCheck_ld v l f.syns
  split
  next w rep hr =>
    rw [hr] at hw
    replace hw : w.ld = s.ld := hw.trans hv
    extract_lets ok r w1 was w2 r2 w3 w4 synced j0 j
    have h1 : w1.ld = s.ld := ite_ld_eq ((withRed_ld w _).trans hw) hw
    have h2 : w2.ld = s.ld := (portIdentify_ld ..).trans h1
    have h3 : w3.ld = s.ld := ite_ld_eq ((withRed_ld w2 _).trans h2) h2
    clear_value w3
    have h4 : w4.ld = s.ld := by
      unfold w4
      split
      · exact ite_ld_eq ((hashCheck_ld ..).trans h3) h3
      · exact h3
    clear_value w4
    refine ite_ld_eq ((sendIf_ld ..).trans ((noIdent_ld ..).trans hw)) ?_
    refine ite_ld_eq ((send_ld ..).trans ((noIdent_ld ..).trans hw)) ?_
    exact ite_ld_eq h3 (ite_ld_eq h4 (ite_ld_eq ((send_ld ..).trans h4) ((pairUsable_ld ..).trans h4)))

end Sys2Proof.Machine
end

section
/-! PROOFS. O36: every command keeps the images' cell tables in order (R20, R409). Most leave the loader alone; a reset empties both
images, reading an image puts cells under 12-bit indexes, and accepting one moves its tables -/
namespace Sys2Proof.Machine
open Sys2Proof

-- The proofs are checked one after another: many at a time need more memory than a compile may have.
set_option Elab.async false

/-! ### Composition -/

/-- A state with the loader of one whose image tables are in order has its tables in order. -/
theorem imageOk_of_ld {s t : State} (h : t.ld = s.ld) (hs : s.imageOk) : t.imageOk := by
  unfold State.imageOk
  rwa [h]

/-- A loader with the same two images leaves the tables in order. -/
theorem imageOk_of_images {s t : State} (hi : t.ld.img = s.ld.img) (ht : t.ld.trial = s.ld.trial) (hs : s.imageOk) : t.imageOk := by
  unfold State.imageOk
  rwa [hi, ht]

theorem ite_imageOk {c : Prop} [Decidable c] {s t : State} (hs : s.imageOk) (ht : t.imageOk) :
    (if c then s else t).imageOk := by split <;> assumption

theorem when_imageOk {f : State → State} (hf : ∀ s, s.imageOk → (f s).imageOk) {s : State} (hs : s.imageOk) (c : Bool) :
    (s.when c f).imageOk := ite_imageOk (hf s hs) hs

theorem each_imageOk {f : State → Nat → State} (hf : ∀ s i, s.imageOk → (f s i).imageOk) {s : State} (hs : s.imageOk)
    (l : List Nat) : (s.each l f).imageOk := foldl_inv State.imageOk f hf l s hs

theorem imageOk_withLd {s : State} (hs : s.imageOk) (u : State) {l : Loader} (hi : l.img = s.ld.img) (ht : l.trial = s.ld.trial) :
    ({ u with ld := l } : State).imageOk := imageOk_of_images hi ht hs

/-- Dropping the image being read leaves the tables in order. -/
theorem imageOk_withLd_dropped {s : State} (hs : s.imageOk) (u : State) {l : Loader} (hi : l.img = s.ld.img) (ht : l.trial = {}) :
    ({ u with ld := l } : State).imageOk := by
  unfold State.imageOk
  dsimp only
  rw [hi, ht]
  exact ⟨hs.1, rfl⟩

/-- With no image in force and none being read there is no table to be out of order. -/
theorem imageOk_empty {s : State} (hi : s.ld.img = {}) (ht : s.ld.trial = {}) : s.imageOk := by
  unfold State.imageOk
  rw [hi, ht]
  exact ⟨rfl, rfl⟩

/-- A table with one more key in range is in order still. -/
theorem cellKeys_mput {α : Type} (k : Nat) (x : α) (hk : k < 4096) (m : NMap α) :
    ∀ b, b ≤ k → cellKeys b m = true → cellKeys b (mput m k x) = true := by
  induction m with
  | nil => intro b hb _; simp [mput, cellKeys, hb, hk]
  | cons p t ih =>
    obtain ⟨j, v⟩ := p
    intro b hb h
    simp only [cellKeys, Bool.and_eq_true, decide_eq_true_eq] at h
    obtain ⟨⟨hbj, hj⟩, ht⟩ := h
    unfold mput
    split
    · simp [cellKeys, hb, hk, hj, ht, Nat.succ_le_of_lt ‹k < j›]
    · split
      · subst k
        simp [cellKeys, hb, hj, ht]
      · simp [cellKeys, hbj, hj, ih (j + 1) (by omega) ht]

/-! ### Resets: the loader keeps its flash alone -/

theorem resetTo_imageOk (s : State) (flds : List Fld) (kept : Nat → Bool) (elec : Elec) : (s.resetTo flds kept elec).imageOk :=
  imageOk_empty rfl rfl

theorem chipReset_imageOk (s : State) (cause : Nat) : (s.chipReset cause).imageOk := by
  unfold State.chipReset
  extract_lets test u elec t
  have ht : t.imageOk := imageOk_of_ld (setFld_ld ..) (resetTo_imageOk ..)
  exact imageOk_of_ld (by simp) ht

theorem powerOn_imageOk (s : State) : (powerOn s).imageOk := imageOk_empty rfl rfl

theorem creset_imageOk {s : State} (hs : s.imageOk) : (creset s).imageOk := by
  unfold creset
  split
  · exact ite_imageOk (chipReset_imageOk ..) hs
  · exact hs

theorem blockStreamCreset_imageOk {s : State} (hs : s.imageOk) : (blockStreamCreset s).imageOk :=
  ite_imageOk (chipReset_imageOk ..) hs

theorem porstPin_imageOk {s : State} (hs : s.imageOk) (low : Bool) : (porstPin s low).imageOk :=
  ite_imageOk (chipReset_imageOk ..) hs

theorem tapLoad_imageOk {s : State} (hs : s.imageOk) (ir : Nat) : (tapLoad s ir).imageOk := by
  unfold tapLoad
  extract_lets d u e
  have hu : u.imageOk := hs
  refine ite_imageOk (ite_imageOk hu (imageOk_of_ld ?_ hu)) (ite_imageOk (chipReset_imageOk ..) hu)
  exact blockCause_ld ..

theorem trst_imageOk {s : State} (hs : s.imageOk) : (trst s).imageOk := by
  unfold trst
  extract_lets u d v
  have hv : v.ld = s.ld := sessionEnd_ld s
  exact tapLoad_imageOk (imageOk_of_ld hv hs) 2

theorem tapScan_imageOk {s : State} (hs : s.imageOk) (ir : Nat) (pins tdi : List Bool) : (tapScan s ir pins tdi).imageOk :=
  ite_imageOk (tapLoad_imageOk hs ir) (imageOk_of_ld (drScan_ld ..) (tapLoad_imageOk hs ir))

theorem tempReading_imageOk {s : State} (hs : s.imageOk) (code : Nat) : (tempReading s code).imageOk := by
  unfold tempReading
  refine ite_imageOk hs ?_
  extract_lets u hi v w e x
  have hx : x.imageOk := by
    refine imageOk_of_ld (s := s) ((when_ld (fun y => flag_ld y CLK_TEMP_HI_SEEN) v hi).trans ?_) hs
    simp [v, u]
  exact ite_imageOk (chipReset_imageOk (x.flag CLK_TEMP_TRIP_SEEN) 0) hx

theorem supplyExcursion_imageOk {s : State} (hs : s.imageOk) (rail : Nat) (kind : RailKind) :
    (supplyExcursion s rail kind).imageOk := by
  unfold supplyExcursion
  extract_lets watched tell
  have hrail (k : Nat) (u : State) (hu : u.imageOk) : (u.railEvent tell rail k).imageOk := imageOk_of_ld (railEvent_ld ..) hu
  split
  · exact hs
  · refine when_imageOk (hrail _) ?_ _
    exact hs
  · refine when_imageOk (hrail _) ?_ _
    exact hs
  · refine when_imageOk (hrail _) ?_ _
    exact ite_imageOk hs (chipReset_imageOk ..)

/-! ### Flash and offline ports: the loader's commands change, its images stay -/

theorem flashFree_images (s : State) (n a len : Nat) :
    (s.flashFree n a len).ld.img = s.ld.img ∧ (s.flashFree n a len).ld.trial = s.ld.trial := by
  induction n generalizing s a with
  | zero => exact ⟨rfl, rfl⟩
  | succ n ih =>
    unfold State.flashFree
    split
    next v u hu =>
      have h : u.ld = s.ld := by
        have := draw_ld s 2048
        rwa [hu] at this
      obtain ⟨hi, ht⟩ := ih { u with ld := { u.ld with flash := flashWrite u.ld.flash a (leBytes (min len 256) v) } } (a + 256)
      exact ⟨hi.trans (congrArg Loader.img h :), ht.trans (congrArg Loader.trial h :)⟩

theorem flashFree_imageOk {s : State} (hs : s.imageOk) (n a len : Nat) : (s.flashFree n a len).imageOk :=
  imageOk_of_images (flashFree_images ..).1 (flashFree_images ..).2 hs

theorem flashEnd_imageOk {s : State} (hs : s.imageOk) (f : Fld) : (s.flashEnd f).imageOk := by
  unfold State.flashEnd
  exact imageOk_of_ld (seqEvent_ld ..) (imageOk_withLd hs _ rfl rfl)

theorem flashFail_imageOk {s : State} (hs : s.imageOk) (c : FlashCmd) : (s.flashFail c).imageOk := by
  unfold State.flashFail
  refine imageOk_of_ld (send_ld ..) (flashEnd_imageOk ?_ _)
  split
  · exact hs
  · exact flashFree_imageOk hs ..
  · exact flashFree_imageOk hs ..

theorem flErr_imageOk {s : State} (hs : s.imageOk) : (flErr s).imageOk := by
  unfold flErr
  split
  · exact hs
  · exact ite_imageOk (flashFail_imageOk hs _) hs

theorem flashDone_imageOk {s : State} (hs : s.imageOk) : (flashDone s).imageOk := by
  unfold flashDone
  split
  · exact hs
  next c _ =>
    refine ite_imageOk hs ?_
    split
    · exact flashEnd_imageOk (imageOk_of_ld (writeBytes_ld ..) hs) _
    · have h := readBytes_ld s (0x3C000000 + c.ofs) c.len
      split
      next l u hu =>
        rw [hu] at h
        exact flashEnd_imageOk (imageOk_withLd hs u (congrArg Loader.img h :) (congrArg Loader.trial h :)) CFG_FL_STAT_DONE
      next u hu =>
        rw [hu] at h
        exact flashFail_imageOk (imageOk_of_ld h hs) c
    · exact flashEnd_imageOk (imageOk_withLd hs s rfl rfl) CFG_FL_STAT_DONE

theorem flashStart_imageOk {s : State} (hs : s.imageOk) (op val : Nat) : (s.flashStart op val).imageOk := by
  unfold State.flashStart
  refine ite_imageOk hs (ite_imageOk (imageOk_of_ld (by simp) hs) (ite_imageOk (imageOk_of_ld (blockSend_ld ..) hs) ?_))
  exact imageOk_withLd hs _ rfl rfl

theorem flCmdWrite_imageOk {s : State} (hs : s.imageOk) (val : Nat) : (flCmdWrite s val).imageOk :=
  ite_imageOk (imageOk_of_ld (blockSend_ld ..) hs) (flashStart_imageOk hs ..)

theorem offDone_imageOk {s : State} (hs : s.imageOk) : s.offDone.imageOk := by
  unfold State.offDone
  refine foldl_inv State.imageOk _ (fun t o ht => ite_imageOk ?_ ht) _ _ hs
  have h : ((t.flagBit CFG_OFF_STAT o.port).unflagBit CFG_OFF_PEND o.port).ld = t.ld := by simp
  exact imageOk_withLd ht _ (congrArg Loader.img h :) (congrArg Loader.trial h :)

theorem offGrant_imageOk {s : State} (hs : s.imageOk) (n : Nat) : (s.offGrant n).imageOk := by
  unfold State.offGrant
  extract_lets l u offs ld
  have hu : u.ld = s.ld := foldl_ld (fun t g => setSel_ld ..) l s
  exact offDone_imageOk (imageOk_withLd hs u (congrArg Loader.img hu :) (congrArg Loader.trial hu :))

theorem portOffline_imageOk {s : State} (hs : s.imageOk) (n : Nat) : (portOffline s n).imageOk := by
  unfold portOffline
  refine ite_imageOk (imageOk_of_ld (svcDenied_ld _) hs) (ite_imageOk hs ?_)
  extract_lets run v l u
  have hu : u.imageOk := imageOk_withLd hs _ rfl rfl
  exact ite_imageOk hu (offGrant_imageOk hu n)

theorem portOnline_imageOk {s : State} (hs : s.imageOk) (n : Nat) : (portOnline s n).imageOk := by
  unfold portOnline
  refine ite_imageOk (imageOk_of_ld (svcDenied_ld _) hs) ?_
  extract_lets cells u ld
  have hu : u.ld = s.ld := by simp [u]
  refine each_imageOk ?_ ?_ _
  · exact fun t g ht => imageOk_of_ld (setSel_ld ..) ht
  · exact imageOk_withLd hs u (congrArg Loader.img hu :) (congrArg Loader.trial hu :)

theorem offlineWrite_imageOk {s : State} (hs : s.imageOk) (val : Nat) : (offlineWrite s val).imageOk :=
  ite_imageOk (portOnline_imageOk hs _) (portOffline_imageOk hs _)

theorem offlineWithdraw_imageOk {s : State} (hs : s.imageOk) (n : Nat) : (offlineWithdraw s n).imageOk := by
  unfold offlineWithdraw
  refine ite_imageOk (imageOk_of_ld (svcDenied_ld _) ?_) hs
  exact imageOk_withLd hs _ rfl rfl

/-! ### Reading and accepting an image -/

theorem readHeaders_imageOk {s : State} (hs : s.imageOk) : s.readHeaders.imageOk := by
  unfold State.readHeaders
  split
  · extract_lets u v old
    have h : u.ld = s.ld := by simp [u]
    exact imageOk_withLd_dropped hs v (congrArg Loader.img h :) rfl
  · extract_lets u l next first
    have h : u.ld = s.ld := by simp [u]
    clear_value u
    exact imageOk_withLd_dropped hs u (congrArg Loader.img h :) rfl

theorem imageLoadRequest_imageOk {s : State} (hs : s.imageOk) (val : Nat) : (imageLoadRequest s val).imageOk := by
  unfold imageLoadRequest
  refine ite_imageOk (imageOk_of_ld (blockSend_ld ..) hs) (ite_imageOk hs (ite_imageOk (imageOk_of_ld (svcDenied_ld _) hs) ?_))
  refine ite_imageOk (readHeaders_imageOk (imageOk_of_ld (enterState_ld ..) hs)) (ite_imageOk (chipReset_imageOk ..) ?_)
  exact imageOk_of_ld (svcDenied_ld _) hs

theorem pllLock_imageOk {s : State} (hs : s.imageOk) (locked : Nat) (flashOk : Bool) : (pllLock s locked flashOk).imageOk := by
  unfold pllLock
  refine ite_imageOk hs ?_
  extract_lets u v l w
  have hu : u.ld = s.ld := foldl_ld (fun t i => pllUp_ld ..) _ s
  have hv : v.ld = s.ld := (enterState_ld ..).trans hu
  have hw : w.imageOk := imageOk_withLd hs v (congrArg Loader.img hv :) (congrArg Loader.trial hv :)
  exact ite_imageOk (imageOk_of_ld hu hs) (imageOk_of_ld (setFld_ld ..) (readHeaders_imageOk hw))

theorem resetRelease_imageOk {s : State} (hs : s.imageOk) (idBlobOk : Bool) : (resetRelease s idBlobOk).imageOk := by
  unfold resetRelease
  refine ite_imageOk hs ?_
  extract_lets l e u v
  have hv : v.imageOk := imageOk_of_ld (s := u) (by simp [v]) (imageOk_of_images rfl rfl hs)
  have h := storedEpoch_ld v
  split
  next e w hw =>
    rw [hw] at h
    exact imageOk_of_ld ((by simp : _ = w.ld).trans h) hv

theorem enterHold_imageOk {s : State} (hs : s.imageOk) : s.enterHold.imageOk := by
  unfold State.enterHold
  extract_lets u v l w
  have hu : u.ld = s.ld := ite_ld_eq (enterState_ld ..) rfl
  have hv : v.ld = s.ld := (setFld_ld ..).trans ((enterState_ld ..).trans hu)
  exact imageOk_of_ld (send_ld ..) (imageOk_withLd_dropped hs v (congrArg Loader.img hv :) rfl)

theorem failCandidate_imageOk {s : State} (hs : s.imageOk) (x n code kind det : Nat) : (s.failCandidate x n code kind det).imageOk := by
  unfold State.failCandidate
  extract_lets u v tail l w
  have hv : v.ld = s.ld := (foldl_ld (fun t e => clearSection_ld ..) _ _).trans (by simp [u])
  have hw : w.imageOk := imageOk_withLd_dropped hs v (congrArg Loader.img hv :) rfl
  exact ite_imageOk (enterHold_imageOk hw) hw

theorem onTrial_imageOk {s : State} (hs : s.imageOk) (f : Image → Image) (hf : cellKeys 0 (f s.ld.trial).cells = true) :
    (s.onTrial f).imageOk := ⟨hs.1, hf⟩

theorem applyPair_imageOk {s : State} (hs : s.imageOk) (p : Nat × Nat) : (s.applyPair p).imageOk := by
  unfold State.applyPair
  refine ite_imageOk hs (ite_imageOk (onTrial_imageOk hs _ hs.2) (ite_imageOk ?_ ?_))
  · exact imageOk_of_ld (setFld_ld ..) hs
  · exact imageOk_of_ld (plainWrite_ld ..) hs

theorem applyPortmap_imageOk {s : State} (hs : s.imageOk) (x : Nat) (e : Section) : (s.applyPortmap x e).imageOk :=
  onTrial_imageOk hs _ hs.2

/-- A cell map's entries have 12-bit indexes (R20). -/
theorem cellEntry_lt (s : State) (x : Nat) (e : Section) (k : Nat) : (s.cellEntry x e k).1 < 4096 :=
  Nat.mod_lt _ (by decide)

theorem applySection_imageOk {s : State} (hs : s.imageOk) (x : Nat) (e : Section) : (s.applySection x e).imageOk := by
  unfold State.applySection
  refine ite_imageOk hs ?_
  split
  · exact foldl_inv State.imageOk _ (fun t i ht => applyPair_imageOk ht _) _ _ hs
  · exact imageOk_of_ld (wr_ld ..) hs
  · refine onTrial_imageOk hs _ (foldl_inv (fun m => cellKeys 0 m = true) _ (fun m k hm => ?_) _ _ hs.2)
    exact cellKeys_mput _ _ (cellEntry_lt ..) m 0 (Nat.zero_le _) hm
  · exact onTrial_imageOk hs _ hs.2
  · exact applyPortmap_imageOk hs ..
  · exact onTrial_imageOk hs _ hs.2
  · exact hs

theorem imageReadComplete_imageOk {s : State} (hs : s.imageOk) : (imageReadComplete s).imageOk := by
  unfold imageReadComplete
  refine ite_imageOk hs ?_
  split
  · exact enterHold_imageOk hs
  next x1 tl _ =>
    extract_lets x l good u v ld w
    have hu : u.imageOk := onTrial_imageOk hs _ rfl
    have hv : v.imageOk := foldl_inv State.imageOk _ (fun t e ht => applySection_imageOk ht _ _) _ _ hu
    exact ite_imageOk (failCandidate_imageOk hv ..) (imageOk_of_ld (s := w) (enterState_ld ..) hv)

/-- The image of slot x with the hash h in force. -/
def State.accepted (s : State) (x owner h : Nat) : State :=
  let s := (upto 8).foldl (fun s i => s.setFld (CFG_HASH i) (h / 2 ^ (32 * i) % 2 ^ 32)) s
  let s := ((s.flag (CFG_SLOT_STAT_PASSED x)).setFld CFG_STAT_SLOT (x + 1)).setFld CFG_GEN (s.imgGen x)
  let s := (s.setFld SEC_STAT_SVN (s.imgSvn x)).setFld SEC_STAT_IMG_SLOT owner
  let s := if s.ld.first = x + 1 then s else (s.flag CFG_STAT_FALLBACK).send (0x3D8 + x) 0x2C 0
  let img := { s.ld.trial with gen := s.imgGen x, svn := s.imgSvn x, hash := h }
  let ld := { s.ld with img := img, trial := {}, cand := [], reading := false }
  ({ s with ld := ld }).enterParked

theorem acceptImage_accepted (s : State) (x owner : Nat) :
    s.acceptImage x owner = s.accepted x owner (shake256 (s.flBytes (slotBase x) 0x1400) 256).toNat := rfl

theorem accepted_imageOk {s : State} (hs : s.imageOk) (x owner h : Nat) : (s.accepted x owner h).imageOk := by
  unfold State.accepted
  extract_lets u v w y img i old ld
  have hu : u.ld = s.ld := foldl_ld (fun t i => setFld_ld ..) _ s
  have hw : w.ld = s.ld := by simp [w, v, hu]
  have hy : y.ld = s.ld := ite_ld_eq hw (((send_ld ..).trans (flag_ld ..)).trans hw)
  have ht : cellKeys 0 img.cells = true := by
    have := hs.2
    rwa [← hy] at this
  exact imageOk_of_ld (s := { y with ld := ld }) (enterParked_ld _) ⟨ht, rfl⟩

theorem acceptImage_imageOk {s : State} (hs : s.imageOk) (x owner : Nat) : (s.acceptImage x owner).imageOk := by
  rw [acceptImage_accepted]
  exact accepted_imageOk hs ..

theorem imageVerify_imageOk {s : State} (hs : s.imageOk) : (imageVerify s).imageOk := by
  unfold imageVerify
  split
  next x1 tl _ _ =>
    refine ite_imageOk hs ?_
    extract_lets x n
    have hk := sealCheck_ld { s with sec := { s.sec with imgWait := false } } x
    split
    next o u hu =>
      rw [hu] at hk
      have hv : u.secNext.imageOk := imageOk_of_ld ((secNext_ld u).trans hk) hs
      extract_lets v
      split
      · exact failCandidate_imageOk hv ..
      · exact failCandidate_imageOk hv ..
      · refine ite_imageOk (acceptImage_imageOk hv ..) ?_
        have hd := entryDetail_ld v (v.badEntry x (v.contentCode x))
        split
        next d w hw =>
          rw [hw] at hd
          exact failCandidate_imageOk (imageOk_of_ld hd hv) ..
  · exact hs

/-! ### Register writes and fabric accesses -/

/-- One row of the table of register writes. -/
theorem ite_some_imageOk {c : Prop} [Decidable c] {u : State} {o : Option State} (hu : u.imageOk) (ho : ∀ t, o = some t → t.imageOk) :
    ∀ t, (if c then some u else o) = some t → t.imageOk := by
  intro t h
  split at h
  · cases h
    exact hu
  · exact ho t h

theorem requestHigh_imageOk {s : State} (hs : s.imageOk) (a val : Nat) : ∀ t, s.requestHigh a val = some t → t.imageOk := by
  unfold State.requestHigh
  refine ite_some_imageOk (ite_imageOk (imageOk_of_ld (epochClear_ld _) hs) hs) ?_
  refine ite_some_imageOk (imageOk_of_ld (doublesRequest_ld ..) hs) ?_
  refine ite_some_imageOk (imageOk_of_ld (acqCtrlWrite_ld ..) hs) ?_
  refine ite_some_imageOk (imageOk_of_ld (softTrigger_ld ..) hs) ?_
  refine ite_some_imageOk (imageOk_of_ld (recCtrlWrite_ld ..) hs) ?_
  refine ite_some_imageOk (imageOk_of_ld (segmentFree_ld ..) hs) ?_
  refine ite_some_imageOk (imageOk_of_ld (energyClear_ld ..) hs) ?_
  refine ite_some_imageOk (ite_imageOk (imageOk_of_ld (secSubmit_ld ..) hs) (imageOk_of_ld (secOffset_ld ..) hs)) ?_
  refine ite_some_imageOk (imageLoadRequest_imageOk hs val) ?_
  refine ite_some_imageOk (flCmdWrite_imageOk hs val) ?_
  refine ite_some_imageOk (imageOk_of_ld (fresetWrite_ld ..) hs) ?_
  refine ite_some_imageOk (offlineWrite_imageOk hs val) ?_
  refine ite_some_imageOk (imageOk_of_ld (eventSet_ld ..) hs) ?_
  refine ite_some_imageOk (imageOk_of_ld (debugAuth_ld ..) hs) ?_
  refine ite_some_imageOk (imageOk_of_ld (plainWrite_ld ..) hs) ?_
  refine ite_some_imageOk (imageOk_of_ld (dbgSeqWrite_ld ..) hs) ?_
  refine ite_some_imageOk (ite_imageOk (imageOk_of_ld (setSx_ld ..) hs) hs) ?_
  refine ite_some_imageOk (imageOk_of_ld (dbgPipeWrite_ld ..) hs) ?_
  exact ite_some_imageOk (imageOk_of_ld (authWrite_ld ..) hs) (fun t h => nomatch h)

theorem writeReg_imageOk {s : State} (hs : s.imageOk) (m : Master) (a val : Nat) : (s.writeReg m a val).imageOk := by
  unfold State.writeReg
  split
  next t h =>
    split at h
    · cases h
    · exact imageOk_of_ld (clearWrite_ld _ _ _ _ h) hs
  next =>
    split
    next t h => exact imageOk_of_ld (requestLow_ld s m a val t h) hs
    next =>
      split
      next t h => exact requestHigh_imageOk hs a val t h
      next => exact imageOk_of_ld (plainWrite_ld ..) hs

theorem fabricWrite_imageOk {s : State} (hs : s.imageOk) (m : Master) (a n v : Nat) : (s.fabricWrite m a n v).2.imageOk := by
  have hk (b : Bool) {u : State} (h : u.ld = s.ld) : (b, u).2.imageOk := imageOk_of_ld h hs
  unfold State.fabricWrite
  repeat' split
  · exact hk _ (regionRefused_ld ..)
  · exact hk _ (badAccess_ld ..)
  · exact hk _ (blockSend_ld ..)
  · exact hk _ rfl
  · exact writeReg_imageOk hs ..
  · exact hk _ (badAccess_ld ..)
  · exact hk _ (badAccess_ld ..)
  · exact hk _ (send_ld ..)
  · exact imageOk_of_ld ((memAccept_ld ..).trans (inject_ld ..)) hs

theorem mboxAlone_imageOk {α : Type} {f : State → α × State} (hf : ∀ s, s.imageOk → (f s).2.imageOk) {s : State} (hs : s.imageOk)
    (a : Nat) : (s.mboxAlone a f).2.imageOk :=
  imageOk_of_ld (mboxOver_ld ..) (hf _ (imageOk_of_ld (mboxBegin_ld ..) hs))

theorem atLevel2_imageOk {f : State → State} (hf : ∀ s, s.imageOk → (f s).imageOk) {s : State} (hs : s.imageOk) :
    (s.atLevel2 f).imageOk := by
  unfold State.atLevel2
  split
  · exact hf _ (imageOk_of_ld (debugTouch_ld s) hs)
  · exact imageOk_of_ld (debugRefused_ld s) hs

theorem inPhase_imageOk {f : State → State} (hf : ∀ s, s.imageOk → (f s).imageOk) {s : State} (hs : s.imageOk) :
    (s.inPhase f).imageOk := ite_imageOk hs (hf s hs)

/-! ### The station sequencer -/

theorem seqStore_imageOk {s : State} (hs : s.imageOk) (a n v : Nat) : (s.seqStore a n v).imageOk := by
  unfold State.seqStore
  refine ite_imageOk (imageOk_of_ld ((seqNext_ld _).trans (seqAccess_ld ..)) hs) ?_
  have h := mboxAlone_imageOk (fun t ht => fabricWrite_imageOk ht .sequencer a n v) hs a
  split
  next u hu =>
    rw [hu] at h
    exact imageOk_of_ld (seqNext_ld u) h
  next u hu =>
    rw [hu] at h
    exact imageOk_of_ld ((seqNext_ld _).trans (seqAccess_ld ..)) h

theorem seqISw_imageOk {s : State} (hs : s.imageOk) (rd ra : Fin 16) (imm : BitVec 18) : (seqISw rd ra imm s).imageOk :=
  seqStore_imageOk hs ..

theorem seqISb_imageOk {s : State} (hs : s.imageOk) (rd ra : Fin 16) (imm : BitVec 18) : (seqISb rd ra imm s).imageOk :=
  seqStore_imageOk hs ..

theorem seqISwr_imageOk {s : State} (hs : s.imageOk) (rd ra : Fin 16) (imm : BitVec 18) : (seqISwr rd ra imm s).imageOk :=
  ite_imageOk (seqStore_imageOk hs ..) (imageOk_of_ld (seqBad_ld _) hs)

theorem seqEffect_imageOk {s : State} (hs : s.imageOk) (i : Instr) : (s.seqEffect i).imageOk := by
  cases i with
  | add rd ra rb => exact imageOk_of_ld (seqIAdd_ld ..) hs
  | sub rd ra rb => exact imageOk_of_ld (seqISub_ld ..) hs
  | and rd ra rb => exact imageOk_of_ld (seqIAnd_ld ..) hs
  | or rd ra rb => exact imageOk_of_ld (seqIOr_ld ..) hs
  | xor rd ra rb => exact imageOk_of_ld (seqIXor_ld ..) hs
  | sll rd ra rb => exact imageOk_of_ld (seqISll_ld ..) hs
  | srl rd ra rb => exact imageOk_of_ld (seqISrl_ld ..) hs
  | sra rd ra rb => exact imageOk_of_ld (seqISra_ld ..) hs
  | slt rd ra rb => exact imageOk_of_ld (seqISlt_ld ..) hs
  | sltu rd ra rb => exact imageOk_of_ld (seqISltu_ld ..) hs
  | mul rd ra rb => exact imageOk_of_ld (seqIMul_ld ..) hs
  | div rd ra rb => exact imageOk_of_ld (seqIDiv_ld ..) hs
  | addi rd ra imm => exact imageOk_of_ld (seqIAddi_ld ..) hs
  | andi rd ra imm => exact imageOk_of_ld (seqIAndi_ld ..) hs
  | ori rd ra imm => exact imageOk_of_ld (seqIOri_ld ..) hs
  | slli rd ra imm => exact imageOk_of_ld (seqISlli_ld ..) hs
  | srli rd ra imm => exact imageOk_of_ld (seqISrli_ld ..) hs
  | srai rd ra imm => exact imageOk_of_ld (seqISrai_ld ..) hs
  | lui rd imm => exact imageOk_of_ld (seqILui_ld ..) hs
  | lw rd ra imm => exact imageOk_of_ld (seqILw_ld ..) hs
  | lbu rd ra imm => exact imageOk_of_ld (seqILbu_ld ..) hs
  | sw rd ra imm => exact seqISw_imageOk hs ..
  | sb rd ra imm => exact seqISb_imageOk hs ..
  | beq ra rb off => exact imageOk_of_ld (seqIBeq_ld ..) hs
  | bne ra rb off => exact imageOk_of_ld (seqIBne_ld ..) hs
  | blt ra rb off => exact imageOk_of_ld (seqIBlt_ld ..) hs
  | bge ra rb off => exact imageOk_of_ld (seqIBge_ld ..) hs
  | bltu ra rb off => exact imageOk_of_ld (seqIBltu_ld ..) hs
  | bgeu ra rb off => exact imageOk_of_ld (seqIBgeu_ld ..) hs
  | jal rd off => exact imageOk_of_ld (seqIJal_ld ..) hs
  | jalr rd ra imm => exact imageOk_of_ld (seqIJalr_ld ..) hs
  | wtick imm => exact imageOk_of_ld (seqIWtick_ld ..) hs
  | wevt rd ra rb => exact imageOk_of_ld (seqIWevt_ld ..) hs
  | srd rd ra imm => exact imageOk_of_ld (seqISrd_ld ..) hs
  | swr rd ra imm => exact seqISwr_imageOk hs ..
  | req imm => exact imageOk_of_ld (seqIReq_ld ..) hs
  | blk => exact imageOk_of_ld (seqIBlk_ld ..) hs
  | flt ra imm => exact imageOk_of_ld (seqIFlt_ld ..) hs
  | sign rd ra rb => exact imageOk_of_ld (seqISign_ld ..) hs
  | send rd ra rb => exact imageOk_of_ld (seqISend_ld ..) hs
  | rdsr rd imm => exact imageOk_of_ld (seqIRdsr_ld ..) hs
  | retn => exact imageOk_of_ld (seqIRetn_ld ..) hs
  | kick => exact imageOk_of_ld (seqIKick_ld ..) hs
  | _ => exact hs

theorem seqStepOne_imageOk {s : State} (hs : s.imageOk) : s.seqStepOne.imageOk := by
  unfold State.seqStepOne
  refine ite_imageOk hs ?_
  extract_lets pc
  have h := fabricRead_ld s .sequencer pc 4 .fetch
  split
  next u hu =>
    rw [hu] at h
    exact imageOk_of_ld ((seqAccess_ld ..).trans h) hs
  next w u hu =>
    rw [hu] at h
    have hok : u.imageOk := imageOk_of_ld h hs
    split
    · exact imageOk_of_ld (showSeq_ld _) (seqEffect_imageOk hok _)
    · exact imageOk_of_ld (seqBad_ld _) hok

/-! ### Debug port and host port -/

theorem kdaWrite_imageOk {s : State} (hs : s.imageOk) (a n v : Nat) : (kdaWrite s a n v).2.imageOk := by
  unfold kdaWrite
  split
  · exact imageOk_of_ld (s := s) (debugRefused_ld s) hs
  · have hd : s.debugTouch.imageOk := imageOk_of_ld (debugTouch_ld s) hs
    split
    · exact ite_imageOk (seqStepOne_imageOk (writeReg_imageOk hd ..)) (writeReg_imageOk hd ..)
    · exact fabricWrite_imageOk hd ..

theorem masterWrite_imageOk {s : State} (hs : s.imageOk) (m : Master) (a n v : Nat) : (masterWrite s m a n v).2.imageOk := by
  unfold masterWrite
  split
  · exact kdaWrite_imageOk hs ..
  · exact fabricWrite_imageOk hs ..

theorem fabricAccess_imageOk {s : State} (hs : s.imageOk) (m : Master) (a n : Nat) (kind : AccessKind) (val : Nat) (sh : Share) :
    (fabricAccess s m a n kind val sh).imageOk := by
  unfold fabricAccess
  have hb : (s.mboxBegin a sh).imageOk := imageOk_of_ld (mboxBegin_ld ..) hs
  cases kind
  case write => exact imageOk_of_ld (mboxOver_ld ..) (masterWrite_imageOk hb ..)
  all_goals exact imageOk_of_ld (mboxOver_ld ..) (imageOk_of_ld (masterRead_ld ..) hb)

theorem writeAll_imageOk {wr : State → Nat → Nat → Nat → Bool × State} (hw : ∀ s a n v, s.imageOk → (wr s a n v).2.imageOk)
    {s0 : State} (hs0 : s0.imageOk) (n : Nat) (l : List Nat) :
    ∀ (a : Nat) (s : State), s.imageOk → (writeAll wr s0 n l a s).2.imageOk := by
  induction l with
  | nil => exact fun _ _ hs => hs
  | cons v t ih =>
    intro a s hs
    have hr := hw s a n v hs
    unfold writeAll
    split
    · exact hw _ _ _ _ hs0
    next u hu =>
      rw [hu] at hr
      exact ih _ u hr

theorem request_imageOk {rd : State → Nat → Nat → Option Nat × State} {wr : State → Nat → Nat → Nat → Bool × State}
    (hr : ∀ s a n, (rd s a n).2.ld = s.ld) (hw : ∀ s a n v, s.imageOk → (wr s a n v).2.imageOk) {s : State} (hs : s.imageOk)
    (h : BitVec 64) (data : List (Option (BitVec 64))) : (s.request rd wr h data).2.imageOk := by
  unfold State.request
  extract_lets a n ws
  have hR := readAll_ld hr s n (reqCount h) a s rfl
  have hW := writeAll_imageOk hw hs n (ws.map fun w => w.toNat % 256 ^ n) a s hs
  split
  · split
    · exact hs
    · exact imageOk_of_ld (by simp) hs
  · split
    · split
      · exact imageOk_of_ld ((readFailed_ld ..).trans (hr ..)) hs
      · split
        next vs u hu =>
          rw [hu] at hR
          exact imageOk_of_ld (by simpa using hR) hs
        next u hu =>
          rw [hu] at hR
          exact imageOk_of_ld (by simpa using hR) hs
    · split
      · exact hs
      · split
        · exact hw _ _ _ _ hs
        · split
          next u hu =>
            rw [hu] at hW
            exact hW
          next u hu =>
            rw [hu] at hW
            exact hW

theorem hostServe_imageOk {s : State} (hs : s.imageOk) (q : HostReq) : (s.hostServe q).imageOk := by
  unfold State.hostServe
  extract_lets a u
  have hu : u.imageOk := imageOk_of_ld (mboxBegin_ld ..) hs
  have h := request_imageOk (rd := fun s a n => s.fabricRead .host a n .read) (wr := fun s a n v => s.fabricWrite .host a n v)
    (fun s a n => fabricRead_ld ..) (fun s a n v hs => fabricWrite_imageOk hs ..) hu q.hdr q.data
  split
  next l v hv =>
    rw [hv] at h
    exact imageOk_of_ld (s := v) (mboxOver_ld v a q.sh) h

theorem hostAnswer_imageOk {s : State} (hs : s.imageOk) (left : Nat) : (s.hostAnswer left).imageOk :=
  imageOk_of_ld (hostLevel_ld _) (foldl_inv State.imageOk _ (fun _ q ht => hostServe_imageOk ht q) _ _ hs)

theorem hostRequest_imageOk {s : State} (hs : s.imageOk) (hdr : ECWord) (data : List ECWord) (waiting : Nat) (wait : Bool)
    (sh : Share) : (hostRequest s hdr data waiting wait sh).imageOk := by
  unfold hostRequest
  refine ite_imageOk hs ?_
  extract_lets u
  have hu : u.imageOk := hostAnswer_imageOk (imageOk_of_ld (flag_ld ..) hs) waiting
  refine ite_imageOk (imageOk_of_ld (flag_ld ..) hu) ?_
  have hv := portWord_ld u 0x44 hdr
  split
  next h v hh =>
    rw [hh] at hv
    replace hv : v.imageOk := imageOk_of_ld hv hu
    split
    · exact imageOk_of_ld (flag_ld ..) hv
    · have hw := portWords_ld v 0x44 data
      split
      next ws w hws =>
        rw [hws] at hw
        replace hw : w.imageOk := imageOk_of_ld hw hv
        refine ite_imageOk hw ?_
        extract_lets d x
        have hx : x.imageOk := hw
        exact ite_imageOk hx (hostAnswer_imageOk hx 0)

theorem kdaRequest_imageOk {s : State} (hs : s.imageOk) (h : BitVec 64) (ws : List (Option (BitVec 64))) :
    (s.kdaRequest h ws).imageOk := by
  unfold State.kdaRequest
  have hr := request_imageOk (rd := fun s a n => s.mboxAlone a (kdaRead · a n))
    (wr := fun s a n v => s.mboxAlone a (kdaWrite · a n v)) (fun s a n => mboxAlone_ld (fun t => kdaRead_ld ..) s a)
    (fun s a n v hs => mboxAlone_imageOk (fun t ht => kdaWrite_imageOk ht a n v) hs a) hs h ws
  split
  next l u hu =>
    rw [hu] at hr
    exact hr

theorem kdaScan_imageOk {s : State} (hs : s.imageOk) (w : ECWord) : (kdaScan s w).imageOk := by
  unfold kdaScan
  refine ite_imageOk hs ?_
  have hu := (portWord_ld s.kdaOut 0x45 w).trans (kdaOut_ld s)
  split
  next d u hd =>
    rw [hd] at hu
    replace hu : u.imageOk := imageOk_of_ld hu hs
    split
    · exact ite_imageOk hu (kdaRequest_imageOk hu ..)
    · split
      · exact hu
      · exact ite_imageOk hu (kdaRequest_imageOk hu ..)

/-! ### Tick boundary and phases -/

theorem adoptTick_imageOk {s : State} (hs : s.imageOk) (next : Nat) : (s.adoptTick next).2.imageOk := by
  unfold State.adoptTick
  extract_lets delta
  split
  · split <;> exact hs
  · exact hs

theorem tickCount_imageOk {s : State} (hs : s.imageOk) (drift : Int) : (s.tickCount drift).imageOk := by
  unfold State.tickCount
  refine ite_imageOk hs ?_
  extract_lets u next
  have hu : u.imageOk := imageOk_of_ld (s := s) (by simp [u]) hs
  have h := adoptTick_imageOk (imageOk_of_ld (ckptBoundary_ld u next) hu) next
  split
  next t v hv =>
    rw [hv] at h
    exact h

theorem tickBoundary_imageOk {s : State} (hs : s.imageOk) (drift : Int) : (tickBoundary s drift).imageOk :=
  ite_imageOk hs (imageOk_of_ld (by simp) (tickCount_imageOk (hostAnswer_imageOk hs 0) drift))

theorem exclEval_imageOk {s : State} (hs : s.imageOk) : s.exclEval.imageOk := by
  unfold State.exclEval
  refine imageOk_of_ld (exclPending_ld _) (each_imageOk (fun t n ht => ?_) (imageOk_of_ld (exclTake_ld s) hs) _)
  exact each_imageOk (fun u g hu => imageOk_of_ld (exclCell_ld ..) hu) (ite_imageOk (offGrant_imageOk ht n) ht) _

theorem selectionPass1_imageOk {s : State} (hs : s.imageOk) : (selectionPass1 s).imageOk := by
  unfold selectionPass1
  refine each_imageOk (fun t a ht => ?_) (exclEval_imageOk hs) _
  extract_lets u x v w
  have hw : w.ld = t.ld := (readEntries_ld ..).trans ((setSelA_ld ..).trans (setFld_ld ..))
  exact imageOk_of_ld ((foldl_ld (fun y g => classCell_ld ..) _ w).trans hw) ht

theorem unpack_imageOk {s : State} (hs : s.imageOk) : (unpack s).imageOk := by
  unfold unpack
  extract_lets p u v w
  have hu : u.imageOk := hs
  have hv : v.imageOk := imageOk_of_ld (each_ld unpackPort_ld u _) hu
  have hw : w.imageOk := offDone_imageOk (imageOk_of_ld (each_ld selUpdate_ld v _) hv)
  exact imageOk_of_ld (each_ld aggregates_ld w _) hw

theorem inputPhase_imageOk {s : State} (hs : s.imageOk) : (inputPhase s).imageOk :=
  imageOk_of_ld ((acqPhase_ld _).trans (meterPhase_ld _))
    (inPhase_imageOk (fun t ht => unpack_imageOk (imageOk_of_ld (align_ld t) ht)) hs)

/-! ### Every command -/

theorem clearWrite_getD_imageOk {s : State} (hs : s.imageOk) (a val : Nat) : ((s.clearWrite a val).getD s).imageOk := by
  cases h : s.clearWrite a val with
  | none => exact hs
  | some t => exact imageOk_of_ld (clearWrite_ld _ _ _ _ h) hs

theorem next_imageOk {u t : State} (hu : u.imageOk) (h : (Host.Outcome.next u : Host.Outcome State Fault Refusal) = .next t) :
    t.imageOk := by
  cases h
  exact hu

theorem execHubBlockRelay_imageOk {s t : State} (hs : s.imageOk) {hub : Fin 32} {u : Fin 2} {word : Word}
    (h : execHubBlockRelay hub u word s = .next t) : t.imageOk := by
  refine next_imageOk ?_ h
  split
  · exact ite_imageOk (imageOk_of_ld (setHub_ld ..) hs) hs
  · exact hs

theorem execCellBlockMarker_imageOk {s t : State} (hs : s.imageOk) {g : Fin 4096} {word : Word} {inst : Int}
    (h : execCellBlockMarker g word inst s = .next t) : t.imageOk := by
  refine next_imageOk ?_ h
  split
  · exact ite_imageOk (imageOk_of_ld (onCell_ld ..) hs) hs
  · exact hs

theorem execCellWordAccept_imageOk {s t : State} (hs : s.imageOk) {g : Fin 4096} {word : ECWord} {mark inst : Int}
    (h : execCellWordAccept g word mark inst s = .next t) : t.imageOk := by
  refine next_imageOk ?_ h
  split
  · exact ite_imageOk hs (imageOk_of_ld (onCell_ld ..) hs)
  · exact hs

theorem exec_imageOk {s t : State} (hs : s.imageOk) (i : Instr) (h : exec i s = .next t) : t.imageOk := by
  cases i with
  | tickBoundary drift => exact next_imageOk (tickBoundary_imageOk hs ..) h
  | stateRequest m val => exact next_imageOk (imageOk_of_ld (stateRequest_ld ..) hs) h
  | registerWrite m addr acc val => exact next_imageOk (mboxAlone_imageOk (fun _ hu => masterWrite_imageOk hu ..) hs _) h
  | counterClear m addr val => exact next_imageOk (ite_imageOk hs (clearWrite_getD_imageOk hs ..)) h
  | counterLowRead m addr => exact next_imageOk (imageOk_of_ld (counterLowRead_ld ..) hs) h
  | stagedSlotWrite m slot val => exact next_imageOk (imageOk_of_ld (slotWrite_ld ..) hs) h
  | inputPhase => exact next_imageOk (inputPhase_imageOk hs ..) h
  | auxTimeout g => exact next_imageOk (imageOk_of_ld (auxTimeout_ld ..) hs) h
  | selectionPass1 => exact next_imageOk (inPhase_imageOk (fun _ hu => selectionPass1_imageOk hu) hs) h
  | cellEscalation => exact next_imageOk (imageOk_of_ld (inPhase_ld cellEscalation_ld s) hs) h
  | channelStep p => exact next_imageOk (imageOk_of_ld (inPhase_ld (fun _ => channelStep_ld ..) s) hs) h
  | controlFence => exact next_imageOk (imageOk_of_ld (inPhase_ld controlFence_ld s) hs) h
  | plannerPhase => exact next_imageOk (imageOk_of_ld (inPhase_ld (fun u => (plannerPhase_ld _).trans (logInputs_ld u)) s) hs) h
  | selectionThreshold => exact next_imageOk (imageOk_of_ld (inPhase_ld selectionThreshold_ld s) hs) h
  | selectionPass2 => exact next_imageOk (imageOk_of_ld (inPhase_ld selectionPass2_ld s) hs) h
  | composerPhase => exact next_imageOk (imageOk_of_ld ((acqCommit_ld _).trans (composerPhase_ld s)) hs) h
  | frameLaunch lph d => exact next_imageOk (imageOk_of_ld (frameLaunch_ld ..) hs) h
  | priorityMarkerSend lane k w => exact next_imageOk (imageOk_of_ld (priorityMarkerSend_ld ..) hs) h
  | frameMarkerRx lane word ui => exact next_imageOk (imageOk_of_ld (frameMarkerRx_ld ..) hs) h
  | frameMiss lane => exact next_imageOk (imageOk_of_ld (frameMiss_ld ..) hs) h
  | los lane cause => exact next_imageOk (imageOk_of_ld (losFound_ld ..) hs) h
  | losClear lane pin => exact next_imageOk (imageOk_of_ld (losClear_ld ..) hs) h
  | lol lane cdrUnlock => exact next_imageOk (imageOk_of_ld (lolFound_ld ..) hs) h
  | lolClear lane => exact next_imageOk (imageOk_of_ld (lolClear_ld ..) hs) h
  | faultedRecovery lane => exact next_imageOk (imageOk_of_ld (faultedRecovery_ld ..) hs) h
  | portSilent lane => exact next_imageOk (imageOk_of_ld (portSilent_ld ..) hs) h
  | portEnable m lane => exact next_imageOk (imageOk_of_ld (portEnable_ld ..) hs) h
  | portDisable m lane => exact next_imageOk (imageOk_of_ld (portDisable_ld ..) hs) h
  | loopbackSelect m lane lb => exact next_imageOk (imageOk_of_ld (loopbackSelect_ld ..) hs) h
  | cellFrameRx port line cyc rtt => exact next_imageOk (imageOk_of_ld (cellFrameRx_ld ..) hs) h
  | alertRx lane word => exact next_imageOk (imageOk_of_ld (alertRx_ld ..) hs) h
  | blockMarkerRx lane word => exact next_imageOk (imageOk_of_ld (blockMarkerRx_ld ..) hs) h
  | trigRx lane word ofs => exact next_imageOk (imageOk_of_ld (trigRx_ld ..) hs) h
  | execOffsetWrite m val => exact next_imageOk (writeReg_imageOk hs ..) h
  | hubHeaderAccept hub u hdr ui => exact next_imageOk (imageOk_of_ld (setHub_ld ..) hs) h
  | hubWordForward hub u pos word crcOk => exact next_imageOk (imageOk_of_ld (setHub_ld ..) hs) h
  | hubBlockRelay hub u word => exact execHubBlockRelay_imageOk (u := u) hs h
  | hubAlert hub cause => exact next_imageOk (imageOk_of_ld (setHub_ld ..) hs) h
  | concAlert conc ch cstat => exact next_imageOk (imageOk_of_ld (setConc_ld ..) hs) h
  | concFrameLaunch conc d => exact next_imageOk (imageOk_of_ld (setConc_ld ..) hs) h
  | cellWordAccept g word mark inst => exact execCellWordAccept_imageOk hs h
  | cellMissingTick g xtick mark inst => exact next_imageOk (imageOk_of_ld (onCell_ld ..) hs) h
  | cellEdge g => exact next_imageOk (imageOk_of_ld (onCell_ld ..) hs) h
  | cellReport g j vcap temp => exact next_imageOk (imageOk_of_ld (onCell_ld ..) hs) h
  | cellBlockMarker g word inst => exact execCellBlockMarker_imageOk hs h
  | shootThroughAttempt g sw inst => exact next_imageOk (imageOk_of_ld (onCell_ld ..) hs) h
  | desat g sw inst => exact next_imageOk (imageOk_of_ld (onCell_ld ..) hs) h
  | oc g inst => exact next_imageOk (imageOk_of_ld (onCell_ld ..) hs) h
  | uvloGate g sw inst => exact next_imageOk (imageOk_of_ld (onCell_ld ..) hs) h
  | uvloAux g inst => exact next_imageOk (imageOk_of_ld (onCell_ld ..) hs) h
  | capOv g vcap inst => exact next_imageOk (imageOk_of_ld (onCell_ld ..) hs) h
  | autonomousBypass g cause inst => exact next_imageOk (imageOk_of_ld (onCell_ld ..) hs) h
  | bypassConfirm g => exact next_imageOk (imageOk_of_ld (onCell_ld ..) hs) h
  | bypassFail g => exact next_imageOk (imageOk_of_ld (onCell_ld ..) hs) h
  | selftestEnd g fails => exact next_imageOk (imageOk_of_ld (onCell_ld ..) hs) h
  | nop g data => exact next_imageOk (imageOk_of_ld (cellItemCmd_ld ..) hs) h
  | setAddr g data => exact next_imageOk (imageOk_of_ld (cellItemCmd_ld ..) hs) h
  | write g data => exact next_imageOk (imageOk_of_ld (cellItemCmd_ld ..) hs) h
  | commit g data => exact next_imageOk (imageOk_of_ld ((cellItemCmd_ld ..).trans (onCell_ld ..)) hs) h
  | enable g data => exact next_imageOk (imageOk_of_ld (cellItemCmd_ld ..) hs) h
  | dcomp g data => exact next_imageOk (imageOk_of_ld (cellItemCmd_ld ..) hs) h
  | probe g data => exact next_imageOk (imageOk_of_ld (cellItemCmd_ld ..) hs) h
  | selftest g data => exact next_imageOk (imageOk_of_ld (cellItemCmd_ld ..) hs) h
  | closeBypass g data => exact next_imageOk (imageOk_of_ld (cellItemCmd_ld ..) hs) h
  | auxReqSetAddr m g data => exact next_imageOk (imageOk_of_ld (auxWrite_ld ..) hs) h
  | auxReqWrite m g data => exact next_imageOk (imageOk_of_ld (auxWrite_ld ..) hs) h
  | auxReqEnable m g data => exact next_imageOk (imageOk_of_ld (auxWrite_ld ..) hs) h
  | auxReqCloseBypass m g data => exact next_imageOk (imageOk_of_ld (auxWrite_ld ..) hs) h
  | selftestPeriod arm => exact next_imageOk (imageOk_of_ld (selftestPeriod_ld ..) hs) h
  | stestTimeout g => exact next_imageOk (imageOk_of_ld (stestTimeout_ld ..) hs) h
  | exclude m g => exact next_imageOk (imageOk_of_ld (exclWrite_ld ..) hs) h
  | readmit m g => exact next_imageOk (imageOk_of_ld (exclWrite_ld ..) hs) h
  | excludeForSelftest m g => exact next_imageOk (imageOk_of_ld (exclWrite_ld ..) hs) h
  | exclDenied g => exact next_imageOk (imageOk_of_ld (exclDenied_ld ..) hs) h
  | patternCommitRequest m => exact next_imageOk (imageOk_of_ld (mirrored_ld patternRequest_ld s _ _ _) hs) h
  | swapRequest m val => exact next_imageOk (imageOk_of_ld (swapWrite_ld ..) hs) h
  | bankSwap => exact next_imageOk (imageOk_of_ld (bankSwap_ld ..) hs) h
  | primeRequest m c => exact next_imageOk (imageOk_of_ld (primeRequest_ld ..) hs) h
  | slackClear m => exact next_imageOk (imageOk_of_ld (setFld_ld ..) hs) h
  | tripPin p sampled => exact next_imageOk (imageOk_of_ld (tripPin_ld ..) hs) h
  | tripPinCfgWrite m val => exact next_imageOk (imageOk_of_ld (pinCfgWrite_ld ..) hs) h
  | comparatorSample n code valid => exact next_imageOk (ite_imageOk (imageOk_of_ld (comparatorSample_ld ..) hs) hs) h
  | minblkExpiry => exact next_imageOk (ite_imageOk (s := { s with prot := { s.prot with minDone := true } }) hs hs) h
  | releaseRequest m val => exact next_imageOk (imageOk_of_ld (relWrite_ld ..) hs) h
  | forceBlock m val => exact next_imageOk (imageOk_of_ld (forceWrite_ld ..) hs) h
  | sensorFrameRx port line cyc rtt => exact next_imageOk (imageOk_of_ld (sensorFrameRx_ld ..) hs) h
  | ptpSyncRx p msg => exact next_imageOk (imageOk_of_ld (ptpSync_ld ..) hs) h
  | announceRx p msg => exact next_imageOk (imageOk_of_ld (announceRx_ld ..) hs) h
  | pdelayReqRx p msg => exact next_imageOk (imageOk_of_ld (pdelayReq_ld ..) hs) h
  | tp0Pulse t mhz => exact next_imageOk (imageOk_of_ld (tp0Pulse_ld ..) hs) h
  | busFrameRx ml line cyc rtt => exact next_imageOk (imageOk_of_ld (busFrameRx_ld ..) hs) h
  | domLost d => exact next_imageOk (imageOk_of_ld (domLost_ld ..) hs) h
  | hoExpired => exact next_imageOk (imageOk_of_ld (hoExpired_ld ..) hs) h
  | domainSrcWrite m d val => exact next_imageOk (imageOk_of_ld (domCfgWrite_ld ..) hs) h
  | tp1Edge pps inst => exact next_imageOk (imageOk_of_ld (tp1Edge_ld ..) hs) h
  | clockLoss src clk => exact next_imageOk (imageOk_of_ld (clockLoss_ld ..) hs) h
  | ckCoreLoss => exact next_imageOk (imageOk_of_ld (clockLoss_ld ..) hs) h
  | ckTimeLoss => exact next_imageOk (imageOk_of_ld (clockLoss_ld ..) hs) h
  | ckTimeReturn => exact next_imageOk (imageOk_of_ld (clockReturn_ld ..) hs) h
  | blockStreamCreset => exact next_imageOk (blockStreamCreset_imageOk hs ..) h
  | pairFrameRx ml line cyc x => exact next_imageOk (imageOk_of_ld (pairFrameRx_ld ..) hs) h
  | roleWaitExpiry => exact next_imageOk (imageOk_of_ld (roleWaitExpiry_ld ..) hs) h
  | demoted => exact next_imageOk (imageOk_of_ld (demoted_ld ..) hs) h
  | epochClear m => exact next_imageOk (imageOk_of_ld (epochClear_ld ..) hs) h
  | statLate => exact next_imageOk (imageOk_of_ld (statLate_ld ..) hs) h
  | stateFollow stat => exact next_imageOk (imageOk_of_ld (stateFollow_ld ..) hs) h
  | mirroredRequestApply msgs => exact next_imageOk (imageOk_of_ld (mirroredApply_ld ..) hs) h
  | digestCompare => exact next_imageOk (imageOk_of_ld (digestCompare_ld ..) hs) h
  | checkpointCycleStart => exact next_imageOk (imageOk_of_ld (checkpointCycleStart_ld ..) hs) h
  | takeoverDecision => exact next_imageOk (imageOk_of_ld (takeoverDecision_ld ..) hs) h
  | doublesAnnounce => exact next_imageOk (imageOk_of_ld (doublesAnnounce_ld ..) hs) h
  | doublesRequest m val => exact next_imageOk (imageOk_of_ld (doublesRequest_ld ..) hs) h
  | doublesCheck => exact next_imageOk (imageOk_of_ld (doublesCheck_ld ..) hs) h
  | doublesSwap => exact next_imageOk (imageOk_of_ld (doublesSwap_ld ..) hs) h
  | heartbeatToggle => exact next_imageOk (imageOk_of_ld (heartbeatToggle_ld ..) hs) h
  | hbLost => exact next_imageOk (imageOk_of_ld (hbLost_ld ..) hs) h
  | sumpService => exact next_imageOk (imageOk_of_ld (sumpService_ld ..) hs) h
  | srcClear src => exact next_imageOk (imageOk_of_ld (quietCheck_ld ..) hs) h
  | creset => exact next_imageOk (creset_imageOk hs ..) h
  | errClear m => exact next_imageOk (imageOk_of_ld (errClear_ld ..) hs) h
  | fresetDone fn idx => exact next_imageOk (imageOk_of_ld (fresetDone_ld ..) hs) h
  | fresetClPort n => exact next_imageOk (imageOk_of_ld (freset_ld ..) hs) h
  | fresetSensor => exact next_imageOk (imageOk_of_ld (freset_ld ..) hs) h
  | fresetMlPort n => exact next_imageOk (imageOk_of_ld (freset_ld ..) hs) h
  | fresetStationPort n => exact next_imageOk (imageOk_of_ld (freset_ld ..) hs) h
  | fresetTimeDomain n => exact next_imageOk (imageOk_of_ld (freset_ld ..) hs) h
  | fresetAcquisition => exact next_imageOk (imageOk_of_ld (freset_ld ..) hs) h
  | fresetEnergy => exact next_imageOk (imageOk_of_ld (freset_ld ..) hs) h
  | fresetSecurity => exact next_imageOk (imageOk_of_ld (freset_ld ..) hs) h
  | fresetRedundancy => exact next_imageOk (imageOk_of_ld (freset_ld ..) hs) h
  | fresetSequencer => exact next_imageOk (imageOk_of_ld (freset_ld ..) hs) h
  | fresetEngine => exact next_imageOk (imageOk_of_ld (freset_ld ..) hs) h
  | fresetPlanner => exact next_imageOk (imageOk_of_ld (freset_ld ..) hs) h
  | fresetSelection => exact next_imageOk (imageOk_of_ld (freset_ld ..) hs) h
  | fresetComposer => exact next_imageOk (imageOk_of_ld (freset_ld ..) hs) h
  | fresetProtection => exact next_imageOk (imageOk_of_ld (freset_ld ..) hs) h
  | recorderArm m r => exact next_imageOk (imageOk_of_ld (recorderArm_ld ..) hs) h
  | recorderStop m r => exact next_imageOk (imageOk_of_ld (recorderStop_ld ..) hs) h
  | missedClear m r => exact next_imageOk (imageOk_of_ld (missedClear_ld ..) hs) h
  | softTrigger m mask => exact next_imageOk (imageOk_of_ld (softTrigger_ld ..) hs) h
  | segmentFree m r seg => exact next_imageOk (imageOk_of_ld (segmentFree_ld ..) hs) h
  | recordHeaderWritten r => exact next_imageOk (imageOk_of_ld (headerWritten_ld ..) hs) h
  | holdOffEnd r => exact next_imageOk (imageOk_of_ld (holdOffEnd_ld ..) hs) h
  | retentionEnter m => exact next_imageOk (imageOk_of_ld (retentionEnter_ld ..) hs) h
  | retentionWake m => exact next_imageOk (imageOk_of_ld (retentionWake_ld ..) hs) h
  | retentionAwake => exact next_imageOk (imageOk_of_ld (retentionAwake_ld ..) hs) h
  | recordCommit => exact next_imageOk (imageOk_of_ld (recordCommit_ld ..) hs) h
  | signFail => exact next_imageOk (imageOk_of_ld (signFail_ld ..) hs) h
  | recordResend => exact next_imageOk (imageOk_of_ld (recordResend_ld ..) hs) h
  | recordAck p f => exact next_imageOk (imageOk_of_ld (stationFrame_ld ..) hs) h
  | recordReq p f => exact next_imageOk (imageOk_of_ld (stationFrame_ld ..) hs) h
  | attestReq p f => exact next_imageOk (imageOk_of_ld (stationFrame_ld ..) hs) h
  | energyClear m val => exact next_imageOk (imageOk_of_ld (energyClear_ld ..) hs) h
  | ownProg m ofs => exact next_imageOk (imageOk_of_ld (secSubmit_ld ..) hs) h
  | ownRevoke m ofs => exact next_imageOk (imageOk_of_ld (secSubmit_ld ..) hs) h
  | arbAdv m ofs => exact next_imageOk (imageOk_of_ld (secSubmit_ld ..) hs) h
  | portKey m ofs => exact next_imageOk (imageOk_of_ld (secSubmit_ld ..) hs) h
  | attest m ofs => exact next_imageOk (imageOk_of_ld (secSubmit_ld ..) hs) h
  | getId m ofs => exact next_imageOk (imageOk_of_ld (secSubmit_ld ..) hs) h
  | dbgRaise m ofs => exact next_imageOk (imageOk_of_ld (secSubmit_ld ..) hs) h
  | securityCommandEnd => exact next_imageOk (imageOk_of_ld (securityCommandEnd_ld ..) hs) h
  | signatureDone => exact next_imageOk (imageOk_of_ld (signatureDone_ld ..) hs) h
  | entFail => exact next_imageOk (imageOk_of_ld (entFail_ld ..) hs) h
  | idRegen => exact next_imageOk (imageOk_of_ld (idRegen_ld ..) hs) h
  | keyStoreReload word => exact next_imageOk (imageOk_of_ld (keyStoreReload_ld ..) hs) h
  | debugAuth m val => exact next_imageOk (imageOk_of_ld (atPolicy_ld (fun _ => debugAuth_ld ..) s) hs) h
  | challengeRead m => exact next_imageOk (imageOk_of_ld (atPolicy_ld challengeRead_ld s) hs) h
  | debugSessionTimeout => exact next_imageOk (imageOk_of_ld (debugTimeout_ld ..) hs) h
  | trst => exact next_imageOk (trst_imageOk hs ..) h
  | linkDown p hiBer => exact next_imageOk (imageOk_of_ld (linkDown_ld ..) hs) h
  | setpoint p f => exact next_imageOk (imageOk_of_ld (stationFrame_ld ..) hs) h
  | request p f => exact next_imageOk (imageOk_of_ld (stationFrame_ld ..) hs) h
  | c0Late p => exact next_imageOk (imageOk_of_ld (c0Late_ld ..) hs) h
  | status p => exact next_imageOk (imageOk_of_ld (statusSend_ld ..) hs) h
  | response p => exact next_imageOk (imageOk_of_ld (responseSend_ld ..) hs) h
  | powerOn => exact next_imageOk (powerOn_imageOk ..) h
  | resetRelease idBlobOk => exact next_imageOk (resetRelease_imageOk hs ..) h
  | pllLock locked flashOk => exact next_imageOk (pllLock_imageOk hs ..) h
  | porst low => exact next_imageOk (porstPin_imageOk hs ..) h
  | chipReset => exact next_imageOk (chipReset_imageOk ..) h
  | imageReadComplete => exact next_imageOk (imageReadComplete_imageOk hs ..) h
  | imageVerify => exact next_imageOk (imageVerify_imageOk hs ..) h
  | imageLoadRequest m val => exact next_imageOk (imageLoadRequest_imageOk hs ..) h
  | flashRead m val => exact next_imageOk (flashStart_imageOk hs ..) h
  | flashProgram m val => exact next_imageOk (flashStart_imageOk hs ..) h
  | flashErase m val => exact next_imageOk (flashStart_imageOk hs ..) h
  | flashDone => exact next_imageOk (flashDone_imageOk hs) h
  | flErr => exact next_imageOk (flErr_imageOk hs ..) h
  | portOffline m port => exact next_imageOk (portOffline_imageOk hs ..) h
  | portOnline m port => exact next_imageOk (portOnline_imageOk hs ..) h
  | offlineWithdraw port => exact next_imageOk (offlineWithdraw_imageOk hs ..) h
  | add rd ra rb => exact next_imageOk (ite_imageOk (imageOk_of_ld (seqIAdd_ld ..) hs) hs) h
  | sub rd ra rb => exact next_imageOk (ite_imageOk (imageOk_of_ld (seqISub_ld ..) hs) hs) h
  | and rd ra rb => exact next_imageOk (ite_imageOk (imageOk_of_ld (seqIAnd_ld ..) hs) hs) h
  | or rd ra rb => exact next_imageOk (ite_imageOk (imageOk_of_ld (seqIOr_ld ..) hs) hs) h
  | xor rd ra rb => exact next_imageOk (ite_imageOk (imageOk_of_ld (seqIXor_ld ..) hs) hs) h
  | sll rd ra rb => exact next_imageOk (ite_imageOk (imageOk_of_ld (seqISll_ld ..) hs) hs) h
  | srl rd ra rb => exact next_imageOk (ite_imageOk (imageOk_of_ld (seqISrl_ld ..) hs) hs) h
  | sra rd ra rb => exact next_imageOk (ite_imageOk (imageOk_of_ld (seqISra_ld ..) hs) hs) h
  | slt rd ra rb => exact next_imageOk (ite_imageOk (imageOk_of_ld (seqISlt_ld ..) hs) hs) h
  | sltu rd ra rb => exact next_imageOk (ite_imageOk (imageOk_of_ld (seqISltu_ld ..) hs) hs) h
  | mul rd ra rb => exact next_imageOk (ite_imageOk (imageOk_of_ld (seqIMul_ld ..) hs) hs) h
  | div rd ra rb => exact next_imageOk (ite_imageOk (imageOk_of_ld (seqIDiv_ld ..) hs) hs) h
  | addi rd ra imm => exact next_imageOk (ite_imageOk (imageOk_of_ld (seqIAddi_ld ..) hs) hs) h
  | andi rd ra imm => exact next_imageOk (ite_imageOk (imageOk_of_ld (seqIAndi_ld ..) hs) hs) h
  | ori rd ra imm => exact next_imageOk (ite_imageOk (imageOk_of_ld (seqIOri_ld ..) hs) hs) h
  | slli rd ra imm => exact next_imageOk (ite_imageOk (imageOk_of_ld (seqISlli_ld ..) hs) hs) h
  | srli rd ra imm => exact next_imageOk (ite_imageOk (imageOk_of_ld (seqISrli_ld ..) hs) hs) h
  | srai rd ra imm => exact next_imageOk (ite_imageOk (imageOk_of_ld (seqISrai_ld ..) hs) hs) h
  | lui rd imm => exact next_imageOk (ite_imageOk (imageOk_of_ld (seqILui_ld ..) hs) hs) h
  | lw rd ra imm => exact next_imageOk (ite_imageOk (imageOk_of_ld (seqILw_ld ..) hs) hs) h
  | lbu rd ra imm => exact next_imageOk (ite_imageOk (imageOk_of_ld (seqILbu_ld ..) hs) hs) h
  | sw rd ra imm => exact next_imageOk (ite_imageOk (seqISw_imageOk hs ..) hs) h
  | sb rd ra imm => exact next_imageOk (ite_imageOk (seqISb_imageOk hs ..) hs) h
  | beq ra rb off => exact next_imageOk (ite_imageOk (imageOk_of_ld (seqIBeq_ld ..) hs) hs) h
  | bne ra rb off => exact next_imageOk (ite_imageOk (imageOk_of_ld (seqIBne_ld ..) hs) hs) h
  | blt ra rb off => exact next_imageOk (ite_imageOk (imageOk_of_ld (seqIBlt_ld ..) hs) hs) h
  | bge ra rb off => exact next_imageOk (ite_imageOk (imageOk_of_ld (seqIBge_ld ..) hs) hs) h
  | bltu ra rb off => exact next_imageOk (ite_imageOk (imageOk_of_ld (seqIBltu_ld ..) hs) hs) h
  | bgeu ra rb off => exact next_imageOk (ite_imageOk (imageOk_of_ld (seqIBgeu_ld ..) hs) hs) h
  | jal rd off => exact next_imageOk (ite_imageOk (imageOk_of_ld (seqIJal_ld ..) hs) hs) h
  | jalr rd ra imm => exact next_imageOk (ite_imageOk (imageOk_of_ld (seqIJalr_ld ..) hs) hs) h
  | wtick imm => exact next_imageOk (ite_imageOk (imageOk_of_ld (seqIWtick_ld ..) hs) hs) h
  | wevt rd ra rb => exact next_imageOk (ite_imageOk (imageOk_of_ld (seqIWevt_ld ..) hs) hs) h
  | waitComplete => exact next_imageOk (imageOk_of_ld (waitComplete_ld ..) hs) h
  | srd rd ra imm => exact next_imageOk (ite_imageOk (imageOk_of_ld (seqISrd_ld ..) hs) hs) h
  | swr rd ra imm => exact next_imageOk (ite_imageOk (seqISwr_imageOk hs ..) hs) h
  | req imm => exact next_imageOk (ite_imageOk (imageOk_of_ld (seqIReq_ld ..) hs) hs) h
  | blk => exact next_imageOk (ite_imageOk (imageOk_of_ld (seqIBlk_ld ..) hs) hs) h
  | flt ra imm => exact next_imageOk (ite_imageOk (imageOk_of_ld (seqIFlt_ld ..) hs) hs) h
  | sign rd ra rb => exact next_imageOk (ite_imageOk (imageOk_of_ld (seqISign_ld ..) hs) hs) h
  | send rd ra rb => exact next_imageOk (ite_imageOk (imageOk_of_ld (seqISend_ld ..) hs) hs) h
  | rdsr rd imm => exact next_imageOk (ite_imageOk (imageOk_of_ld (seqIRdsr_ld ..) hs) hs) h
  | retn => exact next_imageOk (ite_imageOk (imageOk_of_ld (seqIRetn_ld ..) hs) hs) h
  | kick => exact next_imageOk (ite_imageOk (imageOk_of_ld (seqIKick_ld ..) hs) hs) h
  | seqIllegal => exact next_imageOk (imageOk_of_ld (seqIllegal_ld ..) hs) h
  | nmiEntry => exact next_imageOk (imageOk_of_ld (nmiEntry_ld ..) hs) h
  | roleVectorEntry reason => exact next_imageOk (imageOk_of_ld (roleEntry_ld ..) hs) h
  | lockstep => exact next_imageOk (imageOk_of_ld (lockstep_ld ..) hs) h
  | wdog => exact next_imageOk (imageOk_of_ld (watchdog_ld ..) hs) h
  | eventSet m val => exact next_imageOk (imageOk_of_ld (eventSet_ld ..) hs) h
  | fabricAccess m addr acc kind val sh => exact next_imageOk (fabricAccess_imageOk hs ..) h
  | correctedWriteback => exact next_imageOk (imageOk_of_ld (correctedWriteback_ld ..) hs) h
  | caverTestStart => exact next_imageOk (imageOk_of_ld (caverStart_ld ..) hs) h
  | caverTestDone mismatch => exact next_imageOk (imageOk_of_ld (caverDone_ld ..) hs) h
  | caverAbandon => exact next_imageOk (imageOk_of_ld (caverAbandon_ld ..) hs) h
  | hostRead hdr waiting wait sh => exact next_imageOk (hostRequest_imageOk hs ..) h
  | hostWrite hdr data waiting wait sh => exact next_imageOk (hostRequest_imageOk hs ..) h
  | extest pins tdi => exact next_imageOk (tapScan_imageOk hs ..) h
  | samplePreload pins tdi => exact next_imageOk (tapScan_imageOk (s := { s with dbg := { s.dbg with bsr := pins } }) hs ..) h
  | idcode tdi => exact next_imageOk (tapScan_imageOk hs ..) h
  | clamp tdi => exact next_imageOk (tapScan_imageOk hs ..) h
  | highz tdi => exact next_imageOk (tapScan_imageOk hs ..) h
  | extestPulse pins tdi => exact next_imageOk (tapScan_imageOk hs ..) h
  | extestTrain pins tdi => exact next_imageOk (tapScan_imageOk hs ..) h
  | kda => exact next_imageOk (tapLoad_imageOk hs ..) h
  | bypass code tdi => exact next_imageOk (tapScan_imageOk hs ..) h
  | kdaScan word => exact next_imageOk (kdaScan_imageOk hs ..) h
  | seqHalt => exact next_imageOk (imageOk_of_ld (atLevel2_ld seqHalt_ld s) hs) h
  | seqResume => exact next_imageOk (imageOk_of_ld (atLevel2_ld seqResume_ld s) hs) h
  | seqStep => exact next_imageOk (atLevel2_imageOk (fun _ hu => seqStepOne_imageOk hu) hs) h
  | breakpointHit => exact next_imageOk (imageOk_of_ld (breakpointHit_ld ..) hs) h
  | pipeHalt => exact next_imageOk (imageOk_of_ld (atLevel2_ld (fun _ => dbgPipeWrite_ld ..) s) hs) h
  | pipeResume => exact next_imageOk (imageOk_of_ld (atLevel2_ld (fun _ => dbgPipeWrite_ld ..) s) hs) h
  | pipeStep count => exact next_imageOk (imageOk_of_ld (atLevel2_ld (fun _ => dbgPipeWrite_ld ..) s) hs) h
  | supplyExcursion rail kind => exact next_imageOk (supplyExcursion_imageOk hs ..) h
  | tempReading code => exact next_imageOk (tempReading_imageOk hs ..) h
  | tempMaxClear m => exact next_imageOk (imageOk_of_ld (tempMaxClear_ld ..) hs) h
  | c0LatClear m p => exact next_imageOk (imageOk_of_ld (setFld_ld ..) hs) h
  | clockReturn clk => exact next_imageOk (imageOk_of_ld (clockReturn_ld ..) hs) h
  | linkUp p => exact next_imageOk (imageOk_of_ld (linkUp_ld ..) hs) h
  | tripPinInactive p => exact next_imageOk (imageOk_of_ld ((pinStat_ld _).trans (setPin_ld ..)) hs) h
  | concHeaderAccept conc u hdr d0 d1 mark => exact next_imageOk (imageOk_of_ld (setConc_ld ..) hs) h
  | hubFrameLaunch hub u j d => exact next_imageOk (imageOk_of_ld (hubFrameLaunch_ld ..) hs) h
  | hubPowerUp hub => exact next_imageOk (imageOk_of_ld (setHub_ld ..) hs) h
  | cellPowerUp g => exact next_imageOk (imageOk_of_ld (onCell_ld ..) hs) h
  | pdelayRespRx p msg => exact next_imageOk (imageOk_of_ld (pdelayResp_ld ..) hs) h
  | entropyRecovery => exact next_imageOk (imageOk_of_ld (entropyRecovery_ld ..) hs) h
  | keyStoreReloadDone blobOk => exact next_imageOk (imageOk_of_ld (keyStoreReloadDone_ld ..) hs) h
  | debugBackoffEnd => exact next_imageOk (imageOk_of_ld (backoffEnd_ld ..) hs) h
  | supplyRecovery rail => exact next_imageOk (imageOk_of_ld (supplyRecovery_ld ..) hs) h
  | gateSupplyRecovery g supply inst => exact next_imageOk (imageOk_of_ld (onCell_ld ..) hs) h
  | heartbeatEdgeRx => exact next_imageOk (ite_imageOk (s := { s with red := { s.red with hbSeen := s.now, hbGone := false } }) hs hs) h

/-- Settles O36. The front command's arm keeps the tables, and taking it from the queue does not touch the loader. -/
theorem stepKeepsImageTables : Obligations.StepKeepsImageTables := by
  intro s t hs h
  unfold step at h
  split at h
  · cases h
    exact hs
  next c rest _ => exact exec_imageOk (s := { s with pending := rest }) hs c h

end Sys2Proof.Machine
end

section
/-! PROOFS. O2 and O35: State.reset lists no register, no byte of memory and no image, so every read falls back on a default. -/
namespace Sys2Proof.Machine
open Sys2Proof

-- The proofs are checked one after another: many at a time need more memory than a compile may have.
set_option Elab.async false

theorem memDefault_low {a : Nat} (h : a < 0x10020000) : memDefault a = 0 := by
  unfold memDefault
  rw [if_neg (by omega), if_neg (by omega)]

/-- In an Engine channel's state every byte but one reads 0; byte 82 has PRIME_PEND (R217). -/
theorem memDefault_chan {c k : Nat} (hc : c < 192) (hk : k < 128) :
    memDefault (0x10020000 + 128 * c + k) = if k = 82 then 0x10 else 0 := by
  unfold memDefault
  have hmod : (0x10020000 + 128 * c + k - 0x10020000) % 128 = k := by omega
  rw [hmod, if_neg (c := 0x40100000 ≤ _ ∧ _) (by omega)]
  exact if_congr ⟨fun h => h.2.2, fun h => ⟨by omega, by omega, h⟩⟩ rfl rfl

theorem reset_rd_word (a : Nat) : State.reset.rd a 4 = (memDefault a).toNat + 256 * ((memDefault (a + 1)).toNat +
    256 * ((memDefault (a + 2)).toNat + 256 * (memDefault (a + 3)).toNat)) := rfl

theorem reset_slot (i : Nat) : State.reset.slot i = 0 := by
  have hi : i % 1024 < 1024 := Nat.mod_lt _ (by decide)
  unfold State.slot
  rw [reset_rd_word, memDefault_low (by omega), memDefault_low (by omega), memDefault_low (by omega), memDefault_low (by omega)]
  rfl

theorem reset_sx (i : Nat) : State.reset.sx i = 0 := by
  unfold State.sx
  split <;> rfl

theorem reset_primePend {c : Nat} (hc : c < 192) : State.reset.rd (0x10020000 + 128 * c + 80) 4 = 0x100000 := by
  rw [reset_rd_word, memDefault_chan hc (k := 80) (by decide), memDefault_chan hc (k := 81) (by decide),
    memDefault_chan hc (k := 82) (by decide), memDefault_chan hc (k := 83) (by decide)]
  rfl

/-- Settles O35: State.reset lists no byte of memory and holds no image. -/
theorem resetMeetsInvariants : Obligations.ResetMeetsInvariants := by
  unfold Obligations.ResetMeetsInvariants
  exact ⟨rfl, imageOk_empty rfl rfl, rfl, rfl⟩

/-- Settles O2: State.reset lists no register and no byte of memory, so that each reads its reset value or memory's default. -/
theorem resetState : Obligations.ResetState := by
  unfold Obligations.ResetState
  exact ⟨fun _ => rfl, rfl, rfl, rfl, rfl, reset_slot, reset_sx, fun _ hc => reset_primePend hc, rfl, rfl, rfl, rfl, rfl, rfl⟩

end Sys2Proof.Machine
end

section
/-! PROOFS. O10: the boundary of a tick. The count of the tick leaves alone what the transition looks at (`Undisturbed`), and the work that
follows the transition leaves alone what the transition wrote (`BoundaryKept`). -/
namespace Sys2Proof.Machine
open Sys2Proof

-- The proofs are checked one after another: many at a time need more memory than a compile may have.
set_option Elab.async false

/-- The operating state, the one before it and the cause: what a transition writes (R36). -/
def opFlds : List Fld := [CLK_STATE_STATE, CLK_STATE_PREV, CLK_STATE_CAUSE]

/-- Neither the operating state nor what a boundary counts and takes changes: the tick number, the staged writes and the requests. -/
structure BoundaryKept (s t : State) : Prop where
  flds : ∀ f ∈ opFlds, t.fld f = s.fld f
  tick : t.ctl.tick = s.ctl.tick
  started : t.ctl.started = s.ctl.started
  staged : t.ctl.staged = s.ctl.staged
  seqReq : t.ctl.seqReq = s.ctl.seqReq
  hostReq : t.ctl.hostReq = s.ctl.hostReq

namespace BoundaryKept

theorem rfl' (s : State) : BoundaryKept s s := ⟨fun _ _ => rfl, rfl, rfl, rfl, rfl, rfl⟩

theorem trans {s t u : State} (h : BoundaryKept s t) (k : BoundaryKept t u) : BoundaryKept s u :=
  ⟨fun f hf => (k.flds f hf).trans (h.flds f hf), k.tick.trans h.tick, k.started.trans h.started, k.staged.trans h.staged,
    k.seqReq.trans h.seqReq, k.hostReq.trans h.hostReq⟩

/-- Registers and boundary as before. -/
theorem of_eq {s t : State} (hr : t.regs = s.regs) (hc : t.ctl = s.ctl) : BoundaryKept s t :=
  ⟨fun f _ => fld_congr hr f, by rw [hc], by rw [hc], by rw [hc], by rw [hc], by rw [hc]⟩

/-- Registers beyond CLK_STATE. -/
theorem setFld {s t : State} (h : BoundaryKept s t) {f : Fld} (v : Nat) (hf : 0x10 < f.addr) : BoundaryKept s (t.setFld f v) := by
  refine h.trans ⟨fun g hg => fld_setFld_ne t v ?_, rfl, rfl, rfl, rfl, rfl⟩
  simp only [opFlds, List.mem_cons, List.not_mem_nil, or_false] at hg
  rcases hg with rfl | rfl | rfl <;> simp [Fld.key, CLK_STATE_STATE, CLK_STATE_PREV, CLK_STATE_CAUSE] <;> omega

theorem flag {s t : State} (h : BoundaryKept s t) {f : Fld} (hf : 0x10 < f.addr) : BoundaryKept s (t.flag f) := h.setFld 1 hf

theorem flagBit {s t : State} (h : BoundaryKept s t) {f : Fld} (i : Nat) (hf : 0x10 < f.addr) : BoundaryKept s (t.flagBit f i) :=
  h.setFld _ hf

theorem count {s t : State} (h : BoundaryKept s t) {c o : Fld} (i k : Nat) (hc : 0x10 < c.addr) (ho : 0x10 < o.addr) :
    BoundaryKept s (t.count c o i k) := by
  unfold State.count
  dsimp only
  split
  · exact h.setFld _ hc
  · exact (h.setFld _ hc).setFld _ ho

theorem send {s t : State} (h : BoundaryKept s t) (a k d : Nat) : BoundaryKept s (t.send a k d) := by
  refine h.trans ⟨fun f hf => (send_frame t a k d).2 f ?_, ?_, ?_, ?_, ?_, ?_⟩
  · simp only [opFlds, List.mem_cons, List.not_mem_nil, or_false] at hf
    rcases hf with rfl | rfl | rfl <;> decide
  all_goals rw [send_ctl]

theorem sendIf {s t : State} (h : BoundaryKept s t) (c : Bool) (a k d : Nat) : BoundaryKept s (t.sendIf c a k d) := by
  unfold State.sendIf
  split
  · exact h.send ..
  · exact h

theorem ite {c : Prop} [Decidable c] {s t u : State} (ht : BoundaryKept s t) (hu : BoundaryKept s u) :
    BoundaryKept s (if c then t else u) := by split <;> assumption

theorem when {f : State → State} (hf : ∀ s, BoundaryKept s (f s)) {s t : State} (h : BoundaryKept s t) (c : Bool) :
    BoundaryKept s (t.when c f) := ite (h.trans (hf t)) h

theorem foldl {β : Type} {f : State → β → State} (hf : ∀ s b, BoundaryKept s (f s b)) {s t : State} (h : BoundaryKept s t)
    (l : List β) : BoundaryKept s (l.foldl f t) := by
  exact foldl_inv (BoundaryKept s) f (fun a b ha => ha.trans (hf a b)) l t h

theorem each {f : State → Nat → State} (hf : ∀ s i, BoundaryKept s (f s i)) {s t : State} (h : BoundaryKept s t) (l : List Nat) :
    BoundaryKept s (t.each l f) := foldl hf h l

theorem withProt {s t : State} (h : BoundaryKept s t) (x : Prot) : BoundaryKept s { t with prot := x } := h.trans (.of_eq rfl rfl)

theorem withAcq {s t : State} (h : BoundaryKept s t) (x : Acq) : BoundaryKept s { t with acq := x } := h.trans (.of_eq rfl rfl)

theorem withTime {s t : State} (h : BoundaryKept s t) (x : Time) : BoundaryKept s { t with time := x } := h.trans (.of_eq rfl rfl)

theorem withDbg {s t : State} (h : BoundaryKept s t) (x : Dbg) : BoundaryKept s { t with dbg := x } := h.trans (.of_eq rfl rfl)

theorem withEng {s t : State} (h : BoundaryKept s t) (x : Engine) : BoundaryKept s { t with eng := x } := h.trans (.of_eq rfl rfl)

end BoundaryKept

/-! ### What the boundary's work after the transition keeps -/

theorem kept_seqEvent (s : State) (i : Nat) : BoundaryKept s (s.seqEvent i) := (BoundaryKept.rfl' s).flagBit i (by decide)

theorem kept_driveBlockOut (s : State) : BoundaryKept s s.driveBlockOut := by
  unfold State.driveBlockOut
  refine .ite (.rfl' s) ?_
  exact ((BoundaryKept.rfl' s).setFld _ (by decide : 0x10 < PRT_STAT_BO.addr)).trans (.of_eq rfl rfl)

theorem kept_wr (s : State) (a n v : Nat) : BoundaryKept s (s.wr a n v) := .of_eq rfl rfl

theorem kept_setLane (s : State) (l : Nat) (x : Lane) : BoundaryKept s (s.setLane l x) := .of_eq rfl rfl

theorem kept_primeOnState (s : State) (old new : Nat) : BoundaryKept s (s.primeOnState old new) :=
  .ite (.rfl' s) (.each (fun t _ => .ite (kept_wr t ..) (.rfl' t)) (.rfl' s) _)

theorem kept_setCe (s : State) (g : Nat) (f : CeFld) (v : Nat) : BoundaryKept s (s.setCe g f v) := kept_wr ..

theorem kept_setCc (s : State) (g : Nat) (x : CmpCell) : BoundaryKept s (s.setCc g x) := .of_eq rfl rfl

theorem kept_portLeft (s : State) (n : Nat) : BoundaryKept s (s.portLeft n) := by
  unfold State.portLeft
  extract_lets u
  refine .each (fun t g => ?_) (.of_eq rfl rfl : BoundaryKept s u) _
  exact (kept_setCc t g _).trans ((kept_setCe ..).trans (kept_setCe ..))

theorem beyond_lineBase (l : Nat) : 0x10 < lineBase l := by
  unfold lineBase
  split_ifs <;> omega

theorem kept_setPort (s : State) (l st : Nat) : BoundaryKept s (s.setPort l st) := by
  have h : BoundaryKept s (s.setFld (CL_STAT_STATE l) st) := (BoundaryKept.rfl' s).setFld _ (Nat.lt_add_right _ (beyond_lineBase l))
  exact .ite (h.trans (kept_portLeft ..)) h

theorem kept_seek (s : State) (l : Nat) : BoundaryKept s (s.seek l) :=
  .ite ((kept_setPort s l 1).send ..) (.ite (kept_setPort s l 2) ((kept_setPort s l 3).trans (kept_setLane ..)))

theorem kept_portOff (s : State) (l : Nat) : BoundaryKept s (portOff s l) := by
  have hl := beyond_lineBase l
  refine BoundaryKept.trans ?_ (kept_setLane ..)
  exact ((((kept_setPort s l 0).setFld _ (Nat.lt_add_right _ hl)).setFld _ (Nat.lt_add_right _ hl)).setFld _
    (Nat.lt_add_right _ hl)).setFld _ (Nat.lt_add_right _ hl)

theorem kept_portUp (s : State) (l : Nat) : BoundaryKept s (portUp s l) := by
  have hl := beyond_lineBase l
  have h : BoundaryKept s (s.flag (CL_CTRL_EN l)) := (BoundaryKept.rfl' s).flag (Nat.lt_add_right _ hl)
  refine .ite (BoundaryKept.trans ?_ (kept_setLane ..)) h
  exact ((h.trans (kept_setPort ..)).flag (Nat.lt_add_right _ hl)).flag (Nat.lt_add_right _ hl)

theorem kept_portsStop (s : State) : BoundaryKept s (portsStop s) :=
  .foldl (fun t l => .ite (.ite ((kept_portOff t l).trans (kept_portUp ..)) (kept_portOff t l)) (.rfl' t)) (.rfl' s) _

theorem kept_reseek (s : State) (l : Nat) : BoundaryKept s (s.reseek l) :=
  .ite (.rfl' s) (.ite ((kept_setLane ..).trans (kept_seek ..))
    (.ite (((BoundaryKept.rfl' s).send ..).trans (kept_seek ..)) (kept_seek ..)))

theorem kept_loopbackEnd (s : State) : BoundaryKept s (loopbackEnd s) := by
  refine .foldl (fun t l => .ite (.rfl' t) (BoundaryKept.trans ?_ (kept_reseek ..))) (.rfl' s) _
  have hl := beyond_lineBase l
  exact (((BoundaryKept.rfl' t).setFld _ (Nat.lt_add_right _ hl)).setFld _ (Nat.lt_add_right _ hl)).flag (Nat.lt_add_right _ hl)

theorem kept_blockCause (s : State) (c : BlkCause) : BoundaryKept s (s.blockCause c) := by
  have hs : ∀ f ∈ opFlds, ∀ g ∈ blockFlds, f.key ≠ g.key := by decide
  have hc : (s.blockCause c).ctl = s.ctl := by rw [blockCause_eq]
  exact ⟨fun f hf => sameRegs_blockCause s c f (hs f hf), by rw [hc], by rw [hc], by rw [hc], by rw [hc], by rw [hc]⟩

theorem kept_comparatorSample (s : State) (n : Nat) (x : Int) (ok : Bool) : BoundaryKept s (comparatorSample s n x ok) := by
  unfold comparatorSample
  extract_lets c d p u hi lo rt run was trip v q w k seen
  have hu : BoundaryKept s u := (BoundaryKept.rfl' s).withProt _
  have hv : BoundaryKept s v := (hu.setFld _ (Nat.lt_add_right _ (by decide))).setFld _ (Nat.lt_add_right _ (by decide))
  have hw : BoundaryKept s w := .ite (hv.withAcq _) hv
  have hseen : 0x10 < seen.addr := by
    have (f : Fld) (hf : f.addr = 0x3010C + 16 * n) : 0x10 < f.addr := hf ▸ Nat.lt_add_right _ (by decide)
    unfold seen
    split_ifs <;> exact this _ rfl
  exact .ite (.rfl' s) (.ite hu (.ite ((((hw.flag hseen).flagBit n (by decide)).trans (kept_blockCause ..)).send ..) hw))

theorem kept_portInvalid (s : State) (m : Nat) : BoundaryKept s (s.portInvalid m) := by
  refine .ite (.ite (.rfl' s) ((BoundaryKept.rfl' s).withProt _))
     (.ite (.each (fun t n => .ite (kept_comparatorSample ..) (.rfl' t)) (.rfl' s) _) (.rfl' s))

theorem kept_setStn (s : State) (p : Nat) (x : Stn) : BoundaryKept s (s.setStn p x) := .of_eq rfl rfl

theorem kept_setSns (s : State) (m : Nat) (x : SnsPort) : BoundaryKept s (s.setSns m x) := .of_eq rfl rfl

theorem kept_setRecd (s : State) (r : Nat) (x : Recorder) : BoundaryKept s (s.setRecd r x) := .of_eq rfl rfl

theorem kept_setpTake (s : State) (p : Nat) (f : Setp) : BoundaryKept s (s.setpTake p f) := by
  unfold State.setpTake
  extract_lets u lat v w
  have hu : BoundaryKept s u := .foldl (fun t e => .ite (kept_wr ..) (.rfl' t)) (.rfl' s) _
  have hv : BoundaryKept s v := (hu.setFld _ (Nat.lt_add_right _ (by decide))).setFld _ (Nat.lt_add_right _ (by decide))
  have hw : BoundaryKept s w := hv.count _ _ (Nat.lt_add_right _ (Nat.lt_add_right _ (by decide))) (Nat.lt_add_right _ (by decide))
  exact .ite hu (hw.trans (kept_setStn ..))

theorem kept_setpointLatch (s : State) : BoundaryKept s (setpointLatch s) := by
  unfold setpointLatch
  extract_lets u
  have hu : BoundaryKept s u := .foldl (fun t x => kept_setpTake ..) (.rfl' s) _
  refine .each (fun t p => ?_) hu _
  exact .ite (.rfl' t) (kept_setStn ..)

theorem kept_patternCommit (s : State) : BoundaryKept s (patternCommit s) := by
  unfold patternCommit
  extract_lets per duty pw dw half per' duty' u v w x y
  have hu : BoundaryKept s u := ((BoundaryKept.rfl' s).setFld _ (by decide)).setFld _ (by decide)
  have hv : BoundaryKept s v := .ite ((hu.flag (by decide)).send ..) hu
  have hw : BoundaryKept s w := .ite (hv.flag (by decide)) hv
  have hx : BoundaryKept s x := hw.setFld _ (by decide)
  exact .ite (.rfl' s) (hx.trans (.of_eq rfl rfl))

theorem kept_statusSlots (s : State) : BoundaryKept s s.statusSlots := by
  unfold State.statusSlots State.timeSlots
  extract_lets t u v b
  have hu : BoundaryKept s u := (kept_wr ..).trans (kept_wr ..)
  have hv : BoundaryKept s v := hu.trans ((kept_wr ..).trans (kept_wr ..))
  exact hv.trans ((kept_wr ..).trans ((kept_wr ..).trans ((kept_wr ..).trans (kept_wr ..))))

theorem kept_snsTick (s : State) : BoundaryKept s s.snsTick := .each (fun _ _ => kept_setSns ..) (.rfl' s) _

theorem kept_tickFresh (s : State) : BoundaryKept s s.tickFresh := by
  unfold State.tickFresh
  extract_lets u e v left d d'
  have hu : BoundaryKept s u := .foldl (fun t m => kept_portInvalid ..) (kept_snsTick s) _
  have hv : BoundaryKept s v := hu.withEng _
  exact .ite ((hv.setFld _ (by decide)).withDbg _) (hv.withDbg _)

theorem kept_acqStep (s : State) : BoundaryKept s (acqStep s) :=
  .each (fun t _ => .ite (kept_setRecd ..) (.rfl' t)) (.rfl' s) _

/-! ### Time -/

theorem kept_selectDomain (s : State) : BoundaryKept s s.selectDomain := by
  unfold State.selectDomain
  extract_lets old pref new u
  have hu : BoundaryKept s u := ((BoundaryKept.rfl' s).count _ _ (by decide) (by decide)).flag (by decide)
  exact .ite (.rfl' s) ((hu.withTime _).send ..)

theorem kept_modeStep (s : State) (changed : Bool) (e : Int) : BoundaryKept s (s.modeStep changed e) := by
  unfold State.modeStep
  extract_lets t near mode smax slew u
  have hu : BoundaryKept s u := .of_eq rfl rfl
  exact .ite (.of_eq rfl rfl) (.ite (((hu.count _ _ (by decide) (by decide)).flag (by decide)).send ..) (.of_eq rfl rfl))

theorem kept_disagreeCheck (s : State) : BoundaryKept s s.disagreeCheck :=
  ((BoundaryKept.rfl' s).setFld _ (by decide)).sendIf ..

theorem kept_showTime (s : State) : BoundaryKept s s.showTime := by
  unfold State.showTime
  extract_lets t w u
  have hu : BoundaryKept s u := (((BoundaryKept.rfl' s).setFld _ (by decide)).setFld _ (by decide)).setFld _ (by decide)
  exact .foldl (fun x d => (BoundaryKept.rfl' x).setFld _ (Nat.lt_add_right _ (by decide))) hu _

theorem kept_tp1Gate (s : State) : BoundaryKept s s.tp1Gate := ((BoundaryKept.rfl' s).withTime _).sendIf ..

theorem kept_ctRead (s : State) : BoundaryKept s s.ctRead.2 := by
  unfold State.ctRead
  split
  · exact .rfl' s
  · exact .of_eq rfl rfl

theorem kept_ptpSend (s : State) (a : PtpTx) : BoundaryKept s (s.ptpSend a) :=
  ((BoundaryKept.rfl' s).withTime _).count _ _ (Nat.lt_add_right _ (Nat.lt_add_right _ (by decide))) (Nat.lt_add_right _ (by decide))

theorem kept_pdelaySend (s : State) (p : Nat) : BoundaryKept s (s.pdelaySend p) := by
  unfold State.pdelaySend
  extract_lets ds last owed seq
  clear_value ds owed seq
  split
  · exact .rfl' s
  · refine .ite (.rfl' s) ?_
    have h : BoundaryKept s s.ctStamp.2 := kept_ctRead s
    split
    next t1 u hu =>
      rw [hu] at h
      exact (h.withTime _).trans (kept_ptpSend ..)

/-- The next boundary's instant and the realignment are no part of what is kept. -/
theorem kept_withGrid (s : State) (n : Nat) (r : Bool) (x : Time) :
    BoundaryKept s { s with ctl := { s.ctl with nextB := n, realign := r }, time := x } :=
  ⟨fun _ _ => rfl, rfl, rfl, rfl, rfl, rfl⟩

theorem kept_timeBoundary (s : State) (old : Nat) : BoundaryKept s (s.timeBoundary old) := by
  unfold State.timeBoundary
  refine .ite ?_ ?_
  · refine BoundaryKept.trans ?_ (kept_tp1Gate _)
    refine BoundaryKept.trans ?_ (kept_showTime _)
    exact kept_withGrid ..
  · extract_lets t0 u sel v changed off e drop pend step t1 w ct1 jump out t2 q x y z t3 again inc g p
    have hu : BoundaryKept s u := (BoundaryKept.rfl' s).withTime _
    have hv : BoundaryKept s v := hu.trans (kept_selectDomain u)
    have hw : BoundaryKept s w := hv.withTime _
    have hx : BoundaryKept s x := hw.trans (.of_eq rfl rfl)
    have hy : BoundaryKept s y := .ite ((hx.flag (by decide)).send ..) hw
    have hz : BoundaryKept s z := hy.trans (kept_modeStep ..)
    have hp : BoundaryKept s p := hz.trans (kept_withGrid ..)
    refine .foldl kept_pdelaySend ?_ _
    exact ((hp.trans (kept_disagreeCheck p)).trans (kept_showTime _)).trans (kept_tp1Gate _)

/-! ### The transition -/

theorem fld_setFld_fits (s : State) {f : Fld} {v : Nat} (h : v < 2 ^ f.w) : (s.setFld f v).fld f = v := by
  rw [fld_setFld_same, Nat.mod_eq_of_lt h]

/-- A state entered shows itself, the one left and the cause (R36); the requests stay. -/
theorem enterState_spec (s : State) {new cause : Nat} (hne : new ≠ s.op) (hn : new < 16) (hc : cause < 256) (ho : s.op < 16) :
    (s.enterState new cause).op = new ∧ (s.enterState new cause).fld CLK_STATE_CAUSE = cause ∧
      (s.enterState new cause).fld CLK_STATE_PREV = s.op ∧ (s.enterState new cause).ctl.hostReq = s.ctl.hostReq := by
  unfold State.enterState
  extract_lets old u v q w y d x
  rw [if_neg hne]
  have hv : BoundaryKept u v := (kept_seqEvent u 1).trans (kept_primeOnState ..)
  have hw : BoundaryKept u w := hv.withAcq _
  have hx : BoundaryKept u x :=
     .ite (((hw.setFld (f := DBG_PIPE_HALTED) _ (by decide)).setFld (f := DBG_PIPE_LEFT) _ (by decide)).withDbg _) hw
  have h : BoundaryKept u x.driveBlockOut := hx.trans (kept_driveBlockOut x)
  refine ⟨(h.flds CLK_STATE_STATE (by decide)).trans ?_, (h.flds CLK_STATE_CAUSE (by decide)).trans ?_,
    (h.flds CLK_STATE_PREV (by decide)).trans ?_, h.hostReq⟩
  · exact (fld_setFld_ne _ _ (by decide)).trans (fld_setFld_fits _ hn)
  · exact fld_setFld_fits _ hc
  · exact (fld_setFld_ne _ _ (by decide)).trans ((fld_setFld_ne _ _ (by decide)).trans (fld_setFld_fits _ ho))

theorem ite_ctl {c : Prop} [Decidable c] {s t : State} {x : TickCtl} (hs : s.ctl = x) (ht : t.ctl = x) :
    (if c then s else t).ctl = x := by split <;> assumption

theorem driveBlockOut_ctl (s : State) : s.driveBlockOut.ctl = s.ctl := by rw [driveBlockOut_eq]

theorem primeOnState_ctl (s : State) (old new : Nat) : (s.primeOnState old new).ctl = s.ctl :=
  ite_ctl rfl (foldl_keep State.ctl _ (fun t _ => ite_ctl (wr_ctl t _ _ _) rfl) _ s)

theorem enterState_ctl (s : State) (new cause : Nat) : (s.enterState new cause).ctl = s.ctl := by
  unfold State.enterState
  extract_lets old u v q w y d x
  have hw : w.ctl = s.ctl := primeOnState_ctl (u.seqEvent 1) old new
  have hx : x.ctl = s.ctl := ite_ctl hw hw
  exact ite_ctl rfl ((driveBlockOut_ctl x).trans hx)

theorem seqResult_ctl (s : State) (tgt reason : Nat) : (s.seqResult tgt reason).ctl = s.ctl := rfl

theorem rejectState_ctl (s : State) : s.rejectState.ctl = s.ctl := send_ctl ..

theorem seqRelease_ctl (s : State) : s.seqRelease.ctl = s.ctl := by
  have h (n : Nat) : (s.rejectState.seqResult 5 n).ctl = s.ctl := rejectState_ctl s
  exact ite_ctl (h 4) (ite_ctl (h 6) (ite_ctl (h 7) rfl))

theorem releaseRequest_ctl (s : State) : (releaseRequest s).ctl = s.ctl := by
  refine ite_ctl rfl (ite_ctl rfl ?_)
  rw [send_ctl, count_eq]
  rfl

/-- A boundary evaluates the requests once, whatever becomes of them (R36). -/
theorem transition_ctl (s : State) : s.transition.ctl = { s.ctl with seqReq := none, hostReq := none } := by
  unfold State.transition
  extract_lets seqR hostR wasBlk c u blk
  clear_value seqR hostR blk
  split
  next v taken hv =>
    have hv : v.ctl = u.ctl := by
      split at hv
      · cases hv
        exact ite_ctl (enterState_ctl ..) (enterState_ctl ..)
      · cases hv
        rfl
    split
    next w took hw =>
      have hw : w.ctl = v.ctl := by
        split at hw
        · cases hw
          rfl
        next tgt =>
          split at hw
          · cases hw
            exact seqRelease_ctl v
          · extract_lets why at hw
            clear_value why
            split at hw
            · cases hw
              exact (seqResult_ctl ..).trans (enterState_ctl ..)
            · cases hw
              exact (seqResult_ctl ..).trans (rejectState_ctl v)
      split
      · exact hw.trans hv
      · exact ite_ctl ((enterState_ctl ..).trans (hw.trans hv)) ((rejectState_ctl w).trans (hw.trans hv))

theorem release_ctl (s : State) : s.release.ctl = s.ctl := by
  unfold State.release
  refine (driveBlockOut_ctl _).trans ?_
  exact send_ctl ..

theorem protBoundary_ctl (s : State) : s.protBoundary.ctl = s.ctl := by
  unfold State.protBoundary
  extract_lets m p v m' p' w u x
  have hv : v.ctl = s.ctl := ite_ctl (send_ctl ..) rfl
  have hm : m'.ctl = v.ctl := by
    unfold m'
    rw [send_ctl, count_eq]
    rfl
  have hw : w.ctl = s.ctl := ite_ctl hv (ite_ctl ((release_ctl v).trans hv) (ite_ctl (hm.trans hv) hv))
  exact (driveBlockOut_ctl _).trans hw

/-! ### What goes before the transition -/

/-- Nothing that the transition looks at changes, but that a role other than STANDBY may become another such role. -/
structure Undisturbed (s t : State) : Prop where
  kept : BoundaryKept s t
  latched : t.latched = s.latched
  auto : t.bit PRT_REL_CFG_AUTO = s.bit PRT_REL_CFG_AUTO
  role : s.role ≠ 2 → t.role ≠ 2
  take : t.red.take = s.red.take
  relReq : t.prot.relReq = s.prot.relReq

namespace Undisturbed

theorem rfl' (s : State) : Undisturbed s s := ⟨.rfl' s, rfl, rfl, id, rfl, rfl⟩

theorem trans {s t u : State} (h : Undisturbed s t) (k : Undisturbed t u) : Undisturbed s u :=
  ⟨h.kept.trans k.kept, k.latched.trans h.latched, k.auto.trans h.auto, k.role ∘ h.role, k.take.trans h.take,
    k.relReq.trans h.relReq⟩

/-- Registers, boundary, redundancy and protection as before. -/
theorem of_eq {s t : State} (hr : t.regs = s.regs) (hc : BoundaryKept s t) (hd : t.red.take = s.red.take)
    (hp : t.prot.relReq = s.prot.relReq) : Undisturbed s t :=
  ⟨hc, by simp only [State.latched, State.bit, fld_congr hr], by simp only [State.bit, fld_congr hr],
    by simp only [State.role, fld_congr hr]; exact id, hd, hp⟩

/-- Registers that a transition does not look at. -/
theorem setFld {s t : State} (h : Undisturbed s t) {f : Fld} (v : Nat) (hf : 0x10 < f.addr) (hl : f.key ≠ PRT_STAT_LATCHED.key)
    (ha : f.key ≠ PRT_REL_CFG_AUTO.key) (hr : f.key ≠ RED_STAT_ROLE.key) : Undisturbed s (t.setFld f v) :=
  h.trans ⟨(BoundaryKept.rfl' t).setFld v hf, by simp only [State.latched, State.bit, fld_setFld_ne t v hl],
    by simp only [State.bit, fld_setFld_ne t v ha], by simp only [State.role, fld_setFld_ne t v hr]; exact id, rfl, rfl⟩

theorem send {s t : State} (h : Undisturbed s t) (a k d : Nat) : Undisturbed s (t.send a k d) := by
  have hs := (send_frame t a k d).2
  refine h.trans ⟨(BoundaryKept.rfl' t).send a k d, ?_, ?_, ?_, ?_, ?_⟩
  · simp only [State.latched, State.bit, hs PRT_STAT_LATCHED (by decide)]
  · simp only [State.bit, hs PRT_REL_CFG_AUTO (by decide)]
  · simp only [State.role, hs RED_STAT_ROLE (by decide)]
    exact id
  · rw [send_red]
  · rw [send_prot]

theorem ite {c : Prop} [Decidable c] {s t u : State} (ht : Undisturbed s t) (hu : Undisturbed s u) :
    Undisturbed s (if c then t else u) := by split <;> assumption

theorem sendIf {s t : State} (h : Undisturbed s t) (c : Bool) (a k d : Nat) : Undisturbed s (t.sendIf c a k d) :=
  ite (h.send a k d) h

theorem foldl {β : Type} {f : State → β → State} (hf : ∀ s b, Undisturbed s (f s b)) {s t : State} (h : Undisturbed s t)
    (l : List β) : Undisturbed s (l.foldl f t) := foldl_inv (Undisturbed s) f (fun a b ha => ha.trans (hf a b)) l t h

theorem withAcq {s t : State} (h : Undisturbed s t) (x : Acq) : Undisturbed s { t with acq := x } :=
  h.trans (.of_eq rfl ((BoundaryKept.rfl' t).withAcq x) rfl rfl)

theorem withRed {s t : State} (h : Undisturbed s t) {x : Red} (hx : x.take = t.red.take) : Undisturbed s { t with red := x } :=
  h.trans (.of_eq rfl (.of_eq rfl rfl) hx rfl)

theorem withSump {s t : State} (h : Undisturbed s t) (x : Sump) : Undisturbed s { t with sump := x } :=
  h.trans (.of_eq rfl (.of_eq rfl rfl) rfl rfl)

end Undisturbed

theorem undisturbed_acqBoundary (s : State) : Undisturbed s (acqBoundary s) := by
  unfold acqBoundary
  extract_lets ev lane pins cmps this a q u v
  have hu : Undisturbed s u := .of_eq rfl (.of_eq rfl rfl) rfl rfl
  have hv : Undisturbed s v := .foldl (fun t l => ((Undisturbed.rfl' t).withAcq _).sendIf ..) hu _
  exact hv.withAcq _

theorem undisturbed_tickLen (s : State) (drift : Int) : Undisturbed s (s.tickLen drift) := by
  unfold State.tickLen
  extract_lets cycles u v w
  have hu : Undisturbed s u := (Undisturbed.rfl' s).setFld _ (by decide) (by decide) (by decide) (by decide)
  have hv : Undisturbed s v := .ite (hu.setFld _ (by decide) (by decide) (by decide) (by decide)) hu
  have hw : Undisturbed s w := .ite (hv.setFld _ (by decide) (by decide) (by decide) (by decide)) hv
  refine .ite (hu.setFld _ (by decide) (by decide) (by decide) (by decide)) (.ite hw ?_)
  exact (hw.setFld _ (by decide) (by decide) (by decide) (by decide)).send ..

theorem undisturbed_pairBoundary (s : State) : Undisturbed s s.pairBoundary := .of_eq rfl (.of_eq rfl rfl) rfl rfl

theorem undisturbed_captureFor (s : State) (k : Nat) (sl : List Nat) : Undisturbed s (s.captureFor k sl) := by
  refine .foldl (fun t i => ?_) (.rfl' s) sl
  exact .ite ((Undisturbed.rfl' t).withRed rfl) (.rfl' t)

theorem undisturbed_ckptBoundary (s : State) (k : Nat) : Undisturbed s (s.ckptBoundary k) := by
  unfold State.ckptBoundary
  refine .ite (.rfl' s) ?_
  extract_lets q u
  have hu : Undisturbed s u := by
    unfold u
    split
    · exact .ite ((Undisturbed.rfl' s).withRed rfl) (.rfl' s)
    · exact .rfl' s
  exact .ite (hu.trans (undisturbed_captureFor ..)) (hu.trans (undisturbed_captureFor ..))

theorem undisturbed_timeCross (s : State) : Undisturbed s s.timeCross := by
  unfold State.timeCross
  extract_lets t g
  exact .ite (.of_eq rfl ⟨fun _ _ => rfl, rfl, rfl, rfl, rfl, rfl⟩ rfl rfl)
     (.of_eq rfl ⟨fun _ _ => rfl, rfl, rfl, rfl, rfl, rfl⟩ rfl rfl)

/-- A source's state has the place of RED_STAT.ROLE for one number beyond the sources; cleared, it shows no STANDBY. -/
theorem undisturbed_srcState (s : State) (n : Nat) : Undisturbed s (s.setFld (FLT_SRC_STAT_ST n) 0) := by
  refine ⟨(BoundaryKept.rfl' s).setFld _ (Nat.lt_add_right _ (by decide)), ?_, ?_, ?_, rfl, rfl⟩
  · have h : (FLT_SRC_STAT_ST n).key ≠ PRT_STAT_LATCHED.key := by simp [Fld.key, FLT_SRC_STAT_ST, PRT_STAT_LATCHED]; omega
    simp only [State.latched, State.bit, fld_setFld_ne s 0 h]
  · have h : (FLT_SRC_STAT_ST n).key ≠ PRT_REL_CFG_AUTO.key := by simp [Fld.key, FLT_SRC_STAT_ST, PRT_REL_CFG_AUTO]; omega
    simp only [State.bit, fld_setFld_ne s 0 h]
  · intro hr
    by_cases h : (FLT_SRC_STAT_ST n).key = RED_STAT_ROLE.key
    · have he : FLT_SRC_STAT_ST n = RED_STAT_ROLE := by
        have hn : n = 0x6C00 := by
          simp only [Fld.key, FLT_SRC_STAT_ST, RED_STAT_ROLE] at h
          omega
        rw [hn]
        rfl
      unfold State.role
      rw [he, fld_setFld_same]
      decide
    · unfold State.role
      rwa [fld_setFld_ne s 0 h]

theorem undisturbed_quietCheck (s : State) (n : Nat) : Undisturbed s (s.quietCheck n) := by
  unfold State.quietCheck
  extract_lets x u v r w
  have hu : Undisturbed s u := (Undisturbed.rfl' s).withSump _
  have hv : Undisturbed s v := by
    refine (hu.trans (undisturbed_srcState u n)).setFld _ (Nat.lt_add_right _ (by decide)) ?_ ?_ ?_
    all_goals simp [Fld.key, FLT_SRC_STAT_CNT, PRT_STAT_LATCHED, PRT_REL_CFG_AUTO, RED_STAT_ROLE]; omega
  have hw : Undisturbed s w := by
    refine .ite ?_ ?_
    · refine hv.setFld _ (Nat.lt_add_right _ (by decide)) ?_ ?_ ?_
      all_goals simp [Fld.key, FLT_SRC_STAT_REC_OVF, PRT_STAT_LATCHED, PRT_REL_CFG_AUTO, RED_STAT_ROLE]; omega
    · refine hv.setFld _ (Nat.lt_add_right _ (by decide)) ?_ ?_ ?_
      all_goals simp [Fld.key, FLT_SRC_REC_REC, PRT_STAT_LATCHED, PRT_REL_CFG_AUTO, RED_STAT_ROLE]; omega
  exact .ite (hw.send ..) (.rfl' s)

theorem undisturbed_quietAll (s : State) : Undisturbed s s.quietAll :=
  .foldl (fun _ _ => undisturbed_quietCheck ..) (.rfl' s) _

theorem undisturbed_driveBlockOut (s : State) : Undisturbed s s.driveBlockOut := by
  unfold State.driveBlockOut
  refine .ite (.rfl' s) ?_
  extract_lets running act u p
  have hu : Undisturbed s u := (Undisturbed.rfl' s).setFld _ (by decide) (by decide) (by decide) (by decide)
  exact hu.trans (.of_eq rfl (.of_eq rfl rfl) rfl rfl)

/-- With no release due the boundary's work on the block leaves all else to the transition (R240, R243). -/
theorem undisturbed_protBoundary {s : State} (hr : s.latched = true → s.prot.relReq = false)
    (ha : s.latched = true → s.bit PRT_REL_CFG_AUTO = false) : Undisturbed s s.protBoundary := by
  unfold State.protBoundary
  extract_lets m p v m' p' w u x
  have hm : Undisturbed s m := (Undisturbed.rfl' s).send ..
  have hv : Undisturbed s v := .ite (hm.trans (.of_eq rfl (.of_eq rfl rfl) rfl hm.relReq.symm)) (.rfl' s)
  have hw : w = v := by
    unfold w
    split
    · rfl
    next hl =>
      have hl : s.latched = true := by
        rw [← hv.latched]
        simpa using hl
      have hq : v.prot.relReq = false := hv.relReq.trans (hr hl)
      have hn : v.releaseNow = false := by simp [State.releaseNow, hq, hv.auto, ha hl]
      rw [hn, hq]
      rfl
  have hx : Undisturbed s x := by
    have hw : Undisturbed s w := hw ▸ hv
    have h1 : Undisturbed s (w.setFld PRT_STAT_UNMET u) := hw.setFld _ (by decide) (by decide) (by decide) (by decide)
    have h2 := h1.setFld (f := PRT_STAT_REL_READY) (b2n (w.latched && u == 0)) (by decide) (by decide) (by decide) (by decide)
    exact h2.setFld _ (by decide) (by decide) (by decide) (by decide)
  refine Undisturbed.trans ?_ (undisturbed_driveBlockOut _)
  exact hx.trans (.of_eq rfl (.of_eq rfl rfl) rfl rfl)

/-! ### Two transitions -/

/-- The requests taken from a boundary's state. -/
def State.requestsTaken (s : State) : State := { s with ctl := { s.ctl with seqReq := none, hostReq := none } }

theorem transition_block {s : State} (hr : s.role ≠ 2) (hl : s.latched = true) (ho : s.op = 5 ∨ s.op = 6)
    (hq : s.ctl.seqReq = none) (hh : s.ctl.hostReq = none) : s.transition = s.requestsTaken.enterState 7 0x04 := by
  have hb : (s.role != 2 && ((s.latched && (s.op == 5 || s.op == 6)) || (!s.latched && s.op == 7))) = true := by
    rcases ho with ho | ho <;> simp [hr, hl, ho]
  unfold State.transition
  extract_lets seqR hostR wasBlk c u blk
  have hb : blk = true := hb
  have hl : u.latched = true := hl
  have hq : seqR = none := hq
  have hh : hostR = none := hh
  rw [if_pos hb, if_pos hl, hq, hh]
  rfl

theorem transition_bench {s : State} (ho : s.op = 4) (hq : s.ctl.seqReq = none) (hh : s.ctl.hostReq = some 8) :
    s.transition = s.requestsTaken.enterState 8 0x02 := by
  have hb : ¬ (s.role != 2 && ((s.latched && (s.op == 5 || s.op == 6)) || (!s.latched && s.op == 7))) = true := by
    simp [ho]
  have hj : s.requestsTaken.rejection true 8 = 0 := by
    have ho : s.requestsTaken.op = 4 := ho
    simp [State.rejection, ho, reachable]
  unfold State.transition
  extract_lets seqR hostR wasBlk c u blk
  have hb : ¬ blk = true := hb
  have hj : u.rejection true 8 = 0 := hj
  have hq : seqR = none := hq
  have hh : hostR = some 8 := hh
  rw [if_neg hb, hq, hh]
  exact if_pos (by simp [hj])

/-! ### The boundary -/

/-- What the transition of a boundary without a takeover starts from (R36, R240, R436). -/
def State.beforeTransition (s : State) : State :=
  (if s.ctl.seqReq = some 5 ∧ s.op = 7 ∧ s.role ≠ 2 ∧ !s.bit CE_STAT_TURN_ERR then releaseRequest s else s).protBoundary

theorem beforeTransition_ctl (s : State) : s.beforeTransition.ctl = s.ctl :=
  (protBoundary_ctl _).trans (ite_ctl (releaseRequest_ctl s) rfl)

theorem kept_boundaryState {s : State} (ht : s.red.take = false) : BoundaryKept s.beforeTransition.transition s.boundaryState := by
  unfold State.boundaryState
  extract_lets u v w old x
  have hu : u = s := by
    unfold u
    rw [ht]
    rfl
  have hw : w = s.beforeTransition := by
    unfold w v
    rw [hu]
    rfl
  have hx : BoundaryKept s.beforeTransition.transition x := by
    unfold x
    rw [hw]
    exact ((kept_portsStop _).trans (kept_loopbackEnd _)).trans (kept_timeBoundary _ _)
  exact .ite (hx.trans (kept_acqStep x)) hx

/-- The staged writes used up. -/
def State.unstaged (s : State) : State := { s with ctl := { s.ctl with staged := [] } }

theorem BoundaryKept.unstaged {s t : State} (h : BoundaryKept s t) : BoundaryKept s.unstaged t.unstaged :=
  ⟨h.flds, h.tick, h.started, rfl, h.seqReq, h.hostReq⟩

theorem kept_cycleZero (s : State) : BoundaryKept s.unstaged s.cycleZero := by
  unfold State.cycleZero
  extract_lets st c u v w
  have hv : BoundaryKept u v := .foldl (fun t x => kept_wr ..) (.rfl' u) _
  have hw : BoundaryKept u w := .ite hv (hv.trans (kept_statusSlots v))
  exact hw.trans ((kept_patternCommit w).trans (kept_setpointLatch _))

theorem kept_seqBoundary (s : State) : BoundaryKept s s.seqBoundary := by
  have h : BoundaryKept s (s.seqEvent 0) := kept_seqEvent s 0
  exact .ite h (h.trans (.of_eq rfl rfl))

theorem seqBoundary_event (s : State) : tbit (s.seqBoundary.fld SEQ_EVT) 0 = true := by
  have h : tbit ((s.seqEvent 0).fld SEQ_EVT) 0 = true := by
    refine (congrArg (tbit · 0) (fld_setFld_same s SEQ_EVT (setBit (s.fld SEQ_EVT) 0))).trans ?_
    exact (tbit_mod _ 0 32 (by decide)).trans (tbit_setBit _ 0)
  unfold State.seqBoundary
  extract_lets u
  split
  · exact h
  · exact h

/-- The boundary from the count of the tick on. -/
def State.boundaryRest (s : State) : State := s.boundaryState.cycleZero.tickFresh.seqBoundary

theorem kept_boundaryRest {s : State} (ht : s.red.take = false) :
    BoundaryKept s.beforeTransition.transition.unstaged s.boundaryRest :=
  (((kept_boundaryState ht).unstaged.trans (kept_cycleZero _)).trans (kept_tickFresh _)).trans (kept_seqBoundary _)

/-- Whatever the transition, the boundary keeps the tick number, uses up the staged writes and answers the requests. -/
theorem boundaryRest_ctl {s : State} (ht : s.red.take = false) :
    s.boundaryRest.ctl.tick = s.ctl.tick ∧ s.boundaryRest.ctl.started = s.ctl.started ∧ s.boundaryRest.ctl.staged = [] ∧
      s.boundaryRest.ctl.hostReq = none := by
  have h := kept_boundaryRest ht
  have hc : s.beforeTransition.transition.ctl = { s.ctl with seqReq := none, hostReq := none } := by
    rw [transition_ctl, beforeTransition_ctl]
  exact ⟨h.tick.trans (congrArg TickCtl.tick hc :), h.started.trans (congrArg TickCtl.started hc :), h.staged,
    h.hostReq.trans (congrArg TickCtl.hostReq hc :)⟩

theorem boundaryRest_event (s : State) : tbit (s.boundaryRest.fld SEQ_EVT) 0 = true := by
  rw [State.boundaryRest, seqBoundary_event]

/-- The tick counted, and the sources looked at. -/
def State.tickCounted (s : State) (drift : Int) : State := (s.tickCount drift).timeCross.quietAll

theorem tickBoundary_eq {s : State} (h : s.ticksRun = true) (drift : Int) :
    tickBoundary s drift = ((s.hostAnswer 0).tickCounted drift).boundaryRest := by
  unfold tickBoundary
  exact if_neg (by simp [h])

theorem undisturbed_crossed (s : State) : Undisturbed s s.timeCross.quietAll :=
  (undisturbed_timeCross s).trans (undisturbed_quietAll _)

/-- The first boundary has fallen. -/
def State.begun (s : State) : State := { s with ctl := { s.ctl with started := true } }

def State.atTick (s : State) (n : Nat) : State := { s with ctl := { s.ctl with tick := n } }

theorem Undisturbed.atTick {s t : State} (h : Undisturbed s t) (n : Nat) : Undisturbed (s.atTick n) (t.atTick n) :=
  ⟨⟨h.kept.flds, rfl, h.kept.started, h.kept.staged, h.kept.seqReq, h.kept.hostReq⟩, h.latched, h.auto, h.role, h.take, h.relReq⟩

/-- The first boundary only starts the count (R46, R60). -/
theorem tickCounted_first {s : State} (h : s.ctl.started = false) (drift : Int) : Undisturbed s.begun (s.tickCounted drift) := by
  have hc : s.tickCount drift = s.begun := by
    unfold State.tickCount
    rw [h]
    rfl
  unfold State.tickCounted
  rw [hc]
  exact undisturbed_crossed _

/-- A later boundary of a unit that is not STANDBY counts the next tick and leaves all that the transition looks at (R46). -/
theorem tickCounted_later {s : State} (h : s.ctl.started = true) (hr : s.role ≠ 2) (drift : Int) :
    Undisturbed (s.atTick ((s.now + 1) % 2 ^ 64)) (s.tickCounted drift) := by
  suffices hc : ∃ v, Undisturbed s v ∧ s.tickCount drift = v.atTick ((s.now + 1) % 2 ^ 64) by
    obtain ⟨v, hv, hc⟩ := hc
    unfold State.tickCounted
    rw [hc]
    exact (hv.atTick _).trans (undisturbed_crossed _)
  unfold State.tickCount
  rw [if_neg (by simp [h])]
  extract_lets u next
  have hu : Undisturbed s u :=
    ((undisturbed_acqBoundary s).trans (undisturbed_tickLen _ _)).trans (undisturbed_pairBoundary _)
  have hv : Undisturbed s (u.ckptBoundary next) := hu.trans (undisturbed_ckptBoundary ..)
  have ha : (u.ckptBoundary next).adoptTick next = (next, u.ckptBoundary next) := by
    unfold State.adoptTick
    exact if_neg fun hc => hv.role hr hc.1
  have hn : next = s.now + 1 := congrArg (· + 1) hu.kept.tick
  refine ⟨_, hv, ?_⟩
  rw [ha, hn]
  rfl

/-- A boundary that starts from where no release and no request waits. -/
theorem undisturbed_beforeTransition {s : State} (hq : s.ctl.seqReq = none) (hr : s.latched = true → s.prot.relReq = false)
    (ha : s.latched = true → s.bit PRT_REL_CFG_AUTO = false) : Undisturbed s s.beforeTransition := by
  unfold State.beforeTransition
  rw [if_neg (by simp [hq])]
  exact undisturbed_protBoundary hr ha

/-- The latched block of a running unit is entered at the boundary (R40). -/
theorem boundaryRest_block {s : State} (ht : s.red.take = false) (hrole : s.role ≠ 2) (hl : s.latched = true)
    (ho : s.op = 5 ∨ s.op = 6) (hr : s.prot.relReq = false) (ha : s.bit PRT_REL_CFG_AUTO = false) (hq : s.ctl.seqReq = none)
    (hh : s.ctl.hostReq = none) :
    s.boundaryRest.op = 7 ∧ s.boundaryRest.fld CLK_STATE_CAUSE = 4 ∧ s.boundaryRest.fld CLK_STATE_PREV = s.op := by
  have hb := undisturbed_beforeTransition hq (fun _ => hr) (fun _ => ha)
  have hop : s.beforeTransition.op = s.op := hb.kept.flds CLK_STATE_STATE (by decide)
  have he : s.beforeTransition.transition = s.beforeTransition.requestsTaken.enterState 7 0x04 :=
    transition_block (hb.role hrole) (hb.latched.trans hl) (hop ▸ ho) (hb.kept.seqReq.trans hq) (hb.kept.hostReq.trans hh)
  have hk := kept_boundaryRest ht
  rw [he] at hk
  have hop' : s.beforeTransition.requestsTaken.op = s.op := hop
  obtain ⟨h1, h2, h3, -⟩ := enterState_spec s.beforeTransition.requestsTaken (new := 7) (cause := 4) (by omega) (by decide)
    (by decide) (by omega)
  exact ⟨(hk.flds CLK_STATE_STATE (by decide)).trans h1, (hk.flds CLK_STATE_CAUSE (by decide)).trans h2,
    (hk.flds CLK_STATE_PREV (by decide)).trans (h3.trans hop')⟩

/-- The host's BENCH is taken in PARKED (R36). -/
theorem boundaryRest_bench {s : State} (ht : s.red.take = false) (hl : s.latched = false) (ho : s.op = 4)
    (hq : s.ctl.seqReq = none) (hh : s.ctl.hostReq = some 8) :
    s.boundaryRest.op = 8 ∧ s.boundaryRest.fld CLK_STATE_CAUSE = 2 ∧ s.boundaryRest.fld CLK_STATE_PREV = 4 := by
  have hb := undisturbed_beforeTransition hq (fun h => by simp [hl] at h) (fun h => by simp [hl] at h)
  have hop : s.beforeTransition.op = 4 := (hb.kept.flds CLK_STATE_STATE (by decide)).trans ho
  have he : s.beforeTransition.transition = s.beforeTransition.requestsTaken.enterState 8 0x02 :=
    transition_bench hop (hb.kept.seqReq.trans hq) (hb.kept.hostReq.trans hh)
  have hk := kept_boundaryRest ht
  rw [he] at hk
  have hop' : s.beforeTransition.requestsTaken.op = 4 := hop
  obtain ⟨h1, h2, h3, -⟩ := enterState_spec s.beforeTransition.requestsTaken (new := 8) (cause := 2) (by omega) (by decide)
    (by decide) (by omega)
  exact ⟨(hk.flds CLK_STATE_STATE (by decide)).trans h1, (hk.flds CLK_STATE_CAUSE (by decide)).trans h2,
    (hk.flds CLK_STATE_PREV (by decide)).trans (h3.trans hop')⟩

/-- Settles O10: the count of the tick leaves alone what the transition looks at, and the work after the transition leaves its
result alone. -/
theorem tickBoundaries : Obligations.TickBoundaries := by
  intro s drift u
  have hexec : exec (.tickBoundary drift) s = .next (tickBoundary s drift) := rfl
  refine ⟨fun h => ?_, fun h ht hf => ?_, fun h ht hf hr => ?_⟩
  · rw [hexec]
    exact congrArg _ (if_pos (by simp [h]))
  · have hc := tickCounted_first hf drift
    obtain ⟨h1, h2, -⟩ := boundaryRest_ctl (hc.take.trans ht)
    rw [hexec, tickBoundary_eq h]
    have hn := h1.trans hc.kept.tick
    have hs := h2.trans hc.kept.started
    generalize (u.tickCounted drift).boundaryRest = t at hn hs
    exact ⟨t, rfl, hn, hs⟩
  · have hc := tickCounted_later hf hr drift
    have htake := hc.take.trans ht
    have hop : (u.tickCounted drift).op = u.op := hc.kept.flds CLK_STATE_STATE (by decide)
    obtain ⟨h1, -, h3, h4⟩ := boundaryRest_ctl htake
    have hn := h1.trans hc.kept.tick
    have he := boundaryRest_event (u.tickCounted drift)
    have hblock := fun hl ho hq ha hs hh => boundaryRest_block htake (hc.role hr) (hc.latched.trans hl) (hop ▸ ho)
      (hc.relReq.trans hq) (hc.auto.trans ha) (hc.kept.seqReq.trans hs) (hc.kept.hostReq.trans hh)
    have hbench := fun hl ho hs hh => boundaryRest_bench htake (hc.latched.trans hl) (hop.trans ho) (hc.kept.seqReq.trans hs)
      (hc.kept.hostReq.trans hh)
    rw [hexec, tickBoundary_eq h]
    rw [hop] at hblock
    generalize (u.tickCounted drift).boundaryRest = t at hn h3 h4 he hblock hbench
    refine ⟨t, rfl, hn, h3, he, hblock, fun hl ho hs hh => ?_⟩
    obtain ⟨hb1, hb2, hb3⟩ := hbench hl ho hs hh
    exact ⟨hb1, hb2, hb3, h4⟩

end Sys2Proof.Machine
end

section
/-! PROOFS. O48, first part: what is shown of the image (`imageFlds`), which no write of a section and no work on entry to PARKED
touches, and the loader's messages (`imageSrcs`), which nothing else sends. -/
namespace Sys2Proof.Machine
open Sys2Proof

-- The proofs are checked one after another: many at a time need more memory than a compile may have.
set_option Elab.async false

/-! ### What is shown of an image, and the messages about it -/

/-- What the device shows of the image, of the candidates and of the banks; entry to a state changes none of it. -/
def shownFlds : List Fld :=
  [CFG_STAT_SLOT, CFG_STAT_FALLBACK, CFG_GEN, SEC_STAT_SVN, SEC_STAT_IMG_SLOT] ++ (upto 2).map CFG_SLOT_STAT_PASSED ++
    (upto 2).map CFG_SLOT_STAT_CODE ++ (upto 8).map CFG_HASH ++ (upto 6).map CE_BANK_ACT

/-- What is shown of the image, and the operating state. -/
def imageFlds : List Fld := CLK_STATE_STATE :: shownFlds

/-- The sources of the messages that the loader sends. -/
def imageSrcs : List Nat := [0x3D8, 0x3D9, 0x3DB]

/-- The fields keep their content, a message that waits goes on waiting, and none of the loader's is sent. -/
structure ShownKept (fs : List Fld) (s t : State) : Prop where
  flds : ∀ f ∈ fs, t.fld f = s.fld f
  told : ∀ src x, s.msgAt src = some x → t.msgAt src = some x
  quiet : ∀ src ∈ imageSrcs, s.msgAt src = none → t.msgAt src = none

/-- An address with none of these fields, outside the loader's block. -/
abbrev Elsewhere (a : Nat) : Prop := 0x10 < a ∧ (a < 0x40010 ∨ 0x40028 ≤ a) ∧ a ≠ 0xB0000 ∧ (a < 0xC0000 ∨ 0xD0000 ≤ a)

theorem elsewhere_of_mem {g : Fld} (h : g ∈ imageFlds) : g.lo < 32 ∧ ¬ Elsewhere g.addr := by
  revert g h
  decide

theorem key_ne_of_elsewhere {f : Fld} (hf : Elsewhere f.addr) (hlo : f.lo < 32) : ∀ g ∈ imageFlds, f.key ≠ g.key := by
  intro g hg he
  obtain ⟨hglo, hn⟩ := elsewhere_of_mem hg
  have : f.addr = g.addr := by
    unfold Fld.key at he
    omega
  exact hn (this ▸ hf)

theorem find_mput_ne {α : Type} (m : NMap α) {i j : Nat} (x : α) (h : i ≠ j) :
    (mput m i x).find? (fun p => decide (p.1 = j)) = m.find? (fun p => decide (p.1 = j)) := by
  induction m with
  | nil => simp [mput, h]
  | cons p t ih =>
    obtain ⟨k, v⟩ := p
    by_cases h1 : i < k
    · simp [mput, h1, h]
    · by_cases h2 : i = k
      · subst h2
        simp [mput, h]
      · simp only [mput, h1, h2, if_false, List.find?_cons, ih]

/-- A message leaves what waits at the other sources. -/
theorem msgAt_sendAs_ne (s : State) {a b : Nat} (k d c i : Nat) (h : a ≠ b) : (s.sendAs a k d c i).msgAt b = s.msgAt b := by
  unfold State.sendAs
  extract_lets slot
  split
  · exact congrArg (Option.map _) (find_mput_ne _ _ h)
  · unfold State.msgAt
    rw [count_sump]
    exact congrArg (Option.map _) (find_mput_ne _ _ h)

theorem msgAt_sendAs_taken {s : State} {a : Nat} {x : Nat × Nat} (k d c i : Nat) (h : s.msgAt a = some x) :
    (s.sendAs a k d c i).msgAt a = some x := by
  unfold State.msgAt at h ⊢
  cases hs : s.sump.slots.find? (fun p => decide (p.1 = a)) with
  | none => simp [hs] at h
  | some p =>
    unfold State.sendAs
    simp only [hs, count_sump, find_mput, Option.map_some] at h ⊢
    split <;> exact h

theorem msgAt_congr {s t : State} (h : t.sump.slots = s.sump.slots) (src : Nat) : t.msgAt src = s.msgAt src := by
  unfold State.msgAt
  rw [h]

namespace ShownKept

theorem rfl' (fs : List Fld) (s : State) : ShownKept fs s s := ⟨fun _ _ => rfl, fun _ _ h => h, fun _ _ h => h⟩

theorem trans {fs : List Fld} {s t u : State} (h : ShownKept fs s t) (k : ShownKept fs t u) : ShownKept fs s u :=
  ⟨fun f hf => (k.flds f hf).trans (h.flds f hf), fun src x hx => k.told src x (h.told src x hx),
    fun src hs hx => k.quiet src hs (h.quiet src hs hx)⟩

theorem shown {s t : State} (h : ShownKept imageFlds s t) : ShownKept shownFlds s t :=
  ⟨fun f hf => h.flds f (List.mem_cons_of_mem _ hf), h.told, h.quiet⟩

theorem op {s t : State} (h : ShownKept imageFlds s t) : t.op = s.op := h.flds CLK_STATE_STATE List.mem_cons_self

theorem of_eq (fs : List Fld) {s t : State} (hr : t.regs = s.regs) (hs : t.sump.slots = s.sump.slots) : ShownKept fs s t :=
  ⟨fun f _ => fld_congr hr f, fun src _ hx => (msgAt_congr hs src).trans hx, fun src _ hx => (msgAt_congr hs src).trans hx⟩

theorem write {fs : List Fld} {s t : State} (h : ShownKept fs s t) {f : Fld} (v : Nat) (hf : ∀ g ∈ fs, f.key ≠ g.key) :
    ShownKept fs s (t.setFld f v) :=
  h.trans ⟨fun g hg => fld_setFld_ne t v (hf g hg), fun _ _ hx => hx, fun _ _ hx => hx⟩

/-- A message of another source than the loader's. -/
theorem sendAs {s t : State} (h : ShownKept imageFlds s t) {a : Nat} (k d c i : Nat) (ha : a ∉ imageSrcs) :
    ShownKept imageFlds s (t.sendAs a k d c i) := by
  refine h.trans ⟨fun f hf => ?_, fun src _ hx => ?_, fun src hs hx => ?_⟩
  · refine (sameRegs_refl msgFlds t).sendAs a k d c i (by decide) (by decide) f ?_
    revert f hf
    decide
  · by_cases hs : a = src
    · subst hs
      exact msgAt_sendAs_taken _ _ _ _ hx
    · exact (msgAt_sendAs_ne t _ _ _ _ hs).trans hx
  · exact (msgAt_sendAs_ne t _ _ _ _ fun (e : a = src) => ha (e ▸ hs)).trans hx

theorem send {s t : State} (h : ShownKept imageFlds s t) {a : Nat} (k d : Nat) (ha : a ∉ imageSrcs) :
    ShownKept imageFlds s (t.send a k d) := h.sendAs _ _ _ _ ha

theorem ite {fs : List Fld} {c : Prop} [Decidable c] {s t u : State} (ht : ShownKept fs s t) (hu : ShownKept fs s u) :
    ShownKept fs s (if c then t else u) := by split <;> assumption

theorem sendIf {s t : State} (h : ShownKept imageFlds s t) (c : Bool) {a : Nat} (k d : Nat) (ha : a ∉ imageSrcs) :
    ShownKept imageFlds s (t.sendIf c a k d) := ite (h.send k d ha) h

/-- A register with none of the fields. -/
theorem setFld {s t : State} (h : ShownKept imageFlds s t) {f : Fld} (v : Nat) (hf : Elsewhere f.addr)
    (hlo : f.lo < 32 := by exact of_decide_eq_true rfl) :
    ShownKept imageFlds s (t.setFld f v) := h.write v (key_ne_of_elsewhere hf hlo)

theorem flagBit {s t : State} (h : ShownKept imageFlds s t) {f : Fld} (i : Nat) (hf : Elsewhere f.addr)
    (hlo : f.lo < 32 := by exact of_decide_eq_true rfl) :
    ShownKept imageFlds s (t.flagBit f i) := h.setFld _ hf hlo

theorem count {s t : State} (h : ShownKept imageFlds s t) {c o : Fld} (i k : Nat) (hc : Elsewhere c.addr) (ho : Elsewhere o.addr)
    (hcl : c.lo < 32 := by exact of_decide_eq_true rfl) (hol : o.lo < 32 := by exact of_decide_eq_true rfl) :
    ShownKept imageFlds s (t.count c o i k) :=
  ite (h.setFld _ hc hcl) ((h.setFld _ hc hcl).setFld _ ho hol)

theorem foldl {fs : List Fld} {β : Type} {f : State → β → State} {l : List β} (hf : ∀ b ∈ l, ∀ s, ShownKept fs s (f s b)) {s t : State}
    (h : ShownKept fs s t) : ShownKept fs s (l.foldl f t) :=
  foldl_inv_mem (ShownKept fs s) f l (fun a b hb ha => ha.trans (hf b hb a)) t h

theorem each {fs : List Fld} {f : State → Nat → State} {l : List Nat} (hf : ∀ i ∈ l, ∀ s, ShownKept fs s (f s i)) {s t : State}
    (h : ShownKept fs s t) : ShownKept fs s (t.each l f) := foldl hf h

theorem withMem {fs : List Fld} {s t : State} (h : ShownKept fs s t) (x : Memory) : ShownKept fs s { t with mem := x } :=
  h.trans (.of_eq fs rfl rfl)

theorem withAcq {fs : List Fld} {s t : State} (h : ShownKept fs s t) (x : Acq) : ShownKept fs s { t with acq := x } :=
  h.trans (.of_eq fs rfl rfl)

theorem withDbg {fs : List Fld} {s t : State} (h : ShownKept fs s t) (x : Dbg) : ShownKept fs s { t with dbg := x } :=
  h.trans (.of_eq fs rfl rfl)

theorem withRed {fs : List Fld} {s t : State} (h : ShownKept fs s t) (x : Red) : ShownKept fs s { t with red := x } :=
  h.trans (.of_eq fs rfl rfl)

theorem withSeq {fs : List Fld} {s t : State} (h : ShownKept fs s t) (x : Seq) : ShownKept fs s { t with seq := x } :=
  h.trans (.of_eq fs rfl rfl)

end ShownKept

/-- Nothing that is shown changes, the operating state included. -/
abbrev ImageKept (s t : State) : Prop := ShownKept imageFlds s t

/-! ### Ports -/

theorem elsewhere_line (l : Nat) {k : Nat} : Elsewhere (lineBase l + k) := by
  have : 0x100000 ≤ lineBase l := by
    unfold lineBase
    split_ifs <;> omega
  exact ⟨by omega, by omega, by omega, by omega⟩

theorem lineSrc_apart {l : Nat} (hl : l < 40) : lineSrc l ∉ imageSrcs := by
  have : lineSrc l < 0x200 := by
    unfold lineSrc
    split_ifs <;> omega
  simp only [imageSrcs, List.mem_cons, List.not_mem_nil, or_false]
  omega

theorem shown_seqEvent (s : State) (i : Nat) : ImageKept s (s.seqEvent i) := (ShownKept.rfl' _ s).flagBit i (by decide)

theorem shown_driveBlockOut (s : State) : ImageKept s s.driveBlockOut :=
  .ite (.rfl' _ s) ((((ShownKept.rfl' _ s).setFld (f := PRT_STAT_BO) _ (by decide))).trans (.of_eq _ rfl rfl))

theorem shown_wr (s : State) (a n v : Nat) : ImageKept s (s.wr a n v) := .of_eq _ rfl rfl

theorem shown_setLane (s : State) (l : Nat) (x : Lane) : ImageKept s (s.setLane l x) := .of_eq _ rfl rfl

theorem shown_setCc (s : State) (g : Nat) (x : CmpCell) : ImageKept s (s.setCc g x) := .of_eq _ rfl rfl

theorem shown_primeChan (s : State) (c : Nat) : ImageKept s (s.primeChan c) := shown_wr ..

theorem shown_portLeft (s : State) (n : Nat) : ImageKept s (s.portLeft n) := by
  unfold State.portLeft
  extract_lets u
  refine .each (fun g _ t => ?_) (.of_eq _ rfl rfl : ImageKept s u)
  exact (shown_setCc t g _).trans ((shown_wr ..).trans (shown_wr ..))

theorem shown_setPort (s : State) (l st : Nat) : ImageKept s (s.setPort l st) := by
  have h : ImageKept s (s.setFld (CL_STAT_STATE l) st) := (ShownKept.rfl' _ s).setFld _ (elsewhere_line l)
  exact .ite (h.trans (shown_portLeft ..)) h

theorem shown_portFault (s : State) (l : Nat) (why : FaultedBy) : ImageKept s (s.portFault l why) :=
  (shown_setPort s l 5).trans (shown_setLane ..)

theorem shown_losAssert (s : State) {l : Nat} (hl : l < 40) : ImageKept s (losAssert s l) := by
  unfold losAssert
  extract_lets st u x v
  have hu : ImageKept s u := (((ShownKept.rfl' _ s).setFld (f := CL_STAT_LOS l) _ (elsewhere_line l)).setFld (f := CL_STAT_MISS_RUN l) _
    (elsewhere_line l)).count _ _ (elsewhere_line l) (elsewhere_line l)
  have hv : ImageKept s v := hu.trans (shown_setLane ..)
  exact .ite (.rfl' _ s) (.ite ((hv.trans (shown_setPort ..)).send _ _ (lineSrc_apart hl))
    (.ite ((hv.trans (shown_portFault ..)).send _ _ (lineSrc_apart hl)) hv))

theorem shown_portUp (s : State) (l : Nat) : ImageKept s (portUp s l) := by
  have h : ImageKept s (s.flag (CL_CTRL_EN l)) := (ShownKept.rfl' _ s).setFld _ (elsewhere_line l (k := 0))
  refine .ite (ShownKept.trans ?_ (shown_setLane ..)) h
  exact ((h.trans (shown_setPort ..)).setFld (f := CL_STAT_LOS l) _ (elsewhere_line l)).setFld (f := CL_STAT_LOL l) _ (elsewhere_line l)

theorem shown_portDown (s : State) (l : Nat) : ImageKept s (portDown s l) :=
  ((ShownKept.rfl' _ s).setFld (f := CL_CTRL_EN l) 0 (elsewhere_line l (k := 0))).trans (shown_setLane ..)

theorem shown_loopbackSelect (s : State) {l : Nat} (lb : Nat) (hl : l < 40) : ImageKept s (loopbackSelect s l lb) :=
  .ite (((ShownKept.rfl' _ s).setFld (f := CL_CTRL_LB l) _ (elsewhere_line l (k := 0))).setFld (f := CL_STAT_LB_ACTIVE l) _
    (elsewhere_line l)) ((ShownKept.rfl' _ s).send _ _ (lineSrc_apart hl))

theorem shown_ctrlWrite (s : State) {l : Nat} (val : Nat) (hl : l < 40) : ImageKept s (s.ctrlWrite l val) := by
  unfold State.ctrlWrite
  extract_lets u v w
  have h0 := elsewhere_line l (k := 0)
  have hu : ImageKept s u := (((ShownKept.rfl' _ s).setFld (f := CL_CTRL_AUTO_REC l) _ h0).setFld (f := CL_CTRL_LOS_PIN_EN l) _ h0).setFld
    (f := CL_CTRL_LOS_PIN_POL l) _ h0
  have hv : ImageKept s v := .ite (hu.trans (shown_losAssert u hl)) hu
  have hw : ImageKept s w := .ite (hv.trans (.ite (.rfl' _ v) (.ite (.rfl' _ v) (shown_portUp v l))))
    (hv.trans (.ite (.rfl' _ v) (.ite ((ShownKept.rfl' _ v).send _ _ (lineSrc_apart hl)) (.ite (shown_portDown v l) (.rfl' _ v)))))
  exact hw.trans (shown_loopbackSelect w _ hl)

theorem laneOf_lt {a l : Nat} (h : laneOf a = some l) : l < 40 := by
  unfold laneOf at h
  split_ifs at h <;> simp only [Option.some.injEq] at h <;> omega

/-! ### Memory -/

theorem checker_apart {i : Nat} (hi : i < 128) : 0x080 + i ∉ imageSrcs := by
  simp only [imageSrcs, List.mem_cons, List.not_mem_nil, or_false]
  omega

theorem elsewhere_inj {i : Nat} (hi : i < 128) : Elsewhere (0x11000 + 4 * i) := ⟨by omega, by omega, by omega, by omega⟩

theorem shown_inject (s : State) {i : Nat} (syn : BitVec 8) (hi : i < 128) : ImageKept s (s.inject i syn).1 := by
  unfold State.inject
  extract_lets mask u obs out counted out'
  have hu : ImageKept s u := .ite (.rfl' _ s) ((ShownKept.rfl' _ s).setFld (f := FLT_INJ_ARM i) _ (elsewhere_inj hi))
  clear_value u mask
  split
  · exact .rfl' _ s
  · split
    · exact hu.sendAs _ _ _ _ (checker_apart hi)
    · exact hu.sendAs _ _ _ _ (checker_apart hi)

theorem shown_checkedRead (s : State) (a : Nat) : ImageKept s (s.checkedRead a).2 := by
  have hs : 0x080 + checkerOf a ∉ imageSrcs := checker_apart (checkerOf_lt a)
  have hi := shown_inject s (s.synAt a) (checkerOf_lt a)
  unfold State.checkedRead
  extract_lets i syn w
  split
  next u rep h =>
    have hu : ImageKept s u := by
      have : (s.inject i syn).1 = u := congrArg Prod.fst h
      exact this ▸ hi
    split
    · exact hu
    · exact (hu.count _ _ (by decide) (by decide)).sendIf _ _ _ hs
    · exact ((hu.count (c := MEM_CNT_CE) (o := MEM_CNT_OVF) _ _ (by decide) (by decide)).sendIf _ _ _ hs).withMem _

theorem shown_setMbox (s : State) (x : MboxPort) : ImageKept s (s.setMbox x) := .of_eq _ rfl rfl

theorem shown_mboxConflict (s : State) (a : Nat) : ImageKept s (s.mboxConflict a) :=
  ((ShownKept.rfl' _ s).count (c := MEM_CNT_MBOX) (o := MEM_CNT_OVF) _ _ (by decide) (by decide)).send _ _ (by decide)

theorem shown_mboxBegin (s : State) (a : Nat) (sh : Share) : ImageKept s (s.mboxBegin a sh) :=
  .ite (.rfl' _ s) (.ite (shown_setMbox ..) (shown_setMbox ..))

theorem shown_mboxOver (s : State) (a : Nat) (sh : Share) : ImageKept s (s.mboxOver a sh) := .ite (shown_setMbox ..) (.rfl' _ s)

theorem shown_readEach (l : List Nat) : ∀ s : State, ImageKept s (s.readEach l).2 := by
  induction l with
  | nil => exact fun s => .rfl' _ s
  | cons a t ih =>
    intro s
    unfold State.readEach
    extract_lets u r q
    have hu : ImageKept s u := .ite (shown_setMbox ..) (.rfl' _ s)
    have hr : ImageKept s r.2 := by
      unfold r
      split
      · exact .rfl' _ s
      · split
        · exact (shown_setMbox ..).trans (shown_mboxConflict ..)
        · split
          · exact hu
          · exact hu.trans (shown_checkedRead u a)
    exact hr.trans (ih _)

theorem shown_readBytes (s : State) (a n : Nat) : ImageKept s (s.readBytes a n).2 := by
  have h := (shown_mboxBegin s a .no).trans (shown_readEach (spanWords a n) _)
  unfold State.readBytes
  split
  next ok u hu =>
    have : ((s.mboxBegin a .no).readEach (spanWords a n)).2 = u := congrArg Prod.snd hu
    exact (this ▸ h).trans (shown_mboxOver ..)

theorem shown_openResp (l : List ECWord) : ∀ s : State, ImageKept s (s.openResp l).2 := by
  induction l with
  | nil => exact fun s => .rfl' _ s
  | cons _ t ih => exact fun s => (ShownKept.of_eq imageFlds rfl rfl : ImageKept s (s.draw 64).2).trans (ih _)

theorem shown_hostUndone (s : State) : ImageKept s s.hostUndone := by
  unfold State.hostUndone
  split
  · split
    next h l _ => exact (shown_openResp l s).withDbg _
    · exact .rfl' _ s
  · exact .rfl' _ s

theorem shown_wrBytes (l : List Byte) : ∀ (s : State) (a : Nat), ImageKept s (s.wrBytes a l) := by
  induction l with
  | nil => exact fun s _ => .rfl' _ s
  | cons b t ih => exact fun s a => (shown_wr s a 1 b.toNat).trans (ih _ _)

theorem shown_writeBytes (s : State) (a : Nat) (l : List Byte) : ImageKept s (s.writeBytes a l) := by
  unfold State.writeBytes
  extract_lets ws part bad u v x w y z
  have hu : ImageKept s u := shown_mboxBegin ..
  have hv : ImageKept s v := .foldl (fun w _ t => .ite (.rfl' _ t) (shown_checkedRead t w)) hu
  have hw : ImageKept s w := .foldl (fun w _ t => (shown_mboxConflict t w).trans (shown_hostUndone _)) hv
  have hy : ImageKept s y := .ite hv (hw.trans (shown_setMbox ..))
  have hz : ImageKept s z := .ite (hy.trans (shown_wrBytes ..)) (.foldl (fun p _ t => .ite (.rfl' _ t) (shown_wr ..)) hy)
  exact hz.trans (shown_mboxOver ..)

/-! ### Register writes of sections -/

theorem blockSrc_apart {a : Nat} (ha : Elsewhere a) : blockSrc a ∉ imageSrcs := by
  obtain ⟨-, -, -, hc⟩ := ha
  simp only [imageSrcs, List.mem_cons, List.not_mem_nil, or_false]
  unfold blockSrc
  repeat' split
  all_goals omega

/-- A write of one field leaves the others; a register's fields lie below bit 32. -/
theorem shown_field {s : State} {w : Wr} (h : ImageKept s w.s) {a : Nat} (val : Nat) (frst : Bool) {f : FldDef} (ha : Elsewhere a)
    (hf : f.lo < 32) : ImageKept s (Wr.field w a val frst f).s := by
  have hset (v : Nat) : ImageKept s (w.s.setFld (fldAt a f) v) := h.setFld v ha hf
  unfold Wr.field
  extract_lets k v
  split
  · split
    · exact hset v
    · exact h
  · split
    · exact h
    · split
      · exact hset v
      · exact h
  · split
    · exact h
    · exact hset _
  · split
    · exact h
    · exact hset _
  · exact h
  · exact h

theorem shown_regWrite (s : State) (m : Master) {a : Nat} (val : Nat) (ha : Elsewhere a) : ImageKept s (s.regWrite m a val) := by
  unfold State.regWrite
  split
  · exact .rfl' _ s
  next r hr =>
    extract_lets w x u v
    have hw : ImageKept s w.s := by
      refine foldl_inv_mem (fun w : Wr => ImageKept s w.s) _ _ (fun w f hf hw => shown_field hw val _ ha ?_) _ (.rfl' _ s)
      exact ((sound_of_regAt hr).2 f hf).1
    have hu : ImageKept s u := .ite (hw.write (f := CFG_STAT_MODIFIED) 1 (by decide)) hw
    have hv : ImageKept s v := .ite (hu.send _ _ (blockSrc_apart ha)) hu
    exact .ite (hv.send _ _ (blockSrc_apart ha)) hv

theorem shown_blockCause (s : State) (c : BlkCause) : ImageKept s (s.blockCause c) := by
  have hs : ∀ f ∈ imageFlds, ∀ g ∈ blockFlds, f.key ≠ g.key := by decide
  have hc : (s.blockCause c).sump = s.sump := by rw [blockCause_eq]
  exact ⟨fun f hf => sameRegs_blockCause s c f (hs f hf), fun src _ hx => (msgAt_congr (congrArg Sump.slots hc) src).trans hx,
    fun src _ hx => (msgAt_congr (congrArg Sump.slots hc) src).trans hx⟩

theorem shown_pinTrip (s : State) {p : Nat} (sampled : Bool) (hp : p < 16) : ImageKept s (s.pinTrip p sampled) := by
  have ha : 0x300 + p ∉ imageSrcs := by
    simp only [imageSrcs, List.mem_cons, List.not_mem_nil, or_false]
    omega
  exact .ite ((shown_blockCause s .pin).send _ _ ha) ((shown_blockCause s .pin).send _ _ (by decide))

theorem shown_pinStat (s : State) : ImageKept s s.pinStat :=
  (((ShownKept.rfl' _ s).withAcq _).setFld (f := PRT_PIN_STAT_ACTIVE) _ (by decide)).setFld (f := PRT_PIN_STAT_SEEN) _ (by decide)

theorem shown_pinCfgWrite (s : State) (m : Master) (val : Nat) : ImageKept s (pinCfgWrite s m val) := by
  unfold pinCfgWrite
  extract_lets en0 pol0 u en1 pol1
  have hu : ImageKept s u := (shown_regWrite s m val (by decide)).trans (shown_pinStat _)
  exact .each (fun p hp t => .ite (shown_pinTrip t true (by simpa [upto] using hp)) (.rfl' _ t)) hu

theorem shown_cmpCfgWrite (s : State) (m : Master) {a : Nat} (val : Nat) (ha : 0x30100 ≤ a ∧ a < 0x30300) :
    ImageKept s (s.cmpCfgWrite m a val) := by
  have hu : ImageKept s (s.regWrite m a val) := shown_regWrite s m val ⟨by omega, by omega, by omega, by omega⟩
  have hf : Elsewhere (0x3010C + 16 * ((a - 0x30100) / 16)) := ⟨by omega, by omega, by omega, by omega⟩
  exact .ite hu ((hu.setFld (f := PRT_CMP_STAT_TRIP _) 0 hf).setFld (f := PRT_CMP_STAT_RUN _) 0 hf)

theorem shown_setDom (s : State) (d : Nat) (x : Dom) : ImageKept s (s.setDom d x) := .ite (.of_eq _ rfl rfl) (.of_eq _ rfl rfl)

theorem shown_srcWritten (s : State) {d : Nat} (hd : d < 2) : ImageKept s (s.srcWritten d) := by
  have hf : Elsewhere (0x2010C + 64 * d) := ⟨by omega, by omega, by omega, by omega⟩
  exact (((ShownKept.rfl' _ s).setFld (f := TIM_D_STAT_STATE d) _ hf).trans (shown_setDom ..)).setFld (f := TIM_D_STAT_QT d) _ hf

theorem shown_domCfgWrite (s : State) (m : Master) {d : Nat} (val : Nat) (hd : d < 2) : ImageKept s (domCfgWrite s m d val) := by
  have hu : ImageKept s (s.regWrite m (0x20100 + 64 * d) val) := shown_regWrite s m val ⟨by omega, by omega, by omega, by omega⟩
  exact .ite (hu.trans (shown_srcWritten _ hd)) hu

theorem shown_turnCheck (s : State) (report : Bool) : ImageKept s (s.turnCheck report) := by
  have hu : ImageKept s (s.setFld CE_STAT_TURN_ERR (b2n s.turnBad)) := (ShownKept.rfl' _ s).setFld _ (by decide)
  exact .ite ((hu.setFld (f := CE_STAT_TURN_SEEN) 1 (by decide)).send _ _ (by decide)) hu

/-- The cell's source of messages is no source of the loader's: its number is 2 modulo 4. -/
theorem shown_lateEval (s : State) (g : Nat) : ImageKept s (s.lateEval g) := by
  have ha : 0x102 + 4 * (g / 128) ∉ imageSrcs := by
    simp only [imageSrcs, List.mem_cons, List.not_mem_nil, or_false]
    omega
  exact ((shown_setCc s g _).trans (shown_wr ..)).sendIf _ _ _ ha

theorem shown_lateAll (s : State) : ImageKept s s.lateAll :=
  .each (fun g _ t => .ite (shown_lateEval t g) (.rfl' _ t)) (.rfl' _ s)

theorem shown_fieldWrite (s : State) (m : Master) {a : Nat} (val : Nat) (ha : Elsewhere a) : ImageKept s (s.fieldWrite m a val) := by
  have hw : ImageKept s (s.regWrite m a val) := shown_regWrite s m val ha
  unfold State.fieldWrite
  split
  next l hl => exact .ite (shown_ctrlWrite s val (laneOf_lt hl)) hw
  · refine .ite (shown_pinCfgWrite s m val) (.ite (hw.trans (shown_driveBlockOut _)) ?_)
    split
    next h => exact shown_cmpCfgWrite s m val ⟨h.1, h.2.1⟩
    · refine .ite (hw.trans (.of_eq _ rfl rfl)) (.ite (shown_domCfgWrite s m val (by decide))
        (.ite (shown_domCfgWrite s m val (by decide)) ?_))
      refine .ite (hw.trans (shown_turnCheck _ true)) (.ite ?_ (.ite ?_ (.ite (hw.trans (shown_lateAll _)) ?_)))
      · have h := shown_regWrite s .host val (a := 0x50020) (by decide)
        exact .ite (h.trans (.of_eq _ rfl rfl)) h
      · exact (shown_regWrite s .host val (a := 0x50024) (by decide)).trans (.of_eq _ rfl rfl)
      · exact .ite (.ite (hw.trans (shown_primeChan ..)) hw) hw

theorem shown_dropSlots (old s : State) : ImageKept s (old.dropSlots s) := .foldl (fun _ _ t => shown_wr t ..) (.rfl' _ s)

theorem shown_plainWrite (s : State) (m : Master) {a : Nat} (val : Nat) (ha : Elsewhere a) : ImageKept s (s.plainWrite m a val) :=
  .ite ((shown_fieldWrite s m val ha).trans (shown_dropSlots ..)) (shown_fieldWrite s m val ha)

/-! ### Sections applied and cleared -/

theorem shown_plain_regs : ∀ a ∈ 0xB0000 :: (List.range 24).map (0x40010 + ·), ∀ r ∈ regAt a, ∀ f ∈ r.flds,
    f.acc ≠ .rw ∧ f.acc ≠ .rwl := by
  decide +kernel

/-- A legal pair names no register in which the image is shown (R410): those have no field that software writes. -/
theorem elsewhere_of_pairOk {a v : Nat} (h : pairOk a v = true) (hm : a ≠ 0xC0004) : Elsewhere a := by
  unfold pairOk at h
  split at h
  · exact absurd h (by decide)
  next r hr =>
    simp only [Bool.and_eq_true, Bool.not_eq_true', List.isEmpty_eq_false_iff_exists_mem, List.mem_filter, Bool.or_eq_true, beq_iff_eq] at h
    obtain ⟨⟨⟨⟨f, hf, hacc⟩, -⟩, -⟩, hb⟩ := h
    have hp : a ∉ 0xB0000 :: (List.range 24).map (0x40010 + ·) := fun hmem => by
      have := shown_plain_regs a hmem r hr f hf
      tauto
    simp only [List.mem_cons, List.mem_map, List.mem_range, not_or, not_exists, not_and] at hp
    have hbank : a < 0x40010 ∨ 0x40028 ≤ a := by
      by_contra hc
      exact hp.2 (a - 0x40010) (by omega) (by omega)
    have h0 : a / 0x10000 ≠ 0 := fun e => by simp [e] at hb
    have h12 : a / 0x10000 ≠ 12 := fun e => by
      simp only [e, Bool.and_eq_true, beq_iff_eq] at hb
      exact hm hb.1
    exact ⟨by omega, hbank, hp.1, by omega⟩

/-- Of the loader nothing changes but the candidate's contents. -/
def TrialOnly (s t : State) : Prop := t.ld = { s.ld with trial := t.ld.trial }

theorem TrialOnly.of_ld {s t : State} (h : t.ld = s.ld) : TrialOnly s t := by
  unfold TrialOnly
  rw [h]

theorem TrialOnly.trans {s t u : State} (h : TrialOnly s t) (k : TrialOnly t u) : TrialOnly s u := by
  unfold TrialOnly at *
  rw [k, h]

theorem TrialOnly.foldl {β : Type} {f : State → β → State} (hf : ∀ s b, TrialOnly s (f s b)) (l : List β) (s : State) :
    TrialOnly s (l.foldl f s) := foldl_inv (TrialOnly s) f (fun a b ha => ha.trans (hf a b)) l s (.of_ld rfl)

theorem trialOnly_onTrial (s : State) (f : Image → Image) : TrialOnly s (s.onTrial f) := rfl

theorem shown_onTrial (s : State) (f : Image → Image) : ImageKept s (s.onTrial f) := .of_eq _ rfl rfl

theorem shown_modOk (s : State) (v : Nat) : ImageKept s (s.setFld CFG_CTRL_MOD_OK v) := (ShownKept.rfl' _ s).write v (by decide)

theorem shown_applyPair (s : State) (p : Nat × Nat) : ImageKept s (s.applyPair p) := by
  unfold State.applyPair
  by_cases hp : pairOk p.1 p.2 = true
  · rw [if_neg (by simp [hp])]
    refine .ite (shown_onTrial ..) ?_
    split
    · exact shown_modOk ..
    next hm => exact shown_plainWrite s _ _ (elsewhere_of_pairOk hp hm)
  · rw [if_pos (by simp [hp])]
    exact .rfl' _ s

theorem trialOnly_applyPair (s : State) (p : Nat × Nat) : TrialOnly s (s.applyPair p) := by
  unfold State.applyPair
  split
  · exact .of_ld rfl
  · split
    · exact trialOnly_onTrial ..
    · split
      · exact .of_ld rfl
      · exact .of_ld (plainWrite_ld ..)

/-- A section applied (R409). -/
theorem applySection_frame (s : State) (x : Nat) (e : Section) : ImageKept s (s.applySection x e) ∧ TrialOnly s (s.applySection x e) := by
  have hrfl : ImageKept s s ∧ TrialOnly s s := ⟨.rfl' _ s, .of_ld rfl⟩
  have htrial (f : Image → Image) : ImageKept s (s.onTrial f) ∧ TrialOnly s (s.onTrial f) :=
    ⟨shown_onTrial .., trialOnly_onTrial ..⟩
  unfold State.applySection
  split
  · exact hrfl
  · split
    · exact ⟨.foldl (fun i _ t => shown_applyPair t _) (.rfl' _ s), .foldl (fun t i => trialOnly_applyPair t _) _ _⟩
    · exact ⟨shown_wr .., .of_ld rfl⟩
    · exact htrial _
    · exact htrial _
    · unfold State.applyPortmap
      exact htrial _
    · exact htrial _
    · exact hrfl

theorem shown_clearSection (s : State) (x : Nat) (e : Section) : ImageKept s (s.clearSection x e) := by
  unfold State.clearSection
  split
  · exact .rfl' _ s
  · split
    · refine .foldl (fun i _ t => ?_) (.rfl' _ s)
      dsimp only
      split
      · exact shown_modOk ..
      next hm =>
        split
        next hp =>
          simp only [Bool.and_eq_true] at hp
          exact shown_plainWrite t _ _ (elsewhere_of_pairOk hp.1 hm)
        · exact .rfl' _ t
    · exact shown_wr ..
    · exact .rfl' _ s

end Sys2Proof.Machine
end

section
/-! PROOFS. O48, second part: the checks of VERIFY read nothing that the seal's check writes; a candidate read, and how one is given up. -/
namespace Sys2Proof.Machine
open Sys2Proof

-- The proofs are checked one after another: many at a time need more memory than a compile may have.
set_option Elab.async false

/-! ### The checks of VERIFY read what the seal's check leaves alone -/

/-- The loader's state, memory and all registers but the security unit's counters stand. -/
structure ChecksKept (s t : State) : Prop where
  ld : t.ld = s.ld
  mem : t.mem = s.mem
  regs : SameRegs [SEC_CNT_VERIFY, SEC_CNT_OVF] s t

namespace ChecksKept

variable {s t : State}

theorem fld (h : ChecksKept s t) (f : Fld) (hf : f.key ≠ 32 * 0xB0084 ∧ f.key ≠ 32 * 0xB008C) : t.fld f = s.fld f :=
  h.regs f (by simpa [SEC_CNT_VERIFY, SEC_CNT_OVF, Fld.key] using hf)

theorem bit (h : ChecksKept s t) (f : Fld) (hf : f.key ≠ 32 * 0xB0084 ∧ f.key ≠ 32 * 0xB008C) : t.bit f = s.bit f := by
  unfold State.bit
  rw [h.fld f hf]

/-- Registers beyond the security unit's. -/
theorem above (h : ChecksKept s t) {f : Fld} (hf : 0xC0000 ≤ f.addr) : t.fld f = s.fld f ∧ t.bit f = s.bit f := by
  have hk : f.key ≠ 32 * 0xB0084 ∧ f.key ≠ 32 * 0xB008C := by
    unfold Fld.key
    omega
  exact ⟨h.fld f hk, h.bit f hk⟩

theorem snsEn (h : ChecksKept s t) (n : Nat) : t.bit (SNS_CH_CFG_EN n) = s.bit (SNS_CH_CFG_EN n) :=
  (h.above (Nat.le_add_right_of_le (by decide))).2

theorem snsMmen (h : ChecksKept s t) (n : Nat) : t.bit (SNS_CH_CFG_MMEN n) = s.bit (SNS_CH_CFG_MMEN n) :=
  (h.above (Nat.le_add_right_of_le (by decide))).2

theorem snsMean (h : ChecksKept s t) (n : Nat) : t.fld (SNS_CH_CFG_MEAN n) = s.fld (SNS_CH_CFG_MEAN n) :=
  (h.above (Nat.le_add_right_of_le (by decide))).1

theorem snsMin (h : ChecksKept s t) (n : Nat) : t.fld (SNS_CH_CFG_MIN n) = s.fld (SNS_CH_CFG_MIN n) :=
  (h.above (Nat.le_add_right_of_le (by decide))).1

theorem snsMax (h : ChecksKept s t) (n : Nat) : t.fld (SNS_CH_CFG_MAX n) = s.fld (SNS_CH_CFG_MAX n) :=
  (h.above (Nat.le_add_right_of_le (by decide))).1

theorem healthEn (h : ChecksKept s t) (n : Nat) : t.bit (SNS_P_CFG_HSEN n) = s.bit (SNS_P_CFG_HSEN n) :=
  (h.above (Nat.le_add_right_of_le (by decide))).2

theorem healthSlot (h : ChecksKept s t) (n : Nat) : t.fld (SNS_P_CFG_HSLOT n) = s.fld (SNS_P_CFG_HSLOT n) :=
  (h.above (Nat.le_add_right_of_le (by decide))).1

theorem sampleRate (h : ChecksKept s t) (n : Nat) : t.fld (SNS_P_CFG_RATE n) = s.fld (SNS_P_CFG_RATE n) :=
  (h.above (Nat.le_add_right_of_le (by decide))).1

theorem flRd (h : ChecksKept s t) (a n : Nat) : t.flRd a n = s.flRd a n := by
  unfold State.flRd
  rw [h.ld]

theorem sections (h : ChecksKept s t) (x : Nat) : t.sections x = s.sections x := by
  unfold State.sections State.nsec State.sectionAt
  simp only [h.flRd]

theorem pairAt (h : ChecksKept s t) (x : Nat) (e : Section) (i : Nat) : t.pairAt x e i = s.pairAt x e i := by
  unfold State.pairAt
  simp only [h.flRd]

theorem cellEntry (h : ChecksKept s t) (x : Nat) (e : Section) (k : Nat) : t.cellEntry x e k = s.cellEntry x e k := by
  unfold State.cellEntry
  simp only [h.flRd]

theorem badPair (h : ChecksKept s t) (x : Nat) : t.badPair x = s.badPair x := by
  unfold State.badPair
  simp only [h.sections, h.pairAt]

theorem unitMatch (h : ChecksKept s t) (e : Section) : t.unitMatch e = s.unitMatch e := by
  unfold State.unitMatch
  rw [h.fld RED_ID_UNIT (by decide)]

theorem limitsOk (h : ChecksKept s t) (x : Nat) : t.limitsOk x = s.limitsOk x := by
  unfold State.limitsOk
  simp only [h.ld, h.sections, h.unitMatch, h.cellEntry]

theorem channelSlots (h : ChecksKept s t) : t.channelSlots = s.channelSlots := by
  unfold State.channelSlots
  simp only [h.snsEn, h.snsMmen, h.snsMean, h.snsMin, h.snsMax]

theorem healthSlots (h : ChecksKept s t) : t.healthSlots = s.healthSlots := by
  unfold State.healthSlots
  simp only [h.healthEn, h.healthSlot]

theorem stnOwn (h : ChecksKept s t) (p c i : Nat) : t.fld (STN_OWN p c i) = s.fld (STN_OWN p c i) :=
  (h.above (Nat.le_add_right_of_le (Nat.le_add_right_of_le (Nat.le_add_right_of_le (by decide))))).1

theorem stationSlots (h : ChecksKept s t) : t.stationSlots = s.stationSlots := by
  unfold State.stationSlots
  simp only [h.stnOwn]

theorem armRef (h : ChecksKept s t) (a : Nat) : t.bit (PLN_ARM_REF_SRC a) = s.bit (PLN_ARM_REF_SRC a) ∧
    t.fld (PLN_ARM_REF_SLOT a) = s.fld (PLN_ARM_REF_SLOT a) := by
  have ha (k : Nat) (hk : k < 32) : 32 * (0x50100 + 64 * a) + k ≠ 32 * 0xB0084 ∧
      32 * (0x50100 + 64 * a) + k ≠ 32 * 0xB008C := by omega
  exact ⟨h.bit _ (ha 10 (by decide)), h.fld _ (ha 0 (by decide))⟩

theorem slotsOk (h : ChecksKept s t) : t.slotsOk = s.slotsOk := by
  have h1 (a : Nat) := (h.armRef a).1
  have h2 (a : Nat) := (h.armRef a).2
  unfold State.slotsOk
  simp only [h.ld, h.channelSlots, h.healthSlots, h.stationSlots, h1, h2]

theorem turn (h : ChecksKept s t) {p : Nat} (hp : p < 192) : t.bit (CE_TURN_VALID p) = s.bit (CE_TURN_VALID p) ∧
    t.fld (CE_TURN_CH p) = s.fld (CE_TURN_CH p) := by
  have ha (k : Nat) (hk : k < 32) : 32 * (0x40400 + 4 * p) + k ≠ 32 * 0xB0084 ∧ 32 * (0x40400 + 4 * p) + k ≠ 32 * 0xB008C := by omega
  exact ⟨h.bit _ (ha 8 (by decide)), h.fld _ (ha 0 (by decide))⟩

theorem chanEnabled (h : ChecksKept s t) (c : Nat) : t.bit (CE_CH_CFG_EN c) = s.bit (CE_CH_CFG_EN c) := by
  have hk : 32 * (0x41000 + 16 * c) + 0 ≠ 32 * 0xB0084 ∧ 32 * (0x41000 + 16 * c) + 0 ≠ 32 * 0xB008C := by omega
  exact h.bit _ hk

theorem turnOf (h : ChecksKept s t) (c : Nat) : t.turnOf c = s.turnOf c := by
  unfold State.turnOf
  refine List.filter_congr fun p hp => ?_
  obtain ⟨h1, h2⟩ := h.turn (p := p) (by simpa [upto] using hp)
  rw [h1, h2]

theorem wordAt (h : ChecksKept s t) (a : Nat) : t.wordAt a = s.wordAt a := by
  unfold State.wordAt State.rd State.errAt
  rw [h.mem]

theorem paramOk (h : ChecksKept s t) (bank c : Nat) : t.paramOk bank c = s.paramOk bank c := by
  unfold State.paramOk State.param
  simp only [h.wordAt]

theorem channelsOk (h : ChecksKept s t) : t.channelsOk = s.channelsOk := by
  unfold State.channelsOk State.turnBad
  simp only [h.turnOf, h.chanEnabled, h.paramOk]

theorem dwell (h : ChecksKept s t) {p : Nat} (hp : p < 8) : t.fld (SEL_DWELL_ON_MIN p) = s.fld (SEL_DWELL_ON_MIN p) ∧
    t.fld (SEL_DWELL_OFF_MIN p) = s.fld (SEL_DWELL_OFF_MIN p) := by
  have ha (k : Nat) (hk : k < 32) : 32 * (0x60010 + 4 * p) + k ≠ 32 * 0xB0084 ∧ 32 * (0x60010 + 4 * p) + k ≠ 32 * 0xB008C := by omega
  exact ⟨h.fld _ (ha 0 (by decide)), h.fld _ (ha 8 (by decide))⟩

theorem profilesOk (h : ChecksKept s t) : t.profilesOk = s.profilesOk := by
  unfold State.profilesOk
  dsimp only
  rw [Bool.eq_iff_iff, List.all_eq_true, List.all_eq_true]
  refine forall₂_congr fun p hp => ?_
  obtain ⟨h1, h2⟩ := h.dwell (p := p) (by simpa [upto] using hp)
  rw [h1, h2, h.ld]

theorem timePairOk (h : ChecksKept s t) : t.timePairOk = s.timePairOk := by
  unfold State.timePairOk
  simp only [h.sampleRate, h.fld (TIM_D_CFG_SRC 0) (by decide), h.fld (TIM_D_CFG_SRC 1) (by decide),
    h.fld (TIM_D_CFG_PORT 0) (by decide), h.fld (TIM_D_CFG_PORT 1) (by decide), h.bit RED_CFG_PAIR (by decide),
    h.bit CMP_CTRL_HOLD_EN (by decide), h.fld RED_CFG_SILENT (by decide), h.fld CMP_CTRL_HOLD (by decide), h.bit NRG_CFG_EN (by decide),
    h.bit NRG_CFG_VN_EN (by decide), h.fld NRG_CFG_VP (by decide), h.fld NRG_CFG_I (by decide), h.fld NRG_CFG_VN (by decide)]

theorem contentCode (h : ChecksKept s t) (x : Nat) : t.contentCode x = s.contentCode x := by
  unfold State.contentCode
  simp only [h.limitsOk, h.slotsOk, h.channelsOk, h.profilesOk, h.timePairOk]

theorem slotRegBad (h : ChecksKept s t) (a : Nat) : t.slotRegBad a = s.slotRegBad a := by
  have h6 (n : Nat) := (h.armRef n).1
  have h7 (n : Nat) := (h.armRef n).2
  unfold State.slotRegBad
  simp only [h.ld, h.channelSlots, h.healthSlots, h.stationSlots, h.stnOwn, h.snsEn, h.snsMmen, h.snsMean, h.snsMin,
    h.snsMax, h.healthEn, h.healthSlot, h6, h7]

theorem chanFails (h : ChecksKept s t) (c : Nat) : t.chanFails c = s.chanFails c := by
  unfold State.chanFails
  rw [h.turnOf, h.chanEnabled]

theorem paramFails (h : ChecksKept s t) (bank c : Nat) : t.paramFails bank c = s.paramFails bank c := by
  unfold State.paramFails
  rw [h.paramOk, h.chanEnabled]

theorem chanRegBad (h : ChecksKept s t) (a : Nat) : t.chanRegBad a = s.chanRegBad a := by
  unfold State.chanRegBad
  simp only [h.paramFails, h.chanFails]
  split
  next ha =>
    obtain ⟨h1, h2⟩ := h.turn (p := (a - 0x40400) / 4) (by omega)
    rw [h1, h2]
  · rfl

theorem paramWordBad (h : ChecksKept s t) (a : Nat) : t.paramWordBad a = s.paramWordBad a := by
  unfold State.paramWordBad
  simp only [h.paramFails]

theorem dwellBad (h : ChecksKept s t) (a : Nat) : t.dwellBad a = s.dwellBad a := by
  unfold State.dwellBad
  dsimp only
  by_cases ha : 0x60010 ≤ a ∧ a < 0x60030
  · obtain ⟨h1, h2⟩ := h.dwell (p := (a - 0x60010) / 4) (by omega)
    rw [h1, h2, h.ld]
  · simp [ha]

theorem profileBad (h : ChecksKept s t) (p : Nat) : t.profileBad p = s.profileBad p := by
  unfold State.profileBad
  rw [h.ld]

theorem timeRegBad (h : ChecksKept s t) (a : Nat) : t.timeRegBad a = s.timeRegBad a := by
  unfold State.timeRegBad
  simp only [h.sampleRate, h.fld (TIM_D_CFG_SRC 0) (by decide), h.fld (TIM_D_CFG_SRC 1) (by decide),
    h.fld (TIM_D_CFG_PORT 0) (by decide), h.fld (TIM_D_CFG_PORT 1) (by decide), h.bit RED_CFG_PAIR (by decide),
    h.bit CMP_CTRL_HOLD_EN (by decide), h.fld RED_CFG_SILENT (by decide), h.fld CMP_CTRL_HOLD (by decide), h.bit NRG_CFG_EN (by decide),
    h.bit NRG_CFG_VN_EN (by decide), h.fld NRG_CFG_VP (by decide), h.fld NRG_CFG_I (by decide), h.fld NRG_CFG_VN (by decide)]

theorem cellBad (h : ChecksKept s t) (x : Nat) (e : Section) (k : Nat) : t.cellBad x e k = s.cellBad x e k := by
  unfold State.cellBad
  simp only [h.ld, h.sections, h.unitMatch, h.cellEntry]

theorem portBad (h : ChecksKept s t) (x n : Nat) : t.portBad x n = s.portBad x n := by
  unfold State.portBad
  simp only [h.ld, h.sections, h.unitMatch, h.cellEntry]

theorem badEntry (h : ChecksKept s t) (x code : Nat) : t.badEntry x code = s.badEntry x code := by
  unfold State.badEntry State.firstEntry
  simp only [h.ld, h.sections, h.unitMatch, h.pairAt, h.cellBad, h.portBad, h.slotRegBad, h.chanRegBad, h.paramWordBad, h.dwellBad,
    h.profileBad, h.timeRegBad]

end ChecksKept

/-! ### States entered, and candidates given up -/

theorem shown_primeOnState (s : State) (old new : Nat) : ImageKept s (s.primeOnState old new) :=
  .ite (.rfl' _ s) (.each (fun c _ t => .ite (shown_primeChan t c) (.rfl' _ t)) (.rfl' _ s))

/-- A state entered is the operating state; the rest of what is shown of the image stays. -/
theorem enterState_shown (s : State) {new : Nat} (cause : Nat) (hn : new < 16) :
    (s.enterState new cause).op = new ∧ ShownKept shownFlds s (s.enterState new cause) := by
  by_cases hne : new = s.op
  · have : s.enterState new cause = s := if_pos hne
    rw [this]
    exact ⟨hne.symm, .rfl' _ s⟩
  · unfold State.enterState
    extract_lets old u v q w y d x
    rw [if_neg hne]
    have hv : ImageKept u v := (shown_seqEvent u 1).trans (shown_primeOnState ..)
    have hw : ImageKept u w := hv.withAcq _
    have hx : ImageKept u x :=
      .ite (((hw.setFld (f := DBG_PIPE_HALTED) _ (by decide)).setFld (f := DBG_PIPE_LEFT) _ (by decide)).withDbg _) hw
    have h : ImageKept u x.driveBlockOut := hx.trans (shown_driveBlockOut x)
    refine ⟨h.op.trans ?_, ShownKept.trans ?_ h.shown⟩
    · exact (fld_setFld_ne _ _ (by decide)).trans (fld_setFld_fits _ hn)
    · exact (((ShownKept.rfl' _ s).write (f := CLK_STATE_PREV) _ (by decide)).write (f := CLK_STATE_STATE) _ (by decide)).write
        (f := CLK_STATE_CAUSE) _ (by decide)

/-- A message sent: what is shown stays, and so do the messages that wait. -/
theorem send_shown (s : State) (a k d : Nat) : (∀ f ∈ imageFlds, (s.send a k d).fld f = s.fld f) ∧
    (∀ src x, s.msgAt src = some x → (s.send a k d).msgAt src = some x) ∧
    ∀ src, a ≠ src → (s.send a k d).msgAt src = s.msgAt src := by
  refine ⟨fun f hf => ?_, fun src x hx => ?_, fun src hs => msgAt_sendAs_ne s _ _ _ _ hs⟩
  · refine (send_frame s a k d).2 f ?_
    revert f hf
    decide
  · by_cases hs : a = src
    · subst hs
      exact msgAt_sendAs_taken _ _ _ _ hx
    · exact (msgAt_sendAs_ne s _ _ _ _ hs).trans hx

/-- A message told is told whatever is sent after it. -/
theorem Told.later {src k d : Nat} {s t u : State} (h : Told src k d s t) (ht : ∀ x, t.msgAt src = some x → u.msgAt src = some x) :
    Told src k d s u := fun hs => ht _ (h hs)

theorem Told.earlier {src k d : Nat} {s t u : State} (h : Told src k d t u) (hs : s.msgAt src = none → t.msgAt src = none) :
    Told src k d s u := fun h0 => h (hs h0)

/-- HOLD_FOR_HOST entered (R413, R417). -/
theorem enterHold_spec (s : State) : s.enterHold.op = 3 ∧ s.enterHold.fld CFG_STAT_SLOT = 0 ∧ Told 0x3DB 0x2E 0 s s.enterHold ∧
    s.enterHold.ld = { s.ld with cand := [], reading := false, trial := {} } ∧
    (∀ x < 2, s.enterHold.fld (CFG_SLOT_STAT_CODE x) = s.fld (CFG_SLOT_STAT_CODE x)) ∧
    ∀ src y, s.msgAt src = some y → s.enterHold.msgAt src = some y := by
  unfold State.enterHold
  extract_lets u v ld w
  have hu : ShownKept shownFlds s u := .ite (enterState_shown s 1 (by decide)).2 (.rfl' _ s)
  obtain ⟨hop, he⟩ := enterState_shown u (new := 3) 1 (by decide)
  have hs := hu.trans he
  obtain ⟨hf, ht, -⟩ := send_shown w 0x3DB 0x2E 0
  have hld : ld = s.ld := by
    show (u.enterState 3 1).ld = s.ld
    rw [enterState_ld]
    exact ite_ld_eq (enterState_ld ..) rfl
  have hv (f : Fld) : w.fld f = v.fld f := rfl
  refine ⟨(hf CLK_STATE_STATE (by decide)).trans ?_, (hf CFG_STAT_SLOT (by decide)).trans ?_, ?_, ?_, fun x hx => ?_,
    fun src y hy => ?_⟩
  · exact (fld_setFld_ne (f := CFG_STAT_SLOT) (g := CLK_STATE_STATE) _ 0 (by decide)).trans hop
  · exact fld_setFld_fits (f := CFG_STAT_SLOT) _ (by decide : 0 < 2 ^ CFG_STAT_SLOT.w)
  · exact (told_send w 0x3DB 0x2E 0).earlier (hs.quiet 0x3DB (by decide))
  · rw [send_ld]
    show { ld with cand := [], reading := false, trial := {} } = _
    rw [hld]
  · have hmem : CFG_SLOT_STAT_CODE x ∈ shownFlds := by interval_cases x <;> decide
    have hne : CFG_STAT_SLOT.key ≠ (CFG_SLOT_STAT_CODE x).key := by interval_cases x <;> decide
    exact (hf _ (List.mem_cons_of_mem _ hmem)).trans ((hv _).trans ((fld_setFld_ne _ _ hne).trans (hs.flds _ hmem)))
  · exact ht _ _ (hs.told _ _ hy)

/-- How a candidate is given up (R413, R414): its code and its message, and the next one or HOLD_FOR_HOST. -/
def GivenUp (x code kind det : Nat) (rest : List Nat) (s t : State) : Prop :=
  t.fld (CFG_SLOT_STAT_CODE x) = code ∧ Told (0x3D8 + x) kind (code * 2 ^ 24 + det) s t ∧ t.ld.cand = rest ∧
    t.ld.flash = s.ld.flash ∧ t.ld.img = s.ld.img ∧ (rest = [] → t.op = 3 ∧ t.fld CFG_STAT_SLOT = 0 ∧ Told 0x3DB 0x2E 0 s t) ∧
    (rest ≠ [] → t.op = s.op ∧ t.ld.reading = true)

/-- The candidate with its failure shown, told and its sections cleared. -/
def State.failShown (s : State) (x n code kind det : Nat) : State :=
  let t := (s.setFld (CFG_SLOT_STAT_CODE x) code).send (0x3D8 + x) kind (code * 2 ^ 24 + det)
  ((t.sections x).take n).foldl (fun s e => s.clearSection x e) t

theorem failShown_spec (s : State) {x code : Nat} (n kind det : Nat) (hx : x < 2) (hc : code < 256) :
    (s.failShown x n code kind det).fld (CFG_SLOT_STAT_CODE x) = code ∧ (s.failShown x n code kind det).op = s.op ∧
    Told (0x3D8 + x) kind (code * 2 ^ 24 + det) s (s.failShown x n code kind det) ∧ (s.failShown x n code kind det).ld = s.ld ∧
    (s.msgAt 0x3DB = none → (s.failShown x n code kind det).msgAt 0x3DB = none) ∧
    ∀ src y, s.msgAt src = some y → (s.failShown x n code kind det).msgAt src = some y := by
  unfold State.failShown
  extract_lets t
  obtain ⟨hf, ht, hn⟩ := send_shown (s.setFld (CFG_SLOT_STAT_CODE x) code) (0x3D8 + x) kind (code * 2 ^ 24 + det)
  have hk : ImageKept t (((t.sections x).take n).foldl (fun s e => s.clearSection x e) t) :=
    .foldl (fun e _ u => shown_clearSection u x e) (.rfl' _ t)
  have hld : (((t.sections x).take n).foldl (fun s e => s.clearSection x e) t).ld = s.ld :=
    (foldl_ld (fun _ _ => clearSection_ld ..) _ _).trans (send_ld ..)
  have hmem : CFG_SLOT_STAT_CODE x ∈ imageFlds := by interval_cases x <;> decide
  have hop : CLK_STATE_STATE ∈ imageFlds := by decide
  refine ⟨(hk.flds _ hmem).trans ((hf _ hmem).trans (fld_setFld_fits _ hc)), hk.op.trans ((hf _ hop).trans (fld_setFld_ne _ _ ?_)),
    ?_, hld, fun h => hk.quiet _ (by decide) ((hn _ (by omega)).trans h), fun src y hy => hk.told _ _ (ht _ _ hy)⟩
  · interval_cases x <;> decide
  · have htold : Told (0x3D8 + x) kind (code * 2 ^ 24 + det) s t := fun hs => told_send (s.setFld (CFG_SLOT_STAT_CODE x) code) _ _ _ hs
    exact htold.later fun y hy => hk.told _ y hy

theorem failCandidate_spec {s : State} {x code c : Nat} {rest : List Nat} (n kind det : Nat) (hx : x < 2) (hc : code < 256)
    (hr : s.ld.cand = c :: rest) : GivenUp x code kind det rest s (s.failCandidate x n code kind det) ∧
      ∀ src y, s.msgAt src = some y → (s.failCandidate x n code kind det).msgAt src = some y := by
  obtain ⟨h1, h2, h3, h4, h5, h6⟩ := failShown_spec s n kind det hx hc
  have he : s.failCandidate x n code kind det =
      let t := s.failShown x n code kind det
      let u := { t with ld := { t.ld with cand := t.ld.cand.drop 1, reading := true, trial := {} } }
      if (t.ld.cand.drop 1).isEmpty then u.enterHold else u := rfl
  rw [he]
  extract_lets t ld u
  have hd : t.ld.cand.drop 1 = rest := by rw [h4, hr]; rfl
  have hu : u.ld = { s.ld with cand := rest, reading := true, trial := {} } := by
    show { t.ld with cand := t.ld.cand.drop 1, reading := true, trial := {} } = _
    rw [hd, h4]
  rw [hd]
  cases rest with
  | nil =>
    obtain ⟨g1, g2, g3, g4, g5, g6⟩ := enterHold_spec u
    rw [hu] at g4
    exact ⟨⟨(g5 x hx).trans h1, h3.later fun y hy => g6 _ y hy, (congrArg Loader.cand g4 :),
      (congrArg Loader.flash g4 :), (congrArg Loader.img g4 :),
      fun _ => ⟨g1, g2, g3.earlier h5⟩, fun h => absurd rfl h⟩, fun src y hy => g6 _ _ (h6 _ _ hy)⟩
  | cons y l =>
    exact ⟨⟨h1, h3, (congrArg Loader.cand hu :), (congrArg Loader.flash hu :), (congrArg Loader.img hu :), fun h => absurd h (by simp),
      fun _ => ⟨h2, (congrArg Loader.reading hu :)⟩⟩, h6⟩

/-! ### The candidate read, and the checks of VERIFY -/

theorem reading_guard {s : State} (hr : s.ld.reading = true) (ho : s.op = 1 ∨ s.op = 2) :
    ¬(!s.ld.reading || !(s.op == 1 || s.op == 2)) = true := by
  rcases ho with h | h <;> simp [hr, h]

theorem imageReadComplete_cand {s : State} {x : Nat} {rest : List Nat} (hr : s.ld.reading = true) (ho : s.op = 1 ∨ s.op = 2)
    (hc : s.ld.cand = (x + 1) :: rest) : imageReadComplete s =
      let l := s.sections x
      let good := l.takeWhile fun e => (shake256 (s.flBytes (slotBase x + e.ofs) e.len) 256).toNat == e.digest
      let t := (l.take (good.length + 1)).foldl (fun s e => s.applySection x e) (s.onTrial fun _ => {})
      if good.length < l.length then t.failCandidate x (good.length + 1) 5 0x29 0
      else { t with ld := { t.ld with reading := false } }.enterState 2 0x01 := by
  unfold imageReadComplete
  rw [if_neg (reading_guard hr ho), hc]
  rfl

theorem takeWhile_all {α : Type} {p : α → Bool} {l : List α} : (l.takeWhile p).length < l.length ↔ ∃ e ∈ l, p e = false := by
  rw [← not_iff_not, not_lt]
  push Not
  constructor
  · intro h e he
    have := (List.takeWhile_prefix p (l := l)).eq_of_length (le_antisymm (List.takeWhile_prefix p).length_le h)
    rw [← this] at he
    simpa using List.mem_takeWhile_imp he
  · intro h
    rw [List.takeWhile_eq_self_iff.mpr fun e he => by simpa using h e he]

/-- The sections applied so far. -/
theorem applied_frame (s : State) (x n : Nat) :
    let t := ((s.sections x).take n).foldl (fun s e => s.applySection x e) (s.onTrial fun _ => {})
    ImageKept s t ∧ TrialOnly s t := by
  have hi : ImageKept s (s.onTrial fun _ => {}) := shown_onTrial ..
  exact ⟨.foldl (fun e _ t => (applySection_frame t x e).1) hi,
    (trialOnly_onTrial s fun _ => {}).trans (.foldl (fun t e => (applySection_frame t x e).2) _ _)⟩

theorem imageReadComplete_good {s : State} {x : Nat} {rest : List Nat} (hr : s.ld.reading = true) (ho : s.op = 1 ∨ s.op = 2)
    (hc : s.ld.cand = (x + 1) :: rest)
    (hd : ∀ e ∈ s.sections x, (shake256 (s.flBytes (slotBase x + e.ofs) e.len) 256).toNat = e.digest) :
    (imageReadComplete s).op = 2 ∧ (imageReadComplete s).ld.reading = false ∧ (imageReadComplete s).ld.cand = s.ld.cand ∧
      (imageReadComplete s).ld.flash = s.ld.flash ∧ (imageReadComplete s).ld.img = s.ld.img := by
  rw [imageReadComplete_cand hr ho hc]
  extract_lets l good t ld
  rw [if_neg (fun h => by obtain ⟨e, he, hne⟩ := takeWhile_all.mp h; simp [hd e he] at hne)]
  have ht : t.ld = { s.ld with trial := t.ld.trial } := (applied_frame s x _).2
  refine ⟨(enterState_shown _ 1 (by decide)).1, ?_⟩
  rw [enterState_ld]
  exact ⟨rfl, (congrArg Loader.cand ht :), (congrArg Loader.flash ht :), (congrArg Loader.img ht :)⟩

/-- A candidate given up after a step that shows nothing. -/
theorem GivenUp.of_kept {x code kind det : Nat} {rest : List Nat} {s t u : State} (h : GivenUp x code kind det rest t u) (hx : x < 2)
    (hk : ImageKept s t) (hl : TrialOnly s t) : GivenUp x code kind det rest s u := by
  obtain ⟨h1, h2, h3, h4, h5, h6, h7⟩ := h
  have hq : 0x3D8 + x ∈ imageSrcs := by interval_cases x <;> decide
  refine ⟨h1, h2.earlier (hk.quiet _ hq), h3, h4.trans (congrArg Loader.flash hl :), h5.trans (congrArg Loader.img hl :), fun hr => ?_,
    fun hr => ?_⟩
  · obtain ⟨g1, g2, g3⟩ := h6 hr
    exact ⟨g1, g2, g3.earlier (hk.quiet _ (by decide))⟩
  · obtain ⟨g1, g2⟩ := h7 hr
    exact ⟨g1.trans hk.op, g2⟩

theorem imageReadComplete_bad {s : State} {x : Nat} {rest : List Nat} (hx : x < 2) (hr : s.ld.reading = true) (ho : s.op = 1 ∨ s.op = 2)
    (hc : s.ld.cand = (x + 1) :: rest)
    (hd : ∃ e ∈ s.sections x, (shake256 (s.flBytes (slotBase x + e.ofs) e.len) 256).toNat ≠ e.digest) :
    GivenUp x 5 0x29 0 rest s (imageReadComplete s) := by
  rw [imageReadComplete_cand hr ho hc]
  extract_lets l good t ld
  rw [if_pos (takeWhile_all.mpr (by simpa using hd))]
  obtain ⟨hk, hl⟩ := applied_frame s x (good.length + 1)
  have hct : t.ld.cand = (x + 1) :: rest := (congrArg Loader.cand hl :).trans hc
  exact (failCandidate_spec (good.length + 1) 0x29 0 hx (by decide) hct).1.of_kept hx hk hl

theorem imageReadComplete_none {s : State} (hr : s.ld.reading = true) (ho : s.op = 1 ∨ s.op = 2) (hc : s.ld.cand = []) :
    imageReadComplete s = s.enterHold := by
  unfold imageReadComplete
  rw [if_neg (reading_guard hr ho), hc]

theorem imageReadComplete_idle {s : State} (h : s.ld.reading = false ∨ (s.op ≠ 1 ∧ s.op ≠ 2)) : imageReadComplete s = s := by
  refine if_pos ?_
  rcases h with h | ⟨h1, h2⟩
  · simp [h]
  · simp [h1, h2]

/-- The image no longer waits for the security unit. -/
def State.unwaited (s : State) : State := { s with sec := { s.sec with imgWait := false } }

/-- One more verification counted. -/
def State.sealCounted (s : State) : State := s.count SEC_CNT_VERIFY SEC_CNT_OVF 1 1

/-- The owner slot whose key signed the image of slot x, if its key is an owner's (R378). -/
def State.imgOwner (s : State) (x : Nat) : Option Nat :=
  if s.bit SEC_STAT_BLANK = true then none else s.ownerOf (s.flBytes (slotBase x + 0xC20) 1793) 0

/-- The image's seal verifies. -/
def State.sealGood (s : State) (x : Nat) : Bool :=
  Config.falconVerify (s.flBytes (slotBase x + 0xC20) 1793) (leBytes 32 (shake256 (s.flBytes (slotBase x) 0x1400) 256).toNat)
    (s.flBytes (slotBase x + 0x1400) 1280)

/-- What check 0x06 answers, by its own checks in order (R378). -/
theorem sealCheck_eq (s : State) (x : Nat) : s.sealCheck x =
    match s.imgOwner x with
    | none => (none, s.secTell 0 0x20 0)
    | some o =>
      if s.sealGood x = false then (none, s.sealCounted.secTell 0 0x21 0)
      else if s.imgSvn x < s.fld SEC_STAT_ARB then (none, s.sealCounted.secTell 0 0x22 0)
      else (some o, s.sealCounted) := by
  have hsvn : s.sealCounted.imgSvn x = s.imgSvn x := by
    unfold State.imgSvn State.flRd State.sealCounted
    rw [count_ld]
  have harb : s.sealCounted.fld SEC_STAT_ARB = s.fld SEC_STAT_ARB := fld_count_ne s 1 1 (by decide) (by decide)
  have he : s.sealCheck x =
      match s.imgOwner x with
      | none => (none, s.secTell 0 0x20 0)
      | some o =>
        if !s.sealGood x then (none, s.sealCounted.secTell 0 0x21 0)
        else if s.sealCounted.imgSvn x < s.sealCounted.fld SEC_STAT_ARB then (none, s.sealCounted.secTell 0 0x22 0)
        else (some o, s.sealCounted) := rfl
  rw [he, hsvn, harb]
  cases s.sealGood x <;> rfl

/-- What becomes of the candidate once its seal has been checked (R414). -/
def State.judged (s : State) (x n : Nat) (o : Option Nat) : State :=
  match o, s.badPair x with
  | none, _ => s.failCandidate x n 6 0x2A 0
  | some _, some p => s.failCandidate x n 7 0x2B (s.entryDetail (some p)).1
  | some o, none =>
    if s.contentCode x = 0 then s.acceptImage x o
    else (s.entryDetail (s.badEntry x (s.contentCode x))).2.failCandidate x n (s.contentCode x) 0x2B
      (s.entryDetail (s.badEntry x (s.contentCode x))).1

theorem imageVerify_cand {s : State} {x : Nat} {rest : List Nat} (ho : s.op = 2) (hr : s.ld.reading = false)
    (hc : s.ld.cand = (x + 1) :: rest) (hs : s.secServing = false) :
    imageVerify s = (s.unwaited.sealCheck x).2.secNext.judged x (s.sections x).length (s.unwaited.sealCheck x).1 := by
  have hg : (s.op == 2 && !s.ld.reading) = true := by simp [ho, hr]
  unfold imageVerify
  rw [hg, hc]
  dsimp only
  rw [if_neg (by simp [hs])]
  rfl

theorem imageVerify_idle {s : State} (h : s.op ≠ 2 ∨ s.ld.reading = true ∨ s.ld.cand = []) : imageVerify s = s := by
  unfold imageVerify
  split
  next hg hc =>
    simp only [Bool.and_eq_true, beq_iff_eq, Bool.not_eq_true'] at hg
    simp [hg.1, hg.2, hc] at h
  · rfl

theorem imageVerify_waits {s : State} (ho : s.op = 2) (hr : s.ld.reading = false) (hc : s.ld.cand ≠ []) (hs : s.secServing = true) :
    imageVerify s = { s with sec := { s.sec with imgWait := true } } := by
  obtain ⟨c, l, hl⟩ := List.exists_cons_of_ne_nil hc
  have hg : (s.op == 2 && !s.ld.reading) = true := by simp [ho, hr]
  unfold imageVerify
  rw [hg, hl]
  exact if_pos hs

end Sys2Proof.Machine
end

section
/-! PROOFS. O48, third part: entry to PARKED, and VERIFY, which gives the candidate up or puts its image in force. -/
namespace Sys2Proof.Machine
open Sys2Proof

-- The proofs are checked one after another: many at a time need more memory than a compile may have.
set_option Elab.async false

/-! ### Entry to PARKED -/

theorem elsewhere_of_heldReg {a : Nat} (h : heldReg a = true) (hl : laneOf a = none) : Elsewhere a := by
  unfold heldReg at h
  rw [hl] at h
  simp only [Bool.or_false, Bool.or_eq_true, beq_iff_eq, Bool.and_eq_true, decide_eq_true_eq] at h
  rcases h with h | h
  · subst h
    decide
  · exact ⟨by omega, by omega, by omega, by omega⟩

theorem shown_applyHeld (s : State) {p : Nat × Nat} (h : heldReg p.1 = true) : ImageKept s (s.applyHeld p) := by
  unfold State.applyHeld
  split
  next l hl => exact shown_ctrlWrite s _ (laneOf_lt hl)
  next hl => exact shown_regWrite s _ _ (elsewhere_of_heldReg h hl)

theorem shown_tableSetup (s : State) : ImageKept s s.tableSetup := .each (fun _ _ t => shown_wr t ..) (.rfl' _ s)

theorem shown_selSeed (s : State) : ImageKept s s.selSeed := by
  refine .each (fun a ha t => ?_) (.rfl' _ s)
  have ha : a < 6 := by simpa [upto] using ha
  have h1 : Elsewhere (0x60110 + 64 * a) := ⟨by omega, by omega, by omega, by omega⟩
  have h2 : Elsewhere (0x60114 + 64 * a) := ⟨by omega, by omega, by omega, by omega⟩
  exact (((ShownKept.rfl' _ t).setFld (f := SEL_ARM_PTR_PTR a) _ h1).setFld (f := SEL_ARM_PTR_NCONF a) _ h1).setFld
    (f := SEL_ARM_STAT_CHARGE a) _ h2

theorem shown_selSetup (s : State) : ImageKept s s.selSetup := by
  have h (t : State) : ImageKept t t.selSeed.exclPending := (shown_selSeed t).setFld (f := SEL_EXCL_STAT_PENDING) _ (by decide)
  unfold State.selSetup
  refine ShownKept.trans ?_ (h _)
  exact .of_eq _ rfl rfl

theorem shown_pipSeed (s : State) : ImageKept s s.pipSeed := by
  refine .each (fun _ _ t => ?_) (.rfl' _ s)
  exact .of_eq _ rfl rfl

theorem shown_cmpSetup (s : State) : ImageKept s s.cmpSetup := by
  unfold State.cmpSetup State.auxLevel State.profPending
  refine ShownKept.setFld (f := CMP_PROF_STAT_PENDING) (ShownKept.setFld (f := CMP_AUX_STAT_FULL)
    (ShownKept.setFld (f := CMP_AUX_STAT_LEVEL) ?_ _ (by decide)) _ (by decide)) _ (by decide)
  exact .of_eq _ rfl rfl

theorem shown_driveErr (s : State) : ImageKept s s.driveErr :=
  ((ShownKept.rfl' _ s).setFld (f := FLT_STAT_ERR) _ (by decide)).trans (.of_eq _ rfl rfl)

theorem shown_journalRead (s : State) : ImageKept s s.journalRead.1 := by
  refine foldl_inv (fun a : State × List (List Nat) × Nat => ImageKept s a.1) _ (fun a x ha => ?_) _ _ (.rfl' _ s)
  have h := ha.trans (shown_readBytes a.1 (0x40000000 + 64 * x) 64)
  dsimp only
  split <;> exact h

theorem shown_setEnergy (s : State) (a v : Nat) (ha : 0xA0000 ≤ a ∧ a < 0xA1000) :
    ImageKept s (s.setEnergy (fun i => ⟨a + 4 * i, 0, 32, 0⟩) v) := by
  refine .foldl (fun i hi t => ?_) (.rfl' _ s)
  have hi : i < 4 := by simpa [upto] using hi
  have h : Elsewhere (a + 4 * i) := ⟨by omega, by omega, by omega, by omega⟩
  exact (ShownKept.rfl' _ t).setFld (f := ⟨a + 4 * i, 0, 32, 0⟩) _ h

theorem shown_journalRestore (s : State) : ImageKept s s.journalRestore := by
  unfold State.journalRestore
  have hr := shown_journalRead s
  split
  next u kept bad he =>
    have hu : ImageKept s u := by
      have : s.journalRead.1 = u := congrArg Prod.fst he
      exact this ▸ hr
    extract_lets v n
    have hv : ImageKept s v := .foldl (fun _ _ t =>
      ((ShownKept.rfl' _ t).count (c := NRG_CNT_JBAD) (o := NRG_CNT_OVF) _ _ (by decide) (by decide)).send _ _ (by decide)) hu
    have himp (t : State) (x : Nat) : ImageKept t (t.setEnergy NRG_IMP x) := shown_setEnergy t 0xA0040 x (by decide)
    have hexp (t : State) (x : Nat) : ImageKept t (t.setEnergy NRG_EXP x) := shown_setEnergy t 0xA0050 x (by decide)
    clear_value v n
    split
    next w _ =>
      extract_lets g x y z
      have hx : ImageKept s x := hv.trans (.of_eq _ rfl rfl)
      have hy : ImageKept s y := hx.trans ((himp ..).trans (hexp ..))
      have hz : ImageKept s z := (hy.setFld (f := NRG_STAT_SAT_IMP) _ (by decide)).setFld (f := NRG_STAT_SAT_EXP) _ (by decide)
      exact (hz.setFld (f := NRG_RSEQ) _ (by decide)).setFld (f := NRG_JSEQ) _ (by decide)
    next n' x y z _ _ =>
      have hx : ImageKept s x := hv.trans (.of_eq _ rfl rfl)
      have hy : ImageKept s y := hx.trans ((himp ..).trans (hexp ..))
      have hz : ImageKept s z := (((hy.setFld (f := NRG_STAT_SAT_IMP) _ (by decide)).setFld (f := NRG_STAT_SAT_EXP) _ (by decide)).setFld
        (f := NRG_RSEQ) _ (by decide)).setFld (f := NRG_JSEQ) _ (by decide)
      exact (hz.setFld (f := NRG_STAT_JNEW) 1 (by decide)).send _ _ (by decide)

theorem shown_keyStore (s : State) {n : Nat} (id : Nat) (key : List Byte) (hn : n < 8) : ImageKept s (s.keyStore n id key) := by
  unfold State.keyStore
  extract_lets u v m
  have ha : Elsewhere (0xB0070 + 4 * (n / 2)) := ⟨by omega, by omega, by omega, by omega⟩
  have hu : ImageKept s u := by
    have h : ImageKept s (s.flagBit SEC_PKEY_VALID n) := (ShownKept.rfl' _ s).flagBit n (by decide)
    unfold u
    split
    · exact h.setFld (f := SEC_PKID_ID0 (n / 2)) _ ha
    · exact h.setFld (f := SEC_PKID_ID1 (n / 2)) _ ha
  exact (hu.trans (shown_writeBytes ..)).withMem _

theorem shown_restoreKey (s : State) (ok : Bool) {n : Nat} (hn : n < 8) : ImageKept s (s.restoreKey ok n) := by
  have hnone (t : State) : ImageKept t ((t.unflagBit SEC_PKEY_VALID n).writeBytes (keyAddr n) (List.replicate 32 0)) :=
    ((ShownKept.rfl' _ t).setFld (f := SEC_PKEY_VALID) _ (by decide)).trans (shown_writeBytes ..)
  have hopen : ImageKept s (s.openBlob (portBlobAddr n) 40).2 := by
    have h := shown_readBytes s (portBlobAddr n) (40 + 32)
    unfold State.openBlob
    split
    next r u hu =>
      have : (s.readBytes (portBlobAddr n) (40 + 32)).2 = u := congrArg Prod.snd hu
      have h : ImageKept s u := this ▸ h
      split <;> exact h
  unfold State.restoreKey
  extract_lets a none_
  refine .ite (hnone s) ?_
  split
  next r u hu =>
    have : (s.openBlob a 40).2 = u := congrArg Prod.snd hu
    have h : ImageKept s u := this ▸ hopen
    split
    · exact h.trans (shown_keyStore u _ _ hn)
    · exact (h.trans (hnone u)).send _ _ (by decide)

theorem shown_restoreKeys (s : State) (ok : Nat) : ImageKept s (s.restoreKeys ok) := by
  have h : ImageKept s ((upto 8).foldl (fun s n => s.restoreKey (tbit ok n) n) s) :=
    .foldl (fun n hn t => shown_restoreKey t _ (by simpa [upto] using hn)) (.rfl' _ s)
  exact h.write (f := SEC_STAT_KEYS_LOADED) 1 (by decide)

theorem shown_showSeq (s : State) : ImageKept s s.showSeq :=
  ((ShownKept.rfl' _ s).setFld (f := SEQ_STAT_MODE) _ (by decide)).setFld (f := SEQ_STAT_NMI_PEND) _ (by decide)

theorem shown_seqBoot (s : State) : ImageKept s s.seqBoot := by
  have hstart (t : State) (vec entry : Nat) (clear : Bool) : ImageKept t (t.seqStart vec entry clear) := by
    unfold State.seqStart
    extract_lets q u
    have hu : ImageKept t u := .of_eq _ rfl rfl
    exact (hu.setFld (f := SEQ_STAT_ENTRY) _ (by decide)).trans (shown_showSeq _)
  unfold State.seqBoot
  extract_lets x u
  have hu : ImageKept s u := .of_eq _ rfl rfl
  exact (hu.setFld (f := SEQ_EVT) 0 (by decide)).trans (hstart ..)

theorem shown_setRole (s : State) (role sub : Nat) : ImageKept s (s.setRole role sub) :=
  .ite (.rfl' _ s) ((((ShownKept.rfl' _ s).setFld (f := RED_STAT_ROLE) _ (by decide)).setFld (f := RED_STAT_SUB) _ (by decide)).trans
    (shown_seqEvent ..))

theorem shown_roleChange (s : State) (role sub reason : Nat) : ImageKept s (s.roleChange role sub reason) :=
  .ite ((shown_setRole s role sub).withSeq _) (shown_setRole s role sub)

theorem shown_storedEpoch (s : State) : ImageKept s s.storedEpoch.2 := by
  have h := shown_readBytes s epochAddr 4
  unfold State.storedEpoch
  split
  next l u hu => exact (congrArg Prod.snd hu : (s.readBytes epochAddr 4).2 = u) ▸ h
  next u hu =>
    have : (s.readBytes epochAddr 4).2 = u := congrArg Prod.snd hu
    exact (this ▸ h : ImageKept s u).trans (.of_eq _ rfl rfl)

theorem shown_setEpoch (s : State) (e : Nat) : ImageKept s (s.setEpoch e) := by
  have h : ImageKept s (s.setFld RED_EPOCH_EPOCH e) := (ShownKept.rfl' _ s).setFld _ (by decide)
  exact .ite (.rfl' _ s) (h.trans (.ite (.rfl' _ _) (shown_writeBytes ..)))

theorem shown_becomeActive (s : State) (reason : Nat) : ImageKept s (s.becomeActive reason) := by
  have h := shown_storedEpoch s
  unfold State.becomeActive
  split
  next stored u hu =>
    have : s.storedEpoch.2 = u := congrArg Prod.snd hu
    have h : ImageKept s u := this ▸ h
    refine .ite ?_ ?_
    · exact (h.setFld (f := RED_STAT_EPOCH_EXH) 1 (by decide)).send _ _ (by decide)
    · exact ((h.trans (shown_setEpoch ..)).trans (shown_roleChange ..)).withRed _

theorem shown_becomeStandby (s : State) (sub reason : Nat) : ImageKept s (s.becomeStandby sub reason) :=
  (shown_roleChange s 2 sub reason).withRed _

theorem shown_pairEnter (s : State) : ImageKept s s.pairEnter := by
  have hd (t : State) (r : Nat) : ImageKept t (t.roleDecide r) :=
    .ite (.rfl' _ t) (.ite (shown_becomeStandby t 0 0) (.ite (.ite (shown_becomeStandby t 0 0) (shown_becomeActive t 0)) (.rfl' _ t)))
  have hw : ImageKept s { s.setRole 0 0 with red := { s.red with waitFrom := some s.now } } := (shown_setRole s 0 0).withRed _
  unfold State.pairEnter
  refine .ite (shown_becomeActive s 0) ?_
  extract_lets r u
  split
  · exact .ite (hw.trans (hd _ _)) hw
  · exact hw

/-- Fields set one after the other, each apart from the others. -/
theorem fld_foldl_setFld {f : Nat → Fld} (v : Nat → Nat) (hf : ∀ i j, i ≠ j → (f i).key ≠ (f j).key) (s : State) (n : Nat) :
    (∀ i < n, ((upto n).foldl (fun s i => s.setFld (f i) (v i)) s).fld (f i) = v i % 2 ^ (f i).w) ∧
      ∀ g : Fld, (∀ i < n, (f i).key ≠ g.key) → ((upto n).foldl (fun s i => s.setFld (f i) (v i)) s).fld g = s.fld g := by
  unfold upto
  induction n with
  | zero => exact ⟨fun i hi => absurd hi (by omega), fun _ _ => rfl⟩
  | succ n ih =>
    obtain ⟨h1, h2⟩ := ih
    rw [List.range_succ, List.foldl_append]
    refine ⟨fun i hi => ?_, fun g hg => ?_⟩
    · by_cases he : i = n
      · rw [he]
        exact fld_setFld_same ..
      · exact (fld_setFld_ne _ _ (hf n i (Ne.symm he))).trans (h1 i (by omega))
    · exact (fld_setFld_ne _ _ (hg n (by omega))).trans (h2 g fun i hi => hg i (by omega))

/-- Every bank shown as A. -/
def State.banksReset (s : State) : State := s.each (upto 6) fun s i => s.setFld (CE_BANK_ACT i) 0

theorem banksReset_spec (s : State) : (∀ i < 6, s.banksReset.fld (CE_BANK_ACT i) = 0) ∧
    ∀ f : Fld, (∀ i < 6, (CE_BANK_ACT i).key ≠ f.key) → s.banksReset.fld f = s.fld f := by
  have hk (i j : Nat) (hij : i ≠ j) : (CE_BANK_ACT i).key ≠ (CE_BANK_ACT j).key := by
    have : 32 * (0x40010 + 4 * i) + 0 ≠ 32 * (0x40010 + 4 * j) + 0 := by omega
    exact this
  exact fld_foldl_setFld (fun _ => 0) hk s 6

theorem banksReset_told (s : State) (src : Nat) : s.banksReset.msgAt src = s.msgAt src :=
  foldl_inv (fun t : State => t.msgAt src = s.msgAt src) (fun s i => s.setFld (CE_BANK_ACT i) 0) (fun _ _ ht => ht) _ _ rfl

/-- The sequencer runs on where it stands. -/
def RunsOn (s t : State) : Prop := t.seq.pc = s.seq.pc ∧ t.seq.run = s.seq.run

theorem RunsOn.trans {s t u : State} (h : RunsOn s t) (k : RunsOn t u) : RunsOn s u := ⟨k.1.trans h.1, k.2.trans h.2⟩

theorem RunsOn.ite {c : Prop} [Decidable c] {s t u : State} (ht : RunsOn s t) (hu : RunsOn s u) : RunsOn s (if c then t else u) := by
  split <;> assumption

theorem ReadFrame.runsOn {s t : State} (h : ReadFrame s t) : RunsOn s t := by
  rw [h.1]
  exact ⟨rfl, rfl⟩

theorem runsOn_setRole (s : State) (role sub : Nat) : RunsOn s (s.setRole role sub) := .ite ⟨rfl, rfl⟩ ⟨rfl, rfl⟩

theorem runsOn_roleChange (s : State) (role sub reason : Nat) : RunsOn s (s.roleChange role sub reason) :=
  .ite (runsOn_setRole s role sub) (runsOn_setRole s role sub)

theorem readFrame_storedEpoch (s : State) : ReadFrame s s.storedEpoch.2 := by
  have h := readFrame_readBytes s epochAddr 4
  unfold State.storedEpoch
  split
  next l u hu => exact readFrame_of_eq h hu
  next u hu => exact (readFrame_of_eq h hu).draw 24

theorem runsOn_setEpoch (s : State) (e : Nat) : RunsOn s (s.setEpoch e) := by
  have h (t : State) : RunsOn t t.storeEpoch := .ite ⟨rfl, rfl⟩ (readFrame_writeBytes ..).runsOn
  exact .ite ⟨rfl, rfl⟩ (RunsOn.trans (t := s.setFld RED_EPOCH_EPOCH e) ⟨rfl, rfl⟩ (h _))

theorem runsOn_becomeActive (s : State) (reason : Nat) : RunsOn s (s.becomeActive reason) := by
  have h := readFrame_storedEpoch s
  unfold State.becomeActive
  split
  next stored u hu =>
    have hu : RunsOn s u := (readFrame_of_eq h hu).runsOn
    refine .ite (hu.trans ((ReadFrame.refl _).send ..).runsOn) ?_
    exact (hu.trans (runsOn_setEpoch ..)).trans (runsOn_roleChange ..)

theorem runsOn_pairEnter (s : State) : RunsOn s s.pairEnter := by
  have hs (t : State) : RunsOn t (t.becomeStandby 0 0) := runsOn_roleChange t 2 0 0
  have hd (t : State) (r : Nat) : RunsOn t (t.roleDecide r) :=
    .ite ⟨rfl, rfl⟩ (.ite (hs t) (.ite (.ite (hs t) (runsOn_becomeActive t 0)) ⟨rfl, rfl⟩))
  have hw : RunsOn s { s.setRole 0 0 with red := { s.red with waitFrom := some s.now } } := runsOn_setRole s 0 0
  unfold State.pairEnter
  refine .ite (runsOn_becomeActive s 0) ?_
  extract_lets r u
  split
  · exact .ite (hw.trans (hd _ _)) hw
  · exact hw

theorem seqBoot_runs (s : State) : s.seqBoot.seq.pc = 0x38000000 ∧ s.seqBoot.seq.run = true := ⟨rfl, rfl⟩

theorem parked_runs (s : State) : s.seqBoot.pairEnter.seq.pc = 0x38000000 ∧ s.seqBoot.pairEnter.seq.run = true := by
  obtain ⟨h1, h2⟩ := runsOn_pairEnter s.seqBoot
  obtain ⟨g1, g2⟩ := seqBoot_runs s
  rw [h1, h2]
  exact ⟨g1, g2⟩

/-- The tables of the image in force at entry to PARKED (R416). -/
def State.parkedTables (s : State) : State :=
  let s := s.enterState 4 0x01
  let s := s.ld.img.held.foldl State.applyHeld s
  let s := s.each s.ld.img.used portUp
  s.tableSetup.selSetup

/-- The channels, the protection and the pins at entry to PARKED. -/
def State.parkedPins (s : State) : State :=
  let s := (s.each (upto 192) State.primeChan).pipSeed.cmpSetup
  let prot := { s.prot with cmpOn := true, slRan := [], boHold := false }
  let s := { s with prot := prot, sump := { s.sump with errState := false } }
  s.driveBlockOut.driveErr

/-- The records, the keys, the sequencer and the pair at entry to PARKED. -/
def State.parkedUnits (s : State) : State := ((s.journalRestore.restoreKeys 0xFF).seqBoot).pairEnter

theorem enterParked_eq (s : State) :
    s.enterParked = s.parkedTables.banksReset.parkedPins.parkedUnits.setFld CFG_STAT_MODIFIED 0 := rfl

theorem parkedTables_spec {s : State} (hh : ∀ p ∈ s.ld.img.held, heldReg p.1 = true) : s.parkedTables.op = 4 ∧
    ShownKept shownFlds s s.parkedTables := by
  unfold State.parkedTables
  extract_lets t u v
  obtain ⟨hop, hs⟩ := enterState_shown s (new := 4) 1 (by decide)
  have hu : ImageKept t u := .foldl (fun p hp r => shown_applyHeld r (hh p (by rw [← enterState_ld s 4 1]; exact hp))) (.rfl' _ t)
  have hv : ImageKept t v := hu.trans (.each (fun l _ r => shown_portUp r l) (.rfl' _ u))
  have hw : ImageKept t v.tableSetup.selSetup := (hv.trans (shown_tableSetup v)).trans (shown_selSetup _)
  exact ⟨hw.op.trans hop, hs.trans ⟨fun f hf => hw.flds f (List.mem_cons_of_mem _ hf), hw.told, hw.quiet⟩⟩

theorem shown_parkedPins (s : State) : ImageKept s s.parkedPins := by
  have ha (t : State) (p : Prot) : ImageKept t ({ t with prot := p, sump := { t.sump with errState := false } }) := .of_eq _ rfl rfl
  have hy : ImageKept s (s.each (upto 192) State.primeChan).pipSeed.cmpSetup :=
    ((ShownKept.each (fun c _ r => shown_primeChan r c) (.rfl' _ s)).trans (shown_pipSeed _)).trans (shown_cmpSetup _)
  unfold State.parkedPins
  generalize (s.each (upto 192) State.primeChan).pipSeed.cmpSetup = y at *
  exact ((hy.trans (ha y _)).trans (shown_driveBlockOut _)).trans (shown_driveErr _)

theorem shown_parkedUnits (s : State) : ImageKept s s.parkedUnits :=
  (((shown_journalRestore s).trans (shown_restoreKeys _ 0xFF)).trans (shown_seqBoot _)).trans (shown_pairEnter _)

theorem parkedUnits_runs (s : State) : s.parkedUnits.seq.pc = 0x38000000 ∧ s.parkedUnits.seq.run = true := by
  unfold State.parkedUnits
  exact parked_runs _

/-- PARKED entered (R416): the state, the banks and the sequencer, and what stays shown. -/
theorem enterParked_spec {s : State} (hh : ∀ p ∈ s.ld.img.held, heldReg p.1 = true) : s.enterParked.op = 4 ∧
    (∀ f ∈ shownFlds, (∀ i < 6, (CE_BANK_ACT i).key ≠ f.key) → s.enterParked.fld f = s.fld f) ∧
    (∀ src y, s.msgAt src = some y → s.enterParked.msgAt src = some y) ∧ s.enterParked.fld CFG_STAT_MODIFIED = 0 ∧
    s.enterParked.seq.pc = 0x38000000 ∧ s.enterParked.seq.run = true ∧ ∀ i < 6, s.enterParked.fld (CE_BANK_ACT i) = 0 := by
  obtain ⟨hop, hs⟩ := parkedTables_spec hh
  obtain ⟨hpc, hrun⟩ := parkedUnits_runs s.parkedTables.banksReset.parkedPins
  have hc := (shown_parkedPins s.parkedTables.banksReset).trans (shown_parkedUnits _)
  rw [enterParked_eq]
  generalize s.parkedTables.banksReset.parkedPins.parkedUnits = c at *
  generalize s.parkedTables = w at *
  obtain ⟨hzero, hx⟩ := banksReset_spec w
  have htold := banksReset_told w
  generalize w.banksReset = x at *
  have hend : ImageKept x (c.setFld CFG_STAT_MODIFIED 0) := hc.write 0 (by decide)
  refine ⟨?_, fun f hf hb => ?_, fun src q hq => ?_, ?_, hpc, hrun, fun i hi => ?_⟩
  · exact hend.op.trans ((hx CLK_STATE_STATE (by decide)).trans hop)
  · exact (hend.flds f (List.mem_cons_of_mem _ hf)).trans ((hx f hb).trans (hs.flds f hf))
  · exact hend.told _ _ ((htold src).trans (hs.told _ _ hq))
  · exact fld_setFld_fits (f := CFG_STAT_MODIFIED) c (by decide : 0 < 2 ^ CFG_STAT_MODIFIED.w)
  · have hm : CE_BANK_ACT i ∈ imageFlds := by interval_cases i <;> decide
    exact (hend.flds _ hm).trans (hzero i hi)

/-! ### The image accepted -/

/-- A number from its digits of 32 bits. -/
theorem foldl_digits (d : Nat → Nat) (h n : Nat) (hd : ∀ i < n, d i = h / 2 ^ (32 * i) % 2 ^ 32) :
    (upto n).foldl (fun v i => v + d i * 2 ^ (32 * i)) 0 = h % 2 ^ (32 * n) := by
  unfold upto
  induction n with
  | zero => simp [Nat.mod_one]
  | succ n ih =>
    rw [List.range_succ, List.foldl_append, ih fun i hi => hd i (by omega)]
    show h % 2 ^ (32 * n) + d n * 2 ^ (32 * n) = _
    rw [hd n (by omega), Nat.mul_add, Nat.pow_add, Nat.mod_mul, Nat.mul_comm (2 ^ (32 * n))]

/-- The hash shown. -/
def State.hashShown (s : State) (h : Nat) : State := (upto 8).foldl (fun s i => s.setFld (CFG_HASH i) (h / 2 ^ (32 * i) % 2 ^ 32)) s

/-- The image of slot x shown, with its owner and its hash. -/
def State.imageShown (s : State) (x owner h gen svn : Nat) : State :=
  ((((s.hashShown h).flag (CFG_SLOT_STAT_PASSED x)).setFld CFG_STAT_SLOT (x + 1)).setFld CFG_GEN gen).setFld SEC_STAT_SVN svn |>.setFld
    SEC_STAT_IMG_SLOT owner

/-- FALLBACK shown and told unless the slot was the first tried (R412). -/
def State.fallbackShown (s : State) (x : Nat) : State :=
  if s.ld.first = x + 1 then s else (s.flag CFG_STAT_FALLBACK).send (0x3D8 + x) 0x2C 0

/-- The image of slot x taken over from the candidate. -/
def State.imageTaken (s : State) (x h : Nat) : State :=
  { s with ld := { s.ld with img := { s.ld.trial with gen := s.imgGen x, svn := s.imgSvn x, hash := h }, trial := {}, cand := [],
                             reading := false } }

theorem hashShown_ld (s : State) (h : Nat) : (s.hashShown h).ld = s.ld :=
  foldl_ld (fun t i => setFld_ld t (CFG_HASH i) (h / 2 ^ (32 * i) % 2 ^ 32)) _ _

theorem fallbackShown_ld (s : State) (x : Nat) : (s.fallbackShown x).ld = s.ld := ite_ld_eq rfl (send_ld ..)

theorem accepted_eq (s : State) (x owner h : Nat) : s.accepted x owner h =
    (((s.imageShown x owner h (s.imgGen x) (s.imgSvn x)).fallbackShown x).imageTaken x h).enterParked := by
  have hg : (s.hashShown h).imgGen x = s.imgGen x := by
    unfold State.imgGen State.flRd
    rw [hashShown_ld]
  have hv : (s.hashShown h).imgSvn x = s.imgSvn x := by
    unfold State.imgSvn State.flRd
    rw [hashShown_ld]
  rw [← hg, ← hv]
  rfl

theorem imgGen_lt (s : State) (x : Nat) : s.imgGen x < 2 ^ 32 := crd_lt ..

theorem imgSvn_lt (s : State) (x : Nat) : s.imgSvn x < 2 ^ 8 := crd_lt ..

theorem hashShown_spec (s : State) (h : Nat) : (∀ i < 8, (s.hashShown h).fld (CFG_HASH i) = h / 2 ^ (32 * i) % 2 ^ 32) ∧
    ∀ g : Fld, (∀ i < 8, (CFG_HASH i).key ≠ g.key) → (s.hashShown h).fld g = s.fld g := by
  have hk (i j : Nat) (hij : i ≠ j) : (CFG_HASH i).key ≠ (CFG_HASH j).key := by
    have : 32 * (0xC0010 + 4 * i) + 0 ≠ 32 * (0xC0010 + 4 * j) + 0 := by omega
    exact this
  obtain ⟨hd, hn⟩ := fld_foldl_setFld (fun i => h / 2 ^ (32 * i) % 2 ^ 32) hk s 8
  exact ⟨fun i hi => (hd i hi).trans (Nat.mod_mod _ _), hn⟩

theorem imageShown_spec (s : State) {x owner h gen svn : Nat} (hx : x < 2) (ho : owner < 4) (hg : gen < 2 ^ 32)
    (hs : svn < 2 ^ 8) : let t := s.imageShown x owner h gen svn
    t.fld CFG_STAT_SLOT = x + 1 ∧ t.fld (CFG_SLOT_STAT_PASSED x) = 1 ∧ t.fld CFG_GEN = gen ∧
      (∀ i < 8, t.fld (CFG_HASH i) = h / 2 ^ (32 * i) % 2 ^ 32) ∧
      t.fld SEC_STAT_SVN = svn ∧ t.fld SEC_STAT_IMG_SLOT = owner ∧ t.fld CFG_STAT_FALLBACK = s.fld CFG_STAT_FALLBACK ∧
      ∀ src, t.msgAt src = s.msgAt src := by
  obtain ⟨hd, hn⟩ := hashShown_spec s h
  have hslot : x + 1 < 2 ^ CFG_STAT_SLOT.w := by
    show x + 1 < 2 ^ 2
    omega
  have hmsg : ∀ src, (s.hashShown h).msgAt src = s.msgAt src := fun src =>
    foldl_inv (fun t : State => t.msgAt src = s.msgAt src) (fun s i => s.setFld (CFG_HASH i) (h / 2 ^ (32 * i) % 2 ^ 32))
      (fun _ _ ht => ht) _ _ rfl
  dsimp only
  unfold State.imageShown State.flag
  generalize s.hashShown h = u at hd hn hmsg
  have hlast (v : State) (g : Fld) (hg : ∀ f ∈ [CFG_GEN, SEC_STAT_SVN, SEC_STAT_IMG_SLOT], g.key ≠ f.key) :
      (((v.setFld CFG_GEN gen).setFld SEC_STAT_SVN svn).setFld SEC_STAT_IMG_SLOT owner).fld g = v.fld g :=
    ((((sameRegs_refl _ v).setFld _ (by simp)).setFld _ (by simp)).setFld _ (by simp)) g hg
  refine ⟨(hlast _ _ (by decide)).trans (fld_setFld_fits _ hslot), ?_, ?_, fun i hi => ?_, ?_, fld_setFld_fits _ ho, ?_, hmsg⟩
  · have hne : CFG_STAT_SLOT.key ≠ (CFG_SLOT_STAT_PASSED x).key := by interval_cases x <;> decide
    refine (hlast _ _ ?_).trans ((fld_setFld_ne _ _ hne).trans (fld_setFld_fits (f := CFG_SLOT_STAT_PASSED x) _ (by decide : 1 < 2 ^ 1)))
    interval_cases x <;> decide
  · exact (fld_setFld_ne _ _ (by decide)).trans ((fld_setFld_ne _ _ (by decide)).trans (fld_setFld_fits _ hg))
  · have hp : (CFG_SLOT_STAT_PASSED x).key ≠ (CFG_HASH i).key := by interval_cases x <;> interval_cases i <;> decide
    have hs : CFG_STAT_SLOT.key ≠ (CFG_HASH i).key := by interval_cases i <;> decide
    refine (hlast _ _ ?_).trans ((fld_setFld_ne _ _ hs).trans ((fld_setFld_ne _ _ hp).trans (hd i hi)))
    interval_cases i <;> decide
  · exact (fld_setFld_ne _ _ (by decide)).trans (fld_setFld_fits _ hs)
  · have hp : (CFG_SLOT_STAT_PASSED x).key ≠ CFG_STAT_FALLBACK.key := by interval_cases x <;> decide
    exact (hlast _ _ (by decide)).trans ((fld_setFld_ne _ _ (by decide)).trans ((fld_setFld_ne _ _ hp).trans (hn _ (by decide))))

theorem fallbackShown_spec (s : State) (x : Nat) :
    (∀ f ∈ imageFlds, CFG_STAT_FALLBACK.key ≠ f.key → (s.fallbackShown x).fld f = s.fld f) ∧
      (s.ld.first = x + 1 → (s.fallbackShown x).fld CFG_STAT_FALLBACK = s.fld CFG_STAT_FALLBACK) ∧
      (s.ld.first ≠ x + 1 → (s.fallbackShown x).fld CFG_STAT_FALLBACK = 1 ∧ Told (0x3D8 + x) 0x2C 0 s (s.fallbackShown x)) ∧
      ∀ src y, s.msgAt src = some y → (s.fallbackShown x).msgAt src = some y := by
  unfold State.fallbackShown
  split
  next h => exact ⟨fun _ _ _ => rfl, fun _ => rfl, fun hn => absurd h hn, fun _ _ hy => hy⟩
  next h =>
    obtain ⟨hf, ht, -⟩ := send_shown (s.flag CFG_STAT_FALLBACK) (0x3D8 + x) 0x2C 0
    refine ⟨fun f hm hk => (hf f hm).trans (fld_setFld_ne _ _ hk), fun h' => absurd h' h, fun _ => ⟨?_, fun h0 => ?_⟩, ht⟩
    · exact (hf _ (by decide)).trans (fld_setFld_fits (f := CFG_STAT_FALLBACK) s (by decide : 1 < 2 ^ CFG_STAT_FALLBACK.w))
    · exact told_send (s.flag CFG_STAT_FALLBACK) (0x3D8 + x) 0x2C 0 h0

/-- The image of slot x put in force (R407, R412, R416). -/
theorem accepted_spec {s : State} {x owner h : Nat} (hx : x < 2) (ho : owner < 4) (hh256 : h < 2 ^ 256)
    (hh : ∀ p ∈ s.ld.trial.held, heldReg p.1 = true) :
    let t := s.accepted x owner h
    t.op = 4 ∧ t.fld CFG_STAT_SLOT = x + 1 ∧ t.fld (CFG_SLOT_STAT_PASSED x) = 1 ∧ t.fld CFG_GEN = s.imgGen x ∧ t.wide CFG_HASH = h ∧
      t.fld SEC_STAT_SVN = s.imgSvn x ∧ t.fld SEC_STAT_IMG_SLOT = owner ∧ t.ld.cand = [] ∧ t.ld.img.cells = s.ld.trial.cells ∧
      t.ld.img.hash = h ∧ t.fld CFG_STAT_MODIFIED = 0 ∧ t.seq.pc = 0x38000000 ∧ t.seq.run = true ∧
      (∀ i : Fin 6, t.fld (CE_BANK_ACT i) = 0) ∧ (s.ld.first = x + 1 → t.fld CFG_STAT_FALLBACK = s.fld CFG_STAT_FALLBACK) ∧
      (s.ld.first ≠ x + 1 → t.fld CFG_STAT_FALLBACK = 1 ∧ Told (0x3D8 + x) 0x2C 0 s t) := by
  dsimp only
  rw [accepted_eq]
  obtain ⟨h1, h2, h3, h4, h5, h6, h7, h8⟩ := imageShown_spec s (h := h) hx ho (imgGen_lt s x) (imgSvn_lt s x)
  have hld : (s.imageShown x owner h (s.imgGen x) (s.imgSvn x)).ld = s.ld := hashShown_ld s h
  generalize s.imageShown x owner h (s.imgGen x) (s.imgSvn x) = u at h1 h2 h3 h4 h5 h6 h7 h8 hld
  obtain ⟨g1, g2, g3, g4⟩ := fallbackShown_spec u x
  have hv : (u.fallbackShown x).ld = s.ld := (fallbackShown_ld u x).trans hld
  generalize u.fallbackShown x = v at g1 g2 g3 g4 hv
  have hw : (v.imageTaken x h).ld.img.held = s.ld.trial.held := by
    show v.ld.trial.held = _
    rw [hv]
  have hcells : (v.imageTaken x h).ld.img.cells = s.ld.trial.cells := by
    show v.ld.trial.cells = _
    rw [hv]
  have hfld (f : Fld) : (v.imageTaken x h).fld f = v.fld f := rfl
  have hmsg (src : Nat) : (v.imageTaken x h).msgAt src = v.msgAt src := rfl
  have hcand : (v.imageTaken x h).ld.cand = [] := rfl
  have hhash : (v.imageTaken x h).ld.img.hash = h := rfl
  generalize v.imageTaken x h = w at hw hcells hfld hmsg hcand hhash
  obtain ⟨e1, e2, e3, e4, e5, e6, e7⟩ := enterParked_spec (s := w) (fun p hp => hh p (hw ▸ hp))
  have hle : w.enterParked.ld = w.ld := enterParked_ld w
  generalize w.enterParked = t at e1 e2 e3 e4 e5 e6 e7 hle
  have hkeep (f : Fld) (hm : f ∈ shownFlds) (hb : ∀ i < 6, (CE_BANK_ACT i).key ≠ f.key) (hn : CFG_STAT_FALLBACK.key ≠ f.key) :
      t.fld f = u.fld f := (e2 f hm hb).trans ((hfld f).trans (g1 f (List.mem_cons_of_mem _ hm) hn))
  have hfb : t.fld CFG_STAT_FALLBACK = v.fld CFG_STAT_FALLBACK := (e2 _ (by decide) (by decide)).trans (hfld _)
  have hpass : t.fld (CFG_SLOT_STAT_PASSED x) = u.fld (CFG_SLOT_STAT_PASSED x) := by
    interval_cases x <;> exact hkeep _ (by decide) (by decide) (by decide)
  have hwide : t.wide CFG_HASH = h := by
    refine (foldl_digits (fun i => t.fld (CFG_HASH i)) h 8 fun i hi => ?_).trans (Nat.mod_eq_of_lt hh256)
    refine Eq.trans ?_ (h4 i hi)
    interval_cases i <;> exact hkeep _ (by decide) (by decide) (by decide)
  have hplain (f : Fld) (hm : f ∈ [CFG_STAT_SLOT, CFG_GEN, SEC_STAT_SVN, SEC_STAT_IMG_SLOT]) : t.fld f = u.fld f := by
    simp only [List.mem_cons, List.not_mem_nil, or_false] at hm
    rcases hm with rfl | rfl | rfl | rfl <;> exact hkeep _ (by decide) (by decide) (by decide)
  refine ⟨e1, (hplain _ (by simp)).trans h1, hpass.trans h2, (hplain _ (by simp)).trans h3, hwide, (hplain _ (by simp)).trans h5,
    (hplain _ (by simp)).trans h6, ?_, ?_, ?_, e4, e5, e6, fun i => e7 i i.isLt, fun hf => ?_, fun hf => ⟨?_, ?_⟩⟩
  · rw [hle, hcand]
  · rw [hle, hcells]
  · rw [hle, hhash]
  · exact hfb.trans ((g2 (by rw [hld]; exact hf)).trans h7)
  · exact hfb.trans (g3 (by rw [hld]; exact hf)).1
  · have htold := (g3 (by rw [hld]; exact hf)).2
    exact (htold.later fun y hy => e3 _ y ((hmsg _).trans hy)).earlier fun h0 => (h8 _).trans h0

/-! ### VERIFY -/

theorem sealCounted_kept (s : State) : ImageKept s s.unwaited.sealCounted ∧ ChecksKept s s.unwaited.sealCounted ∧
    s.unwaited.sealCounted.nrg = s.nrg ∧ s.unwaited.sealCounted.sec = s.unwaited.sec := by
  have hk : ImageKept s s.unwaited := .of_eq _ rfl rfl
  refine ⟨hk.count _ _ (by decide) (by decide), ⟨count_ld .., count_mem .., ?_⟩, count_nrg .., count_sec ..⟩
  exact (sameRegs_refl [SEC_CNT_VERIFY, SEC_CNT_OVF] s.unwaited).count 1 1 (by simp) (by simp)

/-- A seal that fails (R378): the security unit's message, and the candidate given up with code 6. -/
theorem sealFails {s t : State} {x kind : Nat} {rest : List Nat} (n : Nat) (hx : x < 2) (hc : s.ld.cand = (x + 1) :: rest)
    (hq : s.nrg.queue = []) (hw : s.sec.wait = []) (hj : s.sec.job = none) (hk : ImageKept s t) (hl : t.ld = s.ld) (hn : t.nrg = s.nrg)
    (hs : t.sec = s.unwaited.sec) (hsump : s.msgAt 0x3D0 = none → t.msgAt 0x3D0 = none) :
    GivenUp x 6 0x2A 0 rest s ((t.secTell 0 kind 0).secNext.judged x n none) ∧
      Told 0x3D0 kind 0 s ((t.secTell 0 kind 0).secNext.judged x n none) := by
  have hidle : (t.secTell 0 kind 0).secNext = t.secTell 0 kind 0 := by
    refine secNext_idle _ ?_ ?_ ?_
    · exact (congrArg Energy.queue ((send_nrg ..).trans hn) :).trans hq
    · exact (congrArg Sec.job ((send_sec ..).trans hs) :).trans hj
    · exact (congrArg Sec.wait ((send_sec ..).trans hs) :).trans hw
  have hcand : (t.secTell 0 kind 0).ld.cand = (x + 1) :: rest := by
    rw [secTell_ld, hl, hc]
  have hkt : ImageKept s (t.secTell 0 kind 0) := hk.send _ _ (by decide)
  rw [hidle]
  obtain ⟨hg, ht⟩ := failCandidate_spec n 0x2A 0 hx (by decide : 6 < 256) hcand
  refine ⟨hg.of_kept hx hkt (.of_ld ((secTell_ld ..).trans hl)), ?_⟩
  exact ((told_send t 0x3D0 kind 0).earlier hsump).later fun y hy => ht _ y hy

theorem imgOwner_lt {s : State} {x o : Nat} (h : s.imgOwner x = some o) : o < 4 := by
  unfold State.imgOwner at h
  split at h
  · exact absurd h (by simp)
  · simpa [upto] using List.mem_of_find?_eq_some h

theorem contentCode_lt (s : State) (x : Nat) : s.contentCode x < 256 := by
  unfold State.contentCode
  split_ifs <;> decide

theorem judged_pair {t : State} {x k i : Nat} (n o : Nat) (h : t.badPair x = some (k, i)) :
    t.judged x n (some o) = t.failCandidate x n 7 0x2B (k % 256 * 2 ^ 16 + i % 65536) := by
  unfold State.judged
  rw [h]
  rfl

theorem judged_content {t : State} {x : Nat} (n o : Nat) (h : t.badPair x = none) (hc : t.contentCode x ≠ 0) :
    t.judged x n (some o) = (t.entryDetail (t.badEntry x (t.contentCode x))).2.failCandidate x n (t.contentCode x) 0x2B
      (t.entryDetail (t.badEntry x (t.contentCode x))).1 := by
  unfold State.judged
  rw [h]
  exact if_neg hc

theorem judged_accept {t : State} {x : Nat} (n o : Nat) (h : t.badPair x = none) (hc : t.contentCode x = 0) :
    t.judged x n (some o) = t.acceptImage x o := by
  unfold State.judged
  rw [h]
  exact if_pos hc

theorem entryDetail_spec (s : State) (p : Option (Nat × Nat)) : (s.entryDetail p).1 < 2 ^ 24 ∧ ImageKept s (s.entryDetail p).2 := by
  match p with
  | some (k, i) =>
    refine ⟨?_, .rfl' _ s⟩
    show k % 256 * 2 ^ 16 + i % 65536 < 2 ^ 24
    omega
  | none => exact ⟨Nat.mod_lt _ (by decide), .of_eq _ rfl rfl⟩

/-- A content check that fails (R414): its code, and the entry that offends or open detail bits. -/
theorem contentFails {s t : State} {x : Nat} {rest : List Nat} (n o : Nat) (hx : x < 2) (hc : t.ld.cand = (x + 1) :: rest)
    (hk : ImageKept s t) (hch : ChecksKept s t) (hb : s.badPair x = none) (h0 : s.contentCode x ≠ 0) :
    (∀ k i, s.badEntry x (s.contentCode x) = some (k, i) →
      GivenUp x (s.contentCode x) 0x2B (k % 256 * 2 ^ 16 + i % 65536) rest s (t.judged x n (some o))) ∧
    ∃ d < 2 ^ 24, GivenUp x (s.contentCode x) 0x2B d rest s (t.judged x n (some o)) := by
  have hcode := hch.contentCode x
  rw [judged_content n o ((hch.badPair x).trans hb) (by rw [hcode]; exact h0), hcode, hch.badEntry]
  obtain ⟨hd, hkd⟩ := entryDetail_spec t (s.badEntry x (s.contentCode x))
  have hld : (t.entryDetail (s.badEntry x (s.contentCode x))).2.ld = t.ld := entryDetail_ld ..
  have hg := (failCandidate_spec n 0x2B (t.entryDetail (s.badEntry x (s.contentCode x))).1 hx (contentCode_lt s x)
    (by rw [hld]; exact hc)).1
  have hgiven := hg.of_kept hx (hk.trans hkd) (.of_ld (hld.trans hch.ld))
  refine ⟨fun k i he => ?_, _, hd, hgiven⟩
  rw [he] at hgiven ⊢
  exact hgiven

/-- What check 0x06 answers on a unit with no image waiting, by its own checks in order. -/
theorem sealCheck_cases (s : State) (x : Nat) :
    (s.imgOwner x = none → s.unwaited.sealCheck x = (none, s.unwaited.secTell 0 0x20 0)) ∧
    ∀ o, s.imgOwner x = some o →
      (s.sealGood x = false → s.unwaited.sealCheck x = (none, s.unwaited.sealCounted.secTell 0 0x21 0)) ∧
      (s.sealGood x = true → s.imgSvn x < s.fld SEC_STAT_ARB →
        s.unwaited.sealCheck x = (none, s.unwaited.sealCounted.secTell 0 0x22 0)) ∧
      (s.sealGood x = true → s.fld SEC_STAT_ARB ≤ s.imgSvn x → s.unwaited.sealCheck x = (some o, s.unwaited.sealCounted)) := by
  have ho : s.unwaited.imgOwner x = s.imgOwner x := rfl
  have hg : s.unwaited.sealGood x = s.sealGood x := rfl
  have hv : s.unwaited.imgSvn x = s.imgSvn x := rfl
  have ha : s.unwaited.fld SEC_STAT_ARB = s.fld SEC_STAT_ARB := rfl
  rw [sealCheck_eq, ho, hg, hv, ha]
  refine ⟨fun h => ?_, fun o h => ⟨fun h1 => ?_, fun h1 h2 => ?_, fun h1 h2 => ?_⟩⟩ <;> rw [h] <;> dsimp only
  · rw [if_pos h1]
  · rw [if_neg (by simp [h1]), if_pos h2]
  · rw [if_neg (by simp [h1]), if_neg (by omega)]

/-- IMAGE_VERIFY where nothing waits for the security unit: the seal's failures (R414, R378). -/
theorem imageVerify_sealFails {s : State} {x : Nat} {rest : List Nat} (hx : x < 2) (ho : s.op = 2) (hr : s.ld.reading = false)
    (hc : s.ld.cand = (x + 1) :: rest) (hs : s.secServing = false) (hq : s.nrg.queue = []) (hw : s.sec.wait = []) (hj : s.sec.job = none) :
    (s.imgOwner x = none → GivenUp x 6 0x2A 0 rest s (imageVerify s) ∧ Told 0x3D0 0x20 0 s (imageVerify s)) ∧
    ∀ o, s.imgOwner x = some o →
      (s.sealGood x = false → GivenUp x 6 0x2A 0 rest s (imageVerify s) ∧ Told 0x3D0 0x21 0 s (imageVerify s)) ∧
      (s.sealGood x = true → s.imgSvn x < s.fld SEC_STAT_ARB →
        GivenUp x 6 0x2A 0 rest s (imageVerify s) ∧ Told 0x3D0 0x22 0 s (imageVerify s)) := by
  obtain ⟨hnone, hsome⟩ := sealCheck_cases s x
  obtain ⟨hk, hch, hn, hsec⟩ := sealCounted_kept s
  have hmsg : s.msgAt 0x3D0 = none → s.unwaited.sealCounted.msgAt 0x3D0 = none := fun h =>
    (msgAt_congr (s := s) (t := s.unwaited.sealCounted) (congrArg Sump.slots (count_sump s.unwaited ..)) _).trans h
  rw [imageVerify_cand ho hr hc hs]
  refine ⟨fun h => ?_, fun o h => ⟨fun h1 => ?_, fun h1 h2 => ?_⟩⟩
  · rw [hnone h]
    exact sealFails _ hx hc hq hw hj (.of_eq _ rfl rfl) rfl rfl rfl id
  · rw [(hsome o h).1 h1]
    exact sealFails _ hx hc hq hw hj hk hch.ld hn hsec hmsg
  · rw [(hsome o h).2.1 h1 h2]
    exact sealFails _ hx hc hq hw hj hk hch.ld hn hsec hmsg

/-- IMAGE_VERIFY of an image whose seal verifies. -/
theorem imageVerify_sealed {s : State} {x o : Nat} {rest : List Nat} (ho : s.op = 2) (hr : s.ld.reading = false)
    (hc : s.ld.cand = (x + 1) :: rest) (hs : s.secServing = false) (hq : s.nrg.queue = []) (hw : s.sec.wait = []) (hj : s.sec.job = none)
    (hown : s.imgOwner x = some o) (hg : s.sealGood x = true) (hv : s.fld SEC_STAT_ARB ≤ s.imgSvn x) :
    imageVerify s = s.unwaited.sealCounted.judged x (s.sections x).length (some o) := by
  obtain ⟨-, -, hn, hsec⟩ := sealCounted_kept s
  have hidle : s.unwaited.sealCounted.secNext = s.unwaited.sealCounted := by
    refine secNext_idle _ ?_ ?_ ?_
    · exact (congrArg Energy.queue hn :).trans hq
    · exact (congrArg Sec.job hsec :).trans hj
    · exact (congrArg Sec.wait hsec :).trans hw
  rw [imageVerify_cand ho hr hc hs, ((sealCheck_cases s x).2 o hown).2.2 hg hv, hidle]

theorem imageVerify_badPair {s : State} {x o k i : Nat} {rest : List Nat} (hx : x < 2) (n : Nat) (hc : s.ld.cand = (x + 1) :: rest)
    (hb : s.badPair x = some (k, i)) :
    GivenUp x 7 0x2B (k % 256 * 2 ^ 16 + i % 65536) rest s (s.unwaited.sealCounted.judged x n (some o)) := by
  obtain ⟨hk, hch, -, -⟩ := sealCounted_kept s
  rw [judged_pair n o ((hch.badPair x).trans hb)]
  exact (failCandidate_spec n 0x2B _ hx (by decide : 7 < 256) ((congrArg Loader.cand hch.ld :).trans hc)).1.of_kept hx hk (.of_ld hch.ld)

end Sys2Proof.Machine
end

section
/-! PROOFS. O48, fourth part: the headers read, the chip reset of a load, and the obligation. -/
namespace Sys2Proof.Machine
open Sys2Proof

-- The proofs are checked one after another: many at a time need more memory than a compile may have.
set_option Elab.async false

/-! ### The headers read -/

/-- What a state entered shows of itself and of the pins (R36). -/
def enterFlds : List Fld :=
  [CLK_STATE_PREV, CLK_STATE_STATE, CLK_STATE_CAUSE, SEQ_EVT, DBG_PIPE_HALTED, DBG_PIPE_LEFT, PRT_STAT_BO]

theorem primeOnState_regs (s : State) (old new : Nat) : (s.primeOnState old new).regs = s.regs ∧
    (s.primeOnState old new).sump = s.sump := by
  unfold State.primeOnState
  split
  · exact ⟨rfl, rfl⟩
  · constructor
    · exact foldl_keep State.regs _ (fun t c => by split <;> rfl) _ _
    · exact foldl_keep State.sump _ (fun t c => by split <;> rfl) _ _

/-- No channel runs in HOLD_FOR_HOST. -/
theorem primeOnState_hold (s : State) (new : Nat) : s.primeOnState 3 new = s := by
  have hrun (r : Nat) : runsIn r 3 = false := by
    unfold runsIn
    split <;> rfl
  unfold State.primeOnState
  split
  · rfl
  · exact foldl_inv (fun t => t = s) _ (fun t c ht => by simp [hrun, ht]) _ _ rfl

/-- Entry to a state sends no message, and leaving HOLD_FOR_HOST touches no memory. -/
theorem enterState_frame (s : State) (new cause : Nat) : SameRegs enterFlds s (s.enterState new cause) ∧
    (s.enterState new cause).sump = s.sump ∧ (s.op = 3 → (s.enterState new cause).mem = s.mem) := by
  unfold State.enterState
  extract_lets old u v q w y d x
  have hu : SameRegs enterFlds s (u.seqEvent 1) :=
    ((((sameRegs_refl enterFlds s).setFld _ (by simp [enterFlds])).setFld _ (by simp [enterFlds])).setFld _ (by simp [enterFlds])).setFld _
      (by simp [enterFlds])
  obtain ⟨hregs, hsump⟩ := primeOnState_regs (u.seqEvent 1) old new
  have hw : SameRegs enterFlds s w := hu.trans (sameRegs_of_regs _ hregs)
  have hx : SameRegs enterFlds s x ∧ x.sump = s.sump ∧ x.mem = w.mem := by
    unfold x
    split
    · exact ⟨((hw.setFld (f := DBG_PIPE_HALTED) 0 (by simp [enterFlds])).setFld (f := DBG_PIPE_LEFT) 0 (by simp [enterFlds])).trans
        (sameRegs_of_regs _ rfl), hsump, rfl⟩
    · exact ⟨hw, hsump, rfl⟩
  obtain ⟨h1, h2, h3⟩ := hx
  split
  · exact ⟨sameRegs_refl _ _, rfl, fun _ => rfl⟩
  · refine ⟨h1.driveBlockOut (by simp [enterFlds]), ?_, fun ho => ?_⟩
    · rw [driveBlockOut_eq]
      exact h2
    · rw [driveBlockOut_eq]
      refine h3.trans ?_
      show ((u.seqEvent 1).primeOnState old new).mem = s.mem
      rw [show old = 3 from ho, primeOnState_hold]
      rfl

/-- The registers of slot x that classing writes, and those of a merged message. -/
def classFlds (x : Nat) : List Fld :=
  [CFG_SLOT_STAT_PASSED x, CFG_SLOT_STAT_CODE x, CFG_SLOT_STAT_CLASS x, CFG_SLOT_GEN x] ++ msgFlds

/-- The register at address 0 reads as before when no field of it is written. -/
theorem regBits_zero {fs : List Fld} {s t : State} (h : SameRegs fs s t) (hf : ∀ g ∈ fs, 32 ≤ g.key) : t.regBits 0 = s.regBits 0 := by
  unfold State.regBits
  split
  · rfl
  next r hr =>
    refine List.foldl_ext _ _ _ fun v f hm => ?_
    have hfld : t.fld (fldAt 0 f) = s.fld (fldAt 0 f) := h _ fun g hg he => by
      have := hf g hg
      have hlo := ((sound_of_regAt hr).2 f hm).1
      rw [← he, fldAt_key] at this
      omega
    rw [hfld]

theorem headerCode_congr {s t : State} (hl : t.ld = s.ld) (hb : t.regBits 0 = s.regBits 0) (x : Nat) : t.headerCode x = s.headerCode x := by
  unfold State.headerCode State.headerOk State.tableOk State.typesOk State.sections State.sectionAt State.nsec State.imgSvn
    State.flRd State.flZero
  rw [hl, hb]

theorem slotEmpty_congr {s t : State} (hl : t.ld = s.ld) (x : Nat) : t.slotEmpty x = s.slotEmpty x := by
  unfold State.slotEmpty State.imgGen State.flRd
  rw [hl]

theorem imgGen_congr {s t : State} (hl : t.ld = s.ld) (x : Nat) : t.imgGen x = s.imgGen x := by
  unfold State.imgGen State.flRd
  rw [hl]

/-- A slot's class and code as before its header is read. -/
def State.unclassed (s : State) (x : Nat) : State := (s.setFld (CFG_SLOT_STAT_PASSED x) 0).setFld (CFG_SLOT_STAT_CODE x) 0

theorem classSlot_eq (s : State) {x : Nat} (hx : x < 2) : s.classSlot x =
    if s.slotEmpty x = true then (s.unclassed x).setFld (CFG_SLOT_STAT_CLASS x) 1
    else if s.headerCode x = 0 then ((s.unclassed x).setFld (CFG_SLOT_GEN x) (s.imgGen x)).setFld (CFG_SLOT_STAT_CLASS x) 3
    else ((((s.unclassed x).setFld (CFG_SLOT_GEN x) (s.imgGen x)).setFld (CFG_SLOT_STAT_CLASS x) 2).setFld (CFG_SLOT_STAT_CODE x)
      (s.headerCode x)).send (0x3D8 + x) 0x28 (s.headerCode x * 2 ^ 24) := by
  have hk : ∀ g ∈ [CFG_SLOT_STAT_PASSED x, CFG_SLOT_STAT_CODE x, CFG_SLOT_GEN x], 32 ≤ g.key := by interval_cases x <;> decide
  have hu : SameRegs [CFG_SLOT_STAT_PASSED x, CFG_SLOT_STAT_CODE x, CFG_SLOT_GEN x] s (s.unclassed x) :=
    ((sameRegs_refl _ s).setFld _ (by simp)).setFld _ (by simp)
  have hr := hu.setFld (f := CFG_SLOT_GEN x) (s.imgGen x) (by simp)
  have hb := regBits_zero hr hk
  have hl : ((s.unclassed x).setFld (CFG_SLOT_GEN x) (s.imgGen x)).ld = s.ld := rfl
  have hc := headerCode_congr hl hb x
  have he : (s.unclassed x).slotEmpty x = s.slotEmpty x := slotEmpty_congr rfl x
  have hg : (s.unclassed x).imgGen x = s.imgGen x := imgGen_congr rfl x
  unfold State.unclassed at *
  unfold State.classSlot
  dsimp only
  rw [he, hg, hc]

theorem headerCode_lt (s : State) (x : Nat) : s.headerCode x < 256 := by
  unfold State.headerCode
  split_ifs <;> decide

/-- A header's class (R412): EMPTY, BAD with its code and message, or a candidate with its generation. -/
theorem classSlot_spec (s : State) {x : Nat} (hx : x < 2) :
    (s.slotEmpty x = true → (s.classSlot x).fld (CFG_SLOT_STAT_CLASS x) = 1) ∧
    (s.slotEmpty x = false → s.headerCode x = 0 →
      (s.classSlot x).fld (CFG_SLOT_STAT_CLASS x) = 3 ∧ (s.classSlot x).fld (CFG_SLOT_GEN x) = s.imgGen x) ∧
    (s.slotEmpty x = false → s.headerCode x ≠ 0 →
      (s.classSlot x).fld (CFG_SLOT_STAT_CLASS x) = 2 ∧ (s.classSlot x).fld (CFG_SLOT_STAT_CODE x) = s.headerCode x ∧
        Told (0x3D8 + x) 0x28 (s.headerCode x * 2 ^ 24) s (s.classSlot x)) := by
  have hcg : (CFG_SLOT_STAT_CLASS x).key ≠ (CFG_SLOT_GEN x).key := by interval_cases x <;> decide
  have hcc : (CFG_SLOT_STAT_CODE x).key ≠ (CFG_SLOT_STAT_CLASS x).key := by interval_cases x <;> decide
  have hm : ∀ f ∈ [CFG_SLOT_STAT_CLASS x, CFG_SLOT_STAT_CODE x], ∀ g ∈ msgFlds, f.key ≠ g.key := by interval_cases x <;> decide
  rw [classSlot_eq s hx]
  refine ⟨fun h => ?_, fun h h0 => ?_, fun h h0 => ?_⟩
  · rw [if_pos h]
    exact fld_setFld_fits (f := CFG_SLOT_STAT_CLASS x) _ (by decide : 1 < 2 ^ 2)
  · rw [if_neg (by simp [h]), if_pos h0]
    exact ⟨fld_setFld_fits (f := CFG_SLOT_STAT_CLASS x) _ (by decide : 3 < 2 ^ 2),
      (fld_setFld_ne _ _ hcg).trans (fld_setFld_fits (f := CFG_SLOT_GEN x) _ (imgGen_lt s x))⟩
  · rw [if_neg (by simp [h]), if_neg h0]
    have hs := (send_frame ((((s.unclassed x).setFld (CFG_SLOT_GEN x) (s.imgGen x)).setFld (CFG_SLOT_STAT_CLASS x) 2).setFld
      (CFG_SLOT_STAT_CODE x) (s.headerCode x)) (0x3D8 + x) 0x28 (s.headerCode x * 2 ^ 24)).2
    refine ⟨(hs _ (hm _ (by simp))).trans ?_, (hs _ (hm _ (by simp))).trans ?_, told_send_of _ _ _ rfl⟩
    · exact (fld_setFld_ne _ _ hcc).trans (fld_setFld_fits (f := CFG_SLOT_STAT_CLASS x) _ (by decide : 2 < 2 ^ 2))
    · exact fld_setFld_fits (f := CFG_SLOT_STAT_CODE x) _ (headerCode_lt s x)

theorem classSlot_frame (s : State) {x : Nat} (hx : x < 2) : SameRegs (classFlds x) s (s.classSlot x) ∧ (s.classSlot x).mem = s.mem ∧
    (∀ src, 0x3D8 + x ≠ src → (s.classSlot x).msgAt src = s.msgAt src) ∧
    ∀ src y, s.msgAt src = some y → (s.classSlot x).msgAt src = some y := by
  have hu : SameRegs (classFlds x) s (s.unclassed x) := ((sameRegs_refl _ s).setFld _ (by simp [classFlds])).setFld _ (by simp [classFlds])
  have hv : SameRegs (classFlds x) s ((s.unclassed x).setFld (CFG_SLOT_GEN x) (s.imgGen x)) := hu.setFld _ (by simp [classFlds])
  rw [classSlot_eq s hx]
  split
  · exact ⟨hu.setFld _ (by simp [classFlds]), rfl, fun _ _ => rfl, fun _ _ hy => hy⟩
  · split
    · exact ⟨hv.setFld _ (by simp [classFlds]), rfl, fun _ _ => rfl, fun _ _ hy => hy⟩
    · obtain ⟨-, ht, hn⟩ := send_shown ((((s.unclassed x).setFld (CFG_SLOT_GEN x) (s.imgGen x)).setFld (CFG_SLOT_STAT_CLASS x) 2).setFld
        (CFG_SLOT_STAT_CODE x) (s.headerCode x)) (0x3D8 + x) 0x28 (s.headerCode x * 2 ^ 24)
      exact ⟨((hv.setFld _ (by simp [classFlds])).setFld _ (by simp [classFlds])).send _ _ _ (by simp [classFlds, msgFlds])
        (by simp [classFlds, msgFlds]), send_mem .., hn, ht⟩

/-- Both headers read, slot A's first. -/
def State.classed (s : State) : State := (s.classSlot 0).classSlot 1

/-- A slot that may be loaded. -/
def State.loadable (s : State) (x : Nat) : Prop := s.slotEmpty x = false ∧ s.headerCode x = 0

theorem classed_ld (s : State) : s.classed.ld = s.ld := (classSlot_ld ..).trans (classSlot_ld ..)

theorem classed_spec (s : State) : s.classed.op = s.op ∧ s.classed.mem = s.mem ∧ s.classed.fld CFG_CTRL_NEXT = s.fld CFG_CTRL_NEXT ∧
    ∀ x : Fin 2, (s.slotEmpty x = true → s.classed.fld (CFG_SLOT_STAT_CLASS x) = 1) ∧
      (s.slotEmpty x = false → s.headerCode x = 0 →
        s.classed.fld (CFG_SLOT_STAT_CLASS x) = 3 ∧ s.classed.fld (CFG_SLOT_GEN x) = s.imgGen x) ∧
      (s.slotEmpty x = false → s.headerCode x ≠ 0 →
        s.classed.fld (CFG_SLOT_STAT_CLASS x) = 2 ∧ s.classed.fld (CFG_SLOT_STAT_CODE x) = s.headerCode x ∧
          Told (0x3D8 + x) 0x28 (s.headerCode x * 2 ^ 24) s s.classed) := by
  obtain ⟨r0, m0, n0, -⟩ := classSlot_frame s (x := 0) (by decide)
  obtain ⟨r1, m1, -, t1⟩ := classSlot_frame (s.classSlot 0) (x := 1) (by decide)
  have hl : (s.classSlot 0).ld = s.ld := classSlot_ld ..
  have he : (s.classSlot 0).slotEmpty 1 = s.slotEmpty 1 := slotEmpty_congr hl 1
  have hg : (s.classSlot 0).imgGen 1 = s.imgGen 1 := imgGen_congr hl 1
  have hc : (s.classSlot 0).headerCode 1 = s.headerCode 1 := headerCode_congr hl (regBits_zero r0 (by decide)) 1
  obtain ⟨a1, a2, a3⟩ := classSlot_spec s (x := 0) (by decide)
  obtain ⟨b1, b2, b3⟩ := classSlot_spec (s.classSlot 0) (x := 1) (by decide)
  rw [he] at b1 b2 b3
  rw [hc] at b2 b3
  rw [hg] at b2
  refine ⟨(r1 _ (by decide)).trans (r0 _ (by decide)), m1.trans m0, (r1 _ (by decide)).trans (r0 _ (by decide)), fun x => ?_⟩
  match x with
  | 0 =>
    have hcl : s.classed.fld (CFG_SLOT_STAT_CLASS 0) = (s.classSlot 0).fld (CFG_SLOT_STAT_CLASS 0) := r1 _ (by decide)
    have hgn : s.classed.fld (CFG_SLOT_GEN 0) = (s.classSlot 0).fld (CFG_SLOT_GEN 0) := r1 _ (by decide)
    have hcd : s.classed.fld (CFG_SLOT_STAT_CODE 0) = (s.classSlot 0).fld (CFG_SLOT_STAT_CODE 0) := r1 _ (by decide)
    refine ⟨fun h => hcl.trans (a1 h), fun h h0 => ⟨hcl.trans (a2 h h0).1, hgn.trans (a2 h h0).2⟩, fun h h0 => ?_⟩
    obtain ⟨g1, g2, g3⟩ := a3 h h0
    exact ⟨hcl.trans g1, hcd.trans g2, g3.later fun y hy => t1 _ y hy⟩
  | 1 =>
    refine ⟨b1, b2, fun h h0 => ?_⟩
    obtain ⟨g1, g2, g3⟩ := b3 h h0
    exact ⟨g1, g2, g3.earlier fun hn => (n0 _ (by decide)).trans hn⟩

/-- The order of the candidates, from whether A and B are candidates, whether B's generation is the later one, and NEXT. -/
def triedOrder (a b later : Bool) (next : Nat) : List Nat :=
  let c := if a = true then 0 :: (if b = true then [1] else []) else if b = true then [1] else []
  let rest := if c == [0, 1] && later then [1, 0] else c
  (rest.filter fun x => x + 1 == next) ++ rest.filter fun x => x + 1 != next

theorem triedOrder_one (later : Bool) (next : Nat) : ∀ x : Fin 2, triedOrder (x == 0) (x == 1) later next = [x.val]
  | 0 => by cases h : 1 == next <;> cases later <;> simp [triedOrder, h, bne]
  | 1 => by cases h : 2 == next <;> cases later <;> simp [triedOrder, h, bne]

theorem triedOrder_both (later : Bool) : triedOrder true true later 1 = [0, 1] ∧ triedOrder true true later 2 = [1, 0] ∧
    triedOrder true true later 0 = if later = true then [1, 0] else [0, 1] := by
  cases later <;> decide

/-- The order in which the candidates are tried (R412): NEXT first, else the later generation first. -/
theorem slotOrder_classed (s : State) :
    (¬ s.loadable 0 → ¬ s.loadable 1 → s.classed.slotOrder = []) ∧ (s.loadable 0 → ¬ s.loadable 1 → s.classed.slotOrder = [0]) ∧
    (¬ s.loadable 0 → s.loadable 1 → s.classed.slotOrder = [1]) ∧
    (s.loadable 0 → s.loadable 1 → s.fld CFG_CTRL_NEXT = 1 → s.classed.slotOrder = [0, 1]) ∧
    (s.loadable 0 → s.loadable 1 → s.fld CFG_CTRL_NEXT = 2 → s.classed.slotOrder = [1, 0]) ∧
    (s.loadable 0 → s.loadable 1 → s.fld CFG_CTRL_NEXT = 0 →
      s.classed.slotOrder = if serialAfter 32 (s.imgGen 1) (s.imgGen 0) = true then [1, 0] else [0, 1]) := by
  obtain ⟨-, -, hnext, hx⟩ := classed_spec s
  have hc (x : Fin 2) : (s.loadable x → (s.classed.fld (CFG_SLOT_STAT_CLASS x) == 3) = true) ∧
      (¬ s.loadable x → (s.classed.fld (CFG_SLOT_STAT_CLASS x) == 3) = false) := by
    obtain ⟨h1, h2, h3⟩ := hx x
    refine ⟨fun h => by rw [(h2 h.1 h.2).1]; rfl, fun h => ?_⟩
    cases he : s.slotEmpty x with
    | true => rw [h1 he]; rfl
    | false => rw [(h3 he fun h0 => h ⟨he, h0⟩).1]; rfl
  have h0 : (s.loadable 0 → (s.classed.fld (CFG_SLOT_STAT_CLASS 0) == 3) = true) ∧
      (¬ s.loadable 0 → (s.classed.fld (CFG_SLOT_STAT_CLASS 0) == 3) = false) := hc 0
  have h1 : (s.loadable 1 → (s.classed.fld (CFG_SLOT_STAT_CLASS 1) == 3) = true) ∧
      (¬ s.loadable 1 → (s.classed.fld (CFG_SLOT_STAT_CLASS 1) == 3) = false) := hc 1
  have hg (x : Nat) : s.classed.imgGen x = s.imgGen x := imgGen_congr (classed_ld s) x
  have ho : s.classed.slotOrder = triedOrder (s.classed.fld (CFG_SLOT_STAT_CLASS 0) == 3) (s.classed.fld (CFG_SLOT_STAT_CLASS 1) == 3)
      (serialAfter 32 (s.imgGen 1) (s.imgGen 0)) (s.fld CFG_CTRL_NEXT) := by
    unfold State.slotOrder
    rw [hnext, hg, hg]
    simp only [List.filter_cons, List.filter_nil]
    rfl
  rw [ho]
  refine ⟨fun a b => ?_, fun a b => ?_, fun a b => ?_, fun a b n => ?_, fun a b n => ?_, fun a b n => ?_⟩
  · rw [h0.2 a, h1.2 b]
    rfl
  · rw [h0.1 a, h1.2 b]
    exact triedOrder_one _ _ 0
  · rw [h0.2 a, h1.1 b]
    exact triedOrder_one _ _ 1
  · rw [h0.1 a, h1.1 b, n]
    exact (triedOrder_both _).1
  · rw [h0.1 a, h1.1 b, n]
    exact (triedOrder_both _).2.1
  · rw [h0.1 a, h1.1 b, n]
    exact (triedOrder_both _).2.2

/-- The flash does not answer (R404): neither header is read. -/
theorem readHeaders_silent {s : State} (h : s.ld.flashOk = false) : s.readHeaders.op = s.op ∧ s.readHeaders.mem = s.mem ∧
    s.readHeaders.ld.reading = true ∧ s.readHeaders.ld.flash = s.ld.flash ∧ s.readHeaders.ld.cand = [] ∧
    s.readHeaders.fld (CFG_SLOT_STAT_CODE 0) = 1 ∧ s.readHeaders.fld (CFG_SLOT_STAT_CODE 1) = 1 ∧
    Told 0x3DA 0x2D (2 ^ 24) s s.readHeaders := by
  unfold State.readHeaders
  rw [if_pos (by simp [h])]
  extract_lets u
  obtain ⟨hf, -, -⟩ := send_shown u 0x3DA 0x2D (2 ^ 24)
  have hmem : (u.send 0x3DA 0x2D (2 ^ 24)).mem = s.mem := send_mem ..
  have htold : Told 0x3DA 0x2D (2 ^ 24) s (u.send 0x3DA 0x2D (2 ^ 24)) := told_send_of (t := u) _ _ _ rfl
  have h1 : u.fld (CFG_SLOT_STAT_CODE 1) = 1 := fld_setFld_fits _ (by decide)
  have h0 : u.fld (CFG_SLOT_STAT_CODE 0) = 1 := (fld_setFld_ne _ _ (by decide)).trans (fld_setFld_fits _ (by decide))
  have hop : u.fld CLK_STATE_STATE = s.fld CLK_STATE_STATE := (fld_setFld_ne _ _ (by decide)).trans (fld_setFld_ne _ _ (by decide))
  exact ⟨(hf CLK_STATE_STATE (by decide)).trans hop, hmem, rfl, rfl, rfl, (hf _ (by decide)).trans h0, (hf _ (by decide)).trans h1,
    htold⟩

theorem readHeaders_answered {s : State} (h : s.ld.flashOk = true) : s.readHeaders.regs = s.classed.regs ∧ s.readHeaders.mem = s.mem ∧
    s.readHeaders.sump = s.classed.sump ∧ s.readHeaders.ld.reading = true ∧ s.readHeaders.ld.flash = s.ld.flash ∧
    s.readHeaders.ld.cand = s.classed.slotOrder.map (· + 1) := by
  have hm := (classed_spec s).2.1
  have hl := congrArg Loader.flash (classed_ld s)
  unfold State.readHeaders
  unfold State.classed at *
  rw [if_neg (by simp [h])]
  generalize (s.classSlot 0).classSlot 1 = u at *
  exact ⟨rfl, hm, rfl, rfl, hl, rfl⟩

/-! ### A load requested -/

/-- A load in HOLD_FOR_HOST (R418). -/
def State.loadBegun (s : State) : State := s.enterState 1 0x02

theorem loadBegun_spec {s : State} (ho : s.op = 3) : s.loadBegun.op = 1 ∧ s.loadBegun.mem = s.mem ∧ s.loadBegun.ld = s.ld ∧
    s.loadBegun.sump = s.sump ∧ s.loadBegun.fld CFG_CTRL_NEXT = s.fld CFG_CTRL_NEXT ∧ s.loadBegun.regBits 0 = s.regBits 0 := by
  obtain ⟨hr, hs, hm⟩ := enterState_frame s 1 0x02
  exact ⟨(enterState_shown s 0x02 (by decide)).1, hm ho, enterState_ld .., hs, hr _ (by decide), regBits_zero hr (by decide)⟩

theorem load_silent {s : State} (ho : s.op = 3) (h : s.ld.flashOk = false) : let t := s.loadBegun.readHeaders
    t.op = 1 ∧ t.mem = s.mem ∧ t.ld.reading = true ∧ t.ld.flash = s.ld.flash ∧ t.ld.cand = [] ∧ t.fld (CFG_SLOT_STAT_CODE 0) = 1 ∧
      t.fld (CFG_SLOT_STAT_CODE 1) = 1 ∧ Told 0x3DA 0x2D (2 ^ 24) s t := by
  obtain ⟨h1, h2, h3, h4, -, -⟩ := loadBegun_spec ho
  generalize s.loadBegun = u at h1 h2 h3 h4
  obtain ⟨g1, g2, g3, g4, g5, g6, g7, g8⟩ := readHeaders_silent (s := u) (by rw [h3]; exact h)
  exact ⟨g1.trans h1, g2.trans h2, g3, g4.trans (congrArg Loader.flash h3 :), g5, g6, g7,
    g8.earlier fun hn => (msgAt_congr (congrArg Sump.slots h4 :) _).trans hn⟩

theorem load_answered {s : State} (ho : s.op = 3) (h : s.ld.flashOk = true) : let t := s.loadBegun.readHeaders
    t.op = 1 ∧ t.mem = s.mem ∧ t.ld.reading = true ∧ t.ld.flash = s.ld.flash ∧
    (∀ x : Fin 2, (s.slotEmpty x = true → t.fld (CFG_SLOT_STAT_CLASS x) = 1) ∧
      (s.slotEmpty x = false → s.headerCode x = 0 → t.fld (CFG_SLOT_STAT_CLASS x) = 3 ∧ t.fld (CFG_SLOT_GEN x) = s.imgGen x) ∧
      (s.slotEmpty x = false → s.headerCode x ≠ 0 → t.fld (CFG_SLOT_STAT_CLASS x) = 2 ∧ t.fld (CFG_SLOT_STAT_CODE x) = s.headerCode x ∧
        Told (0x3D8 + x) 0x28 (s.headerCode x * 2 ^ 24) s t)) ∧
    (¬ s.loadable 0 → ¬ s.loadable 1 → t.ld.cand = []) ∧ (s.loadable 0 → ¬ s.loadable 1 → t.ld.cand = [1]) ∧
    (¬ s.loadable 0 → s.loadable 1 → t.ld.cand = [2]) ∧
    (s.loadable 0 → s.loadable 1 → s.fld CFG_CTRL_NEXT = 1 → t.ld.cand = [1, 2]) ∧
    (s.loadable 0 → s.loadable 1 → s.fld CFG_CTRL_NEXT = 2 → t.ld.cand = [2, 1]) ∧
    (s.loadable 0 → s.loadable 1 → s.fld CFG_CTRL_NEXT = 0 →
      t.ld.cand = if serialAfter 32 (s.imgGen 1) (s.imgGen 0) = true then [2, 1] else [1, 2]) := by
  obtain ⟨h1, h2, h3, h4, h5, h6⟩ := loadBegun_spec ho
  generalize s.loadBegun = u at h1 h2 h3 h4 h5 h6
  have he (x : Nat) : u.slotEmpty x = s.slotEmpty x := slotEmpty_congr h3 x
  have hg (x : Nat) : u.imgGen x = s.imgGen x := imgGen_congr h3 x
  have hc (x : Nat) : u.headerCode x = s.headerCode x := headerCode_congr h3 h6 x
  have hl (x : Nat) : u.loadable x = s.loadable x := by
    unfold State.loadable
    rw [he, hc]
  obtain ⟨g1, g2, g3, g4, g5, g6⟩ := readHeaders_answered (s := u) (by rw [h3]; exact h)
  obtain ⟨k1, -, -, kx⟩ := classed_spec u
  obtain ⟨o1, o2, o3, o4, o5, o6⟩ := slotOrder_classed u
  generalize u.readHeaders = t at g1 g2 g3 g4 g5 g6
  simp only [hl, h5, hg, he, hc] at o1 o2 o3 o4 o5 o6 kx
  have hfld (f : Fld) : t.fld f = u.classed.fld f := fld_congr g1 f
  refine ⟨(hfld _).trans (k1.trans h1), g2.trans h2, g4, g5.trans (congrArg Loader.flash h3 :), fun x => ?_, fun a b => ?_, fun a b => ?_,
    fun a b => ?_, fun a b n => ?_, fun a b n => ?_, fun a b n => ?_⟩
  · obtain ⟨c1, c2, c3⟩ := kx x
    refine ⟨fun a => (hfld _).trans (c1 a), fun a b => ⟨(hfld _).trans (c2 a b).1, (hfld _).trans (c2 a b).2⟩, fun a b => ?_⟩
    obtain ⟨d1, d2, d3⟩ := c3 a b
    refine ⟨(hfld _).trans d1, (hfld _).trans d2, fun hn => ?_⟩
    exact (msgAt_congr (congrArg Sump.slots g3 :) _).trans (d3 ((msgAt_congr (congrArg Sump.slots h4 :) _).trans hn))
  · rw [g6, o1 a b]; rfl
  · rw [g6, o2 a b]; rfl
  · rw [g6, o3 a b]; rfl
  · rw [g6, o4 a b n]; rfl
  · rw [g6, o5 a b n]; rfl
  · rw [g6, o6 a b n]
    split <;> rfl

/-! ### The chip reset of a load -/

theorem cget_filter (d : Nat → Byte) {p : Nat → Bool} {a : Nat} (h : p a = true) (l : List Host.Cell) :
    cget d (l.filter fun c => p c.1) a = cget d l a := by
  induction l with
  | nil => rfl
  | cons c t ih =>
    obtain ⟨k, v⟩ := c
    rw [List.filter_cons]
    by_cases hk : k = a
    · subst hk
      simp [cget, h]
    · by_cases hp : p k = true
      · simp only [hp, if_true, cget, if_neg hk, ih]
      · simp only [hp, cget, if_neg hk, ih, Bool.false_eq_true, if_false]

theorem blocks_apart {a b n : Nat} (h : b < a ∨ a + 512 * (n + 1) ≤ b) :
    (b < a ∨ a + 512 ≤ b) ∧ (b < a + 512 ∨ a + 512 + 512 * n ≤ b) := by omega

/-- What takes free values are the bytes from an address on. -/
theorem memFree_spec (n : Nat) : ∀ (s : State) (a : Nat), (s.memFree n a).regs = s.regs ∧ (s.memFree n a).elec = s.elec ∧
    (s.memFree n a).ld = s.ld ∧ (s.memFree n a).cells = s.cells ∧
    ∀ b, (b < a ∨ a + 512 * n ≤ b) → (s.memFree n a).byteAt b = s.byteAt b := by
  induction n with
  | zero => exact fun s a => ⟨rfl, rfl, rfl, rfl, fun _ _ => rfl⟩
  | succ n ih =>
    intro s a
    have hd : (s.draw 4096).2 = { s with fresh := s.fresh + 1 } := rfl
    unfold State.memFree
    generalize s.draw 4096 = p at hd
    obtain ⟨v, u⟩ := p
    dsimp only at hd ⊢
    rw [hd]
    have hw : ∃ w : State, { s with fresh := s.fresh + 1 }.wr a 512 v = w ∧ w.regs = s.regs ∧ w.elec = s.elec ∧ w.ld = s.ld ∧
        w.cells = s.cells ∧ ∀ b, (b < a ∨ a + 512 ≤ b) → w.byteAt b = s.byteAt b :=
      ⟨_, rfl, wr_regs .., wr_elec .., wr_ld .., wr_cells .., fun b hb => byteAt_wr_out _ _ hb⟩
    obtain ⟨w, he, w1, w2, w3, w4, w5⟩ := hw
    rw [he]
    obtain ⟨h1, h2, h3, h4, h5⟩ := ih w (a + 512)
    refine ⟨h1.trans w1, h2.trans w2, h3.trans w3, h4.trans w4, fun b hb => ?_⟩
    obtain ⟨hlow, hhigh⟩ := blocks_apart hb
    exact (h5 b hhigh).trans (w5 b hlow)

theorem region_apart {i a : Nat} (h : inMram a = true) : a < regionAddr i ∨ regionAddr i + 512 * 4 ≤ a := by
  unfold inMram at h
  simp only [decide_eq_true_eq] at h
  unfold regionAddr
  split_ifs <;> omega

theorem caverLost_spec (s : State) (c : Option CaverRun) : (s.caverLost c).regs = s.regs ∧ (s.caverLost c).elec = s.elec ∧
    (s.caverLost c).ld = s.ld ∧ (s.caverLost c).cells = s.cells ∧ ∀ a, inMram a = true → (s.caverLost c).byteAt a = s.byteAt a := by
  unfold State.caverLost
  split
  next c =>
    split
    · exact ⟨rfl, rfl, rfl, rfl, fun _ _ => rfl⟩
    · obtain ⟨h1, h2, h3, h4, h5⟩ := memFree_spec 4 s (regionAddr c.region)
      exact ⟨h1, h2, h3, h4, fun a ha => h5 a (region_apart ha)⟩
  · exact ⟨rfl, rfl, rfl, rfl, fun _ _ => rfl⟩

/-- A reset cuts no more short than an advance of ARB where no flash command runs. -/
theorem lost_spec {s : State} (h : s.ld.cmd = none) : s.flashLost.arbLost.ld = s.ld ∧ s.flashLost.arbLost.cells = s.cells ∧
    s.flashLost.arbLost.mem = s.mem := by
  have hf : s.flashLost = s := by
    unfold State.flashLost
    rw [h]
  rw [hf]
  unfold State.arbLost
  split
  · split
    · exact ⟨rfl, rfl, rfl⟩
    · exact ⟨rfl, rfl, rfl⟩
  · exact ⟨rfl, rfl, rfl⟩

/-- A field that is not kept reads its reset value. -/
theorem fld_keepFlds {l : List Fld} {f : Fld} (h : f.key ∉ l.map Fld.key) (regs : NMap Nat) :
    mget f.rst (keepFlds l regs) f.key = f.rst := by
  unfold keepFlds
  induction regs with
  | nil => rfl
  | cons p t ih =>
    rw [List.filter_cons]
    split
    next hp =>
      have hne : p.1 ≠ f.key := fun e => h (by rw [← e]; simpa using hp)
      simp only [mget, if_neg hne, ih]
    · exact ih

theorem chipReset_spec {s : State} (cause : Nat) (h : s.ld.cmd = none) : (s.chipReset cause).op = 0 ∧
    (s.chipReset cause).elec.inReset = true ∧
    (s.chipReset cause).ld.flash = s.ld.flash ∧ (s.chipReset cause).ld.img = {} ∧ (s.chipReset cause).cells = s.cells ∧
    ∀ a, inMram a = true → (s.chipReset cause).byteAt a = s.byteAt a := by
  obtain ⟨hl, hc, hm⟩ := lost_spec h
  unfold State.chipReset
  extract_lets test u elec t
  obtain ⟨h1, h2, h3, h4, h5⟩ := caverLost_spec (t.setFld CLK_MON_TIME_FREERUN (b2n u.timeLost)) test
  refine ⟨?_, ?_, ?_, ?_, ?_, fun a ha => ?_⟩
  · refine (fld_congr h1 CLK_STATE_STATE).trans ((fld_setFld_ne _ _ (by decide)).trans ((fld_setFld_ne _ _ (by decide)).trans ?_))
    exact fld_keepFlds (f := CLK_STATE_STATE) (by decide) u.regs
  · rw [h2]; rfl
  · rw [h3]; exact (congrArg Loader.flash hl :)
  · rw [h3]; rfl
  · rw [h4]; exact hc
  · refine (h5 a ha).trans ?_
    have hk : keptAddr a = true := by simp [keptAddr, ha]
    refine (cget_filter memDefault hk u.mem.bytes).trans ?_
    rw [show u.mem = s.mem from hm]
    rfl

/-! ### O48 -/

theorem imageVerify_content {s : State} {x o : Nat} {rest : List Nat} (hx : x < 2) (n : Nat) (hc : s.ld.cand = (x + 1) :: rest)
    (hb : s.badPair x = none) (h0 : s.contentCode x ≠ 0) :
    (∀ k i, s.badEntry x (s.contentCode x) = some (k, i) →
      GivenUp x (s.contentCode x) 0x2B (k % 256 * 2 ^ 16 + i % 65536) rest s (s.unwaited.sealCounted.judged x n (some o))) ∧
    ∃ d < 2 ^ 24, GivenUp x (s.contentCode x) 0x2B d rest s (s.unwaited.sealCounted.judged x n (some o)) := by
  obtain ⟨hk, hch, -, -⟩ := sealCounted_kept s
  exact contentFails n o hx ((congrArg Loader.cand hch.ld :).trans hc) hk hch hb h0

/-- What the device shows of an image of slot x, of owner slot o, that it has put in force (R416). -/
def Accepted (x o : Nat) (s t : State) : Prop :=
  t.op = 4 ∧ t.fld CFG_STAT_SLOT = x + 1 ∧ t.fld (CFG_SLOT_STAT_PASSED x) = 1 ∧ t.fld CFG_GEN = s.imgGen x ∧
    t.wide CFG_HASH = (shake256 (s.flBytes (slotBase x) 0x1400) 256).toNat ∧ t.fld SEC_STAT_SVN = s.imgSvn x ∧
    t.fld SEC_STAT_IMG_SLOT = o ∧ t.ld.cand = [] ∧ t.ld.img.cells = s.ld.trial.cells ∧
    t.ld.img.hash = (shake256 (s.flBytes (slotBase x) 0x1400) 256).toNat ∧ t.fld CFG_STAT_MODIFIED = 0 ∧ t.seq.pc = 0x38000000 ∧
    t.seq.run = true ∧ (∀ i : Fin 6, t.fld (CE_BANK_ACT i) = 0) ∧
    (s.ld.first = x + 1 → t.fld CFG_STAT_FALLBACK = s.fld CFG_STAT_FALLBACK) ∧
    (s.ld.first ≠ x + 1 → t.fld CFG_STAT_FALLBACK = 1 ∧ Told (0x3D8 + x) 0x2C 0 s t)

theorem imageVerify_accepts {s : State} {x o : Nat} (hx : x < 2) (n : Nat) (ho : o < 4)
    (hh : ∀ p ∈ s.ld.trial.held, heldReg p.1 = true) (hb : s.badPair x = none) (h0 : s.contentCode x = 0) :
    Accepted x o s (s.unwaited.sealCounted.judged x n (some o)) := by
  obtain ⟨hk, hch, -, -⟩ := sealCounted_kept s
  have hfb : s.unwaited.sealCounted.fld CFG_STAT_FALLBACK = s.fld CFG_STAT_FALLBACK := hk.flds _ (by decide)
  have hq := hk.quiet (0x3D8 + x) (by interval_cases x <;> decide)
  have hld := hch.ld
  rw [judged_accept n o ((hch.badPair x).trans hb) ((hch.contentCode x).trans h0)]
  generalize s.unwaited.sealCounted = t at hfb hq hld
  have h := accepted_spec (s := t) hx ho (shake256 (t.flBytes (slotBase x) 0x1400) 256).isLt (by rw [hld]; exact hh)
  rw [← acceptImage_accepted] at h
  have hbytes (a n : Nat) : t.flBytes a n = s.flBytes a n := by
    unfold State.flBytes
    rw [hld]
  dsimp only at h
  rw [imgGen_congr hld, show t.imgSvn x = s.imgSvn x by unfold State.imgSvn State.flRd; rw [hld], hbytes, hld, hfb] at h
  obtain ⟨h1, h2, h3, h4, h5, h6, h7, h8, h9, h10, h11, h12, h13, h14, h15, h16⟩ := h
  exact ⟨h1, h2, h3, h4, h5, h6, h7, h8, h9, h10, h11, h12, h13, h14, h15, fun hf => ⟨(h16 hf).1, (h16 hf).2.earlier hq⟩⟩

theorem imageLoad_key {s : State} {val : Nat} (h : wbits val CFG_LOAD_KEY ≠ 0x6C0D) : imageLoadRequest s val = s.blockSend 0xC0050 0x03 :=
  if_pos h

theorem imageLoad_idle {s : State} {val : Nat} (h : wbits val CFG_LOAD_KEY = 0x6C0D) (hg : wbits val CFG_LOAD_GO = 0) :
    imageLoadRequest s val = s := by
  unfold imageLoadRequest
  rw [if_neg (not_not.mpr h), if_pos hg]

theorem imageLoad_go {s : State} {val : Nat} (h : wbits val CFG_LOAD_KEY = 0x6C0D) (hg : wbits val CFG_LOAD_GO = 1) :
    imageLoadRequest s val =
      if s.ld.cmd.isSome then s.svcDenied
      else if s.op = 3 then s.loadBegun.readHeaders
      else if s.op = 4 ∨ s.op = 8 then s.chipReset 0
      else s.svcDenied := by
  unfold imageLoadRequest
  rw [if_neg (not_not.mpr h), if_neg (by omega)]
  rfl

theorem imageLoad_denied {s : State} {val : Nat} (h : wbits val CFG_LOAD_KEY = 0x6C0D) (hg : wbits val CFG_LOAD_GO = 1)
    (hs : s.ld.cmd ≠ none ∨ (s.op ≠ 3 ∧ s.op ≠ 4 ∧ s.op ≠ 8)) : imageLoadRequest s val = s.svcDenied := by
  rw [imageLoad_go h hg]
  rcases hs with hs | ⟨h3, h4, h8⟩
  · exact if_pos (Option.isSome_iff_ne_none.mpr hs)
  · rw [if_neg h3, if_neg (not_or.mpr ⟨h4, h8⟩), ite_self]

/-- A message and nothing else. -/
theorem sent_alone (s : State) (src kind : Nat) : let t := s.send src kind 0
    t = { s with regs := t.regs, sump := t.sump } ∧ SameRegs msgFlds s t ∧ Told src kind 0 s t :=
  ⟨send_eq .., (send_frame s src kind 0).2, told_send s src kind 0⟩

/-- Settles O48: a failing check gives the candidate up (`GivenUp`), passing all of them accepts it (`Accepted`), and a load reads
both headers or resets the chip. -/
theorem imagesAreReadVerifiedAndLoaded : Obligations.ImagesAreReadVerifiedAndLoaded := by
  unfold Obligations.ImagesAreReadVerifiedAndLoaded
  intro digest fail
  have hrd (s : State) : exec .imageReadComplete s = .next (imageReadComplete s) := rfl
  have hvf (s : State) : exec .imageVerify s = .next (imageVerify s) := rfl
  have hld (s : State) (m : Master) (v : Word) : exec (.imageLoadRequest m v) s = .next (imageLoadRequest s v.toNat) := rfl
  refine ⟨fun s h => ?_, fun s hr ho hc => ?_, fun s x rest hr ho hc => ⟨fun hd => ?_, fun hd => ?_⟩, fun s h => ?_,
    fun s ho hr hc hs => ?_, fun s x rest ho hr hc hs hq hw hj hh => ?_, fun s m v hk hg => ?_, fun s m v hk => ?_,
    fun s m v hg => ⟨fun hk hs => ?_, fun hk hn ho => ?_, fun hk hn ho => ?_⟩⟩
  · rw [hrd, imageReadComplete_idle h]
  · obtain ⟨h1, h2, h3, h4, -, -⟩ := enterHold_spec s
    rw [hrd, imageReadComplete_none hr ho hc]
    exact ⟨_, rfl, h1, h2, (congrArg Loader.reading h4 :), h3⟩
  · exact ⟨_, hrd s, imageReadComplete_good hr ho hc hd⟩
  · exact ⟨_, hrd s, imageReadComplete_bad x.isLt hr ho hc hd⟩
  · rw [hvf, imageVerify_idle h]
  · rw [hvf, imageVerify_waits ho hr hc hs]
  · intro pk h owner good
    obtain ⟨hnone, hsome⟩ := imageVerify_sealFails x.isLt ho hr hc hs hq hw hj
    refine ⟨_, hvf s, hnone, fun o hown => ?_⟩
    obtain ⟨hbad, hold⟩ := hsome o hown
    have hjudged (hg : good = true) (hv : s.fld SEC_STAT_ARB ≤ s.imgSvn x) := imageVerify_sealed ho hr hc hs hq hw hj hown hg hv
    refine ⟨hbad, hold, fun hg hv k i hb => ?_, fun hg hv hb => ⟨fun h0 => ?_, fun h0 => ?_⟩⟩
    · rw [hjudged hg hv]
      exact imageVerify_badPair x.isLt _ hc hb
    · rw [hjudged hg hv]
      exact imageVerify_content x.isLt _ hc hb h0
    · rw [hjudged hg hv]
      exact imageVerify_accepts x.isLt _ (imgOwner_lt hown) hh hb h0
  · rw [hld, imageLoad_idle hk hg]
  · rw [hld, imageLoad_key hk]
    exact ⟨_, rfl, sent_alone s 0x3D8 0x03⟩
  · rw [hld, imageLoad_denied hk hg hs]
    exact ⟨_, rfl, sent_alone s 0x3DB 0x2F⟩
  · have hne : s.op ≠ 3 := by omega
    rw [hld, imageLoad_go hk hg, hn, if_neg (by simp), if_neg hne, if_pos ho]
    exact ⟨_, rfl, chipReset_spec 0 hn⟩
  · rw [hld, imageLoad_go hk hg, hn, if_neg (by simp), if_pos ho]
    have hsilent := load_silent ho
    have hanswered := load_answered ho
    dsimp only at hsilent hanswered
    generalize s.loadBegun.readHeaders = t at hsilent hanswered
    refine ⟨t, rfl, ?_⟩
    cases hf : s.ld.flashOk with
    | false =>
      obtain ⟨h1, h2, h3, h4, h5⟩ := hsilent hf
      exact ⟨h1, h2, h3, h4, fun _ => h5, fun h => absurd h (by decide)⟩
    | true =>
      obtain ⟨h1, h2, h3, h4, h5, h6⟩ := hanswered hf
      exact ⟨h1, h2, h3, h4, fun h => absurd h (by decide), fun _ => ⟨h5, h6⟩⟩

end Sys2Proof.Machine
end

section
/-! PROOFS. O39, first part: bytes that a unit reads and writes where no error stands, and the epoch's stored copy. -/
namespace Sys2Proof.Machine
open Sys2Proof

-- The proofs are checked one after another: many at a time need more memory than a compile may have.
set_option Elab.async false

/-! ### Bytes read and written without error -/

theorem seenByte_clean {s : State} {a : Nat} (h : s.errAt a = 0) : s.seenByte a = s.byteAt a := by
  unfold State.seenByte
  split
  · rfl
  · have hsub := crd_sub memDefault s.mem.bytes (a / 8 * 8) (a % 8) 1 8 (by omega)
    have hlt : s.rd (a / 8 * 8) 8 < 2 ^ 64 := crd_lt memDefault s.mem.bytes 8 (a / 8 * 8)
    rw [show a / 8 * 8 + a % 8 = a by omega] at hsub
    rw [wordAt_clean s a h, BitVec.toNat_ofNat, Nat.mod_eq_of_lt hlt]
    apply BitVec.eq_of_toNat_eq
    rw [BitVec.toNat_ofNat]
    simpa [crd, State.rd, State.byteAt] using hsub

theorem leNat_bytes (s : State) (a n : Nat) : leNat ((upto n).map fun i => s.byteAt (a + i)) = s.rd a n := by
  induction n generalizing a with
  | zero => rfl
  | succ n ih =>
    have hr : upto (n + 1) = 0 :: (upto n).map (· + 1) := List.range_succ_eq_map
    rw [hr, List.map_cons, List.map_map]
    have := ih (a + 1)
    simp only [leNat, State.rd, crd] at this ⊢
    rw [← this]
    congr 4
    funext i
    show s.byteAt (a + (i + 1)) = s.byteAt (a + 1 + i)
    congr 1
    omega

/-- A number's bytes written and read again. -/
theorem rd_wrBytes_leBytes (s : State) (a n v : Nat) : (s.wrBytes a (leBytes n v)).rd a n = v % 256 ^ n := by
  have h : ∀ (n v a : Nat) (s : State), (s.wrBytes a (leBytes n v)).mem.bytes = cwr memDefault s.mem.bytes a n v := by
    intro n
    induction n with
    | zero => intros; rfl
    | succ n ih =>
      intro v a s
      show ((s.wr a 1 (BitVec.ofNat 8 v).toNat).wrBytes (a + 1) (leBytes n (v / 256))).mem.bytes = _
      rw [ih]
      show cwr memDefault (cset memDefault s.mem.bytes a (BitVec.ofNat 8 (BitVec.ofNat 8 v).toNat)) (a + 1) n (v / 256) = _
      rw [BitVec.ofNat_toNat, BitVec.setWidth_eq]
      rfl
  unfold State.rd
  rw [h, crd_cwr_same]

theorem inject_mem (s : State) (i : Nat) (syn : BitVec 8) : (s.inject i syn).1.mem = s.mem := by
  unfold State.inject
  split
  · rfl
  · extract_lets mask u obs
    have hu : u.mem = s.mem := by
      unfold u
      split <;> rfl
    split
    · exact (congrArg State.mem (sendAs_frame ..)).trans hu
    · exact (congrArg State.mem (sendAs_frame ..)).trans hu

theorem checkedRead_bytes (s : State) (a : Nat) : (s.checkedRead a).2.mem.bytes = s.mem.bytes := by
  have hi := inject_mem s (checkerOf a) (s.synAt a)
  unfold State.checkedRead
  extract_lets i syn
  split
  next u rep hu =>
    have hu : u.mem = s.mem := by rw [hu] at hi; exact hi
    have hb : u.mem.bytes = s.mem.bytes := congrArg Memory.bytes hu
    extract_lets w
    have hc (k n d : Nat) (c : Fld) : ((u.count c MEM_CNT_OVF k 1).sendIf (!rep) n d a).mem = u.mem := by
      rw [sendIf_mem, count_eq]
    split
    · exact hb
    · exact (congrArg Memory.bytes (hc ..)).trans hb
    · exact (congrArg Memory.bytes (hc ..) :).trans hb

theorem sameMem_of_bytes {s t : State} (h : t.mem.bytes = s.mem.bytes) : SameMem s t := fun a => by simp [State.byteAt, h]

theorem SameMemBut.trans {a n : Nat} {s t u : State} (h : SameMemBut a n s t) (k : SameMemBut a n t u) : SameMemBut a n s u :=
  fun b hb => (k b hb).trans (h b hb)

theorem SameMem.but {s t : State} (h : SameMem s t) (a n : Nat) : SameMemBut a n s t := fun b _ => h b

/-- A unit's write outside the mailbox, with its reading of the words it covers in part (R452). -/
theorem writeBytes_out (s : State) {a : Nat} (l : List Byte) (ha : inMbox a = false) : s.writeBytes a l =
    (let part := (spanWords a l.length).filter fun w => decide (w < a ∨ a + l.length < w + 8)
     let bad := if s.mem.err.isEmpty then [] else part.filter fun w => !(eccOf (s.synAt w)).good
     let t := part.foldl (fun t w => if t.quiet w then t else (t.checkedRead w).2) s
     if bad.isEmpty then t.wrBytes a l
     else l.zipIdx.foldl (fun t p => if bad.contains ((a + p.2) / 8 * 8) then t else t.wr (a + p.2) 1 p.1.toNat) t) := by
  unfold State.writeBytes State.mboxBegin State.mboxOver
  simp only [ha, Bool.not_false, if_true, Bool.false_eq_true, if_false]

theorem sameMemBut_writeBytes (s : State) {a : Nat} (l : List Byte) (ha : inMbox a = false) :
    SameMemBut a l.length s (s.writeBytes a l) := by
  rw [writeBytes_out s l ha]
  extract_lets part bad t
  have ht : SameMemBut a l.length s t := by
    refine (sameMem_of_bytes ?_).but _ _
    refine foldl_keep (fun u : State => u.mem.bytes) _ (fun u w => ?_) part s
    split
    · rfl
    · exact checkedRead_bytes u w
  split
  · exact ht.trans fun b hb => byteAt_wrBytes_out l t a b hb
  · refine foldl_inv_mem (SameMemBut a l.length s) _ l.zipIdx (fun u p hp hu => ?_) t ht
    have hlt : p.2 < l.length := by
      have := List.mem_zipIdx hp
      omega
    split
    · exact hu
    · exact hu.trans fun b hb => byteAt_wr_out u _ (by omega)

/-- The words of the write hold no error: its bytes alone change. -/
theorem writeBytes_clean {s : State} {a : Nat} (l : List Byte) (ha : inMbox a = false) (h : ∀ w ∈ spanWords a l.length, s.cleanWord w) :
    s.writeBytes a l = s.wrBytes a l := by
  have hgood : eccOf (syndrome 0) = .ok := by decide
  rw [writeBytes_out s l ha]
  extract_lets part bad t
  have hpart : ∀ w ∈ part, s.cleanWord w := fun w hw => h w (List.mem_of_mem_filter hw)
  have ht : t = s := by
    refine foldl_inv_mem (fun u => u = s) _ part (fun u w hw hu => ?_) s rfl
    obtain ⟨he, hi⟩ := hpart w hw
    subst hu
    rw [checkedRead_clean u w hi he, ite_self]
  have hbad : bad = [] := by
    unfold bad
    split
    · rfl
    · refine List.filter_eq_nil_iff.mpr fun w hw => ?_
      rw [State.synAt, (hpart w hw).1, hgood]
      decide
  rw [hbad, ht]
  rfl

/-- The words of the read hold no error: its bytes are read and nothing changes. -/
theorem readBytes_clean {s : State} {a n : Nat} (ha : inMbox a = false) (h : ∀ w ∈ spanWords a n, s.cleanWord w)
    (hb : ∀ i < n, s.errAt (a + i) = 0) (hm : ∀ w ∈ spanWords a n, inMbox w = false) :
    s.readBytes a n = (some ((upto n).map fun i => s.byteAt (a + i)), s) := by
  have hword : ∀ w ∈ spanWords a n, readWord s w = (true, s) := by
    intro w hw
    obtain ⟨he, hi⟩ := h w hw
    unfold readWord
    simp [hm w hw, checkedRead_clean s w hi he, Ecc.good]
  have hread : ∀ l : List Nat, (∀ w ∈ l, readWord s w = (true, s)) → s.readEach l = (true, s) := by
    intro l
    induction l with
    | nil => intro _; rfl
    | cons w l ih =>
      intro hl
      rw [readEach_cons, hl w List.mem_cons_self, ih fun v hv => hl v (List.mem_cons_of_mem _ hv)]
      rfl
  have hbytes : ((upto n).map fun i => s.seenByte (a + i)) = (upto n).map fun i => s.byteAt (a + i) :=
    List.map_congr_left fun i hi => seenByte_clean (hb i (List.mem_range.mp hi))
  unfold State.readBytes State.mboxBegin State.mboxOver
  simp only [ha, Bool.not_false, if_true, Bool.false_eq_true, if_false, hread _ hword, hbytes]

/-! ### The epoch and its stored copy (R288) -/

theorem epoch_out : inMbox epochAddr = false := by decide

theorem epoch_words : spanWords epochAddr 4 = [epochAddr] := by decide

theorem storedEpoch_clean {s : State} (h : s.cleanWord epochAddr) : s.storedEpoch = (s.rd epochAddr 4, s) := by
  have hb : ∀ i < 4, s.errAt (epochAddr + i) = 0 := by
    intro i hi
    have hw : (epochAddr + i) / 8 * 8 = epochAddr / 8 * 8 := by unfold epochAddr; omega
    rw [← h.1, State.errAt, hw, State.errAt]
  unfold State.storedEpoch
  rw [readBytes_clean epoch_out (by simpa [epoch_words] using h) hb (by simp [epoch_words, epoch_out])]
  exact congrArg (·, s) (leNat_bytes s epochAddr 4)

theorem leBytes_length (n v : Nat) : (leBytes n v).length = n := by
  induction n generalizing v with
  | zero => rfl
  | succ n ih => exact congrArg (· + 1) (ih _)

/-- Bringing the copy up to date writes no other bytes. -/
theorem sameMemBut_storeEpoch (s : State) : SameMemBut epochAddr 4 s s.storeEpoch := by
  have h := sameMemBut_writeBytes s (leBytes 4 (s.fld RED_EPOCH_EPOCH)) epoch_out
  rw [leBytes_length] at h
  unfold State.storeEpoch
  split
  · exact fun _ _ => rfl
  · exact h

theorem readFrame_storeEpoch (s : State) : ReadFrame s s.storeEpoch := by
  unfold State.storeEpoch
  split
  · exact .refl s
  · exact readFrame_writeBytes ..

theorem storeEpoch_clean {s : State} (h : s.cleanWord epochAddr) : s.storeEpoch = { s with mem := s.storeEpoch.mem } ∧
    (s.mramHeld = false → s.fld RED_EPOCH_EPOCH < 2 ^ 32 → s.storeEpoch.rd epochAddr 4 = s.fld RED_EPOCH_EPOCH) := by
  unfold State.storeEpoch
  split
  next hc => exact ⟨rfl, fun hm _ => hc.resolve_left (by simp [hm])⟩
  next =>
    rw [writeBytes_clean _ epoch_out (by rw [leBytes_length, epoch_words]; simpa using h)]
    exact ⟨wrBytes_eq .., fun _ hv => by rw [rd_wrBytes_leBytes, Nat.mod_eq_of_lt (by simpa using hv)]⟩

theorem cleanWord_setFld {s : State} {a : Nat} (f : Fld) (v : Nat) (h : s.cleanWord a) (hf : f.key ≠ (FLT_INJ_ARM (checkerOf a)).key) :
    (s.setFld f v).cleanWord a := ⟨h.1, by rw [State.bit, fld_setFld_ne s v hf]; exact h.2⟩

end Sys2Proof.Machine
end

section
/-! PROOFS. O39, second part: the wait for a role, the change of roles, the epoch taken and cleared. -/
namespace Sys2Proof.Machine
open Sys2Proof

-- The proofs are checked one after another: many at a time need more memory than a compile may have.
set_option Elab.async false

/-! ### Roles taken (R285 to R288) -/

theorem epoch_apart : ∀ g ∈ readFlds, RED_EPOCH_EPOCH.key ≠ g.key := by decide +kernel

/-- The registers of a role change. -/
def changeFlds : List Fld := [RED_STAT_ROLE, RED_STAT_SUB, SEQ_EVT]

theorem setRole_spec (s : State) {role sub : Nat} (hr : role < 4) (hb : sub < 4) :
    s.setRole role sub = { s with regs := (s.setRole role sub).regs } ∧ SameRegs changeFlds s (s.setRole role sub) ∧
      (s.setRole role sub).role = role ∧ (s.setRole role sub).sub = sub := by
  unfold State.setRole
  split
  next h => exact ⟨rfl, sameRegs_refl _ _, h⟩
  next =>
    refine ⟨rfl, (((sameRegs_refl _ s).setFld role ?_).setFld sub ?_).seqEvent 5 ?_, ?_, ?_⟩
    · simp [changeFlds]
    · simp [changeFlds]
    · simp [changeFlds]
    · exact (fld_setFld_ne _ _ (by decide)).trans ((fld_setFld_ne _ _ (by decide)).trans (fld_setFld_fits _ hr))
    · exact (fld_setFld_ne _ _ (by decide)).trans (fld_setFld_fits _ hb)

theorem roleChange_spec (s : State) {role sub : Nat} (reason : Nat) (hr : role < 4) (hb : sub < 4) :
    s.roleChange role sub reason = { s with regs := (s.roleChange role sub reason).regs, seq := (s.roleChange role sub reason).seq } ∧
      SameRegs changeFlds s (s.roleChange role sub reason) ∧ (s.roleChange role sub reason).role = role ∧
      (s.roleChange role sub reason).sub = sub := by
  obtain ⟨h1, h2, h3, h4⟩ := setRole_spec s hr hb
  unfold State.roleChange
  extract_lets u
  split
  · exact ⟨by rw [show u = _ from h1], h2.trans (sameRegs_of_regs _ rfl), h3, h4⟩
  · exact ⟨by rw [show u = _ from h1], h2, h3, h4⟩

/-- A unit that becomes STANDBY shows it, waits for no role and keeps epoch, memory and messages. -/
theorem becomeStandby_spec (s : State) {sub : Nat} (reason : Nat) (hb : sub < 4) : let t := s.becomeStandby sub reason
    t.role = 2 ∧ t.sub = sub ∧ t.red.waitFrom = none ∧ SameRegs changeFlds s t ∧ t.sump = s.sump ∧ t.mem = s.mem := by
  obtain ⟨h1, h2, h3, h4⟩ := roleChange_spec s reason (show 2 < 4 by decide) hb
  exact ⟨h3, h4, rfl, h2.trans (sameRegs_of_regs _ rfl), (congrArg State.sump h1 :), (congrArg State.mem h1 :)⟩

/-- The epoch taken, in force and in its stored copy. -/
theorem setEpoch_clean {s : State} {e : Nat} (h : s.cleanWord epochAddr) (he : e ≤ 0xFFFFFF) :
    (s.setEpoch e).fld RED_EPOCH_EPOCH = e ∧ SameMemBut epochAddr 4 s (s.setEpoch e) ∧
      (s.mramHeld = false → s.fld RED_EPOCH_EPOCH ≠ e → (s.setEpoch e).rd epochAddr 4 = e) := by
  have hfits : (s.setFld RED_EPOCH_EPOCH e).fld RED_EPOCH_EPOCH = e := fld_setFld_fits s (Nat.lt_of_le_of_lt he (by decide))
  obtain ⟨-, hrd⟩ := storeEpoch_clean (cleanWord_setFld RED_EPOCH_EPOCH e h (by decide))
  have hmem := sameMemBut_storeEpoch (s.setFld RED_EPOCH_EPOCH e)
  have hkept := (readFrame_storeEpoch (s.setFld RED_EPOCH_EPOCH e)).2.2 RED_EPOCH_EPOCH epoch_apart
  unfold State.setEpoch
  split
  next heq => exact ⟨heq, fun _ _ => rfl, fun _ hne => absurd heq hne⟩
  next =>
    rw [hfits] at hkept hrd
    exact ⟨hkept, hmem, fun hm _ => hrd hm (by omega)⟩

theorem becomeActive_next {s : State} (reason : Nat) (h : s.cleanWord epochAddr) (he : s.nextEpoch (s.rd epochAddr 4) ≤ 0xFFFFFF) :
    s.becomeActive reason = { (s.setEpoch (s.nextEpoch (s.rd epochAddr 4))).roleChange 1 0 reason with
      red := { s.red with waitFrom := none, rx := none, cyc := none, next2 := none, take := false } } := by
  unfold State.becomeActive
  rw [storedEpoch_clean h]
  exact if_neg (by omega)

/-- A unit that becomes ACTIVE takes the next epoch above the stored one that it reads. -/
theorem becomeActive_taken {s : State} (reason : Nat) (h : s.cleanWord epochAddr) (he : s.nextEpoch (s.rd epochAddr 4) ≤ 0xFFFFFF) :
    let t := s.becomeActive reason
    t.role = 1 ∧ t.sub = 0 ∧ t.red.waitFrom = none ∧ t.fld RED_EPOCH_EPOCH = s.nextEpoch (s.rd epochAddr 4) ∧
      SameMemBut epochAddr 4 s t ∧
      (s.mramHeld = false → s.fld RED_EPOCH_EPOCH ≠ s.nextEpoch (s.rd epochAddr 4) →
        t.rd epochAddr 4 = s.nextEpoch (s.rd epochAddr 4)) := by
  have ht := becomeActive_next reason h he
  obtain ⟨e1, e2, e3⟩ := setEpoch_clean h he
  generalize s.nextEpoch (s.rd epochAddr 4) = e at *
  generalize s.setEpoch e = u at *
  obtain ⟨h1, h2, h3, h4⟩ := roleChange_spec u reason (show 1 < 4 by decide) (show 0 < 4 by decide)
  have hmem : (u.roleChange 1 0 reason).mem = u.mem := (congrArg State.mem h1 :)
  clear h1
  rw [ht]
  generalize u.roleChange 1 0 reason = v at *
  exact ⟨h3, h4, rfl, (h2 RED_EPOCH_EPOCH (by decide)).trans e1, e2.trans ((sameMem_of_mem hmem).but _ _),
    fun hm hne => (rd_congr hmem ..).trans (e3 hm hne)⟩

/-- With the epochs exhausted it keeps its role and tells. -/
theorem becomeActive_exhausted {s : State} (reason : Nat) (h : s.cleanWord epochAddr) (he : 0xFFFFFF < s.nextEpoch (s.rd epochAddr 4)) :
    s.becomeActive reason = (s.flag RED_STAT_EPOCH_EXH).send 0x380 0x12 0 := by
  unfold State.becomeActive
  rw [storedEpoch_clean h]
  exact if_pos he

/-- A flag shown and a message told, and nothing else. -/
def Flagged (f : Fld) (src kind : Nat) (s t : State) : Prop :=
  t = { s with regs := t.regs, sump := t.sump } ∧ SameRegs (f :: msgFlds) s t ∧ t.fld f = 1 ∧ Told src kind 0 s t

theorem flagged_send (s : State) {f : Fld} (src kind : Nat) (hf : FLT_CNT_MERGED.key ≠ f.key ∧ FLT_CNT_OVF.key ≠ f.key)
    (hw : f.w = 1) : Flagged f src kind s ((s.flag f).send src kind 0) := by
  obtain ⟨h1, h2⟩ := send_frame (s.flag f) src kind 0
  refine ⟨by rw [h1]; rfl, ?_, ?_, told_send_of src kind 0 rfl⟩
  · exact ((sameRegs_refl (f :: msgFlds) s).flag List.mem_cons_self).trans (h2.mono fun g hg => List.mem_cons_of_mem _ hg)
  · rw [fld_send_ne _ _ _ _ hf.1 hf.2]
    exact fld_setFld_fits s (by rw [hw]; decide)

theorem roleWaitExpiry_idle {s : State} (h : s.role ≠ 0 ∨ s.red.waitFrom = none ∨
    ∃ h, s.red.hdr = some h ∧ s.now < h.tick + s.fld RED_CFG_WAIT * 10000) : roleWaitExpiry s = s := by
  unfold roleWaitExpiry
  split
  · rfl
  next t ht =>
    refine if_pos ?_
    rcases h with h | h | ⟨p, hp, hlt⟩
    · exact Or.inl h
    · rw [h] at ht
      cases ht
    · right; right
      rw [hp]
      exact decide_eq_true hlt

theorem roleWaitExpiry_over {s : State} {t0 : Nat} (hw : s.red.waitFrom = some t0) (hr : s.role = 0)
    (ht : t0 + s.fld RED_CFG_WAIT * 10000 ≤ s.now) (hh : ∀ h, s.red.hdr = some h → h.tick + s.fld RED_CFG_WAIT * 10000 ≤ s.now) :
    roleWaitExpiry s = if s.majority s.otherToken then s.becomeStandby 2 0 else s.becomeActive 0 := by
  unfold roleWaitExpiry
  rw [hw]
  refine if_neg ?_
  rintro (h | h | h)
  · exact h hr
  · omega
  · split at h
    next p hp => exact absurd (of_decide_eq_true h) (by have := hh p hp; omega)
    · cases h

/-- Three boundaries of R287 in a row demote the ACTIVE unit. -/
theorem demoted_spec {s : State} (hr : s.role = 1) (hd : 3 ≤ s.red.demRun) : let t := demoted s
    t.role = 2 ∧ t.sub = 2 ∧ t.fld RED_STAT_DEMOTED = 1 ∧ Told 0x380 0x11 0 s t ∧ t.fld RED_EPOCH_EPOCH = s.fld RED_EPOCH_EPOCH ∧
      SameMem s t := by
  obtain ⟨h1, h2, -, h3, h4, h5⟩ := becomeStandby_spec s 3 (show 2 < 4 by decide)
  have he : demoted s = ((s.becomeStandby 2 3).flag RED_STAT_DEMOTED).send 0x380 0x11 0 := if_pos ⟨hr, hd⟩
  rw [he]
  generalize s.becomeStandby 2 3 = u at *
  obtain ⟨f1, f2, f3, f4⟩ := flagged_send u (f := RED_STAT_DEMOTED) 0x380 0x11 (by decide) rfl
  refine ⟨(f2 _ (by decide)).trans h1, (f2 _ (by decide)).trans h2, f3, f4.earlier fun hs => ?_, ?_, ?_⟩
  · rw [State.msgAt, h4]
    exact hs
  · exact (f2 _ (by decide)).trans (h3 _ (by decide))
  · exact sameMem_of_mem ((congrArg State.mem f1 :).trans h5)

theorem epochClear_spec {s : State} (ho : s.op = 4) (hp : s.pairHeard = false) : let t := epochClear s
    t.fld RED_EPOCH_EPOCH = 0 ∧ t.fld RED_STAT_EPOCH_EXH = 0 ∧ SameMemBut epochAddr 4 s t ∧
      (s.cleanWord epochAddr → t = { s with regs := t.regs, mem := t.mem } ∧ SameRegs [RED_EPOCH_EPOCH, RED_STAT_EPOCH_EXH] s t ∧
        (s.mramHeld = false → t.rd epochAddr 4 = 0)) := by
  have he : epochClear s = (s.setFld RED_EPOCH_EPOCH 0).storeEpoch.setFld RED_STAT_EPOCH_EXH 0 := if_pos ⟨ho, by rw [hp]; rfl⟩
  have hzero : (s.setFld RED_EPOCH_EPOCH 0).fld RED_EPOCH_EPOCH = 0 := fld_setFld_same ..
  have hkept := (readFrame_storeEpoch (s.setFld RED_EPOCH_EPOCH 0)).2.2 RED_EPOCH_EPOCH epoch_apart
  rw [he]
  refine ⟨?_, fld_setFld_same .., sameMemBut_storeEpoch (s.setFld RED_EPOCH_EPOCH 0), fun hc => ?_⟩
  · rw [fld_setFld_ne _ _ (by decide), hkept, hzero]
  · obtain ⟨hm, hrd⟩ := storeEpoch_clean (cleanWord_setFld RED_EPOCH_EPOCH 0 hc (by decide))
    rw [hzero] at hrd
    have hregs : (s.setFld RED_EPOCH_EPOCH 0).storeEpoch.regs = (s.setFld RED_EPOCH_EPOCH 0).regs := by rw [hm]
    refine ⟨by rw [hm]; rfl, ?_, fun hh => hrd hh (by decide)⟩
    exact (((sameRegs_refl _ s).setFld 0 (by simp)).trans (sameRegs_of_regs _ hregs)).setFld 0 (by simp)

end Sys2Proof.Machine
end

section
/-! PROOFS. O39, third part: a missed deadline, the state followed and the device status slots. -/
namespace Sys2Proof.Machine
open Sys2Proof

-- The proofs are checked one after another: many at a time need more memory than a compile may have.
set_option Elab.async false

/-! ### A missed deadline (R293) -/

/-- The missed deadline shown, and told once per run. -/
def State.lateTold (s : State) : State :=
  (s.flag RED_STAT_STAT_LATE).sendIf (!s.red.lateRun && !s.red.lateNow) 0x383 0x19 0

theorem lateTold_spec (s : State) : s.lateTold = { s with regs := s.lateTold.regs, sump := s.lateTold.sump } ∧
    SameRegs (RED_STAT_STAT_LATE :: msgFlds) s s.lateTold ∧ s.lateTold.fld RED_STAT_STAT_LATE = 1 ∧
    (s.red.lateRun = false → s.red.lateNow = false → Told 0x383 0x19 0 s s.lateTold) := by
  obtain ⟨f1, f2, f3, f4⟩ := flagged_send s (f := RED_STAT_STAT_LATE) 0x383 0x19 (by decide) rfl
  unfold State.lateTold
  cases hc : !s.red.lateRun && !s.red.lateNow
  · refine ⟨rfl, (sameRegs_refl _ s).flag List.mem_cons_self, fld_setFld_same .., fun h1 h2 => ?_⟩
    rw [h1, h2] at hc
    cases hc
  · exact ⟨f1, f2, f3, fun _ _ => f4⟩

/-- The missed deadline noted; it ends the clean cycles. -/
def State.lateNoted (s : State) : State := { s.lateTold with red := { s.red with lateNow := true, clean := 0 } }

theorem statLate_eq {s : State} (hr : s.role = 2) : statLate s = if s.sub = 1 then s.lateNoted.setRole 2 2 else s.lateNoted := by
  obtain ⟨v1, v2, -, -⟩ := lateTold_spec s
  have hred : s.lateTold.red = s.red := by rw [v1]
  have hsub : s.lateTold.sub = s.sub := v2 RED_STAT_SUB (by decide)
  have he : statLate s = (let t := { s.lateTold with red := { s.lateTold.red with lateNow := true, clean := 0 } }
      if s.lateTold.sub = 1 then t.setRole 2 2 else t) := if_neg (by rw [hr]; decide)
  rw [he, hred, hsub]
  rfl

theorem statLate_spec {s : State} (hr : s.role = 2) : let t := statLate s
    t = { s with regs := t.regs, red := { s.red with lateNow := true, clean := 0 }, sump := t.sump } ∧
      SameRegs ([RED_STAT_STAT_LATE, RED_STAT_ROLE, RED_STAT_SUB, SEQ_EVT] ++ msgFlds) s t ∧ t.fld RED_STAT_STAT_LATE = 1 ∧ t.role = 2 ∧
      t.sub = (if s.sub = 1 then 2 else s.sub) ∧ (s.red.lateRun = false → s.red.lateNow = false → Told 0x383 0x19 0 s t) := by
  obtain ⟨v1, v2, v3, v4⟩ := lateTold_spec s
  have hw : s.lateNoted = { s with regs := s.lateNoted.regs, red := { s.red with lateNow := true, clean := 0 },
                                   sump := s.lateNoted.sump } := by
    unfold State.lateNoted
    rw [v1]
  have hwr : SameRegs ([RED_STAT_STAT_LATE, RED_STAT_ROLE, RED_STAT_SUB, SEQ_EVT] ++ msgFlds) s s.lateNoted :=
    (v2.mono (by decide)).trans (sameRegs_of_regs _ rfl)
  have hrole : s.lateNoted.role = 2 := (v2 RED_STAT_ROLE (by decide)).trans hr
  have hsub : s.lateNoted.sub = s.sub := v2 RED_STAT_SUB (by decide)
  have hlate : s.lateNoted.fld RED_STAT_STAT_LATE = 1 := v3
  have htold : s.red.lateRun = false → s.red.lateNow = false → Told 0x383 0x19 0 s s.lateNoted := v4
  rw [statLate_eq hr]
  generalize s.lateNoted = w at *
  obtain ⟨r1, r2, r3, r4⟩ := setRole_spec w (show 2 < 4 by decide) (show 2 < 4 by decide)
  dsimp only
  split
  · refine ⟨?_, hwr.trans (r2.mono (by decide)), (r2 _ (by decide)).trans hlate, r3, r4, fun h1 h2 => ?_⟩
    · rw [r1]
      rw [hw]
    · rw [r1]
      exact htold h1 h2
  · exact ⟨hw, hwr, hlate, hrole, hsub, htold⟩

/-! ### Following (R41, R294) -/

/-- The unit's role and its own state of the redundancy manager stay. -/
def RoleKept (s t : State) : Prop := t.red = s.red ∧ t.role = s.role

namespace RoleKept

theorem rfl' (s : State) : RoleKept s s := ⟨rfl, rfl⟩

theorem trans {s t u : State} (h : RoleKept s t) (k : RoleKept t u) : RoleKept s u := ⟨k.1.trans h.1, k.2.trans h.2⟩

theorem of_regs {s t : State} (hd : t.red = s.red) (hr : t.regs = s.regs) : RoleKept s t := ⟨hd, fld_congr hr _⟩

theorem setFld {s t : State} (h : RoleKept s t) {f : Fld} (v : Nat) (hf : f.key ≠ RED_STAT_ROLE.key) : RoleKept s (t.setFld f v) :=
  h.trans ⟨rfl, fld_setFld_ne t v hf⟩

theorem send {s t : State} (h : RoleKept s t) (a k d : Nat) : RoleKept s (t.send a k d) :=
  h.trans ⟨send_red .., (send_frame t a k d).2 _ (by decide)⟩

theorem ite {c : Prop} [Decidable c] {s t u : State} (ht : RoleKept s t) (hu : RoleKept s u) : RoleKept s (if c then t else u) := by
  split <;> assumption

end RoleKept

/-- The registers of a line lie apart from RED_STAT. -/
theorem line_apart (l k lo w r : Nat) (h : lo < 32) : (⟨lineBase l + k, lo, w, r⟩ : Fld).key ≠ RED_STAT_ROLE.key := by
  have : 0x100000 ≤ lineBase l := by
    unfold lineBase
    split_ifs <;> omega
  show 32 * (lineBase l + k) + lo ≠ 32 * 0x80008 + 0
  omega

theorem role_setPort (s : State) (l st : Nat) : RoleKept s (s.setPort l st) := by
  refine ⟨by rw [setPort_eq], (setPort_fld ..).trans (fld_setFld_ne _ _ ?_)⟩
  exact line_apart l 4 0 3 0 (by decide)

theorem role_seek (s : State) (l : Nat) : RoleKept s (s.seek l) :=
  .ite ((role_setPort s l 1).send ..) (.ite (role_setPort s l 2) ((role_setPort s l 3).trans (.of_regs rfl rfl)))

theorem role_reseek (s : State) (l : Nat) : RoleKept s (s.reseek l) :=
  .ite (.rfl' s) (.ite ((RoleKept.of_regs rfl rfl).trans (role_seek ..))
    (.ite (((RoleKept.rfl' s).send ..).trans (role_seek ..)) (role_seek s l)))

theorem role_loopbackEnd (s : State) : RoleKept s (loopbackEnd s) := by
  refine foldl_inv (RoleKept s) _ (fun t l ht => ht.trans (.ite (.rfl' t) ?_)) _ s (.rfl' s)
  refine RoleKept.trans ?_ (role_reseek ..)
  exact (((RoleKept.rfl' t).setFld 0 (line_apart l 0 8 2 0 (by decide))).setFld 0 (line_apart l 4 11 1 0 (by decide))).setFld 1
    (line_apart l 4 10 1 0 (by decide))

theorem primeOnState_red (s : State) (old new : Nat) : (s.primeOnState old new).red = s.red := by
  unfold State.primeOnState
  split
  · rfl
  · exact foldl_keep State.red _ (fun t c => by split <;> rfl) _ _

theorem role_enterState (s : State) (new cause : Nat) : RoleKept s (s.enterState new cause) := by
  refine ⟨?_, (enterState_frame s new cause).1 _ (by decide)⟩
  unfold State.enterState
  extract_lets old u v q w y d x
  have hw : w.red = s.red := primeOnState_red ..
  have hx : x.red = s.red := by
    unfold x
    split <;> exact hw
  split
  · rfl
  · rw [driveBlockOut_eq]
    exact hx

/-- The registers of a release. -/
def releaseFlds : List Fld :=
  [PRT_STAT_LATCHED, CLK_STATE_LATCHED_BLOCK, PRT_CAUSE_ALL, PRT_STAT_UNMET, PRT_STAT_REL_READY, SEQ_EVT, PRT_STAT_BO, PRT_CAUSE_FIRST,
    PRT_CAUSE_FIRST_TICK] ++ msgFlds

theorem release_frame (s : State) : s.release.red = s.red ∧ SameRegs releaseFlds s s.release := by
  unfold State.release
  extract_lets u v
  have hu : SameRegs releaseFlds s u :=
    ((((sameRegs_refl _ s).setFld 0 (by decide)).setFld 0 (by decide)).setFld 0 (by decide)).send _ _ _ (by decide) (by decide)
  have hred : u.red = s.red := send_red ..
  have hv : SameRegs releaseFlds s v := (hu.setFld 0 (by decide)).setFld 0 (by decide)
  refine ⟨by rw [driveBlockOut_eq]; exact hred, ?_⟩
  refine SameRegs.driveBlockOut (SameRegs.seqEvent ?_ 3 (by decide)) (by decide)
  exact hv.trans (sameRegs_of_regs _ rfl)

/-- The block released leaves role and operating state. -/
theorem releaseOld_frame (s : State) : s.releaseOld.red = s.red ∧ SameRegs releaseFlds s s.releaseOld := by
  obtain ⟨hred, hregs⟩ := release_frame s
  unfold State.releaseOld
  extract_lets x u v
  have hv : SameRegs releaseFlds s v :=
    ((((hregs.flag (by decide)).flag (by decide)).setFld _ (by decide)).setFld _ (by decide)).setFld _ (by decide)
  split
  · exact ⟨hred, hregs⟩
  · refine ⟨by rw [driveBlockOut_eq]; exact hred, ?_⟩
    refine SameRegs.driveBlockOut ?_ (by decide)
    exact hv.trans (sameRegs_of_regs _ rfl)

/-- The state followed is taken (R41). -/
theorem followTo_spec (s : State) {a : Nat} (ha : a < 16) : (s.followTo a).op = a ∧ RoleKept s (s.followTo a) := by
  unfold State.followTo
  split
  next h => exact ⟨h, .rfl' s⟩
  next =>
    obtain ⟨hop, -⟩ := enterState_shown s (new := a) 0x06 ha
    exact ⟨((kept_loopbackEnd _).flds CLK_STATE_STATE (by decide)).trans hop, (role_enterState ..).trans (role_loopbackEnd _)⟩

theorem devstat_congr {s t : State} (h : t.regs = s.regs) : t.devstat = s.devstat := by
  unfold State.devstat State.op State.latched State.bit State.role State.sub
  simp only [fld_congr h]

theorem slot_kept (s : State) {i : Nat} (v : Nat) (h1 : 0x3C0 < i) (h2 : i < 1024) :
    (s.setSlotBits i v).rd (0x10000000 + 4 * 0x3C0) 4 = s.rd (0x10000000 + 4 * 0x3C0) 4 := rd_wr_out s v (by omega)

/-- Memory alone changes. -/
def MemOnly (s t : State) : Prop := t = { s with mem := t.mem }

theorem MemOnly.slot {s t : State} (h : MemOnly s t) (i v : Nat) : MemOnly s (t.setSlotBits i v) := by
  have hw : t.setSlotBits i v = { t with mem := (t.setSlotBits i v).mem } := wr_eq ..
  unfold MemOnly
  rw [hw, h]

/-- The device status slots are written in memory alone (R31). -/
theorem statusSlots_eq (s : State) : MemOnly s s.statusSlots := by
  unfold State.statusSlots State.timeSlots
  extract_lets t u v b
  have hs : MemOnly s s := rfl
  have hv : MemOnly s v := (((hs.slot ..).slot ..).slot ..).slot ..
  exact (((hv.slot ..).slot ..).slot ..).slot ..

/-- The first of them holds the status word. -/
theorem statusSlots_devstat (s : State) : s.statusSlots.rd (0x10000000 + 4 * 0x3C0) 4 = s.statusSlots.devstat % 2 ^ 32 := by
  have hone : (s.setSlotBits 0x3C0 s.devstat).rd (0x10000000 + 4 * 0x3C0) 4 = s.devstat % 2 ^ 32 := rd_wr_same ..
  have hregs : s.statusSlots.regs = s.regs := (congrArg State.regs (statusSlots_eq s) :)
  rw [devstat_congr hregs, ← hone]
  unfold State.statusSlots State.timeSlots
  extract_lets t u v b
  have hu : u.rd (0x10000000 + 4 * 0x3C0) 4 = (s.setSlotBits 0x3C0 s.devstat).rd (0x10000000 + 4 * 0x3C0) 4 :=
    slot_kept _ _ (by decide) (by decide)
  have hv : v.rd (0x10000000 + 4 * 0x3C0) 4 = u.rd (0x10000000 + 4 * 0x3C0) 4 :=
    (slot_kept _ _ (by decide) (by decide)).trans (slot_kept _ _ (by decide) (by decide))
  rw [slot_kept _ _ (by decide) (by decide), slot_kept _ _ (by decide) (by decide), slot_kept _ _ (by decide) (by decide),
    slot_kept _ _ (by decide) (by decide), hv, hu]

theorem hashCheck_same {s : State} {v : Nat} (h : v = s.fld (CFG_HASH 0)) :
    s.hashCheck v = { s with red := { s.red with badHash := false } } := if_pos h

/-- A word of another configuration shows the mismatch (R283). -/
theorem hashCheck_other {s : State} {v : Nat} (h : v ≠ s.fld (CFG_HASH 0)) : let t := s.hashCheck v
    t = { s with regs := t.regs, sump := t.sump, red := { s.red with badHash := true } } ∧ SameRegs (RED_STAT_CFG_MIS :: msgFlds) s t ∧
      t.fld RED_STAT_CFG_MIS = 1 := by
  have hsent : ∀ c : Bool, s.sendIf c 0x380 0x10 0 =
        { s with regs := (s.sendIf c 0x380 0x10 0).regs, sump := (s.sendIf c 0x380 0x10 0).sump } ∧
      SameRegs (RED_STAT_CFG_MIS :: msgFlds) s (s.sendIf c 0x380 0x10 0) := by
    intro c
    obtain ⟨h1, h2⟩ := send_frame s 0x380 0x10 0
    cases c
    · exact ⟨rfl, sameRegs_refl _ s⟩
    · exact ⟨h1, h2.mono fun g hg => List.mem_cons_of_mem _ hg⟩
  obtain ⟨h1, h2⟩ := hsent (!s.red.badHash)
  have he : s.hashCheck v = { (s.sendIf (!s.red.badHash) 0x380 0x10 0).flag RED_STAT_CFG_MIS with
      red := { s.red with badHash := true } } := if_neg h
  rw [he]
  generalize s.sendIf (!s.red.badHash) 0x380 0x10 0 = u at *
  refine ⟨by rw [h1]; rfl, ?_, ?_⟩
  · exact (h2.flag List.mem_cons_self).trans (sameRegs_of_regs _ rfl)
  · exact fld_setFld_same u RED_STAT_CFG_MIS 1

/-- What stands after the hash of a word that the checker passed is held against the own one. -/
def hashSeen (s : State) (e : Ecc) (d : BitVec 64) : State := if e.good then s.hashCheck (d.toNat % 2 ^ 32) else s

/-- A word that cannot be used changes no more, and the status slots are written. -/
theorem stateFollow_unusable {s : State} {w : ECWord} (e : Ecc) (d : BitVec 64) (hd : hsiaoDec w = (e, d)) (hr : s.role = 2)
    (ho : (hashSeen s e d).op ≠ 8) (hu : (e.good && !(hashSeen s e d).red.badHash) = false) :
    stateFollow s w = (hashSeen s e d).statusSlots := by
  unfold stateFollow
  rw [if_neg (by rw [hr]; decide), hd]
  dsimp only
  unfold hashSeen at ho hu ⊢
  generalize (if e.good = true then s.hashCheck (d.toNat % 2 ^ 32) else s) = u at *
  simp [hu, ho]

/-- The STAT word taken. -/
def State.statTaken (s : State) (d : BitVec 64) : State := { s with red := { s.red with stat := some (statOf d.toNat s.now) } }

/-- A word that can be used is taken; the block that the standby had may be released; the state shown is followed. -/
theorem stateFollow_usable {s : State} {w : ECWord} {e : Ecc} {d : BitVec 64} (hd : hsiaoDec w = (e, d)) (hr : s.role = 2)
    (ho : (hashSeen s e d).op ≠ 8) (hu : (e.good && !(hashSeen s e d).red.badHash) = true)
    (ha : 5 ≤ bitsOf d.toNat 63 60 ∧ bitsOf d.toNat 63 60 ≤ 7) :
    ∃ v, (v = (hashSeen s e d).statTaken d ∨ v = ((hashSeen s e d).statTaken d).releaseOld) ∧
      stateFollow s w = (v.followTo (bitsOf d.toNat 63 60)).statusSlots := by
  have hop (v : State) (hv : v = (hashSeen s e d).statTaken d ∨ v = ((hashSeen s e d).statTaken d).releaseOld) : v.op ≠ 8 := by
    rcases hv with rfl | rfl
    · exact ho
    · rw [State.op, (releaseOld_frame _).2 _ (by decide)]
      exact ho
  unfold stateFollow
  rw [if_neg (by rw [hr]; decide), hd]
  dsimp -zeta only
  extract_lets n u usable a was freed r v x r' r'' y
  have husable : ¬ (!usable) = true := by
    rw [show usable = true from hu]
    decide
  have hv : v = (hashSeen s e d).statTaken d := if_neg husable
  have hx : x = (hashSeen s e d).statTaken d ∨ x = ((hashSeen s e d).statTaken d).releaseOld := by
    unfold x
    rw [hv]
    split
    · exact .inr rfl
    · exact .inl rfl
  refine ⟨x, hx, congrArg State.statusSlots ?_⟩
  have hx8 := hop x hx
  unfold y
  rw [if_neg hx8, if_neg husable, if_pos (.inl ha)]

/-- A STANDBY takes the operating state of a usable STAT word (R41, R294). -/
theorem stateFollow_takes {s : State} {w : ECWord} (hr : s.role = 2) (ho : s.op ≠ 8) (hg : (hsiaoDec w).1.good = true)
    (hh : (hsiaoDec w).2.toNat % 2 ^ 32 = s.fld (CFG_HASH 0)) (h5 : 5 ≤ bitsOf (hsiaoDec w).2.toNat 63 60)
    (h7 : bitsOf (hsiaoDec w).2.toNat 63 60 ≤ 7) : let t := stateFollow s w
    t.op = bitsOf (hsiaoDec w).2.toNat 63 60 ∧ t.red.stat = some (statOf (hsiaoDec w).2.toNat s.now) ∧ t.role = 2 ∧
      t.rd (0x10000000 + 4 * 0x3C0) 4 = t.devstat % 2 ^ 32 := by
  have hd : hsiaoDec w = ((hsiaoDec w).1, (hsiaoDec w).2) := rfl
  generalize (hsiaoDec w).1 = e at *
  generalize (hsiaoDec w).2 = d at *
  have hseen : hashSeen s e d = { s with red := { s.red with badHash := false } } := by
    unfold hashSeen
    rw [hg, if_pos rfl, hashCheck_same hh]
  have hkept : (hashSeen s e d).op = s.op ∧ (hashSeen s e d).red.badHash = false ∧ (hashSeen s e d).role = s.role ∧
      (hashSeen s e d).now = s.now := by rw [hseen]; exact ⟨rfl, rfl, rfl, rfl⟩
  obtain ⟨k1, k2, k3, k4⟩ := hkept
  obtain ⟨v, hv, he⟩ := stateFollow_usable hd hr (by rw [k1]; exact ho) (by rw [hg, k2]; rfl) ⟨h5, h7⟩
  have hvk : v.red.stat = some (statOf d.toNat s.now) ∧ v.role = 2 := by
    have hone : ((hashSeen s e d).statTaken d).red.stat = some (statOf d.toNat s.now) := by rw [← k4]; rfl
    have htwo : ((hashSeen s e d).statTaken d).role = 2 := k3.trans hr
    rcases hv with rfl | rfl
    · exact ⟨hone, htwo⟩
    · obtain ⟨r1, r2⟩ := releaseOld_frame ((hashSeen s e d).statTaken d)
      exact ⟨(congrArg Red.stat r1).trans hone, (r2 RED_STAT_ROLE (by decide)).trans htwo⟩
  obtain ⟨f1, f2, f3⟩ := followTo_spec v (show bitsOf d.toNat 63 60 < 16 by omega)
  rw [he]
  generalize v.followTo (bitsOf d.toNat 63 60) = x at *
  have hmem := statusSlots_eq x
  have hregs : x.statusSlots.regs = x.regs := (congrArg State.regs hmem :)
  refine ⟨(fld_congr hregs _).trans f1, ?_, (fld_congr hregs _).trans (f3.trans hvk.2), statusSlots_devstat x⟩
  exact (congrArg (fun t : State => t.red.stat) hmem :).trans ((congrArg Red.stat f2).trans hvk.1)

theorem stateFollow_bad {s : State} {w : ECWord} (hr : s.role = 2) (ho : s.op ≠ 8) (hg : (hsiaoDec w).1.good = false) :
    stateFollow s w = s.statusSlots := by
  have hseen : hashSeen s (hsiaoDec w).1 (hsiaoDec w).2 = s := if_neg (by rw [hg]; decide)
  have he := stateFollow_unusable (hsiaoDec w).1 (hsiaoDec w).2 rfl hr (by rw [hseen]; exact ho) (by rw [hg]; rfl)
  rw [he, hseen]

/-- A word of another configuration is not followed (R283). -/
theorem stateFollow_other {s : State} {w : ECWord} (hr : s.role = 2) (ho : s.op ≠ 8) (hg : (hsiaoDec w).1.good = true)
    (hh : (hsiaoDec w).2.toNat % 2 ^ 32 ≠ s.fld (CFG_HASH 0)) : let t := stateFollow s w
    t = { s with mem := t.mem, regs := t.regs, sump := t.sump, red := { s.red with badHash := true } } ∧
      SameRegs (RED_STAT_CFG_MIS :: msgFlds) s t ∧ t.fld RED_STAT_CFG_MIS = 1 ∧
      t.rd (0x10000000 + 4 * 0x3C0) 4 = t.devstat % 2 ^ 32 := by
  have hseen : hashSeen s (hsiaoDec w).1 (hsiaoDec w).2 = s.hashCheck ((hsiaoDec w).2.toNat % 2 ^ 32) := if_pos hg
  obtain ⟨c1, c2, c3⟩ := hashCheck_other hh
  have hbad : (s.hashCheck ((hsiaoDec w).2.toNat % 2 ^ 32)).red.badHash = true := by rw [c1]
  have hop : (s.hashCheck ((hsiaoDec w).2.toNat % 2 ^ 32)).op ≠ 8 := by
    rw [State.op, c2 _ (by decide)]
    exact ho
  have he := stateFollow_unusable (hsiaoDec w).1 (hsiaoDec w).2 rfl hr (by rw [hseen]; exact hop) (by rw [hseen, hbad]; simp)
  rw [he, hseen]
  generalize s.hashCheck ((hsiaoDec w).2.toNat % 2 ^ 32) = u at *
  have hmem := statusSlots_eq u
  have hregs : u.statusSlots.regs = u.regs := (congrArg State.regs hmem :)
  refine ⟨?_, c2.trans (sameRegs_of_regs _ hregs), (fld_congr hregs _).trans c3, statusSlots_devstat u⟩
  rw [hmem]
  rw [c1]

end Sys2Proof.Machine
end

section
/-! PROOFS. O39, fourth part: mirrored requests, and the obligation. -/
namespace Sys2Proof.Machine
open Sys2Proof

-- The proofs are checked one after another: many at a time need more memory than a compile may have.
set_option Elab.async false

/-! ### Mirrored requests (R295) -/

/-- The ACTIVE unit applies the requests that its frame carried. -/
theorem mirroredApply_active {s : State} (ws : List ECWord) (hr : s.role = 1) : mirroredApply s ws =
    { s.red.now.foldl applyMsg s with red := { (s.red.now.foldl applyMsg s).red with now := [], applied := s.red.now } } := by
  have hl : (if s.role = 1 then s.red.now
      else if s.role = 2 ∧ !s.red.badHash then ws.filterMap fun w =>
        let (e, d) := hsiaoDec w
        if e.good then some ⟨bitsOf d.toNat 63 60, d.toNat % 2 ^ 60⟩ else none
      else []) = s.red.now := if_pos hr
  unfold mirroredApply
  rw [hl]

theorem now_empty {r : Red} (h : r.now = []) : { r with now := [], applied := [] } = { r with applied := [] } := by
  cases r
  dsimp only at h
  subst h
  rfl

/-- A mirrored slot write is staged. -/
theorem applyMsg_slot (s : State) (slot : Fin 1024) (v : Word) : applyMsg s ⟨1, slot * 2 ^ 48 + v.toNat⟩ =
    { s with ctl := { s.ctl with staged := s.ctl.staged ++ [⟨slot, v.toInt⟩] } } := by
  have hv := v.isLt
  have hs := slot.isLt
  have hslot : bitsOf (slot * 2 ^ 48 + v.toNat) 57 48 = slot := by
    unfold bitsOf
    omega
  have hval : sext ((slot * 2 ^ 48 + v.toNat) % 2 ^ 32) 32 = v.toInt := by
    rw [show (slot * 2 ^ 48 + v.toNat) % 2 ^ 32 = v.toNat by omega, sext, BitVec.toInt_eq_toNat_cond, Nat.mod_eq_of_lt hv]
    split_ifs <;> omega
  show s.stage (bitsOf (slot * 2 ^ 48 + v.toNat) 57 48) ((slot * 2 ^ 48 + v.toNat) % 2 ^ 32) = _
  unfold State.stage
  rw [hslot, hval]

/-- Where a request of the host or the sequencer goes on a paired unit. -/
theorem mirrored_paired (s : State) {m : Master} (k b : Nat) (f : State → State) (hp : s.bit RED_CFG_PAIR = true)
    (hm : m = .host ∨ m = .sequencer) :
    (s.role = 1 → s.red.queue.length < 64 →
      s.mirrored m k b f = { s with red := { s.red with queue := s.red.queue ++ [⟨k, b⟩] } }) ∧
    (s.role = 1 → 64 ≤ s.red.queue.length → Flagged RED_STAT_MIRQ_FULL 0x380 0x14 s (s.mirrored m k b f)) ∧
    (s.role = 2 → Flagged RED_STAT_NOT_ACTIVE 0x380 0x13 s (s.mirrored m k b f)) := by
  have hpairs : Master.pairs m = true := by rcases hm with rfl | rfl <;> rfl
  unfold State.mirrored
  rw [hp, hpairs, if_neg (by decide)]
  refine ⟨fun hr hq => ?_, fun hr hq => ?_, fun hr => ?_⟩
  · rw [if_pos hr, if_neg (by omega)]
  · rw [if_pos hr, if_pos hq]
    exact flagged_send s 0x380 0x14 (by decide) rfl
  · rw [if_neg (by omega), if_pos hr]
    exact flagged_send s 0x380 0x13 (by decide) rfl

/-- The commands of mirrored requests, each with its kind and body. -/
theorem exec_mirrored {s : State} {m : Master} {g : Fin 4096} {d : BitVec 16} {ch : Fin 192} {c : Instr} {k b : Nat} (ho : s.op ≠ 3)
    (hc : (c, k, b) ∈ [(Instr.exclude m g, 3, g.val), (.readmit m g, 3, g + 2 ^ 12), (.excludeForSelftest m g, 3, g + 2 * 2 ^ 12),
      (.auxReqSetAddr m g d, 2, g + 2 ^ 12 + d.toNat * 2 ^ 16), (.auxReqWrite m g d, 2, g + 2 * 2 ^ 12 + d.toNat * 2 ^ 16),
      (.auxReqEnable m g d, 2, g + 3 * 2 ^ 12 + d.toNat * 2 ^ 16), (.auxReqCloseBypass m g d, 2, g + 7 * 2 ^ 12 + d.toNat * 2 ^ 16),
      (.patternCommitRequest m, 5, 4 * 2 ^ 32 + 1), (.primeRequest m ch, 4, ch.val)]) :
    ∃ f, exec c s = .next (s.mirrored m k b f) := by
  have hold (f : State → State) : s.unlessHold f = f s := if_neg ho
  have excl (act : Nat) : exclWrite s m g act = s.mirrored m 3 (g + act * 2 ^ 12) fun s => exclRequest s g act := hold _
  have aux (code : Nat) : auxWrite s m g code d.toNat =
    s.mirrored m 2 (g + code * 2 ^ 12 + d.toNat * 2 ^ 16) fun s => auxRequest s g code d.toNat := hold _
  have prime : primeRequest s m ch = s.mirrored m 4 ch fun s => s.primeChan ch := hold _
  simp only [List.mem_cons, Prod.mk.injEq, List.not_mem_nil, or_false] at hc
  obtain ⟨rfl, rfl, rfl⟩ | ⟨rfl, rfl, rfl⟩ | ⟨rfl, rfl, rfl⟩ | ⟨rfl, rfl, rfl⟩ | ⟨rfl, rfl, rfl⟩ | ⟨rfl, rfl, rfl⟩ | ⟨rfl, rfl, rfl⟩ |
    ⟨rfl, rfl, rfl⟩ | ⟨rfl, rfl, rfl⟩ := hc
  · exact ⟨_, congrArg Host.Outcome.next (excl 0)⟩
  · exact ⟨_, congrArg Host.Outcome.next (excl 1)⟩
  · exact ⟨_, congrArg Host.Outcome.next (excl 2)⟩
  · exact ⟨_, congrArg Host.Outcome.next (aux 1)⟩
  · exact ⟨_, congrArg Host.Outcome.next (aux 2)⟩
  · exact ⟨_, congrArg Host.Outcome.next (aux 3)⟩
  · exact ⟨_, congrArg Host.Outcome.next (aux 7)⟩
  · exact ⟨_, rfl⟩
  · exact ⟨_, congrArg Host.Outcome.next prime⟩

/-! ### The obligation -/

/-- Settles O39: every clause holds, by the rules above for the wait and the change of roles, the epoch's stored copy, a missed deadline,
the state followed and the requests mirrored. -/
theorem rolesEpochAndFollowing : Obligations.RolesEpochAndFollowing := by
  unfold Obligations.RolesEpochAndFollowing
  refine ⟨fun s t0 hw hr ht hh => ⟨fun hm => ?_, fun hm hc he => ?_, fun hm hc he => ?_⟩, fun s h => ?_, fun s hr hd => ?_, fun s h => ?_,
    fun s m ho hp => ?_, fun s m h => ?_, fun s hr => ?_, fun s hr => ?_, fun s w hr ho => ⟨?_, ?_, ?_⟩, fun s ws hr => ?_,
    fun s m g d ch c k b ho hp hm hc => ?_⟩
  · obtain ⟨h1, h2, h3, h4, -, h5⟩ := becomeStandby_spec s 0 (show 2 < 4 by decide)
    have hx : roleWaitExpiry s = s.becomeStandby 2 0 := by rw [roleWaitExpiry_over hw hr ht hh, if_pos hm]
    exact ⟨_, congrArg Host.Outcome.next hx, h1, h2, h3, h4 _ (by decide), sameMem_of_mem h5⟩
  · have hx : roleWaitExpiry s = s.becomeActive 0 := by rw [roleWaitExpiry_over hw hr ht hh, hm, if_neg (by decide)]
    exact ⟨_, congrArg Host.Outcome.next hx, becomeActive_taken 0 hc he⟩
  · have hx : roleWaitExpiry s = (s.flag RED_STAT_EPOCH_EXH).send 0x380 0x12 0 := by
      rw [roleWaitExpiry_over hw hr ht hh, hm, if_neg (by decide), becomeActive_exhausted 0 hc he]
    exact ⟨_, congrArg Host.Outcome.next hx, flagged_send s (f := RED_STAT_EPOCH_EXH) 0x380 0x12 (by decide) rfl⟩
  · exact congrArg Host.Outcome.next (roleWaitExpiry_idle h)
  · exact ⟨_, rfl, demoted_spec hr hd⟩
  · refine congrArg Host.Outcome.next (if_neg fun hc => ?_)
    have := hc.2
    exact h.elim (fun h => h hc.1) (by omega)
  · exact ⟨_, rfl, epochClear_spec ho hp⟩
  · refine congrArg Host.Outcome.next (if_neg fun hc => ?_)
    exact h.elim (fun h => h hc.1) fun h => by simp [h] at hc
  · exact ⟨_, rfl, statLate_spec hr⟩
  · exact ⟨congrArg Host.Outcome.next (if_pos hr), fun w => congrArg Host.Outcome.next (if_pos hr)⟩
  · exact fun hg hh h5 h7 => ⟨_, rfl, stateFollow_takes hr ho hg hh h5 h7⟩
  · intro hg _
    have hregs : s.statusSlots.regs = s.regs := (congrArg State.regs (statusSlots_eq s) :)
    refine ⟨_, congrArg Host.Outcome.next (stateFollow_bad hr ho hg), statusSlots_eq s, ?_⟩
    rw [statusSlots_devstat, devstat_congr hregs]
  · exact fun hg hh => ⟨_, rfl, stateFollow_other hr ho hg hh⟩
  · refine ⟨_, congrArg Host.Outcome.next (mirroredApply_active ws hr), rfl, rfl, fun h => ?_, fun slot v h => ?_⟩
    · rw [h, List.foldl_nil]
      exact congrArg (fun r => { s with red := r }) (now_empty h)
    · rw [h, List.foldl_cons, applyMsg_slot]
      exact ⟨rfl, rfl, rfl⟩
  · obtain ⟨f, hf⟩ := exec_mirrored ho hc
    obtain ⟨h1, h2, h3⟩ := mirrored_paired s k b f hp hm
    rw [hf]
    exact ⟨fun hr hq => congrArg Host.Outcome.next (h1 hr hq), fun hr hq => ⟨_, rfl, h2 hr hq⟩, fun hr => ⟨_, rfl, h3 hr⟩⟩

end Sys2Proof.Machine
end

section
/-! PROOFS. O24 fails in its clause on a FAULTED port. The clause says of every state that the port's counter of stuffing
violations afterwards reads what counting the frame's violations gives. A frame without violations counts nothing, so that the
counter stays; counting 0 on a counter that holds a number past its 32 bits (no command leaves one, since `State.setFld` cuts
to the width) would stop it at its largest value. -/
namespace Sys2Proof.Machine
open Sys2Proof

/-- Port CL 0 FAULTED with signal and lock, and its counter of stuffing violations past its 32 bits. -/
def wideStuffCount : State := { regs := [((CL_STAT_STATE 0).key, 5), ((CL_CNT_STUFF 0).key, 2 ^ 32)] }

/-- The state meets the hypotheses of the clause. -/
theorem wideStuffCount_faulted : wideStuffCount.portState (0 : Fin 32) = 5 ∧ wideStuffCount.bit (CL_STAT_LOS (0 : Fin 32)) = false ∧
    wideStuffCount.bit (CL_STAT_LOL (0 : Fin 32)) = false ∧ wideStuffCount.fld (CL_CTRL_LB (0 : Fin 32)) = 0 := by
  decide

/-- An empty line has no violation, and leaves the counter as it stands. -/
theorem cellFrameRx_wideStuffCount : (frameIn 132 []).stuffV = 0 ∧
    (cellFrameRx wideStuffCount 0 [] 0 0).fld (CL_CNT_STUFF 0) = 2 ^ 32 := by
  decide +kernel

/-- Counting nothing stops the counter at its largest value. -/
theorem count_wideStuffCount : (wideStuffCount.count (CL_CNT_STUFF 0) (CL_CNT_OVF 0) 3 0).fld (CL_CNT_STUFF 0) = 2 ^ 32 - 1 := by
  decide +kernel

/-- Refutes O24: a frame without violations leaves the counter at 2^32, where counting gives 2^32 - 1. -/
theorem not_framesAtPorts : ¬ Obligations.FramesAtPorts := by
  unfold Obligations.FramesAtPorts
  rintro ⟨-, -, rx, -⟩
  obtain ⟨hport, hlos, hlol, hlb⟩ := wideStuffCount_faulted
  obtain ⟨t, ht, -, -, hcount⟩ := (rx wideStuffCount 0 [] 0 0).2 hport hlos hlol hlb
  obtain rfl : cellFrameRx wideStuffCount 0 [] 0 0 = t := Host.Outcome.next.inj ht
  obtain ⟨hnone, hkept⟩ := cellFrameRx_wideStuffCount
  have hsame : (2 ^ 32 : Nat) = 2 ^ 32 - 1 := by
    rw [hnone] at hcount
    exact hkept.symm.trans (hcount.trans count_wideStuffCount)
  exact absurd hsame (by decide)

end Sys2Proof.Machine
end

section
/-! PROOFS. O34 fails in its clause on the run of a due channel. The clause takes every number that the Turn Order may hold as
a channel. `CE_TURN_p.CH` has 8 bits and a channel's active bank stands in six registers; the model's state also admits a field
that holds a larger number (no command leaves one, since `State.setFld` cuts to the width). With 384 there, the channel's bank
would stand 12 registers on, where `CE_CNT_STALL` is, and the run's own count of stalls exchanges the bank. -/
namespace Sys2Proof.Machine
open Sys2Proof

/-- RUNNING, with number 384 in position 0 of the Turn Order, and a stall count past its 32 bits, whose lowest bit selects bank 0.
Bank 0 limits the output to 5 .. 10; bank 1, nowhere written, to 0. -/
def aliasedBank : State :=
  { regs := [(CLK_STATE_STATE.key, 6), (CE_CNT_STALL.key, 2 ^ 32), ((CE_TURN_CH 0).key, 384), ((CE_TURN_VALID 0).key, 1),
      ((CE_CH_CFG_EN 384).key, 1)],
    mem := { bytes := [(coefAddr 0 384 16, 10), (coefAddr 0 384 17, 5), (coefAddr 0 384 21, 1)] } }

/-- The state meets the hypotheses of the clause: the channel is due in a pipeline that runs, has time, has neither run nor
been abandoned, and its set is valid. -/
theorem aliasedBank_due : aliasedBank.dbg.frozen = false ∧ aliasedBank.chanAt (0 : Fin 192) = some 384 ∧
    max (100 + 4 * (0 : Fin 192).val) aliasedBank.eng.endCyc + 4 ≤ 868 ∧ aliasedBank.eng.done.contains 384 = false ∧
    aliasedBank.eng.aband.contains 384 = false ∧ aliasedBank.paramOk (aliasedBank.bankOf 384) 384 = true := by
  decide +kernel

/-- No checker of it is armed, and no word of it has an error. -/
theorem aliasedBank_clean (a : Nat) : aliasedBank.cleanWord a := by
  have idle : ∀ i < 128, aliasedBank.bit (FLT_INJ_ARM i) = false := by decide +kernel
  exact ⟨rfl, idle _ (checkerOf_lt a)⟩

/-- The limits that the bank in force sets. -/
theorem aliasedBank_limits : aliasedBank.param (aliasedBank.bankOf 384) 384 17 = 5 ∧ aliasedBank.param (aliasedBank.bankOf 384) 384 16 = 10 := by
  decide +kernel

/-- The run leaves 0 in its output slot: it has clamped to the other bank's limits. -/
theorem channelStep_aliasedBank : (channelStep aliasedBank 0).slot (0x200 + 2 * 384) = 0 := by decide +kernel

/-- Refutes O34: the output slot of the run holds 0, where the limits of the bank in force allow 5 to 10. -/
theorem not_channelsAndSwaps : ¬ Obligations.ChannelsAndSwaps := by
  unfold Obligations.ChannelsAndSwaps
  rintro ⟨-, run, -⟩
  obtain ⟨hrun, hat, hfits, hdone, haband, hpar⟩ := aliasedBank_due
  obtain ⟨t, ht, -, hslot, -⟩ := (run aliasedBank 0 384 hrun hat hfits hdone haband (fun _ _ => aliasedBank_clean _)
    (fun _ _ => aliasedBank_clean _) (fun _ _ _ _ => aliasedBank_clean _)).1 hpar
  obtain rfl : channelStep aliasedBank 0 = t := Host.Outcome.next.inj ht
  obtain ⟨hlo, hhi⟩ := aliasedBank_limits
  rw [channelStep_aliasedBank, hlo, hhi] at hslot
  have hleast : (5 : Int) ≤ 0 := (le_clampI (by decide)).trans_eq hslot.symm
  exact absurd hleast (by decide)

end Sys2Proof.Machine
end

section
/-! PROOFS. O29, first part: the fixed reactions to lost clocks (R57 to R59, R329). What none of them touches is `ClockKept`;
what the reaction to one clock brings about is `Reacted`. -/
namespace Sys2Proof.Machine
open Sys2Proof

/-! ### What no reaction touches -/

/-- The registers that show a station port's link. -/
def linkFlds (p : Nat) : List Fld := [STN_STAT_HIBER p, STN_STAT_LINK p, STN_STAT_DOWN_SEEN p]

/-- The registers that the reactions to lost clocks write. -/
def reactFlds : List Fld :=
  [CLK_MON_LOSS_CORE, CLK_MON_TIME_FREERUN, HP_STAT_OPEN, FLT_STAT_ERR] ++ blockFlds ++ msgFlds ++ (upto 4).flatMap linkFlds

/-- Memory, the tick, boundary scan, every other register and the messages of the sources before the station ports' stay; what
the loss of CK_CORE has set stays set. -/
structure ClockKept (s t : State) : Prop where
  mem : t.mem = s.mem
  tick : t.now = s.now
  scan : t.dbg.scan = s.dbg.scan
  stream : s.ctl.stream = true → t.ctl.stream = true
  core : s.fld CLK_MON_LOSS_CORE = 1 → t.fld CLK_MON_LOSS_CORE = 1
  regs : SameRegs reactFlds s t
  told : ∀ src < 0x1C0, t.msgAt src = s.msgAt src

namespace ClockKept

theorem rfl' (s : State) : ClockKept s s := ⟨rfl, rfl, rfl, id, id, sameRegs_refl _ _, fun _ _ => rfl⟩

theorem trans {s t u : State} (h : ClockKept s t) (k : ClockKept t u) : ClockKept s u :=
  ⟨k.mem.trans h.mem, k.tick.trans h.tick, k.scan.trans h.scan, fun hs => k.stream (h.stream hs), fun hs => k.core (h.core hs),
    h.regs.trans k.regs, fun src hs => (k.told src hs).trans (h.told src hs)⟩

theorem setFld {s t : State} (h : ClockKept s t) {f : Fld} (v : Nat) (m : f ∈ reactFlds) (hc : f.key ≠ CLK_MON_LOSS_CORE.key) :
    ClockKept s (t.setFld f v) :=
  h.trans ⟨rfl, rfl, rfl, id, fun hs => (fld_setFld_ne t v hc).trans hs, (sameRegs_refl _ t).setFld v m, fun _ _ => rfl⟩

end ClockKept

/-! ### The reactions one by one -/

theorem mem_reactFlds_of_block {f : Fld} (h : f ∈ blockFlds) : f ∈ reactFlds := by simp [reactFlds, h]

/-- The error pins are asserted: ERR_B, and ERR_A with both (R329). -/
theorem aonAssert_spec (s : State) (both : Bool) : ClockKept s (s.aonAssert both) ∧ (s.aonAssert both).ctl = s.ctl ∧
    (s.aonAssert both).prot = s.prot ∧ (s.aonAssert both).elec.errB = true ∧
    (both = true → (s.aonAssert both).elec.errA = true ∧ (s.aonAssert both).fld FLT_STAT_ERR = 1) ∧
    SameRegs [FLT_STAT_ERR] s (s.aonAssert both) := by
  have hr : SameRegs [FLT_STAT_ERR] s (s.aonAssert both) := fun f hf => fld_setFld_ne s _ (Ne.symm (hf _ (by simp)))
  refine ⟨⟨rfl, rfl, rfl, id, fun h => (hr _ (by decide)).trans h, hr.mono (by simp [reactFlds]), fun _ _ => rfl⟩, rfl, rfl, ?_,
    ?_, hr⟩
  · exact Bool.or_true _
  · rintro rfl
    have ha : (s.aonAssert true).elec.errA = true := by simp [State.aonAssert, State.driveErr]
    refine ⟨ha, ?_⟩
    refine (fld_setFld_same _ FLT_STAT_ERR _).trans ?_
    rw [show (_ || _ : Bool) = true from ha]
    rfl

theorem Blocked.joinClk {i : Nat} {s t : State} (h : Blocked i s t) (src : Nat) : Blocked i s (t.joinClk src) := by
  obtain ⟨h1, h2, h3, h4, h5, h6, h7⟩ := h
  exact ⟨h1, h2, h3, h4, h5, h6, h7⟩

theorem mem_joinN (l : List Nat) (x : Nat) : x ∈ joinN l x := by
  unfold joinN
  split
  next h => exact List.contains_iff_mem.mp h
  · simp

theorem mem_joinClk (s : State) (src : Nat) : src ∈ (s.joinClk src).prot.clkSrc := mem_joinN _ _

/-- Block cause 5, from a clock (R228, R242). -/
theorem clockBlock_spec (s : State) (src : Nat) : ClockKept s (s.clockBlock src) ∧ (s.clockBlock src).ctl = s.ctl ∧
    Blocked 5 s (s.clockBlock src) ∧ src ∈ (s.clockBlock src).prot.clkSrc := by
  have he := blockCause_eq s .clock
  have hr := sameRegs_blockCause s .clock
  have hb : Blocked 5 s (s.blockCause .clock) := blockCause_blocked s .clock
  unfold State.clockBlock
  generalize s.blockCause .clock = t at he hr hb
  have hctl : t.ctl = s.ctl := by rw [he]
  refine ⟨⟨?_, congrArg TickCtl.tick hctl, ?_, fun h => ?_, fun h => (hr CLK_MON_LOSS_CORE (by decide)).trans h,
    hr.mono fun f => mem_reactFlds_of_block, fun a _ => msgAt_congr (s := s) (t := t) (by rw [he]) a⟩, hctl, hb.joinClk src, mem_joinClk t src⟩
  · exact (congrArg State.mem he :)
  · exact (congrArg (fun u : State => u.dbg.scan) he :)
  · exact (congrArg TickCtl.stream hctl).trans h

/-- A cause stays as it is shown while the error pins are asserted. -/
theorem Blocked.aonAssert {i : Nat} {s t : State} (h : Blocked i s t) (both : Bool) : Blocked i s (t.aonAssert both) := by
  obtain ⟨-, -, hp, -, -, hr⟩ := aonAssert_spec t both
  obtain ⟨h1, h2, h3, h4, h5, h6, h7⟩ := h
  have e {f : Fld} (hf : ∀ g ∈ [FLT_STAT_ERR], f.key ≠ g.key) : (t.aonAssert both).fld f = t.fld f := hr f hf
  refine ⟨?_, ?_, ?_, ?_, fun hs => ?_, fun hs => ?_, fun hs => ?_⟩
  · unfold State.latched State.bit; rw [e (by decide)]; exact h1
  · rw [e (by decide)]; exact h2
  · rw [hp]; exact h3
  · rw [hp]; exact h4
  · rw [e (by decide), e (by decide), e (by decide)]; exact h5 hs
  · rw [e (by decide)]; exact h6 hs
  · rw [e (by decide)]; exact h7 hs

/-- BLOCK_OUT is active in the block stream. -/
theorem driveBlockOut_stream (s : State) (hs : s.dbg.scan = false) (h : s.ctl.stream = true) : s.driveBlockOut.fld PRT_STAT_BO = 1 := by
  unfold State.driveBlockOut
  rw [hs, if_neg Bool.false_ne_true]
  refine (fld_setFld_same s PRT_STAT_BO _).trans ?_
  rw [h, Bool.or_true, Bool.true_or]
  rfl

/-- The state in which CK_CORE is shown lost and the block stream has begun. -/
def State.streaming (s : State) : State := { s.flag CLK_MON_LOSS_CORE with ctl := { s.ctl with stream := true } }

theorem coreLost_eq (s : State) : s.coreLost = (s.streaming.commitBlockMarkers .clock).driveBlockOut.aonAssert false := rfl

theorem clockKept_streaming (s : State) : ClockKept s s.streaming :=
  ⟨rfl, rfl, rfl, fun _ => rfl, fun _ => fld_setFld_same s CLK_MON_LOSS_CORE 1,
    (sameRegs_refl _ s).flag (f := CLK_MON_LOSS_CORE) (by simp [reactFlds]), fun _ _ => rfl⟩

theorem clockKept_driveBlockOut (s : State) : ClockKept s s.driveBlockOut := by
  have hr : SameRegs [PRT_STAT_BO] s s.driveBlockOut := (sameRegs_refl _ s).driveBlockOut (by simp)
  have he := driveBlockOut_eq s
  generalize s.driveBlockOut = t at hr he
  have hctl : t.ctl = s.ctl := by rw [he]
  refine ⟨by rw [he], congrArg TickCtl.tick hctl, by rw [he], fun h => (congrArg TickCtl.stream hctl).trans h,
    fun h => (hr _ (by decide)).trans h, hr.mono (by simp [reactFlds, blockFlds]), fun a _ => msgAt_congr (by rw [he]) a⟩

/-- The registers that the loss of CK_CORE writes. -/
def coreFlds : List Fld := [CLK_MON_LOSS_CORE, PRT_STAT_BO, FLT_STAT_ERR]

/-- Loss of CK_CORE (R58). -/
theorem coreLost_spec (s : State) : ClockKept s s.coreLost ∧ s.coreLost.ctl = { s.ctl with stream := true } ∧
    s.coreLost.elec.errB = true ∧ (s.dbg.scan = false → s.coreLost.fld PRT_STAT_BO = 1) ∧ SameRegs coreFlds s s.coreLost := by
  rw [coreLost_eq]
  have hc := commitBlockMarkers_eq s.streaming .clock
  have hs : ClockKept s s.streaming := clockKept_streaming s
  have hctl : s.streaming.ctl = { s.ctl with stream := true } := rfl
  have hsr : SameRegs coreFlds s s.streaming := (sameRegs_refl _ s).flag (f := CLK_MON_LOSS_CORE) (by simp [coreFlds])
  generalize s.streaming = u at hc hs hctl hsr
  generalize u.commitBlockMarkers .clock = v at hc
  have hvr : v.regs = u.regs := by rw [hc]
  have hv : ClockKept u v := ⟨by rw [hc], by rw [State.now, hc]; rfl, by rw [hc], by rw [hc]; exact id,
    fun h => (fld_congr hvr _).trans h, sameRegs_of_regs _ hvr, fun a _ => msgAt_congr (by rw [hc]) a⟩
  have hd := clockKept_driveBlockOut v
  have hdr : SameRegs coreFlds v v.driveBlockOut := (sameRegs_refl _ v).driveBlockOut (by simp [coreFlds])
  obtain ⟨hk, hactl, -, herr, -, hr⟩ := aonAssert_spec v.driveBlockOut false
  have hvctl : v.ctl = { s.ctl with stream := true } := by rw [hc]; exact hctl
  refine ⟨((hs.trans hv).trans hd).trans hk, hactl.trans ((driveBlockOut_ctl v).trans hvctl), herr, fun hscan => ?_, ?_⟩
  · refine (hr _ (by decide)).trans (driveBlockOut_stream v ((hs.trans hv).scan.trans hscan) ?_)
    rw [hvctl]
  · exact ((hsr.trans (sameRegs_of_regs _ hvr)).trans hdr).trans (hr.mono (by simp [coreFlds]))

/-- Loss of CK_TIME (R59): the ticks run free. -/
theorem ckTimeLost_spec (s : State) (h : s.timeLost = true) : ClockKept s s.ckTimeLost ∧ s.ckTimeLost.ctl = s.ctl ∧
    s.ckTimeLost.time.mode = 0 ∧ s.ckTimeLost.time.sUse = 0 ∧ s.ckTimeLost.time.stepPend = false ∧
    s.ckTimeLost.fld CLK_MON_TIME_FREERUN = 1 ∧ s.ckTimeLost.latched = s.latched := by
  have hx : s.ckTimeLost = (s.flag CLK_MON_TIME_FREERUN).toFreerun := by unfold State.ckTimeLost; rw [if_pos h]
  rw [hx]
  have hk := (ClockKept.rfl' s).setFld (f := CLK_MON_TIME_FREERUN) 1 (by simp [reactFlds]) (by decide)
  obtain ⟨hmem, htick, hscan, hstream, hcore, hregs, htold⟩ := hk
  refine ⟨⟨hmem, htick, hscan, hstream, hcore, hregs, htold⟩, rfl, rfl, rfl, rfl, fld_setFld_same s _ 1, ?_⟩
  exact congrArg (· != 0) (fld_setFld_ne s (f := CLK_MON_TIME_FREERUN) (g := PRT_STAT_LATCHED) 1 (by decide))

/-! ### Loss of CK_STN (R401) -/

theorem clockKept_send (s : State) {src : Nat} (k d : Nat) (h : 0x1C0 ≤ src) : ClockKept s (s.send src k d) :=
  ⟨send_mem .., congrArg TickCtl.tick (send_ctl ..), congrArg Dbg.scan (send_dbg ..), fun hs => (congrArg TickCtl.stream (send_ctl ..)).trans hs,
    fun hs => ((send_frame s src k d).2 CLK_MON_LOSS_CORE (by decide)).trans hs, (send_frame s src k d).2.mono fun f hf => by simp [reactFlds, hf],
    fun a ha => msgAt_sendAs_ne s _ _ _ _ (by omega)⟩

/-- A station port's message changes no register but the counter of merged messages. -/
theorem stnTell_spec (s : State) (p src k d : Nat) (h : 0x1C0 ≤ src) : ClockKept s (s.stnTell p src k d) ∧
    (s.stnTell p src k d).ctl = s.ctl ∧ SameRegs msgFlds s (s.stnTell p src k d) := by
  unfold State.stnTell
  extract_lets x last
  split
  · exact ⟨.rfl' s, rfl, sameRegs_refl _ s⟩
  · generalize hu : s.setStn p _ = u
    have hus : ClockKept s u := by rw [← hu]; exact ⟨rfl, rfl, rfl, id, id, sameRegs_refl _ s, fun _ _ => rfl⟩
    have hr : u.regs = s.regs := by rw [← hu]; rfl
    refine ⟨hus.trans (clockKept_send u k d (by omega)), (send_ctl ..).trans (by rw [← hu]; rfl), ?_⟩
    exact (sameRegs_of_regs _ hr).trans (send_frame u _ k d).2

theorem linkFlds_apart : ∀ p < 4, STN_STAT_HIBER p ∈ reactFlds ∧ STN_STAT_LINK p ∈ reactFlds ∧ STN_STAT_DOWN_SEEN p ∈ reactFlds ∧
    (∀ f ∈ linkFlds p, f.key ≠ CLK_MON_LOSS_CORE.key) ∧ (∀ g ∈ STN_STAT_HIBER p :: STN_STAT_DOWN_SEEN p :: msgFlds, (STN_STAT_LINK p).key ≠ g.key) ∧
    (∀ g ∈ linkFlds p ++ msgFlds, PRT_STAT_LATCHED.key ≠ g.key) ∧ ∀ q < 4, q ≠ p → ∀ g ∈ linkFlds p ++ msgFlds, (STN_STAT_LINK q).key ≠ g.key := by
  decide

/-- A link that goes down, or was down before, is shown down (R401). -/
theorem linkDown_spec (s : State) {p : Nat} (hp : p < 4) (b : Bool) : ClockKept s (linkDown s p b) ∧ (linkDown s p b).ctl = s.ctl ∧
    (linkDown s p b).fld (STN_STAT_LINK p) = 0 ∧ SameRegs (linkFlds p ++ msgFlds) s (linkDown s p b) := by
  obtain ⟨m1, m2, m3, hcore, hlink, -, -⟩ := linkFlds_apart p hp
  have hmem : STN_STAT_HIBER p ∈ linkFlds p ∧ STN_STAT_LINK p ∈ linkFlds p ∧ STN_STAT_DOWN_SEEN p ∈ linkFlds p := by simp [linkFlds]
  obtain ⟨l1, l2, l3⟩ := hmem
  unfold linkDown
  extract_lets u
  have hu : ClockKept s u := (ClockKept.rfl' s).setFld _ m1 (hcore _ l1)
  have hur : SameRegs (linkFlds p ++ msgFlds) s u := (sameRegs_refl _ s).setFld _ (List.mem_append_left _ l1)
  split
  next h =>
    refine ⟨hu, rfl, ?_, hur⟩
    have hz : s.fld (STN_STAT_LINK p) = 0 := by simpa [State.bit] using h
    exact (fld_setFld_ne s _ (Ne.symm (hlink _ (by simp)))).trans hz
  · generalize hv : (u.setFld (STN_STAT_LINK p) 0).flag (STN_STAT_DOWN_SEEN p) = v
    have hkv : ClockKept s v := by rw [← hv]; exact (hu.setFld 0 m2 (hcore _ l2)).setFld 1 m3 (hcore _ l3)
    have hrv : SameRegs (linkFlds p ++ msgFlds) s v := by
      rw [← hv]; exact (hur.setFld 0 (List.mem_append_left _ l2)).flag (List.mem_append_left _ l3)
    have hlv : v.fld (STN_STAT_LINK p) = 0 := by
      rw [← hv]; exact (fld_setFld_ne _ 1 (Ne.symm (hlink _ (by simp)))).trans ((fld_setFld_same u _ 0).trans (Nat.zero_mod _))
    obtain ⟨hk, hc, hr⟩ := stnTell_spec v p 0x1C0 0x10 0 (by decide)
    refine ⟨hkv.trans hk, hc.trans (by rw [← hv]; rfl), (hr _ fun g hg => hlink g (by simp [hg])).trans hlv, ?_⟩
    exact hrv.trans (hr.mono fun f hf => List.mem_append_right _ hf)

/-- Links that go down one after the other are all down. -/
theorem linksDown_spec (l : List Nat) : ∀ s : State, (∀ p ∈ l, p < 4) →
    let t := s.each l fun s p => linkDown s p false
    ClockKept s t ∧ t.ctl = s.ctl ∧ t.latched = s.latched ∧ ∀ q < 4, q ∈ l ∨ s.fld (STN_STAT_LINK q) = 0 → t.fld (STN_STAT_LINK q) = 0 := by
  induction l with
  | nil => exact fun s _ => ⟨.rfl' s, rfl, rfl, fun q _ h => h.resolve_left (by simp)⟩
  | cons p l ih =>
    intro s hl
    have hp := hl p (by simp)
    obtain ⟨hk, hc, hz, hr⟩ := linkDown_spec s hp false
    obtain ⟨ihk, ihc, ihl, ihz⟩ := ih (linkDown s p false) fun q hq => hl q (by simp [hq])
    obtain ⟨-, -, -, -, -, hlat, hother⟩ := linkFlds_apart p hp
    refine ⟨hk.trans ihk, ihc.trans hc, ihl.trans (congrArg (· != 0) (hr _ hlat)), fun q hq h => ihz q hq ?_⟩
    by_cases hqp : q = p
    · exact .inr (hqp ▸ hz)
    · rcases h with h | h
      · exact .inl ((List.mem_cons.mp h).resolve_left hqp)
      · exact .inr ((hr _ (hother q hq hqp)).trans h)

/-! ### The reaction to the loss of a clock -/

/-- What the loss of clock c brings about (R58, R59, R228, R239, R242, R329). -/
def Reacted (c : Nat) (s t : State) : Prop := (0x010 + c) ∈ t.ctl.lost ∧
  (c = 1 ∨ c = 2 ∨ c = 6 → Blocked 5 s t ∧ (0x010 + c) ∈ t.prot.clkSrc) ∧
  (c = 0 ∨ c = 1 ∨ c = 6 → t.elec.errB = true) ∧ (c = 6 → t.elec.errA = true ∧ t.fld FLT_STAT_ERR = 1) ∧
  (c = 0 → t.ctl.stream = true ∧ (s.dbg.scan = false → t.fld PRT_STAT_BO = 1)) ∧
  (c = 3 → t.time.mode = 0 ∧ t.time.sUse = 0 ∧ t.fld CLK_MON_TIME_FREERUN = 1) ∧
  (c = 4 → ∀ p : Fin 4, t.fld (STN_STAT_LINK p) = 0) ∧ (c = 5 → t.fld HP_STAT_OPEN = 0)

/-- The state in which a clock has joined those that are lost. -/
def State.clockGone (s : State) (c : Nat) : State := { s with ctl := { s.ctl with lost := s.ctl.lost ++ [0x010 + c] } }

theorem clockGone_eq {s : State} {c : Nat} (h : s.ctl.lost.contains (0x010 + c) = false) :
    { s with ctl := { s.ctl with lost := joinN s.ctl.lost (0x010 + c) } } = s.clockGone c := by
  unfold joinN
  rw [h]
  rfl

theorem clockKept_clockGone (s : State) (c : Nat) : ClockKept s (s.clockGone c) :=
  ⟨rfl, rfl, rfl, id, id, sameRegs_refl _ s, fun _ _ => rfl⟩

/-- A block that is set from a clock's loss: the reaction to CK_FAB, CK_LTX and CK_AON. -/
theorem clockBlock_reacted (s : State) (c : Nat) (both : Bool) :
    let t := ((s.clockGone c).clockBlock (0x010 + c)).aonAssert both
    ClockKept s t ∧ t.ctl = (s.clockGone c).ctl ∧ Blocked 5 s t ∧ (0x010 + c) ∈ t.prot.clkSrc ∧ t.elec.errB = true ∧
    (both = true → t.elec.errA = true ∧ t.fld FLT_STAT_ERR = 1) := by
  obtain ⟨hk, hc, hb, hm⟩ := clockBlock_spec (s.clockGone c) (0x010 + c)
  obtain ⟨ak, ac, ap, ae, aa, -⟩ := aonAssert_spec ((s.clockGone c).clockBlock (0x010 + c)) both
  refine ⟨((clockKept_clockGone s c).trans hk).trans ak, ac.trans hc, ?_, ?_, ae, aa⟩
  · exact (hb.after (s := s) rfl rfl rfl rfl).aonAssert both
  · rw [ap]; exact hm

theorem clockReact_spec (s : State) {c : Nat} (hc : c < 7) (h : s.ctl.lost.contains (0x010 + c) = false) :
    ClockKept s (s.clockReact c) ∧ Reacted c s (s.clockReact c) ∧ (s.clockReact c).ctl.lost = s.ctl.lost ++ [0x010 + c] ∧
    (c = 0 ∨ c = 3 ∨ c = 4 ∨ c = 5 → (s.clockReact c).latched = s.latched) ∧
    (c = 3 → (s.clockReact c).time.stepPend = false) := by
  have hg := clockKept_clockGone s c
  have hin : (0x010 + c) ∈ (s.clockGone c).ctl.lost := by simp [State.clockGone]
  match c, hc with
  | 0, _ =>
    have e : s.clockReact 0 = (s.clockGone 0).coreLost := by rw [← clockGone_eq h]; rfl
    rw [e]
    obtain ⟨hk, hct, he, hbo, hr⟩ := coreLost_spec (s.clockGone 0)
    exact ⟨hg.trans hk, ⟨by rw [hct]; exact hin, by simp, fun _ => he, by simp, fun _ => ⟨by rw [hct], hbo⟩, by simp, by simp, by simp⟩,
      by rw [hct]; rfl, fun _ => congrArg (· != 0) (hr PRT_STAT_LATCHED (by decide)), by simp⟩
  | 1, _ =>
    have e : s.clockReact 1 = ((s.clockGone 1).clockBlock 0x011).aonAssert false := by rw [← clockGone_eq h]; rfl
    rw [e]
    obtain ⟨hk, hct, hb, hm, he, -⟩ := clockBlock_reacted s 1 false
    exact ⟨hk, ⟨by rw [hct]; exact hin, fun _ => ⟨hb, hm⟩, fun _ => he, by simp, by simp, by simp, by simp, by simp⟩,
      by rw [hct]; rfl, by simp, by simp⟩
  | 2, _ =>
    have e : s.clockReact 2 = (s.clockGone 2).clockBlock 0x012 := by rw [← clockGone_eq h]; rfl
    rw [e]
    obtain ⟨hk, hct, hb, hm⟩ := clockBlock_spec (s.clockGone 2) 0x012
    exact ⟨hg.trans hk, ⟨by rw [hct]; exact hin, fun _ => ⟨hb.after (s := s) rfl rfl rfl rfl, hm⟩, by simp, by simp, by simp, by simp,
      by simp, by simp⟩, by rw [hct]; rfl, by simp, by simp⟩
  | 3, _ =>
    have e : s.clockReact 3 = (s.clockGone 3).ckTimeLost := by rw [← clockGone_eq h]; rfl
    rw [e]
    obtain ⟨hk, hct, hmode, huse, hpend, hfree, hl⟩ := ckTimeLost_spec (s.clockGone 3) (List.contains_iff_mem.mpr hin)
    exact ⟨hg.trans hk, ⟨by rw [hct]; exact hin, by simp, by simp, by simp, by simp, fun _ => ⟨hmode, huse, hfree⟩, by simp, by simp⟩,
      by rw [hct]; rfl, fun _ => hl, fun _ => hpend⟩
  | 4, _ =>
    have e : s.clockReact 4 = (s.clockGone 4).each (upto 4) fun s p => linkDown s p false := by rw [← clockGone_eq h]; rfl
    rw [e]
    obtain ⟨hk, hct, hl, hz⟩ := linksDown_spec (upto 4) (s.clockGone 4) fun p hp => List.mem_range.mp hp
    exact ⟨hg.trans hk, ⟨by rw [hct]; exact hin, by simp, by simp, by simp, by simp, by simp,
      fun _ p => hz p p.isLt (.inl (List.mem_range.mpr p.isLt)), by simp⟩, by rw [hct]; rfl, fun _ => hl, by simp⟩
  | 5, _ =>
    have e : s.clockReact 5 = (s.clockGone 5).setFld HP_STAT_OPEN 0 := by rw [← clockGone_eq h]; rfl
    rw [e]
    have hl : ((s.clockGone 5).setFld HP_STAT_OPEN 0).latched = s.latched := congrArg (· != 0) (fld_setFld_ne s (f := HP_STAT_OPEN) 0 (by decide))
    exact ⟨hg.setFld 0 (by simp [reactFlds]) (by decide), ⟨hin, by simp, by simp, by simp, by simp, by simp, by simp,
      fun _ => fld_setFld_same _ _ 0⟩, rfl, fun _ => hl, by simp⟩
  | 6, _ =>
    have e : s.clockReact 6 = ((s.clockGone 6).clockBlock 0x016).aonAssert true := by rw [← clockGone_eq h]; rfl
    rw [e]
    obtain ⟨hk, hct, hb, hm, he, ha⟩ := clockBlock_reacted s 6 true
    exact ⟨hk, ⟨by rw [hct]; exact hin, fun _ => ⟨hb, hm⟩, fun _ => he, fun _ => ha rfl, by simp, by simp, by simp, by simp⟩,
      by rw [hct]; rfl, by simp, by simp⟩

end Sys2Proof.Machine
end

section
/-! PROOFS. O29, second part: what the monitors tell, the clocks' return and the reset after the block stream (R57, R242,
R266, R329). -/
namespace Sys2Proof.Machine
open Sys2Proof

/-! ### A clock's own monitor -/

/-- The state in which the clock's own monitor has told of its loss. -/
def State.lossTold (s : State) (c : Nat) : State :=
  ({ s.flag (lossFld c) with ctl := { s.ctl with dead := s.ctl.dead ++ [0x010 + c] } } : State).send (0x010 + c) 0x11 0

theorem lossFld_apart : ∀ c < 7, (lossFld c).w = 1 ∧ (∀ g ∈ msgFlds, (lossFld c).key ≠ g.key) ∧
    (∀ f ∈ [CLK_STATE_STATE, PRT_STAT_LATCHED, PRT_CAUSE_FIRST], ∀ g ∈ lossFld c :: msgFlds, f.key ≠ g.key) ∧
    (0 < c → ∀ g ∈ reactFlds, (lossFld c).key ≠ g.key) := by
  decide

theorem lossTold_spec (s : State) {c : Nat} (hc : c < 7) :
    s.lossTold c = { s with regs := (s.lossTold c).regs, sump := (s.lossTold c).sump, ctl := { s.ctl with dead := s.ctl.dead ++ [0x010 + c] } } ∧
    SameRegs (lossFld c :: msgFlds) s (s.lossTold c) ∧ (s.lossTold c).fld (lossFld c) = 1 ∧ Told (0x010 + c) 0x11 0 s (s.lossTold c) := by
  obtain ⟨hw, hm, -, -⟩ := lossFld_apart c hc
  unfold State.lossTold
  generalize hu : ({ s.flag (lossFld c) with ctl := { s.ctl with dead := s.ctl.dead ++ [0x010 + c] } } : State) = u
  have hur : SameRegs (lossFld c :: msgFlds) s u := by rw [← hu]; exact (sameRegs_refl _ s).flag (f := lossFld c) (by simp)
  have huf : u.fld (lossFld c) = 1 := by rw [← hu]; exact (fld_setFld_same s _ 1).trans (by rw [hw]; rfl)
  obtain ⟨he, hr⟩ := send_frame u (0x010 + c) 0x11 0
  refine ⟨?_, hur.trans (hr.mono fun f hf => List.mem_cons_of_mem _ hf), (hr _ hm).trans huf, told_send_of _ _ _ (by rw [← hu]; rfl)⟩
  rw [he, ← hu]
  rfl

/-- A clock's own monitor tells once; a clock that was not lost before has its reaction. -/
theorem clockLoss_own (s : State) {c : Nat} (x : Nat) (hc : c < 7) (hr : s.elec.inReset = false)
    (hd : s.ctl.dead.contains (0x010 + c) = false) (ho : c = 5 → s.bit HP_STAT_OPEN = true) :
    clockLoss s c x = if s.ctl.lost.contains (0x010 + c) then s.lossTold c else (s.lossTold c).clockReact c := by
  have hk : clocksOf c c = [c] := by unfold clocksOf; rw [if_neg (by omega)]
  unfold clockLoss
  rw [if_pos hc]
  dsimp only
  rw [hk, if_neg, if_pos hc, if_pos hc, joinN, hd]
  · cases hl : s.ctl.lost.contains (0x010 + c) <;> simp only [List.filter, hl] <;> rfl
  · rintro (h | ⟨-, h⟩ | ⟨h, h'⟩ | ⟨h, -⟩)
    · rw [hr] at h; cases h
    · rw [hd] at h; cases h
    · rw [ho h] at h'; cases h'
    · omega

/-- A reaction carried back over changes that leave the block, its cause, the tick and boundary scan. -/
theorem Reacted.after {c : Nat} {s s' t : State} (h : Reacted c s' t) (hr : s'.latched = s.latched)
    (hf : s'.fld PRT_CAUSE_FIRST = s.fld PRT_CAUSE_FIRST) (hn : s'.now = s.now) (hd : s'.dbg.scan = s.dbg.scan) : Reacted c s t := by
  obtain ⟨hlost, hblock, hb, ha, hcore, htime, hstn, hhost⟩ := h
  exact ⟨hlost, fun h => ⟨(hblock h).1.after hr hf hn hd, (hblock h).2⟩, hb, ha,
    fun h => ⟨(hcore h).1, fun hs => (hcore h).2 (hd.trans hs)⟩, htime, hstn, hhost⟩

/-- A clock lost for the first time. -/
theorem clockLoss_first (s : State) {c : Nat} (x : Nat) (hc : c < 7) (hr : s.elec.inReset = false)
    (hd : s.ctl.dead.contains (0x010 + c) = false) (hl : s.ctl.lost.contains (0x010 + c) = false) (ho : c = 5 → s.bit HP_STAT_OPEN = true) :
    let t := clockLoss s c x
    t.fld (lossFld c) = 1 ∧ Told (0x010 + c) 0x11 0 s t ∧ t.ctl.lost = s.ctl.lost ++ [0x010 + c] ∧ t.mem = s.mem ∧ t.now = s.now ∧
    t.op = s.op ∧ Reacted c s t ∧ (c = 0 ∨ c = 3 ∨ c = 4 ∨ c = 5 → t.latched = s.latched) ∧ (c = 3 → t.time.stepPend = false) := by
  rw [clockLoss_own s x hc hr hd ho, hl, if_neg Bool.false_ne_true]
  obtain ⟨-, -, hshow, hout⟩ := lossFld_apart c hc
  obtain ⟨he, hregs, hone, htold⟩ := lossTold_spec s hc
  generalize s.lossTold c = u at he hregs hone htold
  have hmem : u.mem = s.mem := by rw [he]
  have hnow : u.now = s.now := (congrArg (fun v : State => v.ctl.tick) he :)
  have hscan : u.dbg.scan = s.dbg.scan := (congrArg (fun v : State => v.dbg.scan) he :)
  have hul : u.ctl.lost = s.ctl.lost := (congrArg (fun v : State => v.ctl.lost) he :)
  have same {f : Fld} (hf : f ∈ [CLK_STATE_STATE, PRT_STAT_LATCHED, PRT_CAUSE_FIRST]) : u.fld f = s.fld f := hregs f (hshow f hf)
  have hlat : u.latched = s.latched := congrArg (· != 0) (same (f := PRT_STAT_LATCHED) (by simp))
  obtain ⟨hk, hreact, hlost, hl', hpend⟩ := clockReact_spec u hc (by rw [hul]; exact hl)
  dsimp only
  refine ⟨?_, fun h => (hk.told _ (by omega)).trans (htold h), hlost.trans (by rw [hul]), hk.mem.trans hmem, hk.tick.trans hnow, ?_, ?_,
    fun h => (hl' h).trans hlat, hpend⟩
  · rcases Nat.eq_zero_or_pos c with rfl | h
    · exact hk.core hone
    · exact (hk.regs _ (hout h)).trans hone
  · exact (hk.regs CLK_STATE_STATE (by decide)).trans (same (by simp))
  · exact hreact.after hlat (same (by simp)) hnow hscan

/-! ### Frequency errors and lost locks -/

/-- The state in which a frequency error, or the lost lock that f shows, has been told. -/
def State.pllTold (s : State) (mon : Nat) (f : Fld) : State :=
  (if mon = 7 then s.flag CLK_MON_FREQ_ERR else s.setFld f 0).send (0x010 + mon) (if mon = 7 then 0x12 else 0x13) 0

/-- The registers that a frequency error or a lost lock writes itself. -/
def pllFlds : List Fld := CLK_MON_FREQ_ERR :: lockFlds

theorem pllFld_lock {c : Nat} {f : Fld} (h : pllFld c = some f) : f ∈ lockFlds := by
  unfold pllFld at h
  split at h <;> simp_all [lockFlds, eq_comm]

theorem pllFlds_apart : (∀ f ∈ pllFlds, ∀ g ∈ reactFlds, f.key ≠ g.key) ∧
    (∀ f ∈ [PRT_STAT_LATCHED, PRT_CAUSE_FIRST], ∀ g ∈ pllFlds ++ msgFlds, f.key ≠ g.key) := by decide

theorem msgFlds_reactFlds {f : Fld} (h : f ∈ msgFlds) : f ∈ reactFlds := by simp [reactFlds, h]

theorem pllTold_spec (s : State) {mon : Nat} {f : Fld} (hf : f ∈ lockFlds) :
    s.pllTold mon f = { s with regs := (s.pllTold mon f).regs, sump := (s.pllTold mon f).sump } ∧
    SameRegs (pllFlds ++ msgFlds) s (s.pllTold mon f) ∧
    (mon = 7 → (s.pllTold mon f).fld CLK_MON_FREQ_ERR = 1 ∧ Told 0x017 0x12 0 s (s.pllTold mon f)) ∧
    (mon = 8 → (s.pllTold mon f).fld f = 0 ∧ Told 0x018 0x13 0 s (s.pllTold mon f)) := by
  have hm {g : Fld} (hg : g ∈ pllFlds) : ∀ k ∈ msgFlds, g.key ≠ k.key := fun k hk => pllFlds_apart.1 g hg k (msgFlds_reactFlds hk)
  unfold State.pllTold
  generalize hu : (if mon = 7 then s.flag CLK_MON_FREQ_ERR else s.setFld f 0) = u
  have hs : u = { s with regs := u.regs } ∧ SameRegs (pllFlds ++ msgFlds) s u := by
    rw [← hu]
    split
    · exact ⟨rfl, (sameRegs_refl _ s).flag (by simp [pllFlds])⟩
    · exact ⟨rfl, (sameRegs_refl _ s).setFld 0 (by simp [pllFlds, hf])⟩
  obtain ⟨he, hr⟩ := hs
  obtain ⟨se, sr⟩ := send_frame u (0x010 + mon) (if mon = 7 then 0x12 else 0x13) 0
  have hsump : u.sump = s.sump := by rw [he]
  refine ⟨?_, hr.trans (sr.mono fun g hg => List.mem_append_right _ hg), ?_, ?_⟩
  · rw [se, he]
  · rintro rfl
    refine ⟨(sr _ (hm (by simp [pllFlds]))).trans ?_, told_send_of _ _ _ hsump⟩
    rw [← hu, if_pos rfl]
    exact fld_setFld_same s CLK_MON_FREQ_ERR 1
  · rintro rfl
    refine ⟨(sr _ (hm (by simp [pllFlds, hf]))).trans ?_, told_send_of _ _ _ hsump⟩
    rw [← hu, if_neg (by decide)]
    exact (fld_setFld_same s f 0).trans (Nat.zero_mod _)

/-- A frequency error or a lost lock tells, and reacts as the loss of the clocks that are not lost. -/
theorem clockLoss_pll (s : State) {mon c : Nat} {f : Fld} (hr : s.elec.inReset = false) (hm : 7 ≤ mon) (hf : pllFld c = some f) :
    clockLoss s mon c = ((clocksOf mon c).filter fun k => !s.ctl.lost.contains (0x010 + k)).foldl State.clockReact (s.pllTold mon f) := by
  have hc : c ≠ 5 := by rintro rfl; cases hf
  have hown : ¬ mon < 7 := by omega
  simp [clockLoss, State.pllTold, hown, hr, hc, hf]

theorem clocksOf_cases (mon c : Nat) : clocksOf mon c = [c] ∨ clocksOf mon c = [0, 1] := by
  unfold clocksOf
  split
  · exact .inr rfl
  · exact .inl rfl

theorem coreFlds_apart : ∀ f ∈ [PRT_STAT_LATCHED, PRT_CAUSE_FIRST], ∀ g ∈ coreFlds, f.key ≠ g.key := by decide

/-- The reactions to CK_CORE and CK_FAB, one after the other, are the reactions to both. -/
theorem clockReact_sys (s : State) (h0 : s.ctl.lost.contains 0x010 = false) (h1 : s.ctl.lost.contains 0x011 = false) :
    ClockKept s ((s.clockReact 0).clockReact 1) ∧ Reacted 0 s ((s.clockReact 0).clockReact 1) ∧ Reacted 1 s ((s.clockReact 0).clockReact 1) := by
  obtain ⟨hk, hreact, hlost, hlat, -⟩ := clockReact_spec s (c := 0) (by decide) h0
  have hcr : SameRegs coreFlds s (s.clockReact 0) := by
    have e : s.clockReact 0 = (s.clockGone 0).coreLost := by rw [← clockGone_eq h0]; rfl
    rw [e]
    exact (coreLost_spec (s.clockGone 0)).2.2.2.2
  generalize s.clockReact 0 = u at hk hreact hlost hlat hcr
  have hnew : u.ctl.lost.contains (0x010 + 1) = false := by
    rw [hlost, List.contains_append, h1]
    rfl
  obtain ⟨tk, treact, tlost, -, -⟩ := clockReact_spec u (c := 1) (by decide) hnew
  have tboth : Reacted 1 s (u.clockReact 1) := treact.after (hlat (by simp)) (hcr _ (coreFlds_apart _ (by simp))) hk.tick hk.scan
  have ⟨_, hblock, herr, _⟩ := tboth
  obtain ⟨⟨-, -, -, -, -, -, hout⟩, -⟩ := hblock (.inl rfl)
  obtain ⟨-, -, -, -, hcore, -⟩ := hreact
  refine ⟨hk.trans tk, ⟨?_, by simp, fun _ => herr (by simp), by simp, fun _ => ⟨tk.stream (hcore rfl).1, hout⟩, by simp, by simp, by simp⟩, tboth⟩
  rw [tlost, hlost]
  simp

/-- A frequency error or a lost lock, told, and its reactions to clocks that are not lost. -/
theorem clockLoss_pll_spec (s : State) {mon c : Nat} {f : Fld} (hc : c < 7) (hr : s.elec.inReset = false) (hm : 7 ≤ mon)
    (hf : pllFld c = some f) (hl : ∀ k ∈ clocksOf mon c, s.ctl.lost.contains (0x010 + k) = false) :
    ClockKept (s.pllTold mon f) (clockLoss s mon c) ∧ (∀ k ∈ clocksOf mon c, Reacted k s (clockLoss s mon c)) ∧
    (clocksOf mon c = [c] → c = 0 ∨ c = 3 ∨ c = 4 → (clockLoss s mon c).latched = s.latched) := by
  have hall : ((clocksOf mon c).filter fun k => !s.ctl.lost.contains (0x010 + k)) = clocksOf mon c :=
    List.filter_eq_self.mpr fun k hk => by rw [hl k hk]; rfl
  rw [clockLoss_pll s hr hm hf, hall]
  obtain ⟨he, hregs, -, -⟩ := pllTold_spec s (mon := mon) (pllFld_lock hf)
  generalize s.pllTold mon f = u at he hregs
  have hlost : u.ctl.lost = s.ctl.lost := by rw [he]
  have hnow : u.now = s.now := (congrArg (fun v : State => v.ctl.tick) he :)
  have hscan : u.dbg.scan = s.dbg.scan := by rw [he]
  have hfirst : u.fld PRT_CAUSE_FIRST = s.fld PRT_CAUSE_FIRST := hregs _ (pllFlds_apart.2 _ (by simp))
  have hlat : u.latched = s.latched := congrArg (· != 0) (hregs PRT_STAT_LATCHED (pllFlds_apart.2 _ (by simp)))
  rw [← hlost] at hl
  rcases clocksOf_cases mon c with h | h <;> rw [h] at hl ⊢
  · obtain ⟨hk, hreact, -, hl', -⟩ := clockReact_spec u hc (hl c (by simp))
    refine ⟨hk, fun k hmem => ?_, fun _ hlat' => (hl' (by omega)).trans hlat⟩
    rw [List.mem_singleton.mp hmem]
    exact hreact.after hlat hfirst hnow hscan
  · obtain ⟨hk, hr0, hr1⟩ := clockReact_sys u (hl 0 (by simp)) (hl 1 (by simp))
    refine ⟨hk, fun k hmem => ?_, fun h => by simp at h⟩
    rcases List.mem_pair.mp hmem with rfl | rfl
    · exact hr0.after hlat hfirst hnow hscan
    · exact hr1.after hlat hfirst hnow hscan

end Sys2Proof.Machine
end

section
/-! PROOFS. O29, third part: the clocks' return, the reset after the block stream, and the obligation (R57, R266, R329). -/
namespace Sys2Proof.Machine
open Sys2Proof

/-! ### The clocks' return -/

/-- A domain with a source starts afresh when CK_TIME returns (R266). -/
def State.domBack (s : State) (d : Nat) : State :=
  if s.fld (TIM_D_CFG_SRC d) = 0 then s
  else ((s.setFld (TIM_D_STAT_STATE d) 2).setDom d { s.dom d with qt := 0, first := true, ld := s.time.l16 / 65536 }).showDom d

/-- CK_TIME is no longer lost, and the ticks follow it. -/
def State.timeBack (s : State) : State :=
  ({ s with ctl := { s.ctl with lost := s.ctl.lost.filter (· != 0x013), edge0 := s.time.edgeL },
            time := { s.time with edgeC := s.time.ct0 * 2 ^ 32, l16 := s.time.edgeL * 65536 } } : State).setFld CLK_MON_TIME_FREERUN 0

theorem ckTimeBack_eq {s : State} (h : s.timeLost = true) : s.ckTimeBack = (s.timeBack.domBack 0).domBack 1 := by
  unfold State.ckTimeBack
  rw [h]
  rfl

/-- The registers in which a domain shows itself. -/
def domShown (d : Nat) : List Fld := [TIM_D_STAT_STATE d, TIM_D_STAT_QT d]

theorem setDom_same (s : State) (d : Nat) (x : Dom) : (s.setDom d x).dom d = x := by
  unfold State.setDom State.dom
  split <;> rfl

theorem setDom_other (s : State) {d e : Nat} (hd : d < 2) (he : e < 2) (h : e ≠ d) (x : Dom) : (s.setDom d x).dom e = s.dom e := by
  unfold State.setDom
  split
  · have h0 : e ≠ 0 := by omega
    simp only [State.dom, if_neg h0]
  · have h0 : e = 0 := by omega
    simp only [State.dom, if_pos h0]

theorem setDom_eq (s : State) (d : Nat) (x : Dom) : s.setDom d x = { s with time := (s.setDom d x).time } := by
  unfold State.setDom
  split <;> rfl

theorem domShown_apart : ∀ d < 2, (TIM_D_STAT_STATE d).key ≠ (TIM_D_STAT_QT d).key ∧ 2 % 2 ^ (TIM_D_STAT_STATE d).w = 2 ∧
    (∀ f ∈ [PRT_STAT_LATCHED, CLK_STATE_STATE, CLK_MON_TIME_FREERUN, TIM_D_CFG_SRC 0, TIM_D_CFG_SRC 1], ∀ g ∈ domShown d, f.key ≠ g.key) ∧
    ∀ e < 2, e ≠ d → ∀ g ∈ domShown d, (TIM_D_STAT_STATE e).key ≠ g.key := by
  decide

theorem domBack_spec (s : State) {d : Nat} (hd : d < 2) : s.domBack d = { s with regs := (s.domBack d).regs, time := (s.domBack d).time } ∧
    SameRegs (domShown d) s (s.domBack d) ∧ (∀ e < 2, e ≠ d → (s.domBack d).dom e = s.dom e) ∧
    (s.fld (TIM_D_CFG_SRC d) = 0 → s.domBack d = s) ∧
    (s.fld (TIM_D_CFG_SRC d) ≠ 0 → (s.domBack d).domSt d = 2 ∧ ((s.domBack d).dom d).first = true ∧ ((s.domBack d).dom d).qt = 0) := by
  unfold State.domBack
  split
  next h => exact ⟨rfl, sameRegs_refl _ s, fun _ _ _ => rfl, fun _ => rfl, fun hn => absurd h hn⟩
  next h =>
    obtain ⟨hne, hw, -, -⟩ := domShown_apart d hd
    generalize hx : ({ s.dom d with qt := 0, first := true, ld := s.time.l16 / 65536 } : Dom) = x
    have hregs : ((s.setFld (TIM_D_STAT_STATE d) 2).setDom d x).regs = (s.setFld (TIM_D_STAT_STATE d) 2).regs := by rw [setDom_eq]
    refine ⟨?_, ?_, fun e he hed => ?_, fun hn => absurd hn h, fun _ => ⟨?_, ?_⟩⟩
    · unfold State.showDom
      rw [setDom_eq]
      rfl
    · unfold State.showDom
      refine SameRegs.setFld ?_ _ (by simp [domShown])
      exact ((sameRegs_refl _ s).setFld 2 (by simp [domShown])).trans (sameRegs_of_regs _ hregs)
    · exact setDom_other (s.setFld (TIM_D_STAT_STATE d) 2) hd he hed x
    · exact (fld_setFld_ne _ _ (Ne.symm hne)).trans ((fld_congr hregs _).trans ((fld_setFld_same s _ 2).trans hw))
    · have hdom : ((((s.setFld (TIM_D_STAT_STATE d) 2).setDom d x).showDom d).dom d) = x := setDom_same _ d x
      rw [hdom, ← hx]
      exact ⟨rfl, rfl⟩

theorem timeBack_spec (s : State) : s.timeBack.mem = s.mem ∧ s.timeBack.sump = s.sump ∧ s.timeBack.elec = s.elec ∧
    s.timeBack.ctl.lost = s.ctl.lost.filter (· != 0x013) ∧ s.timeBack.ctl.dead = s.ctl.dead ∧ s.timeBack.fld CLK_MON_TIME_FREERUN = 0 ∧
    SameRegs [CLK_MON_TIME_FREERUN] s s.timeBack :=
  ⟨rfl, rfl, rfl, rfl, rfl, fld_setFld_same _ CLK_MON_TIME_FREERUN 0, fun _ hf => fld_setFld_ne _ _ (Ne.symm (hf _ (by simp)))⟩

/-- CK_TIME's return: it is no longer lost, and its domains start afresh. -/
theorem ckTimeBack_spec {s : State} (h : s.timeLost = true) : s.ckTimeBack.mem = s.mem ∧ s.ckTimeBack.sump = s.sump ∧
    s.ckTimeBack.elec = s.elec ∧ s.ckTimeBack.ctl.lost = s.ctl.lost.filter (· != 0x013) ∧ s.ckTimeBack.ctl.dead = s.ctl.dead ∧
    s.ckTimeBack.fld CLK_MON_TIME_FREERUN = 0 ∧ s.ckTimeBack.latched = s.latched ∧ s.ckTimeBack.op = s.op ∧
    ∀ d < 2, (s.fld (TIM_D_CFG_SRC d) ≠ 0 → s.ckTimeBack.domSt d = 2 ∧ (s.ckTimeBack.dom d).first = true ∧ (s.ckTimeBack.dom d).qt = 0) ∧
      (s.fld (TIM_D_CFG_SRC d) = 0 → s.ckTimeBack.domSt d = s.domSt d) := by
  rw [ckTimeBack_eq h]
  obtain ⟨hmem, hsump, helec, hlost, hdead, hfree, hregs⟩ := timeBack_spec s
  generalize s.timeBack = u at hmem hsump helec hlost hdead hfree hregs
  obtain ⟨he0, hr0, ho0, hz0, hn0⟩ := domBack_spec u (d := 0) (by decide)
  generalize u.domBack 0 = v at he0 hr0 ho0 hz0 hn0
  obtain ⟨he1, hr1, ho1, hz1, hn1⟩ := domBack_spec v (d := 1) (by decide)
  generalize v.domBack 1 = w at he1 hr1 ho1 hz1 hn1
  obtain ⟨-, -, ha0, ho0'⟩ := domShown_apart 0 (by decide)
  obtain ⟨-, -, ha1, ho1'⟩ := domShown_apart 1 (by decide)
  have both {f : Fld} (hf : f ∈ [PRT_STAT_LATCHED, CLK_STATE_STATE, CLK_MON_TIME_FREERUN, TIM_D_CFG_SRC 0, TIM_D_CFG_SRC 1]) :
      w.fld f = u.fld f := (hr1 f (ha1 f hf)).trans (hr0 f (ha0 f hf))
  have all {f : Fld} (hf : f ∈ [PRT_STAT_LATCHED, CLK_STATE_STATE, CLK_MON_TIME_FREERUN, TIM_D_CFG_SRC 0, TIM_D_CFG_SRC 1])
      (hne : f.key ≠ CLK_MON_TIME_FREERUN.key) : w.fld f = s.fld f := (both hf).trans (hregs f (by simpa using hne))
  refine ⟨?_, ?_, ?_, ?_, ?_, ?_, ?_, ?_, fun d hd => ?_⟩
  · rw [he1, he0]; exact hmem
  · rw [he1, he0]; exact hsump
  · rw [he1, he0]; exact helec
  · rw [he1, he0]; exact hlost
  · rw [he1, he0]; exact hdead
  · exact (both (by simp)).trans hfree
  · exact congrArg (· != 0) (all (f := PRT_STAT_LATCHED) (by simp) (by decide))
  · exact all (f := CLK_STATE_STATE) (by simp) (by decide)
  · have hsrc0 : u.fld (TIM_D_CFG_SRC 0) = s.fld (TIM_D_CFG_SRC 0) := hregs _ (by decide)
    have hsrc1 : v.fld (TIM_D_CFG_SRC 1) = s.fld (TIM_D_CFG_SRC 1) := (hr0 _ (ha0 _ (by simp))).trans (hregs _ (by decide))
    have hst0 : w.domSt 0 = v.domSt 0 := hr1 _ (ho1' 0 (by decide) (by decide))
    have hst1 : v.domSt 1 = u.domSt 1 := hr0 _ (ho0' 1 (by decide) (by decide))
    match d, hd with
    | 0, _ =>
      rw [← hsrc0]
      refine ⟨fun h => ?_, fun h => ?_⟩
      · rw [hst0, ho1 0 (by decide) (by decide)]
        exact hn0 h
      · rw [hst0, hz0 h]
        exact hregs _ (by decide)
    | 1, _ =>
      rw [← hsrc1]
      refine ⟨hn1, fun h => ?_⟩
      rw [hz1 h, hst1]
      exact hregs _ (by decide)

/-- The state in which a clock is no longer lost and its monitor watches again. -/
def State.clockBack (s : State) (c : Nat) : State :=
  { (if c = 3 then s.ckTimeBack else s) with
    ctl := { (if c = 3 then s.ckTimeBack else s).ctl with
      lost := (if c = 3 then s.ckTimeBack else s).ctl.lost.filter (· != 0x010 + c)
      dead := (if c = 3 then s.ckTimeBack else s).ctl.dead.filter (· != 0x010 + c) } }

theorem clockBack_spec {s : State} {c : Nat} (h : s.ctl.lost.contains (0x010 + c) = true) :
    (s.clockBack c).ctl.lost = s.ctl.lost.filter (· != 0x010 + c) ∧ (s.clockBack c).ctl.dead = s.ctl.dead.filter (· != 0x010 + c) ∧
    (s.clockBack c).mem = s.mem ∧ (s.clockBack c).latched = s.latched ∧ (s.clockBack c).sump = s.sump ∧ (s.clockBack c).elec = s.elec ∧
    (s.clockBack c).op = s.op := by
  unfold State.clockBack
  split
  next hc =>
    subst hc
    obtain ⟨hmem, hsump, helec, hlost, hdead, -, hlat, hop, -⟩ := ckTimeBack_spec (s := s) h
    exact ⟨by simp [hlost], by simp [hdead], hmem, hlat, hsump, helec, hop⟩
  · exact ⟨rfl, rfl, rfl, rfl, rfl, rfl, rfl⟩

/-- The PLL of a clock shows lock again once the chip is out of reset. -/
def State.relocked (s : State) (c : Nat) : State :=
  match pllFld c with
  | some f => if s.elec.inReset ∨ s.op = 0 then s else s.flag f
  | none => s

theorem relocked_spec (s : State) (c : Nat) : s.relocked c = { s with regs := (s.relocked c).regs } ∧ (s.relocked c).latched = s.latched ∧
    (s.elec.inReset = false → s.op ≠ 0 → ∀ f, pllFld c = some f → (s.relocked c).fld f = 1) := by
  unfold State.relocked
  split
  next f hf =>
    have hl : f ∈ lockFlds := pllFld_lock hf
    have hw : 1 % 2 ^ f.w = 1 ∧ f.key ≠ PRT_STAT_LATCHED.key :=
      (by decide : ∀ g ∈ lockFlds, 1 % 2 ^ g.w = 1 ∧ g.key ≠ PRT_STAT_LATCHED.key) f hl
    split
    next h => exact ⟨rfl, rfl, fun hr ho => absurd h (by simp [hr, ho])⟩
    · refine ⟨rfl, congrArg (· != 0) (fld_setFld_ne s 1 hw.2), fun _ _ g hg => ?_⟩
      obtain rfl := Option.some.inj (hf.symm.trans hg)
      exact (fld_setFld_same s f 1).trans hw.1
  next hf => exact ⟨rfl, rfl, fun _ _ g hg => by rw [hf] at hg; cases hg⟩

theorem clockReturn_eq {s : State} {c : Nat} (h : s.ctl.lost.contains (0x010 + c) = true) :
    clockReturn s c = if c = 5 then ((s.clockBack c).relocked c).flag HP_STAT_OPEN else (s.clockBack c).relocked c := by
  unfold clockReturn
  rw [h]
  rfl

theorem clockReturn_spec {s : State} {c : Nat} (h : s.ctl.lost.contains (0x010 + c) = true) :
    let t := clockReturn s c
    t.ctl.lost = s.ctl.lost.filter (· != 0x010 + c) ∧ t.ctl.dead = s.ctl.dead.filter (· != 0x010 + c) ∧ t.mem = s.mem ∧
    t.latched = s.latched ∧ t.sump = s.sump ∧ (s.elec.inReset = false → s.op ≠ 0 → ∀ f, pllFld c = some f → t.fld f = 1) ∧
    (c = 5 → t.fld HP_STAT_OPEN = 1) := by
  obtain ⟨hlost, hdead, hmem, hlat, hsump, helec, hop⟩ := clockBack_spec h
  obtain ⟨re, rl, rp⟩ := relocked_spec (s.clockBack c) c
  rw [clockReturn_eq h]
  rw [helec, hop] at rp
  generalize (s.clockBack c).relocked c = u at re rl rp
  dsimp only
  split
  next hc =>
    subst hc
    refine ⟨by rw [re]; exact hlost, by rw [re]; exact hdead, by rw [re]; exact hmem, ?_, by rw [re]; exact hsump,
      fun _ _ f hf => (Option.some_ne_none f hf.symm).elim, fun _ => fld_setFld_same u _ 1⟩
    exact (congrArg (· != 0) (fld_setFld_ne u (f := HP_STAT_OPEN) (g := PRT_STAT_LATCHED) 1 (by decide))).trans (rl.trans hlat)
  next hc =>
    exact ⟨by rw [re]; exact hlost, by rw [re]; exact hdead, by rw [re]; exact hmem, rl.trans hlat, by rw [re]; exact hsump, rp,
      fun h => absurd h hc⟩

/-- CK_TIME's return leaves FREERUN, and its domains with a source start afresh. -/
theorem clockReturn_time {s : State} (h : s.timeLost = true) : (clockReturn s 3).timeLost = false ∧ (clockReturn s 3).fld CLK_MON_TIME_FREERUN = 0 ∧
    ∀ d < 2, (s.fld (TIM_D_CFG_SRC d) ≠ 0 → (clockReturn s 3).domSt d = 2 ∧ ((clockReturn s 3).dom d).first = true ∧ ((clockReturn s 3).dom d).qt = 0) ∧
      (s.fld (TIM_D_CFG_SRC d) = 0 → (clockReturn s 3).domSt d = s.domSt d) := by
  obtain ⟨hlost, -⟩ := clockReturn_spec (c := 3) h
  obtain ⟨-, -, -, -, -, hfree, -, -, hdom⟩ := ckTimeBack_spec h
  have he : clockReturn s 3 = (s.clockBack 3).relocked 3 := clockReturn_eq h
  have hr : SameRegs [CLK_MON_TIME_LOCK] (s.clockBack 3) (clockReturn s 3) := by
    rw [he]
    change SameRegs _ _ (if _ then _ else _)
    split
    · exact sameRegs_refl _ _
    · exact (sameRegs_refl _ _).flag (by simp)
  have ht : (clockReturn s 3).time = s.ckTimeBack.time := by
    rw [he, (relocked_spec _ _).1]
    rfl
  have hst : ∀ d < 2, (clockReturn s 3).domSt d = s.ckTimeBack.domSt d ∧ (clockReturn s 3).dom d = s.ckTimeBack.dom d := fun d hd => by
    have hne : ∀ d < 2, ∀ g ∈ [CLK_MON_TIME_LOCK], (TIM_D_STAT_STATE d).key ≠ g.key := by decide
    refine ⟨hr _ (hne d hd), ?_⟩
    unfold State.dom
    rw [ht]
  refine ⟨?_, (hr _ (by decide)).trans hfree, fun d hd => ?_⟩
  · unfold State.timeLost
    rw [hlost]
    simp
  · rw [(hst d hd).1, (hst d hd).2]
    exact hdom d hd

/-! ### The reset after the block stream -/

theorem memFree_ctl (n : Nat) : ∀ (s : State) (a : Nat), (s.memFree n a).ctl = s.ctl := by
  induction n with
  | zero => exact fun _ _ => rfl
  | succ n ih =>
    intro s a
    unfold State.memFree
    rw [ih, wr_ctl, draw_ctl]

theorem caverLost_ctl (s : State) (c : Option CaverRun) : (s.caverLost c).ctl = s.ctl := by
  unfold State.caverLost
  split
  · split
    · rfl
    · exact memFree_ctl ..
  · rfl

/-- A chip reset leaves RESET with the reset asserted, its cause shown, and no block stream. -/
theorem chipReset_shown (s : State) (cause : Nat) : (s.chipReset cause).op = 0 ∧
    (s.chipReset cause).fld CLK_STATE_CAUSE = cause % 2 ^ CLK_STATE_CAUSE.w ∧ (s.chipReset cause).elec.inReset = true ∧
    (s.chipReset cause).ctl.stream = false := by
  unfold State.chipReset
  extract_lets test u elec t
  obtain ⟨hregs, helec, -⟩ := caverLost_spec (t.setFld CLK_MON_TIME_FREERUN (b2n u.timeLost)) test
  refine ⟨?_, ?_, by rw [helec]; rfl, by rw [caverLost_ctl]; rfl⟩
  · refine (fld_congr hregs CLK_STATE_STATE).trans ((fld_setFld_ne _ _ (by decide)).trans ((fld_setFld_ne _ _ (by decide)).trans ?_))
    exact fld_keepFlds (f := CLK_STATE_STATE) (by decide) u.regs
  · exact (fld_congr hregs CLK_STATE_CAUSE).trans ((fld_setFld_ne _ _ (by decide)).trans (fld_setFld_same _ _ cause))

/-! ### O29 -/

/-- A frequency error or a lost lock of CK_TIME, which is lost already, tells alone. -/
theorem clockLoss_time_lost {s : State} {mon : Nat} (hr : s.elec.inReset = false) (hl : s.ctl.lost.contains 0x013 = true)
    (hm : 7 ≤ mon) : clockLoss s mon 3 = s.pllTold mon CLK_MON_TIME_LOCK := by
  have hk : clocksOf mon 3 = [3] := if_neg (by omega)
  rw [clockLoss_pll s (c := 3) hr hm rfl, hk, List.filter_cons, hl]
  rfl

/-- A monitor that has told does nothing more. -/
theorem clockLoss_dead {s : State} {c : Nat} (x : Nat) (hc : c < 7) (h : s.ctl.dead.contains (0x010 + c) = true) : clockLoss s c x = s := by
  unfold clockLoss
  rw [if_pos hc]
  exact if_pos (.inr (.inl ⟨hc, h⟩))

/-- Settles O29: each reaction is proved once for its clock (`clockReact_spec`), and the monitors' tellings around it. -/
theorem clocksLostAndReturned : Obligations.ClocksLostAndReturned := by
  unfold Obligations.ClocksLostAndReturned
  intro reacts
  refine ⟨fun s c x hr hd hl ho => ?_, fun s mon c f hr hm hf hl => ?_, fun s c x hr hd hl ho => ?_, fun s c x hd => ?_,
    fun s hr hd hl => ?_, fun s hr hd hl => ?_, fun s hr hl => ⟨?_, ?_, fun hd => ?_⟩, fun s c hl => ?_,
    fun s c hl => ?_, fun s hl => ?_, fun s hs => ?_, fun s hs => ?_⟩
  · obtain ⟨h1, h2, h3, h4, h5, h6, h7, h8, -⟩ :=
      clockLoss_first s x.val c.isLt hr hd hl fun h => ho (Fin.ext h)
    refine ⟨_, rfl, h1, h2, h3, h4, h5, h6, h7, fun h => h8 ?_⟩
    exact h.imp (congrArg Fin.val) (Or.imp (congrArg Fin.val) (Or.imp (congrArg Fin.val) (congrArg Fin.val)))
  · obtain ⟨hk, hreact, hlat⟩ := clockLoss_pll_spec s c.isLt hr hm hf hl
    obtain ⟨he, -, hfreq, hlock⟩ := pllTold_spec s (mon := mon.val) (pllFld_lock hf)
    have hshow {g : Fld} (hg : g ∈ pllFlds) : (clockLoss s mon c).fld g = (s.pllTold mon f).fld g :=
      hk.regs g (pllFlds_apart.1 g hg)
    refine ⟨_, rfl, hk.mem.trans (by rw [he]), fun h => ?_, fun h => ?_, hreact, fun hc h => hlat hc ?_⟩
    · obtain ⟨h1, h2⟩ := hfreq (congrArg Fin.val h)
      exact ⟨(hshow (by simp [pllFlds])).trans h1, fun hn => (hk.told _ (by decide)).trans (h2 hn)⟩
    · obtain ⟨h1, h2⟩ := hlock (congrArg Fin.val h)
      exact ⟨(hshow (by simp [pllFlds, pllFld_lock hf])).trans h1, fun hn => (hk.told _ (by decide)).trans (h2 hn)⟩
    · exact h.imp (congrArg Fin.val) (Or.imp (congrArg Fin.val) (congrArg Fin.val))
  · have he : clockLoss s c x = s.lossTold c := by
      rw [clockLoss_own s x.val c.isLt hr hd fun h => ho (Fin.ext h), if_pos hl]
    exact ⟨_, congrArg Host.Outcome.next he, lossTold_spec s c.isLt⟩
  · exact congrArg Host.Outcome.next (clockLoss_dead x.val c.isLt hd)
  · obtain ⟨h1, h2, -, -, -, -, ⟨-, -, -, -, hcore, -⟩, h8, -⟩ := clockLoss_first s (c := 0) 0 (by decide) hr hd hl (by simp)
    exact ⟨_, rfl, (hcore rfl).1, h1, h8 (.inl rfl), h2⟩
  · obtain ⟨h1, h2, -, -, -, -, ⟨hin, -, -, -, -, htime, -⟩, -, hpend⟩ := clockLoss_first s (c := 3) 3 (by decide) hr hd hl (by simp)
    obtain ⟨hmode, -, hfree⟩ := htime rfl
    exact ⟨_, rfl, List.contains_iff_mem.mpr hin, hmode, hpend rfl, h1, hfree, h2⟩
  · obtain ⟨he, -, hfreq, -⟩ := pllTold_spec s (mon := 7) (f := CLK_MON_TIME_LOCK) (by simp [lockFlds])
    exact ⟨_, congrArg Host.Outcome.next (clockLoss_time_lost (mon := 7) hr hl (by decide)), he, hfreq rfl⟩
  · obtain ⟨he, -, -, hlock⟩ := pllTold_spec s (mon := 8) (f := CLK_MON_TIME_LOCK) (by simp [lockFlds])
    exact ⟨_, congrArg Host.Outcome.next (clockLoss_time_lost (mon := 8) hr hl (by decide)), he, hlock rfl⟩
  · exact congrArg Host.Outcome.next (clockLoss_dead (c := 3) 3 (by decide) hd)
  · obtain ⟨h1, h2, h3, h4, h5, h6, h7⟩ := clockReturn_spec hl
    exact ⟨_, rfl, h1, h2, h3, h4, h5, h6, fun h => h7 (congrArg Fin.val h)⟩
  · refine congrArg Host.Outcome.next ?_
    unfold clockReturn
    rw [hl]
    rfl
  · obtain ⟨hlost, hfree, hdom⟩ := clockReturn_time hl
    exact ⟨_, rfl, hlost, hfree, fun d => hdom d.val d.isLt⟩
  · have he : blockStreamCreset s = s.chipReset 7 := if_pos hs
    obtain ⟨hop, hcause, hres, hstream⟩ := chipReset_shown s 7
    exact ⟨_, congrArg Host.Outcome.next he, hop, hcause, hres, hstream⟩
  · exact congrArg Host.Outcome.next (if_neg (by rw [hs]; exact Bool.false_ne_true))

end Sys2Proof.Machine
end

section
/-! PROOFS. O33, first part: reads by the tick pipeline, and steps that follow one another over a list of arms or ports. -/
namespace Sys2Proof.Machine
open Sys2Proof

/-! ### A phase's work on registers, memory and messages -/

/-- Registers of fs, memory, messages and free values change, nothing else. -/
structure WorkFrame (fs : List Fld) (s t : State) : Prop where
  kept : t = { s with regs := t.regs, mem := t.mem, sump := t.sump, fresh := t.fresh }
  regs : SameRegs fs s t

namespace WorkFrame

variable {fs gs : List Fld} {s t u : State}

theorem refl (fs : List Fld) (s : State) : WorkFrame fs s s := ⟨rfl, sameRegs_refl _ _⟩

theorem trans (h : WorkFrame fs s t) (k : WorkFrame fs t u) : WorkFrame fs s u :=
  ⟨by rw [k.kept, h.kept], h.regs.trans k.regs⟩

theorem mono (h : WorkFrame fs s t) (sub : ∀ f ∈ fs, f ∈ gs) : WorkFrame gs s t := ⟨h.kept, h.regs.mono sub⟩

theorem setFld (h : WorkFrame fs s t) {f : Fld} (v : Nat) (m : f ∈ fs) : WorkFrame fs s (t.setFld f v) :=
  h.trans ⟨rfl, (sameRegs_refl _ t).setFld v m⟩

theorem count (h : WorkFrame fs s t) {c o : Fld} (i k : Nat) (m : c ∈ fs) (m' : o ∈ fs) : WorkFrame fs s (t.count c o i k) :=
  h.trans ⟨by rw [count_eq], (sameRegs_refl _ t).count i k m m'⟩

theorem withMem (h : WorkFrame fs s t) (m : Memory) : WorkFrame fs s { t with mem := m } := h.trans ⟨rfl, sameRegs_of_regs _ rfl⟩

theorem setSlot (h : WorkFrame fs s t) (i : Nat) (v : Int) : WorkFrame fs s (t.setSlot i v) := h.withMem _

theorem draw (h : WorkFrame fs s t) (w : Nat) : WorkFrame fs s (t.draw w).2 := h.trans ⟨rfl, sameRegs_of_regs _ rfl⟩

theorem sendAs (h : WorkFrame fs s t) (hm : ∀ f ∈ msgFlds, f ∈ fs) (a k d c i : Nat) : WorkFrame fs s (t.sendAs a k d c i) :=
  h.trans ⟨by rw [sendAs_frame], (sameRegs_refl _ t).sendAs a k d c i (hm _ (by simp [msgFlds])) (hm _ (by simp [msgFlds]))⟩

theorem sendIf (h : WorkFrame fs s t) (hm : ∀ f ∈ msgFlds, f ∈ fs) (c : Bool) (a k d : Nat) : WorkFrame fs s (t.sendIf c a k d) := by
  unfold State.sendIf
  split
  · exact h.sendAs hm ..
  · exact h

end WorkFrame

theorem msgFlds_readFlds {f : Fld} (h : f ∈ msgFlds) : f ∈ readFlds :=
  List.mem_append_left _ (List.mem_append_right _ h)

/-- Where the registers stand that reads and messages write. -/
theorem readFlds_addr : ∀ g ∈ readFlds, g.lo < 32 ∧ (g.addr < 0x50000 ∨ 0xB0000 ≤ g.addr) ∧ g.addr < 0x100000 ∧ g.addr ≠ 0x10 := by
  have hown : ∀ g ∈ [SEC_CMD_STAT_OP, SEQ_SIGN_STAT_STATE, SEQ_SIGN_STAT_RESULT, SEQ_EVT, SEC_CNT_VERIFY, SEC_CNT_OVF, MEM_CNT_UE, MEM_CNT_CE,
      MEM_CNT_MBOX, MEM_CNT_OVF] ++ msgFlds, g.lo < 32 ∧ (g.addr < 0x50000 ∨ 0xB0000 ≤ g.addr) ∧ g.addr < 0x100000 ∧ g.addr ≠ 0x10 := by
    decide
  refine List.forall_mem_append.mpr ⟨hown, fun g hg => ?_⟩
  obtain ⟨i, hi, rfl⟩ := List.mem_map.mp hg
  have hi := List.mem_range.mp hi
  simp only [FLT_INJ_ARM]
  omega

theorem workFrame_inject (s : State) {i : Nat} (syn : BitVec 8) (h : i < 128) : WorkFrame readFlds s (s.inject i syn).1 := by
  unfold State.inject
  split
  · exact .refl _ s
  · extract_lets mask u obs
    have hu : WorkFrame readFlds s u := by
      unfold u
      split
      · exact .refl _ s
      · exact (WorkFrame.refl _ s).setFld 0 (injArm_read h)
    split <;> exact hu.sendAs (fun _ => msgFlds_readFlds) ..

theorem workFrame_checkedRead (s : State) (a : Nat) : WorkFrame readFlds s (s.checkedRead a).2 := by
  have hi := workFrame_inject s (s.synAt a) (checkerOf_lt a)
  have hm {f : Fld} : f ∈ msgFlds → f ∈ readFlds := msgFlds_readFlds
  unfold State.checkedRead
  extract_lets i syn
  split
  next u rep hu =>
    rw [show (s.inject (checkerOf a) (s.synAt a)).1 = u from congrArg Prod.fst hu] at hi
    extract_lets w
    split
    · exact hi
    · exact (hi.count _ _ (by simp [readFlds]) (by simp [readFlds])).sendIf (fun _ => hm) ..
    · exact ((hi.count _ _ (by simp [readFlds]) (by simp [readFlds])).sendIf (fun _ => hm) ..).withMem _

/-- What the tick pipeline reads changes nothing else (R452). -/
theorem workFrame_pipeRead (s : State) (ws : List Nat) : WorkFrame readFlds s (s.pipeRead ws) := by
  unfold State.pipeRead
  refine foldl_inv (fun t => WorkFrame readFlds s t) _ (fun t a h => ?_) ws s (.refl _ s)
  split
  · exact h
  · have hc := h.trans (workFrame_checkedRead t a)
    split
    next e u hu =>
      rw [show (t.checkedRead a).2 = u from congrArg Prod.snd hu] at hc
      split
      · exact hc
      · exact (hc.draw 64).withMem _

/-! ### Steps over a list -/

/-- Steps over different elements: what each brings about for its own element stands at the end, if the steps for other
elements leave it alone and do not touch what it starts from. -/
theorem each_spec {f : State → Nat → State} {P Q : Nat → State → State → Prop} {D : Nat → Prop}
    (hP : ∀ s a, D a → P a s (f s a)) (hQ : ∀ s a, D a → Q a s (f s a))
    (hafter : ∀ {a b s t u}, D a → D b → a ≠ b → P a s t → Q b t u → P a s u)
    (hbefore : ∀ {a b s t u}, D a → D b → a ≠ b → Q b s t → P a t u → P a s u) :
    ∀ (l : List Nat), l.Nodup → (∀ a ∈ l, D a) → ∀ s : State, ∀ a ∈ l, P a s (s.each l f) := by
  intro l
  induction l with
  | nil => exact fun _ _ _ a ha => absurd ha (by simp)
  | cons b l ih =>
    intro hn hD s a ha
    obtain ⟨hb, hn⟩ := List.nodup_cons.mp hn
    have hDb := hD b (by simp)
    have hDa := hD a ha
    have hDl : ∀ c ∈ l, D c := fun c hc => hD c (by simp [hc])
    by_cases hab : a = b
    · subst hab
      refine foldl_inv_mem (fun t => P a s t) f l (fun t c hc ht => ?_) _ (hP s a hDa)
      exact hafter hDa (hDl c hc) (fun h => hb (h ▸ hc)) ht (hQ t c (hDl c hc))
    · have hal : a ∈ l := (List.mem_cons.mp ha).resolve_left hab
      exact hbefore hDa hDb hab (hQ s b hDb) (ih hn hDl (f s b) a hal)

/-- What every step keeps, the steps over a list keep. -/
theorem each_keep {f : State → Nat → State} {R : State → State → Prop} {D : Nat → Prop} (hrefl : ∀ s, R s s)
    (htrans : ∀ {s t u}, R s t → R t u → R s u) (hf : ∀ s a, D a → R s (f s a)) (l : List Nat) (hl : ∀ a ∈ l, D a) (s : State) :
    R s (s.each l f) :=
  foldl_inv_mem (fun t => R s t) f l (fun t a ha h => htrans h (hf t a (hl a ha))) s (hrefl s)

end Sys2Proof.Machine
end

section
/-! PROOFS. O33, second part: the arms' safe state (R177, R187). -/
namespace Sys2Proof.Machine
open Sys2Proof

/-- The registers that show what an arm gives out. -/
def outFlds (a : Nat) : List Fld :=
  [PLN_ARM_OUT_N a, PLN_ARM_OUT_WNS a, PLN_ARM_OUT_LIM a, PLN_ARM_OUT_DVLIM a, PLN_ARM_OUT_NOPIP a, PLN_ARM_OUT_BSAT a]

/-- An arm of the planner. -/
def isArm (a : Nat) : Prop := a < 6

theorem arms_spec (s : State) : s.arms.Nodup ∧ ∀ a ∈ s.arms, isArm a :=
  ⟨List.nodup_range.filter _, fun _ ha => List.mem_range.mp (List.mem_filter.mp ha).1⟩

theorem arms_congr {s t : State} (h : t.ld = s.ld) : t.arms = s.arms := by
  unfold State.arms State.armCells State.confCells State.armOf State.armOfPort
  rw [h]

theorem plnA_setPlnA_same (s : State) (a : Nat) (x : PlnArm) : (s.setPlnA a x).plnA a = x := mget_mset_same ..

theorem plnA_setPlnA_ne (s : State) {a b : Nat} (x : PlnArm) (h : b ≠ a) : (s.setPlnA a x).plnA b = s.plnA b := mget_mset_ne _ _ _ h.symm

/-- The step that puts arm a into its safe state leaves the other arms and all but a's own registers and slots alone. -/
structure SafeStep (a : Nat) (s t : State) : Prop where
  kept : t = { s with regs := t.regs, pln := t.pln, mem := t.mem }
  regs : SameRegs (armFlds a ++ outFlds a) s t
  others : ∀ b, b ≠ a → t.plnA b = s.plnA b
  slots : ∀ b, isArm a → isArm b → b ≠ a → t.slot (0x1B0 + 8 * b) = s.slot (0x1B0 + 8 * b)

/-- Arm a is in its safe state with its status at zero. -/
structure IsSafe (a : Nat) (s t : State) : Prop where
  arm : safeArm (t.plnA a)
  nprev : (t.plnA a).nprev = (s.plnA a).nprev
  count : t.fld (PLN_ARM_OUT_N a) = 0
  valid : t.fld (PLN_ARM_PIP_VALID a) = 0
  slot : t.slot (0x1B0 + 8 * a) = 0

theorem slot_setSlot_ne (s : State) {i j : Nat} (v : Int) (hi : i < 1024) (hj : j < 1024) (h : i ≠ j) : (s.setSlot j v).slot i = s.slot i := by
  unfold State.slot State.setSlot
  rw [rd_wr_out s _ (by omega)]

theorem slot_setSlot_zero (s : State) (i : Nat) : (s.setSlot i 0).slot i = 0 := by
  unfold State.slot State.setSlot
  rw [rd_wr_same]
  decide

theorem fld_zeroed (l : List Fld) : ∀ (s : State) (f : Fld), f ∈ l ∨ s.fld f = 0 → (∀ g ∈ l, f = g ∨ f.key ≠ g.key) →
    (l.foldl (fun s g => s.setFld g 0) s).fld f = 0 := by
  induction l with
  | nil => exact fun s f h _ => h.resolve_left (by simp)
  | cons g l ih =>
    intro s f h hl
    refine ih _ f ?_ fun k hk => hl k (by simp [hk])
    rcases hl g (by simp) with rfl | hne
    · exact .inr ((fld_setFld_same s f 0).trans (Nat.zero_mod _))
    · exact h.imp (fun h => (List.mem_cons.mp h).resolve_left fun e => hne (e ▸ rfl)) fun h => (fld_setFld_ne s 0 hne.symm).trans h

theorem zeroed_eq (l : List Fld) (s : State) : OnlyRegs l s (l.foldl (fun s g => s.setFld g 0) s) :=
  foldl_inv_mem (fun t => OnlyRegs l s t) _ l (fun t g hg ⟨he, hr⟩ => ⟨by rw [State.setFld, he], hr.setFld 0 hg⟩) s (onlyRegs_refl l s)

/-- The status slots of an arm, written one after the other. -/
def State.statusOf (s : State) (a : Nat) (v0 v1 v2 v3 v4 v5 v6 : Int) : State :=
  let b := 0x1B0 + 8 * a
  (((((((s.setSlot b v0).setSlot (b + 1) v1).setSlot (b + 2) v2).setSlot (b + 3) v3).setSlot (b + 4) v4).setSlot
    (b + 5) v5).setSlot (b + 6) v6).setSlot (b + 7) 0

theorem statusOf_slot (s : State) {a : Nat} (ha : isArm a) (v1 v2 v3 v4 v5 v6 : Int) :
    (s.statusOf a 0 v1 v2 v3 v4 v5 v6).slot (0x1B0 + 8 * a) = 0 := by
  unfold isArm at ha
  unfold State.statusOf
  dsimp only
  iterate 7 rw [slot_setSlot_ne _ _ (by omega) (by omega) (by omega)]
  exact slot_setSlot_zero ..

theorem statusOf_slot_ne (s : State) {a b : Nat} (ha : isArm a) (hb : isArm b) (h : b ≠ a) (v0 v1 v2 v3 v4 v5 v6 : Int) :
    (s.statusOf a v0 v1 v2 v3 v4 v5 v6).slot (0x1B0 + 8 * b) = s.slot (0x1B0 + 8 * b) := by
  unfold isArm at ha hb
  unfold State.statusOf
  dsimp only
  iterate 8 rw [slot_setSlot_ne _ _ (by omega) (by omega) (by omega)]

theorem MemOnly.setSlot {s t : State} (h : MemOnly s t) (i : Nat) (v : Int) : MemOnly s (t.setSlot i v) := by
  have hw : t.setSlot i v = { t with mem := (t.setSlot i v).mem } := wr_eq ..
  unfold MemOnly
  rw [hw, h]

theorem statusOf_mem (s : State) (a : Nat) (v0 v1 v2 v3 v4 v5 v6 : Int) : MemOnly s (s.statusOf a v0 v1 v2 v3 v4 v5 v6) := by
  have h : MemOnly s s := rfl
  unfold State.statusOf
  exact (((((((h.setSlot ..).setSlot ..).setSlot ..).setSlot ..).setSlot ..).setSlot ..).setSlot ..).setSlot ..

/-- The state in which an arm's safe state is shown. -/
def State.safeShown (s : State) (a : Nat) : State := (s.setPlnA a (s.plnA a).safe).showArm a

theorem planSafe_eq (s : State) (a : Nat) : s.planSafe a =
    ((outFlds a).foldl (fun s f => s.setFld f 0) (s.safeShown a)).statusOf a 0 0 0 (-1) 0 0
      (((outFlds a).foldl (fun s f => s.setFld f 0) (s.safeShown a)).selA a).nfbx := rfl

theorem outFlds_apart {a b : Nat} (h : a ≠ b) : ∀ g ∈ armFlds b ++ outFlds b, (PLN_ARM_OUT_N a).key ≠ g.key ∧ (PLN_ARM_PIP_VALID a).key ≠ g.key := by
  simp only [armFlds, outFlds, List.cons_append, List.nil_append, List.mem_cons, List.not_mem_nil, or_false, forall_eq_or_imp, forall_eq, Fld.key,
    PLN_ARM_PIP_PIPG, PLN_ARM_PIP_VALID, PLN_ARM_PIP_PS, PLN_ARM_PIP_TL, PLN_ARM_BAL, PLN_ARM_OUT_N, PLN_ARM_OUT_WNS, PLN_ARM_OUT_LIM,
    PLN_ARM_OUT_DVLIM, PLN_ARM_OUT_NOPIP, PLN_ARM_OUT_BSAT]
  omega

theorem outFlds_own (a : Nat) : ∀ g ∈ outFlds a, (PLN_ARM_OUT_N a = g ∨ (PLN_ARM_OUT_N a).key ≠ g.key) ∧ (PLN_ARM_PIP_VALID a).key ≠ g.key := by
  simp only [outFlds, List.mem_cons, List.not_mem_nil, or_false, forall_eq_or_imp, forall_eq, Fld.key, PLN_ARM_PIP_VALID, PLN_ARM_OUT_N,
    PLN_ARM_OUT_WNS, PLN_ARM_OUT_LIM, PLN_ARM_OUT_DVLIM, PLN_ARM_OUT_NOPIP, PLN_ARM_OUT_BSAT, true_or, true_and]
  omega

theorem planSafe_spec (s : State) {a : Nat} (ha : isArm a) : SafeStep a s (s.planSafe a) ∧ IsSafe a s (s.planSafe a) := by
  have hsafe : safeArm (s.plnA a).safe := ⟨rfl, rfl, rfl⟩
  have hshow : (s.safeShown a).plnA a = (s.plnA a).safe := plnA_setPlnA_same ..
  have hvalid : (s.safeShown a).fld (PLN_ARM_PIP_VALID a) = 0 := showArm_noPip _ a (by rw [plnA_setPlnA_same]; exact hsafe)
  have hout (b : Nat) (hb : b ≠ a) : (s.safeShown a).plnA b = s.plnA b := plnA_setPlnA_ne s _ hb
  have hkept : s.safeShown a = { s with regs := (s.safeShown a).regs, pln := (s.safeShown a).pln } := rfl
  have hregs : SameRegs (armFlds a) s (s.safeShown a) := sameRegs_showArm (s.setPlnA a _) a
  rw [planSafe_eq]
  generalize s.safeShown a = u at hshow hvalid hout hkept hregs
  obtain ⟨ze, zr⟩ := zeroed_eq (outFlds a) u
  have zn : ((outFlds a).foldl (fun s f => s.setFld f 0) u).fld (PLN_ARM_OUT_N a) = 0 :=
    fld_zeroed _ u _ (.inl (by simp [outFlds])) fun g hg => (outFlds_own a g hg).1
  have zv : ((outFlds a).foldl (fun s f => s.setFld f 0) u).fld (PLN_ARM_PIP_VALID a) = 0 :=
    (zr _ fun g hg => (outFlds_own a g hg).2).trans hvalid
  generalize (outFlds a).foldl (fun s f => s.setFld f 0) u = v at ze zr zn zv
  have hpln : v.pln = u.pln := by rw [ze]
  have hmem : v.mem = s.mem := by rw [ze, hkept]
  generalize hw : v.statusOf a 0 0 0 (-1) 0 0 (v.selA a).nfbx = w
  have he : w = { v with mem := w.mem } := by rw [← hw]; exact statusOf_mem ..
  have hwr : w.regs = v.regs := by rw [he]
  have hplnA (b : Nat) : w.plnA b = u.plnA b := by
    rw [he]
    unfold State.plnA
    rw [hpln]
  refine ⟨⟨by rw [he, ze, hkept], ?_, fun b hb => (hplnA b).trans (hout b hb), fun b _ hb hne => ?_⟩,
    ⟨?_, ?_, (fld_congr hwr _).trans zn, (fld_congr hwr _).trans zv, ?_⟩⟩
  · exact ((hregs.mono fun f => List.mem_append_left _).trans (zr.mono fun f => List.mem_append_right _)).trans (sameRegs_of_regs _ hwr)
  · rw [← hw, statusOf_slot_ne v ha hb hne]
    unfold State.slot
    rw [rd_congr hmem]
  · rw [hplnA, hshow]
    exact hsafe
  · rw [hplnA, hshow]
    rfl
  · rw [← hw]
    exact statusOf_slot v ha ..

/-- What the steps that put arms into their safe state leave alone. -/
structure SafeKept (s t : State) : Prop where
  kept : t = { s with regs := t.regs, pln := t.pln, mem := t.mem }
  regs : SameRegs ((upto 6).flatMap fun a => armFlds a ++ outFlds a) s t

theorem SafeStep.all {a : Nat} {s t : State} (ha : isArm a) (h : SafeStep a s t) : SafeKept s t :=
  ⟨h.kept, h.regs.mono fun _ hf => List.mem_flatMap.mpr ⟨a, List.mem_range.mpr ha, hf⟩⟩

theorem SafeKept.refl (s : State) : SafeKept s s := ⟨rfl, sameRegs_refl _ s⟩

theorem SafeKept.trans {s t u : State} (h : SafeKept s t) (k : SafeKept t u) : SafeKept s u :=
  ⟨by rw [k.kept, h.kept], h.regs.trans k.regs⟩

theorem IsSafe.later {a b : Nat} {s t u : State} (ha : isArm a) (hb : isArm b) (hne : a ≠ b) (h : IsSafe a s t) (k : SafeStep b t u) :
    IsSafe a s u := by
  obtain ⟨harm, hprev, hcount, hvalid, hslot⟩ := h
  obtain ⟨-, hregs, hothers, hslots⟩ := k
  rw [← hothers a hne] at harm hprev
  exact ⟨harm, hprev, (hregs _ fun g hg => (outFlds_apart hne g hg).1).trans hcount,
    (hregs _ fun g hg => (outFlds_apart hne g hg).2).trans hvalid, (hslots a hb ha hne).trans hslot⟩

theorem IsSafe.earlier {a b : Nat} {s t u : State} (hne : a ≠ b) (k : SafeStep b s t) (h : IsSafe a t u) : IsSafe a s u :=
  ⟨h.arm, h.nprev.trans (congrArg PlnArm.nprev (k.others a hne)), h.count, h.valid, h.slot⟩

/-- All arms are put into their safe state: they are in it, and nothing else changes. -/
theorem planSafe_all (s : State) (l : List Nat) (hn : l.Nodup) (hl : ∀ a ∈ l, isArm a) :
    (∀ a ∈ l, IsSafe a s (s.each l State.planSafe)) ∧ SafeKept s (s.each l State.planSafe) :=
  ⟨each_spec (fun s _ ha => (planSafe_spec s ha).2) (fun s _ ha => (planSafe_spec s ha).1) IsSafe.later (fun _ _ => IsSafe.earlier) l hn hl s,
    each_keep SafeKept.refl SafeKept.trans (fun s _ ha => (planSafe_spec s ha).1.all ha) l hl s⟩

theorem logInputs_eq (s : State) : s.logInputs = { s with red := s.logInputs.red } := by
  unfold State.logInputs
  split <;> rfl

end Sys2Proof.Machine
end

section
/-! PROOFS. O33, third part: an arm out of its safe state (R178 to R187). -/
namespace Sys2Proof.Machine
open Sys2Proof

/-! ### Which registers an arm's step writes -/

/-- The counters and flags of an arm. -/
def cntFlds (a : Nat) : List Fld :=
  [PLN_ARM_CNT_LIM a, PLN_ARM_CNT_DVLIM a, PLN_ARM_CNT_EDGE a, PLN_ARM_CNT_HELD a, PLN_ARM_CNT_ROT a, PLN_ARM_STAT_LIM_SEEN a,
    PLN_ARM_STAT_DVLIM_SEEN a, PLN_ARM_STAT_NOPIP_SEEN a, PLN_ARM_STAT_BSAT_SEEN a, PLN_ARM_STAT_ROT_MISS a, PLN_CNT_OVF]

/-- The registers that an arm's step writes after its pip and balance are shown. -/
def lateFlds (a : Nat) : List Fld := outFlds a ++ (cntFlds a ++ readFlds)

/-- The registers that an arm's step writes. -/
def planFlds (a : Nat) : List Fld := armFlds a ++ lateFlds a

/-- A field at an address from lo to hi, at the planner's overflow flags, or outside the planner. -/
def Placed (lo hi : Nat) (g : Fld) : Prop :=
  g.lo < 32 ∧ (lo ≤ g.addr ∧ g.addr < hi ∨ g.addr = 0x50050 ∨ g.addr < 0x50000 ∨ 0x51000 ≤ g.addr)

/-- A field of the planner that stands outside the addresses from lo to hi. -/
theorem Placed.apart {lo hi : Nat} {f g : Fld} (h : Placed lo hi g) (hf : f.lo < 32) (h0 : 0x50000 ≤ f.addr) (h1 : f.addr < 0x51000)
    (ho : f.addr ≠ 0x50050) (hne : f.addr < lo ∨ hi ≤ f.addr) : f.key ≠ g.key := by
  obtain ⟨hl, ha⟩ := h
  unfold Fld.key
  omega

theorem readFlds_place (lo hi : Nat) : ∀ g ∈ readFlds, Placed lo hi g := by
  intro g hg
  obtain ⟨hl, ha, -⟩ := readFlds_addr g hg
  unfold Placed
  omega

theorem lateFlds_place (a : Nat) : ∀ g ∈ lateFlds a, Placed (0x50110 + 64 * a) (0x5012C + 64 * a) g := by
  refine List.forall_mem_append.mpr ⟨?_, List.forall_mem_append.mpr ⟨?_, readFlds_place _ _⟩⟩
  · simp only [outFlds, List.mem_cons, List.not_mem_nil, or_false, forall_eq_or_imp, forall_eq, Placed, PLN_ARM_OUT_N, PLN_ARM_OUT_WNS,
      PLN_ARM_OUT_LIM, PLN_ARM_OUT_DVLIM, PLN_ARM_OUT_NOPIP, PLN_ARM_OUT_BSAT]
    omega
  · simp only [cntFlds, List.mem_cons, List.not_mem_nil, or_false, forall_eq_or_imp, forall_eq, Placed, PLN_ARM_CNT_LIM, PLN_ARM_CNT_DVLIM,
      PLN_ARM_CNT_EDGE, PLN_ARM_CNT_HELD, PLN_ARM_CNT_ROT, PLN_ARM_STAT_LIM_SEEN, PLN_ARM_STAT_DVLIM_SEEN, PLN_ARM_STAT_NOPIP_SEEN,
      PLN_ARM_STAT_BSAT_SEEN, PLN_ARM_STAT_ROT_MISS, PLN_CNT_OVF,
      true_or, or_true, and_true]
    omega

theorem planFlds_place (a : Nat) : ∀ g ∈ planFlds a, Placed (0x50108 + 64 * a) (0x5012C + 64 * a) g := by
  refine List.forall_mem_append.mpr ⟨?_, fun g hg => ?_⟩
  · simp only [armFlds, List.mem_cons, List.not_mem_nil, or_false, forall_eq_or_imp, forall_eq, Placed, PLN_ARM_PIP_PIPG, PLN_ARM_PIP_VALID,
      PLN_ARM_PIP_PS, PLN_ARM_PIP_TL, PLN_ARM_BAL]
    omega
  · obtain ⟨hl, hp⟩ := lateFlds_place a g hg
    unfold Placed
    omega

/-- What an arm shows: its count, whether it has no pip, its limit, and whether its pip is valid. -/
def armShown (a : Nat) : List Fld := [PLN_ARM_OUT_N a, PLN_ARM_OUT_NOPIP a, PLN_ARM_OUT_LIM a, PLN_ARM_PIP_VALID a]

theorem armShown_place (a : Nat) : ∀ f ∈ armShown a, f.lo < 32 ∧ 0x50108 + 64 * a ≤ f.addr ∧ f.addr < 0x50114 + 64 * a := by
  simp only [armShown, List.mem_cons, List.not_mem_nil, or_false, forall_eq_or_imp, forall_eq, PLN_ARM_OUT_N, PLN_ARM_OUT_NOPIP, PLN_ARM_OUT_LIM,
    PLN_ARM_PIP_VALID]
  omega

/-- What an arm shows is not written by another arm's step. -/
theorem armShown_apart {a b : Nat} (ha : isArm a) (h : a ≠ b) : ∀ f ∈ armShown a, ∀ g ∈ planFlds b, f.key ≠ g.key := by
  unfold isArm at ha
  intro f hf g hg
  obtain ⟨hl, h0, h1⟩ := armShown_place a f hf
  exact (planFlds_place b g hg).apart hl (by omega) (by omega) (by omega) (by omega)

/-- An arm's limits and the pattern's period are written by no arm's step. -/
theorem paramFlds_apart {a : Nat} (ha : isArm a) (b : Nat) :
    ∀ f ∈ [PLN_PAT_ACT_PER, PLN_ARM_LIM_DN_MAX a, PLN_ARM_LIM_EMAX a], ∀ g ∈ planFlds b, f.key ≠ g.key := by
  unfold isArm at ha
  have hp : ∀ f ∈ [PLN_PAT_ACT_PER, PLN_ARM_LIM_DN_MAX a, PLN_ARM_LIM_EMAX a],
      f.lo < 32 ∧ (f.addr = 0x50034 ∨ f.addr = 0x50104 + 64 * a) := by
    simp only [List.mem_cons, List.not_mem_nil, or_false, forall_eq_or_imp, forall_eq, PLN_PAT_ACT_PER, PLN_ARM_LIM_DN_MAX, PLN_ARM_LIM_EMAX, true_or,
      or_true, and_true]
    omega
  intro f hf g hg
  obtain ⟨hl, h0⟩ := hp f hf
  exact (planFlds_place b g hg).apart hl (by omega) (by omega) (by omega) (by omega)

/-! ### The step of an arm -/

/-- The step of arm a leaves the other arms and all but a's own registers alone. -/
structure PlanStep (a : Nat) (s t : State) : Prop where
  kept : t = { s with regs := t.regs, pln := t.pln, mem := t.mem, sump := t.sump, fresh := t.fresh }
  regs : SameRegs (planFlds a) s t
  others : ∀ b, b ≠ a → t.plnA b = s.plnA b

namespace PlanStep

variable {a : Nat} {s t u : State}

theorem refl (a : Nat) (s : State) : PlanStep a s s := ⟨rfl, sameRegs_refl _ s, fun _ _ => rfl⟩

theorem trans (h : PlanStep a s t) (k : PlanStep a t u) : PlanStep a s u :=
  ⟨by rw [k.kept, h.kept], h.regs.trans k.regs, fun b hb => (k.others b hb).trans (h.others b hb)⟩

theorem setPlnA (h : PlanStep a s t) (x : PlnArm) : PlanStep a s (t.setPlnA a x) :=
  h.trans ⟨rfl, sameRegs_of_regs _ rfl, fun _ hb => plnA_setPlnA_ne t x hb⟩

theorem work (h : PlanStep a s t) (k : WorkFrame (planFlds a) t u) : PlanStep a s u :=
  h.trans ⟨by rw [k.kept], k.regs, fun b _ => by rw [k.kept]; rfl⟩

end PlanStep

theorem WorkFrame.pln {fs : List Fld} {s t : State} (h : WorkFrame fs s t) (a : Nat) : t.plnA a = s.plnA a := by
  rw [h.kept]; rfl

theorem readFlds_plan {a : Nat} {f : Fld} (h : f ∈ readFlds) : f ∈ planFlds a := by simp [planFlds, lateFlds, h]

theorem cntFlds_plan {a : Nat} {f : Fld} (h : f ∈ cntFlds a) : f ∈ planFlds a := by simp [planFlds, lateFlds, h]

/-- What the role decision leaves of an arm (R180). -/
def SameLevel (x y : PlnArm) : Prop := y.act = x.act ∧ y.nprev = x.nprev ∧ y.first = x.first ∧ y.pc = x.pc

theorem pipDecide_spec (s : State) (a : Nat) : PlanStep a s (s.pipDecide a).1 ∧ SameLevel (s.plnA a) ((s.pipDecide a).1.plnA a) := by
  unfold State.pipDecide
  extract_lets p forced rot rotate
  split
  · exact ⟨.refl a s, rfl, rfl, rfl, rfl⟩
  split
  · extract_lets q u
    have hu : PlanStep a s u ∧ u.plnA a = q := by
      have hw : WorkFrame (planFlds a) (s.setPlnA a q) u :=
        (WorkFrame.refl _ _).count _ _ (cntFlds_plan (by simp [cntFlds])) (cntFlds_plan (by simp [cntFlds]))
      exact ⟨((PlanStep.refl a s).setPlnA q).work hw, (hw.pln a).trans (plnA_setPlnA_same ..)⟩
    have hq : SameLevel (s.plnA a) q := ⟨rfl, rfl, rfl, rfl⟩
    rw [← hu.2] at hq
    split
    · exact ⟨hu.1.work ((WorkFrame.refl _ u).setFld 1 (cntFlds_plan (by simp [cntFlds]))), hq⟩
    · exact ⟨hu.1, hq⟩
  · split
    · refine ⟨(PlanStep.refl a s).setPlnA _, ?_⟩
      rw [plnA_setPlnA_same]
      exact ⟨rfl, rfl, rfl, rfl⟩
    · exact ⟨.refl a s, rfl, rfl, rfl, rfl⟩

/-- Where no limit of availability acts, the count moves by no more than DN_MAX (R179). -/
theorem planLevel_step {src : Bool} {mq vref vm vp nav nfbx dn nprev : Int} {first pip : Bool} {r : Level} (hdn : 0 ≤ dn) (hf : first = false)
    (hr : planLevel src mq vref vm vp nav nfbx dn nprev first pip = r) (hl : r.lim = false) : nprev - dn ≤ r.n ∧ r.n ≤ nprev + dn := by
  subst hf
  unfold planLevel at hr
  extract_lets novm n0 wq0 nreq up down nhi at hr
  split at hr
  next n wq hp =>
    have hstep : nprev - dn ≤ n ∧ n ≤ nprev + dn := by
      split at hp
      · cases hp
        omega
      split at hp
      · cases hp
        omega
      · cases hp
        simp_all [up, down]
    extract_lets hi at hr
    split at hr
    next n1 wq1 h1 =>
      extract_lets lo at hr
      split at hr
      next n2 wq2 h2 =>
        subst hr
        obtain ⟨hhi, hlo⟩ : hi = false ∧ lo = false := by simpa using hl
        rw [hhi] at h1
        rw [hlo] at h2
        cases h1
        cases h2
        exact hstep

/-- The balance of a pip stays within its bound (R181). -/
theorem pipEdges_spec {p q : PlnArm} {c : PipPar} {nd emax cl : Int} {blk held : Bool} (hq : p.pipEdges c nd emax blk = (q, held, cl))
    (h : 0 ≤ emax) : SameLevel p q ∧ q.n = p.n ∧ q.pip = p.pip ∧ -emax ≤ q.bal ∧ q.bal ≤ emax := by
  have hb (x : Int) : -emax ≤ clampI x (-emax) emax ∧ clampI x (-emax) emax ≤ emax := by
    unfold clampI
    split_ifs <;> omega
  obtain rfl : (p.pipEdges c nd emax blk).1 = q := congrArg Prod.fst hq
  exact ⟨⟨rfl, rfl, rfl, rfl⟩, rfl, rfl, hb _⟩

end Sys2Proof.Machine
end

section
/-! PROOFS. O33, fourth part: what an arm's step gives out, and the planner's phase (R177, R179, R182, R187, R190). -/
namespace Sys2Proof.Machine
open Sys2Proof

/-- The registers that give out an arm's count and limits, written one after the other. -/
theorem outFlds_written (s : State) (a : Nat) (x : Int) (w l d p b : Nat) :
    let t := (((((s.setFld (PLN_ARM_OUT_N a) (wrap x 12)).setFld (PLN_ARM_OUT_WNS a) w).setFld (PLN_ARM_OUT_LIM a) l).setFld
      (PLN_ARM_OUT_DVLIM a) d).setFld (PLN_ARM_OUT_NOPIP a) p).setFld (PLN_ARM_OUT_BSAT a) b
    t.fld (PLN_ARM_OUT_N a) = wrap x 12 ∧ t.fld (PLN_ARM_OUT_LIM a) = l % 2 ∧ t.fld (PLN_ARM_OUT_NOPIP a) = p % 2 ∧
    WorkFrame (outFlds a) s t := by
  have hk {f g : Fld} (ha : f.addr = g.addr) (hl : f.lo ≠ g.lo) : f.key ≠ g.key := by
    unfold Fld.key
    omega
  dsimp only
  refine ⟨?_, ?_, ?_, ?_⟩
  · rw [fld_setFld_ne, fld_setFld_ne, fld_setFld_ne, fld_setFld_ne, fld_setFld_ne, fld_setFld_same]
    · exact Nat.mod_eq_of_lt (wrap_lt x 12)
    all_goals exact hk rfl (Nat.ne_of_beq_eq_false rfl)
  · rw [fld_setFld_ne, fld_setFld_ne, fld_setFld_ne, fld_setFld_same]
    · rfl
    all_goals exact hk rfl (Nat.ne_of_beq_eq_false rfl)
  · rw [fld_setFld_ne, fld_setFld_same]
    · rfl
    · exact hk rfl (Nat.ne_of_beq_eq_false rfl)
  · exact ((((((WorkFrame.refl _ s).setFld _ (by simp [outFlds])).setFld _ (by simp [outFlds])).setFld _ (by simp [outFlds])).setFld _
      (by simp [outFlds])).setFld _ (by simp [outFlds])).setFld _ (by simp [outFlds])

theorem WorkFrame.countIf {fs : List Fld} {s t : State} (h : WorkFrame fs s t) (on : Bool) {c o : Fld} (i k : Nat) (m : c ∈ fs) (m' : o ∈ fs) :
    WorkFrame fs s (if on then t.count c o i k else t) := by
  split
  · exact h.count i k m m'
  · exact h

theorem WorkFrame.planFlag {fs : List Fld} {s t : State} (h : WorkFrame fs s t) (on : Bool) {f : Fld} (m : f ∈ fs) :
    WorkFrame fs s (t.planFlag on f) := by
  unfold State.planFlag
  split
  · exact h.setFld 1 m
  · exact h

theorem WorkFrame.status {fs : List Fld} {s t : State} (h : WorkFrame fs s t) (a : Nat) (v0 v1 v2 v3 v4 v5 v6 : Int) :
    WorkFrame fs s (t.statusOf a v0 v1 v2 v3 v4 v5 v6) := by
  have hm := statusOf_mem t a v0 v1 v2 v3 v4 v5 v6
  unfold MemOnly at hm
  rw [hm]
  exact h.withMem _

theorem outFlds_addr (a : Nat) : ∀ f ∈ outFlds a, f.lo < 32 ∧ f.addr = 0x50110 + 64 * a := by
  simp [outFlds, PLN_ARM_OUT_N, PLN_ARM_OUT_WNS, PLN_ARM_OUT_LIM, PLN_ARM_OUT_DVLIM, PLN_ARM_OUT_NOPIP, PLN_ARM_OUT_BSAT]

/-- What arm a gives out, from the state before its step (R179, R182, R187). -/
structure Levelled (a : Nat) (s t : State) : Prop where
  act : (t.plnA a).act = true
  first : (t.plnA a).first = false
  nprev : (t.plnA a).nprev = (t.plnA a).n
  pc : (t.plnA a).pc = ((s.plnA a).pc + 1) % max (s.fld PLN_PAT_ACT_PER) 1
  count : t.fld (PLN_ARM_OUT_N a) = wrap (t.plnA a).n 12
  noPip : t.fld (PLN_ARM_OUT_NOPIP a) = b2n (t.plnA a).pip.isNone
  valid : t.fld (PLN_ARM_PIP_VALID a) = b2n (t.plnA a).pip.isSome
  step : (s.plnA a).first = false → t.fld (PLN_ARM_OUT_LIM a) = 0 →
    (s.plnA a).nprev - s.fld (PLN_ARM_LIM_DN_MAX a) ≤ (t.plnA a).n ∧ (t.plnA a).n ≤ (s.plnA a).nprev + s.fld (PLN_ARM_LIM_DN_MAX a)
  balance : (t.plnA a).pip.isSome = true → -(256000 * (s.fld (PLN_ARM_LIM_EMAX a) : Int)) ≤ (t.plnA a).bal ∧
    (t.plnA a).bal ≤ 256000 * s.fld (PLN_ARM_LIM_EMAX a)

theorem b2n_mod_two (b : Bool) : b2n b % 2 = b2n b := by cases b <;> rfl

theorem b2n_eq_zero {b : Bool} (h : b2n b = 0) : b = false := by
  cases b
  · rfl
  · cases h

theorem fld_showArm_valid (s : State) (a : Nat) : (s.showArm a).fld (PLN_ARM_PIP_VALID a) = b2n (s.plnA a).pip.isSome := by
  unfold State.showArm
  rw [fld_setFld_ne _ _ (by simp only [Fld.key, PLN_ARM_BAL, PLN_ARM_PIP_VALID]; omega),
    fld_setFld_ne _ _ (by simp only [Fld.key, PLN_ARM_PIP_TL, PLN_ARM_PIP_VALID]; omega),
    fld_setFld_ne _ _ (by simp only [Fld.key, PLN_ARM_PIP_PS, PLN_ARM_PIP_VALID]; omega), fld_setFld_same]
  exact b2n_mod_two _

theorem planArm_spec (s : State) {a : Nat} (ha : isArm a) : PlanStep a s (s.planArm a) ∧ Levelled a s (s.planArm a) := by
  unfold State.planArm
  extract_lets was u c src0 b
  have hdec := pipDecide_spec u a
  split
  next v moved hv =>
    rw [show (u.pipDecide a).1 = v from congrArg Prod.fst hv] at hdec
    extract_lets p s3 s4 src mq nav vp nfbx r p1
    split
    next p2 held cl hp2 =>
      extract_lets nopip bsat p3 s5 s6 s7 s8 s9 s10 s11 s12 s13 s14 s15 fl pg
      have hu : PlanStep a s u := (PlanStep.refl a s).setPlnA _
      have hp : SameLevel { was with act := true, edges := [] } p := by
        have h := hdec.2
        rw [plnA_setPlnA_same] at h
        exact h
      have h3 : WorkFrame readFlds v s3 := workFrame_pipeRead ..
      have h4 : WorkFrame readFlds v s4 := by
        unfold s4
        split
        · exact h3.trans (workFrame_pipeRead ..)
        · exact h3
      have hs4 : PlanStep a s s4 := (hu.trans hdec.1).work (h4.mono fun f => readFlds_plan)
      have hpar {f : Fld} (hf : f ∈ [PLN_PAT_ACT_PER, PLN_ARM_LIM_DN_MAX a, PLN_ARM_LIM_EMAX a]) : s4.fld f = s.fld f :=
        hs4.regs f (paramFlds_apart ha a f hf)
      have hp2 : SameLevel p1 p2 ∧ p2.n = p1.n ∧ p2.pip = p1.pip ∧
          (p1.pip.isSome = true → -(256000 * (s4.fld (PLN_ARM_LIM_EMAX a) : Int)) ≤ p2.bal ∧ p2.bal ≤ 256000 * s4.fld (PLN_ARM_LIM_EMAX a)) := by
        split at hp2
        next g hg =>
          obtain ⟨h1, h2, h3, h4⟩ := pipEdges_spec hp2 (by omega)
          exact ⟨h1, h2, h3, fun _ => h4⟩
        next hg =>
          obtain rfl : p1 = p2 := congrArg Prod.fst hp2
          exact ⟨⟨rfl, rfl, rfl, rfl⟩, rfl, rfl, fun h => by rw [hg] at h; cases h⟩
      have hs5 : PlanStep a s s5 ∧ s5.plnA a = p3 := by
        have hw : WorkFrame (planFlds a) (s4.setPlnA a p3) s5 :=
          ⟨rfl, (sameRegs_showArm _ a).mono fun f => List.mem_append_left _⟩
        exact ⟨(hs4.setPlnA p3).work hw, (hw.pln a).trans (plnA_setPlnA_same ..)⟩
      have cnt {f : Fld} (h : f ∈ cntFlds a) : f ∈ lateFlds a := by simp [lateFlds, h]
      have read {f : Fld} (h : f ∈ readFlds) : f ∈ lateFlds a := by simp [lateFlds, h]
      have h10 : WorkFrame (lateFlds a) s5 s10 :=
        ((((((((WorkFrame.refl _ s5).countIf _ _ _ (cnt (by simp [cntFlds])) (cnt (by simp [cntFlds]))).countIf _ _ _ (cnt (by simp [cntFlds]))
          (cnt (by simp [cntFlds]))).countIf _ _ _ (cnt (by simp [cntFlds])) (cnt (by simp [cntFlds]))).countIf _ _ _ (cnt (by simp [cntFlds]))
          (cnt (by simp [cntFlds]))).planFlag _ (cnt (by simp [cntFlds]))).planFlag _ (cnt (by simp [cntFlds]))).planFlag _
          (cnt (by simp [cntFlds]))).planFlag _ (cnt (by simp [cntFlds]))
      obtain ⟨hn, hlim, hnopip, h11⟩ := outFlds_written s10 a r.n (roundShift r.wq 8).toNat (b2n r.lim) (b2n r.dvlim) (b2n nopip) (b2n bsat)
      have h15 : WorkFrame readFlds s11 s15 :=
        ((((WorkFrame.refl _ s11).sendIf (fun _ => msgFlds_readFlds) ..).sendIf (fun _ => msgFlds_readFlds) ..).sendIf
          (fun _ => msgFlds_readFlds) ..).sendIf (fun _ => msgFlds_readFlds) ..
      have ht : WorkFrame readFlds s11 (s15.statusOf a r.n r.wq p3.bal pg fl r.nreq nfbx) := h15.status ..
      change PlanStep a s (s15.statusOf a r.n r.wq p3.bal pg fl r.nreq nfbx) ∧ Levelled a s (s15.statusOf a r.n r.wq p3.bal pg fl r.nreq nfbx)
      generalize s15.statusOf a r.n r.wq p3.bal pg fl r.nreq nfbx = t at ht ⊢
      have hlate : WorkFrame (lateFlds a) s5 t := (h10.trans (h11.mono fun f => List.mem_append_left _)).trans (ht.mono fun f => read)
      have hplan : t.plnA a = p3 := (hlate.pln a).trans hs5.2
      have ha6 : a < 6 := ha
      have out {f : Fld} (hf : f ∈ outFlds a) : t.fld f = s11.fld f := by
        obtain ⟨hlo, haddr⟩ := outFlds_addr a f hf
        exact ht.regs f fun g hg => (readFlds_place 0 0 g hg).apart hlo (by omega) (by omega) (by omega) (.inr (Nat.zero_le _))
      have outN : t.fld (PLN_ARM_OUT_N a) = wrap r.n 12 := (out (by simp [outFlds])).trans hn
      have outLim : t.fld (PLN_ARM_OUT_LIM a) = b2n r.lim := ((out (by simp [outFlds])).trans hlim).trans (b2n_mod_two _)
      have outPip : t.fld (PLN_ARM_OUT_NOPIP a) = b2n nopip :=
        ((out (by simp [outFlds])).trans hnopip).trans (b2n_mod_two _)
      have outValid : t.fld (PLN_ARM_PIP_VALID a) = b2n p3.pip.isSome := by
        refine (hlate.regs _ fun g hg => ?_).trans ((fld_showArm_valid _ a).trans (by rw [plnA_setPlnA_same]))
        have hf : (PLN_ARM_PIP_VALID a).addr = 0x50108 + 64 * a := rfl
        exact (lateFlds_place a g hg).apart (Nat.lt_of_sub_pos (Nat.succ_pos _)) (by omega) (by omega) (by omega) (by omega)
      obtain ⟨pact, pprev, pfirst, ppc⟩ := hp
      obtain ⟨⟨qact, qprev, qfirst, qpc⟩, qn, qpip, qbal⟩ := hp2
      refine ⟨hs5.1.work (hlate.mono fun f => List.mem_append_right _), ⟨?_, ?_, ?_, ?_, ?_, ?_, ?_, ?_, ?_⟩⟩ <;> rw [hplan]
      · exact qact.trans pact
      · exact qfirst
      · exact qprev.trans qn.symm
      · refine qpc.trans ?_
        rw [← hpar (f := PLN_PAT_ACT_PER) (by simp)]
        exact congrArg (fun x => (x + 1) % max (s4.fld PLN_PAT_ACT_PER) 1) ppc
      · exact outN.trans (congrArg (wrap · 12) qn.symm)
      · exact outPip
      · exact outValid
      · intro hfirst hl
        rw [← hpar (f := PLN_ARM_LIM_DN_MAX a) (by simp), show (s.plnA a).nprev = p.nprev from pprev.symm, show p3.n = r.n from qn]
        exact planLevel_step (Int.natCast_nonneg _) (pfirst.trans hfirst) rfl (b2n_eq_zero (outLim.symm.trans hl))
      · intro hsome
        rw [← hpar (f := PLN_ARM_LIM_EMAX a) (by simp)]
        exact qbal (by rw [← qpip]; exact hsome)

end Sys2Proof.Machine
end

section
/-! PROOFS. O33, fifth part: the planner's phase over all arms (R177, R190, R473). -/
namespace Sys2Proof.Machine
open Sys2Proof

/-- What an arm gives out stands after another arm's step. -/
theorem Levelled.later {a b : Nat} {s t u : State} (ha : isArm a) (hne : a ≠ b) (h : Levelled a s t) (k : PlanStep b t u) : Levelled a s u := by
  have hp := k.others a hne
  have e {f : Fld} (hf : f ∈ armShown a) : u.fld f = t.fld f := k.regs f (armShown_apart ha hne f hf)
  obtain ⟨hact, hfirst, hprev, hpc, hcount, hnoPip, hvalid, hstep, hbal⟩ := h
  rw [← hp] at hact hfirst hprev hpc hcount hnoPip hvalid hstep hbal
  exact ⟨hact, hfirst, hprev, hpc, (e (by simp [armShown])).trans hcount, (e (by simp [armShown])).trans hnoPip,
    (e (by simp [armShown])).trans hvalid, fun h0 hl => hstep h0 ((e (by simp [armShown])).symm.trans hl), hbal⟩

/-- An arm's step starts from what another arm's step has left. -/
theorem Levelled.earlier {a b : Nat} {s t u : State} (ha : isArm a) (hne : a ≠ b) (k : PlanStep b s t) (h : Levelled a t u) : Levelled a s u := by
  have hp := k.others a hne
  have e {f : Fld} (hf : f ∈ [PLN_PAT_ACT_PER, PLN_ARM_LIM_DN_MAX a, PLN_ARM_LIM_EMAX a]) : t.fld f = s.fld f :=
    k.regs f (paramFlds_apart ha b f hf)
  obtain ⟨hact, hfirst, hprev, hpc, hcount, hnoPip, hvalid, hstep, hbal⟩ := h
  rw [hp] at hpc hstep
  rw [e (by simp)] at hpc hstep hbal
  exact ⟨hact, hfirst, hprev, hpc, hcount, hnoPip, hvalid, hstep, hbal⟩

theorem planArm_all (s : State) (l : List Nat) (hn : l.Nodup) (hl : ∀ a ∈ l, isArm a) :
    (∀ a ∈ l, Levelled a s (s.each l State.planArm)) ∧
    s.each l State.planArm = { s with
      regs := (s.each l State.planArm).regs, pln := (s.each l State.planArm).pln, mem := (s.each l State.planArm).mem,
      sump := (s.each l State.planArm).sump, fresh := (s.each l State.planArm).fresh } := by
  refine ⟨each_spec (fun s _ ha => (planArm_spec s ha).2) (fun s _ ha => (planArm_spec s ha).1) (fun ha _ hne => Levelled.later ha hne)
      (fun ha _ hne => Levelled.earlier ha hne) l hn hl s,
    each_keep (R := fun s t => t = { s with regs := t.regs, pln := t.pln, mem := t.mem, sump := t.sump, fresh := t.fresh })
      (fun _ => rfl) (fun h k => by rw [k, h]) (fun s _ ha => (planArm_spec s ha).1.kept) l hl s⟩

theorem inPhase_running {s : State} (h : s.dbg.frozen = false) (f : State → State) : s.inPhase f = f s := by
  unfold State.inPhase
  rw [h]
  rfl

/-- Outside RUNNING, or with the planner off, every arm is in its safe state. -/
theorem planSafe_arms (s : State) : (∀ a ∈ s.arms, IsSafe a s (s.each s.arms State.planSafe)) ∧
    (s.each s.arms State.planSafe).op = s.op ∧ s.each s.arms State.planSafe = { s with
      regs := (s.each s.arms State.planSafe).regs, pln := (s.each s.arms State.planSafe).pln, mem := (s.each s.arms State.planSafe).mem } := by
  obtain ⟨hn, hl⟩ := arms_spec s
  obtain ⟨hsafe, hkept, hregs⟩ := planSafe_all s s.arms hn hl
  exact ⟨hsafe, hregs CLK_STATE_STATE (by decide), hkept⟩

/-- Outside RUNNING every arm is put into its safe state. -/
theorem plannerPhase_idle (s : State) (h : s.op ≠ 6) : plannerPhase s = s.each s.arms State.planSafe := by
  unfold plannerPhase
  rw [if_neg fun hc => h hc.1]
  exact if_neg (by rw [(planSafe_arms s).2.1]; exact h)

/-- In RUNNING with the planner off it is told, and blocks. -/
theorem plannerPhase_off (s : State) (h : s.op = 6) (he : s.bit PLN_CTRL_EN = false) :
    plannerPhase s = (((((s.each s.arms State.planSafe).flag PLN_STAT_OFF_SEEN).send 0x288 0x14 0).blockCause .sump).joinSump 0x288).joinPln := by
  unfold plannerPhase
  rw [if_neg (by simp [he])]
  exact if_pos (by rw [(planSafe_arms s).2.1]; exact h)

theorem plannerPhase_on (s : State) (h : s.op = 6) (he : s.bit PLN_CTRL_EN = true) : plannerPhase s = s.each s.arms State.planArm :=
  if_pos ⟨h, he⟩

/-- What a planner that is off brings about, beyond the arms' safe state. -/
theorem offTold_spec (s : State) :
    let t := ((((s.flag PLN_STAT_OFF_SEEN).send 0x288 0x14 0).blockCause .sump).joinSump 0x288).joinPln
    t.latched = true ∧ t.prot.plnOff = true ∧ t.fld PLN_STAT_OFF_SEEN = 1 ∧ Told 0x288 0x14 0 s t ∧ 0x288 ∈ t.prot.sumpSrc ∧
    (∀ a, t.plnA a = s.plnA a) ∧ SameRegs (PLN_STAT_OFF_SEEN :: (blockFlds ++ msgFlds)) s t := by
  have h1 : SameRegs [PLN_STAT_OFF_SEEN] s (s.flag PLN_STAT_OFF_SEEN) := (sameRegs_refl _ s).flag (by simp)
  have h1o : (s.flag PLN_STAT_OFF_SEEN).fld PLN_STAT_OFF_SEEN = 1 := fld_setFld_same s _ 1
  have h2t : Told 0x288 0x14 0 s ((s.flag PLN_STAT_OFF_SEEN).send 0x288 0x14 0) := told_send_of _ _ _ rfl
  obtain ⟨h2, h2r⟩ := send_frame (s.flag PLN_STAT_OFF_SEEN) 0x288 0x14 0
  have h2p (a : Nat) : ((s.flag PLN_STAT_OFF_SEEN).send 0x288 0x14 0).plnA a = s.plnA a := by rw [h2]; rfl
  generalize (s.flag PLN_STAT_OFF_SEEN).send 0x288 0x14 0 = u at h2t h2r h2p
  have h3 := blockCause_eq u .sump
  have h3r := sameRegs_blockCause u .sump
  obtain ⟨h3l, -⟩ := blockCause_blocked u .sump
  generalize u.blockCause .sump = v at h3 h3r h3l
  refine ⟨h3l, rfl, ?_, fun h => ?_, mem_joinN v.prot.sumpSrc 0x288, fun a => ?_, ?_⟩
  · exact (h3r _ (by decide)).trans ((h2r _ (by decide)).trans h1o)
  · refine Eq.trans (msgAt_congr ?_ _) (h2t h)
    show v.sump.slots = u.sump.slots
    rw [h3]
  · refine Eq.trans ?_ (h2p a)
    show v.plnA a = u.plnA a
    rw [h3]
    rfl
  · exact ((h1.mono (by simp)).trans (h2r.mono fun f hf => by simp [hf])).trans (h3r.mono fun f hf => by simp [hf])

theorem offTold_apart : (∀ g ∈ PLN_STAT_OFF_SEEN :: (blockFlds ++ msgFlds), CLK_STATE_STATE.key ≠ g.key) ∧
    ∀ a < 6, ∀ g ∈ PLN_STAT_OFF_SEEN :: (blockFlds ++ msgFlds), (PLN_ARM_OUT_N a).key ≠ g.key := by decide

/-- The planner phase of a running pipeline. -/
theorem exec_planner {s : State} (h : s.dbg.frozen = false) : exec .plannerPhase s = .next (plannerPhase s.logInputs) :=
  congrArg Host.Outcome.next (inPhase_running h fun s => plannerPhase s.logInputs)

theorem plannerPhase_off_spec (s : State) (h : s.op = 6) (he : s.bit PLN_CTRL_EN = false) :
    let t := plannerPhase s
    t.op = 6 ∧ t.latched = true ∧ t.prot.plnOff = true ∧ t.fld PLN_STAT_OFF_SEEN = 1 ∧ Told 0x288 0x14 0 s t ∧ 0x288 ∈ t.prot.sumpSrc ∧
    ∀ a ∈ s.arms, (t.plnA a).act = false ∧ t.fld (PLN_ARM_OUT_N a) = 0 := by
  obtain ⟨hsafe, hop, hkept⟩ := planSafe_arms s
  rw [plannerPhase_off s h he]
  generalize s.each s.arms State.planSafe = u at hsafe hop hkept
  obtain ⟨hl, hoff, hseen, htold, hsrc, hpln, hregs⟩ := offTold_spec u
  obtain ⟨hstate, hout⟩ := offTold_apart
  refine ⟨(hregs _ hstate).trans (hop.trans h), hl, hoff, hseen, fun hm => htold ?_, hsrc, fun a ha => ⟨?_, ?_⟩⟩
  · rw [hkept]
    exact hm
  · rw [hpln]
    exact (hsafe a ha).arm.1
  · exact (hregs _ (hout a ((arms_spec s).2 a ha))).trans (hsafe a ha).count

end Sys2Proof.Machine
end

section
/-! PROOFS. O33, sixth part: the frames that the composer builds (R52, R90, R100, R297). -/
namespace Sys2Proof.Machine
open Sys2Proof

/-! ### Which registers the composer writes -/

/-- The registers of the queue of management items. -/
def auxFlds : List Fld := [CMP_AUX_STAT_LEVEL, CMP_AUX_STAT_FULL, CMP_AUX_STAT_REJ]

/-- The registers that the composition of frames writes. -/
def composeFlds : List Fld := auxFlds ++ readFlds

theorem composeFlds_addr : ∀ g ∈ composeFlds, g.lo < 32 ∧ g.addr < 0x100000 ∧ g.addr ≠ 0x70000 ∧ g.addr ≠ 0x10 := by
  refine List.forall_mem_append.mpr ⟨by decide, fun g hg => ?_⟩
  obtain ⟨hl, ha, hhigh, hstate⟩ := readFlds_addr g hg
  omega

/-- CMP_CTRL, CLK_STATE and the registers of the ports are not written by the composition. -/
theorem composeFlds_apart {f : Fld} (hl : f.lo < 32) (ha : f.addr = 0x70000 ∨ f.addr = 0x10 ∨ 0x100000 ≤ f.addr) :
    ∀ g ∈ composeFlds, f.key ≠ g.key := by
  intro g hg
  obtain ⟨hgl, hga⟩ := composeFlds_addr g hg
  unfold Fld.key
  omega

/-! ### Words -/

/-- The composition of a word writes the queue of management items and what is kept of its cell. -/
structure WordFrame (s t : State) : Prop where
  kept : t = { s with regs := t.regs, ccell := t.ccell, cmp := t.cmp }
  ofs : t.cmp.ofs = s.cmp.ofs
  frames : t.cmp.frames = s.cmp.frames
  regs : SameRegs auxFlds s t

namespace WordFrame

theorem refl (s : State) : WordFrame s s := ⟨rfl, rfl, rfl, sameRegs_refl _ s⟩

theorem trans {s t u : State} (h : WordFrame s t) (k : WordFrame t u) : WordFrame s u :=
  ⟨by rw [k.kept, h.kept], k.ofs.trans h.ofs, k.frames.trans h.frames, h.regs.trans k.regs⟩

theorem setCc {s t : State} (h : WordFrame s t) (g : Nat) (x : CmpCell) : WordFrame s (t.setCc g x) :=
  h.trans ⟨rfl, rfl, rfl, sameRegs_of_regs _ rfl⟩

end WordFrame

theorem wordFrame_unqueue (s : State) (id : Nat) : WordFrame s (s.unqueue id) :=
  ⟨rfl, rfl, rfl, ((sameRegs_of_regs _ rfl : SameRegs auxFlds s
    { s with cmp := { s.cmp with queue := s.cmp.queue.filter fun q => q.id != id } }).setFld _ (by simp [auxFlds])).setFld _ (by simp [auxFlds])⟩

theorem wordFrame_dropBad (g n : Nat) : ∀ s : State, WordFrame s (s.dropBad g n) := by
  induction n with
  | zero => exact .refl
  | succ n ih =>
    intro s
    unfold State.dropBad
    split
    next i hi =>
      split
      · have hf (u : State) : WordFrame u (u.flag CMP_AUX_STAT_REJ) :=
          ⟨rfl, rfl, rfl, (sameRegs_refl _ u).flag (by simp [auxFlds])⟩
        exact ((wordFrame_unqueue s i.id).trans (hf _)).trans (ih _)
      · exact .refl s
    · exact .refl s

theorem wordFrame_auxItem (s : State) (g x : Nat) : WordFrame s (s.auxItem g x).1 := by
  have hu : WordFrame s (if (s.cc g).cur.isNone then s.dropBad g 33 else s) := by
    split
    · exact wordFrame_dropBad g 33 s
    · exact .refl s
  unfold State.auxItem
  generalize (if (s.cc g).cur.isNone then s.dropBad g 33 else s) = u at hu ⊢
  dsimp only
  split
  · exact hu.setCc ..
  · split
    · exact hu.setCc ..
    · exact hu

/-- The word of a position without a cell (R100). -/
def idleWord (c x : Nat) : BitVec 64 :=
  cmdEncode { cell := c, stA := 7, eA := 1023, stB := 7, eB := 1023, seq := x, gp := 0, holdOk := false, test := false, code := 0, data := 0 }

theorem composeWord_spec (s : State) (g x : Nat) : WordFrame s (s.composeWord g x).1 ∧
    (s.isConf g = false → (s.composeWord g x).2 = idleWord (g % 128) x) := by
  unfold State.composeWord
  split
  · exact ⟨.refl s, fun _ => rfl⟩
  next h => exact ⟨wordFrame_auxItem s g x, fun hc => absurd (by rw [hc]; rfl) h⟩

/-- The words of a list of positions of port n, added to those that stand. -/
def State.composeWords (q : State × List (BitVec 64)) (n x : Nat) (l : List Nat) : State × List (BitVec 64) :=
  l.foldl (fun (q : State × List (BitVec 64)) c =>
    let r := q.1.composeWord (128 * n + c) x
    (r.1, q.2 ++ [r.2])) q

theorem isConf_congr {s t : State} (h : t.ld = s.ld) (g : Nat) : t.isConf g = s.isConf g := by
  unfold State.isConf
  rw [h]

theorem WordFrame.ld {s t : State} (h : WordFrame s t) : t.ld = s.ld := by rw [h.kept]

theorem composeWords_spec (n x : Nat) (l : List Nat) : ∀ q : State × List (BitVec 64),
    WordFrame q.1 (State.composeWords q n x l).1 ∧ ∃ ws, (State.composeWords q n x l).2 = q.2 ++ ws ∧
      List.Forall₂ (fun c w => q.1.isConf (128 * n + c) = false → w = idleWord ((128 * n + c) % 128) x) l ws := by
  induction l with
  | nil => exact fun q => ⟨.refl _, [], (List.append_nil _).symm, .nil⟩
  | cons c l ih =>
    intro q
    obtain ⟨hf, hw⟩ := composeWord_spec q.1 (128 * n + c) x
    obtain ⟨kf, ws, kw, kall⟩ := ih ((q.1.composeWord (128 * n + c) x).1, q.2 ++ [(q.1.composeWord (128 * n + c) x).2])
    refine ⟨hf.trans kf, (q.1.composeWord (128 * n + c) x).2 :: ws, kw.trans (List.append_assoc ..), .cons hw ?_⟩
    exact kall.imp fun c w h hc => h ((isConf_congr hf.ld _).trans hc)

/-! ### Frames -/

/-- The frame of port n is built, and no other one changes. -/
structure PortFrame (n : Nat) (s t : State) : Prop where
  kept : t = { s with regs := t.regs, mem := t.mem, sump := t.sump, fresh := t.fresh, ccell := t.ccell, cmp := t.cmp }
  ofs : t.cmp.ofs = s.cmp.ofs
  frames : ∀ m, m ≠ n → mget [] t.cmp.frames m = mget [] s.cmp.frames m
  regs : SameRegs composeFlds s t

/-- The frame of port n for execution tick x with the launch time h2 (R90, R108). -/
structure Composed (n x h2 : Nat) (s t : State) : Prop where
  length : (mget [] t.cmp.frames n).length = 132
  hold : (mget [] t.cmp.frames n).getD 128 0 = BitVec.ofNat 64 (s.fld CMP_CTRL_HOLD * 2 ^ 60)
  hub : (mget [] t.cmp.frames n).getD 129 0 = BitVec.ofNat 64 (s.fld (CL_HUB_MW_HI n) * 2 ^ 32 + s.fld (CL_HUB_MW_LO n))
  launch : (mget [] t.cmp.frames n).getD 130 0 = BitVec.ofNat 64 h2
  last : (mget [] t.cmp.frames n).getD 131 0 = 0
  idle : ∀ c < 128, s.isConf (128 * n + c) = false → (mget [] t.cmp.frames n).getD c 0 = idleWord c x

/-- What the composer reads of port n: the holds and the hub's management word. -/
def hubFlds (n : Nat) : List Fld := [CMP_CTRL_HOLD, CL_HUB_MW_HI n, CL_HUB_MW_LO n]

theorem hubFlds_apart (n : Nat) : ∀ f ∈ hubFlds n, ∀ g ∈ composeFlds, f.key ≠ g.key := by
  have hp : ∀ f ∈ hubFlds n, f.lo < 32 ∧ (f.addr = 0x70000 ∨ f.addr = 0x10 ∨ 0x100000 ≤ f.addr) := by
    simp [hubFlds, CMP_CTRL_HOLD, CL_HUB_MW_HI, CL_HUB_MW_LO]
    omega
  exact fun f hf => composeFlds_apart (hp f hf).1 (hp f hf).2

theorem getD_hub {ws : List (BitVec 64)} (h : ws.length = 128) (hub : List (BitVec 64)) (k : Nat) :
    (ws ++ hub).getD (128 + k) 0 = hub.getD k 0 := by
  rw [List.getD_append_right _ _ _ _ (by omega), h, Nat.add_sub_cancel_left]

/-- The words that follow those of the cells (R108). -/
def State.hubWords (s : State) (n h2 : Nat) : List (BitVec 64) :=
  [BitVec.ofNat 64 (s.fld CMP_CTRL_HOLD * 2 ^ 60), BitVec.ofNat 64 (s.fld (CL_HUB_MW_HI n) * 2 ^ 32 + s.fld (CL_HUB_MW_LO n)),
    BitVec.ofNat 64 h2, 0]

/-- The state with the frame of port n made of the cells' words ws. -/
def State.framed (s : State) (n h2 : Nat) (ws : List (BitVec 64)) : State :=
  { s with cmp := { s.cmp with frames := mput s.cmp.frames n (ws ++ s.hubWords n h2) } }

theorem composePort_eq (s : State) (n x h2 : Nat) : s.composePort n x h2 =
    (State.composeWords (s.readEntries (s.portCells n), []) n x (upto 128)).1.framed n h2
      (State.composeWords (s.readEntries (s.portCells n), []) n x (upto 128)).2 := by
  unfold State.composePort State.composeWords
  generalize upto 128 = l
  rfl

theorem composePort_spec (s : State) (n x h2 : Nat) : PortFrame n s (s.composePort n x h2) ∧ Composed n x h2 s (s.composePort n x h2) := by
  have hread : WorkFrame readFlds s (s.readEntries (s.portCells n)) := workFrame_pipeRead ..
  rw [composePort_eq]
  generalize s.readEntries (s.portCells n) = u at hread ⊢
  obtain ⟨hf, vs, hvs, hall⟩ := composeWords_spec n x (upto 128) (u, [])
  generalize State.composeWords (u, []) n x (upto 128) = q at hf hvs ⊢
  obtain ⟨v, ws⟩ := q
  obtain rfl : ws = vs := hvs
  have hlen : ws.length = 128 := hall.length_eq.symm.trans List.length_range
  have hregs : SameRegs composeFlds s v :=
    (hread.regs.mono fun f => List.mem_append_right _).trans (hf.regs.mono fun f => List.mem_append_left _)
  have hfld {f : Fld} (h : f ∈ hubFlds n) : v.fld f = s.fld f := hregs f (hubFlds_apart n f h)
  have hub : v.hubWords n h2 = s.hubWords n h2 := by
    unfold State.hubWords
    rw [hfld (by simp [hubFlds]), hfld (f := CL_HUB_MW_HI n) (by simp [hubFlds]), hfld (f := CL_HUB_MW_LO n) (by simp [hubFlds])]
  have hcmp : u.cmp = s.cmp := by rw [hread.kept]
  have hkept : v = { s with regs := v.regs, mem := v.mem, sump := v.sump, fresh := v.fresh, ccell := v.ccell, cmp := v.cmp } := by
    rw [show v = _ from hf.kept, hread.kept]
  refine ⟨⟨?_, hf.ofs.trans (congrArg Composer.ofs hcmp), fun m hm => ?_, hregs.trans (sameRegs_of_regs _ rfl)⟩, ?_⟩
  · unfold State.framed
    dsimp only
    rw [hkept]
  · refine (mget_mput ..).trans ((if_neg hm.symm).trans ?_)
    rw [show v.cmp.frames = _ from hf.frames, hcmp]
  · have hget : mget [] (v.framed n h2 ws).cmp.frames n = ws ++ s.hubWords n h2 :=
      (mget_mput ..).trans ((if_pos rfl).trans (by rw [hub]))
    refine ⟨?_, ?_, ?_, ?_, ?_, fun c hc hconf => ?_⟩ <;> rw [hget]
    · rw [List.length_append, hlen]
      rfl
    · exact getD_hub hlen _ 0
    · exact getD_hub hlen _ 1
    · exact getD_hub hlen _ 2
    · exact getD_hub hlen _ 3
    · have hc' : c < ws.length := by omega
      have hw := hall.get (i := c) (by rw [upto, List.length_range]; exact hc) hc'
      rw [List.getD_append _ _ _ _ hc', List.getD_eq_getElem _ _ hc']
      simp only [upto, List.get_eq_getElem, List.getElem_range] at hw
      rw [hw ((isConf_congr (by rw [hread.kept]) _).trans hconf), Nat.mul_add_mod, Nat.mod_eq_of_lt hc]

theorem PortFrame.ld {n : Nat} {s t : State} (h : PortFrame n s t) : t.ld = s.ld := by rw [h.kept]

/-- What the composition of the ports keeps. -/
structure ComposeKept (s t : State) : Prop where
  kept : t = { s with regs := t.regs, mem := t.mem, sump := t.sump, fresh := t.fresh, ccell := t.ccell, cmp := t.cmp }
  ofs : t.cmp.ofs = s.cmp.ofs
  regs : SameRegs composeFlds s t

theorem ComposeKept.trans {s t u : State} (h : ComposeKept s t) (k : ComposeKept t u) : ComposeKept s u :=
  ⟨by rw [k.kept, h.kept], k.ofs.trans h.ofs, h.regs.trans k.regs⟩

theorem composePort_kept (s : State) (n x h2 : Nat) : ComposeKept s (s.composePort n x h2) :=
  have h := (composePort_spec s n x h2).1
  ⟨h.kept, h.ofs, h.regs⟩

/-- The frame of port n as the composer's phase builds it from state s. -/
def ComposedNow (n : Nat) (s t : State) : Prop := Composed n (s.now + 2) (s.ctl.btime + 2000) s t

/-- The composition of a port's frame in the current tick. -/
def State.composeNow (s : State) (n : Nat) : State := s.composePort n (s.now + 2) (s.ctl.btime + 2000)

theorem ComposedNow.later {a b : Nat} {s t u : State} (hne : a ≠ b) (h : ComposedNow a s t) (k : PortFrame b t u) : ComposedNow a s u := by
  obtain ⟨h1, h2, h3, h4, h5, h6⟩ := h
  rw [← k.frames a hne] at h1 h2 h3 h4 h5 h6
  exact ⟨h1, h2, h3, h4, h5, h6⟩

theorem ComposedNow.earlier {a b : Nat} {s t u : State} (k : PortFrame b s t) (h : ComposedNow a t u) : ComposedNow a s u := by
  have hctl : t.ctl = s.ctl := by rw [k.kept]
  have hfld {f : Fld} (hf : f ∈ hubFlds a) : t.fld f = s.fld f := k.regs f (hubFlds_apart a f hf)
  unfold ComposedNow State.now at *
  rw [hctl] at h
  obtain ⟨h1, h2, h3, h4, h5, h6⟩ := h
  rw [hfld (by simp [hubFlds])] at h2
  rw [hfld (f := CL_HUB_MW_HI a) (by simp [hubFlds]), hfld (f := CL_HUB_MW_LO a) (by simp [hubFlds])] at h3
  exact ⟨h1, h2, h3, h4, h5, fun c hc hconf => h6 c hc ((isConf_congr k.ld _).trans hconf)⟩

/-- The ports that are not OFF. -/
def State.portsOn (s : State) : List Nat := (upto 32).filter fun n => s.portState n != 0

/-- The state from which the composer builds its frames: OFS sampled, no frame yet. -/
def State.ofsSampled (s : State) : State := { s with cmp := { s.cmp with ofs := s.fld CMP_EXEC_OFS, frames := [] } }

theorem composeAll_spec (s : State) (l : List Nat) (hn : l.Nodup) :
    (∀ n ∈ l, ComposedNow n s (s.each l State.composeNow)) ∧ ComposeKept s (s.each l State.composeNow) ∧
    ∀ n, n ∉ l → mget [] (s.each l State.composeNow).cmp.frames n = mget [] s.cmp.frames n := by
  have hspec (s : State) (n : Nat) : PortFrame n s (s.composeNow n) ∧ ComposedNow n s (s.composeNow n) := composePort_spec ..
  refine ⟨each_spec (P := ComposedNow) (Q := PortFrame) (D := fun _ => True) (fun s n _ => (hspec s n).2) (fun s n _ => (hspec s n).1)
      (fun _ _ hne => ComposedNow.later hne) (fun _ _ _ => ComposedNow.earlier) l hn (fun _ _ => trivial) s,
    each_keep (R := ComposeKept) (D := fun _ => True) (fun s => ⟨rfl, rfl, sameRegs_refl _ s⟩) ComposeKept.trans
      (fun s n _ => composePort_kept ..) l (fun _ _ => trivial) s, fun n hnl => ?_⟩
  exact foldl_keep_mem (fun t : State => mget [] t.cmp.frames n) State.composeNow l
    (fun t m hm => (hspec t m).1.frames n fun h => hnl (h ▸ hm)) s

/-- The composer's phase: the frames of the ports, then the digest. -/
theorem composerPhase_eq (s : State) : ∃ t, t = s.ofsSampled.each s.portsOn State.composeNow ∧
    composerPhase s = { t with cmp := { t.cmp with digest := t.commandDigest.toNat },
                               red := { t.red with digs := ((t.now, t.commandDigest.toNat) :: t.red.digs).take 8 } } :=
  ⟨_, rfl, rfl⟩

/-- What is committed for acquisition at cycle 980 changes nothing of the composer (R337). -/
theorem acqCommit_spec (s : State) : acqCommit s = { s with
    regs := (acqCommit s).regs, mem := (acqCommit s).mem, sump := (acqCommit s).sump, fresh := (acqCommit s).fresh, acq := (acqCommit s).acq } ∧
    SameRegs readFlds s (acqCommit s) := by
  have h := workFrame_pipeRead s (slotWords (0x380 :: (upto 64).map fun k => s.fld (ACQ_DCH_SLOT k)))
  unfold acqCommit
  generalize s.pipeRead (slotWords (0x380 :: (upto 64).map fun k => s.fld (ACQ_DCH_SLOT k))) = t at h ⊢
  exact ⟨by dsimp only; rw [h.kept], h.regs⟩

end Sys2Proof.Machine
end

section
/-! PROOFS. O33: the planner's and the composer's phases. -/
namespace Sys2Proof.Machine
open Sys2Proof

/-- The composer's phase with what is committed for acquisition after it, as a whole. -/
theorem composed_spec (s : State) :
    let t := acqCommit (composerPhase s)
    t.cmp.ofs = s.fld CMP_EXEC_OFS ∧ t.op = s.op ∧ t.now = s.now ∧ t.cells = s.cells ∧
    t.red.digs = ((s.now, t.cmp.digest) :: s.red.digs).take 8 ∧ (∀ n ∈ s.portsOn, ComposedNow n s t) ∧
    ∀ n, n ∉ s.portsOn → mget [] t.cmp.frames n = [] := by
  obtain ⟨t, ht, he⟩ := composerPhase_eq s
  obtain ⟨hframes, ⟨hkept, hofs, hregs⟩, hnone⟩ := composeAll_spec s.ofsSampled s.portsOn (List.nodup_range.filter _)
  rw [← ht] at hframes hkept hofs hregs hnone
  obtain ⟨ha, har⟩ := acqCommit_spec (composerPhase s)
  have hcmp : (acqCommit (composerPhase s)).cmp = { t.cmp with digest := t.commandDigest.toNat } := by rw [ha, he]
  have hred : (acqCommit (composerPhase s)).red = { t.red with digs := ((t.now, t.commandDigest.toNat) :: t.red.digs).take 8 } := by rw [ha, he]
  have hctl : (acqCommit (composerPhase s)).ctl = s.ctl := by
    rw [ha, he]
    show t.ctl = s.ctl
    rw [hkept]
    rfl
  have hcells : (acqCommit (composerPhase s)).cells = s.cells := by
    rw [ha, he]
    show t.cells = s.cells
    rw [hkept]
    rfl
  have hop : (acqCommit (composerPhase s)).op = s.op := by
    have hne : ∀ g ∈ composeFlds, CLK_STATE_STATE.key ≠ g.key := composeFlds_apart (by decide) (.inr (.inl rfl))
    refine (har _ fun g hg => hne g (List.mem_append_right _ hg)).trans ?_
    rw [he]
    exact hregs _ hne
  have htnow : t.now = s.now := by rw [hkept]; rfl
  have htdigs : t.red.digs = s.red.digs := by rw [hkept]; rfl
  dsimp only
  refine ⟨?_, hop, congrArg TickCtl.tick hctl, hcells, ?_, fun n hn => ?_, fun n hn => ?_⟩
  · rw [hcmp]
    exact hofs
  · rw [hred, hcmp, htnow, htdigs]
  · obtain ⟨h1, h2, h3, h4, h5, h6⟩ := hframes n hn
    unfold ComposedNow
    refine ⟨?_, ?_, ?_, ?_, ?_, ?_⟩ <;> rw [hcmp]
    · exact h1
    · exact h2
    · exact h3
    · exact h4
    · exact h5
    · exact h6
  · rw [hcmp]
    exact hnone n hn

theorem mem_portsOn {s : State} {n : Nat} : n ∈ s.portsOn ↔ n < 32 ∧ s.portState n ≠ 0 := by
  simp [State.portsOn, upto]

/-- Settles O33: each arm's step is described once (`planSafe_spec`, `planArm_spec`) and stands over the others' (`each_spec`), and so
is the composition of each port's frame (`composePort_spec`). -/
theorem plannerAndComposerPhases : Obligations.PlannerAndComposerPhases := by
  unfold Obligations.PlannerAndComposerPhases
  have hlog (s : State) : ∃ u x, u = { s with red := x } ∧ s.logInputs = u := ⟨_, _, logInputs_eq s, rfl⟩
  refine ⟨fun s hf ho => ?_, fun s hf ho he => ?_, fun s hf ho he => ?_, fun s hf => ?_, fun s => ?_⟩
  · obtain ⟨u, x, hu, hx⟩ := hlog s
    refine ⟨_, exec_planner hf, ?_⟩
    rw [hx, plannerPhase_idle u (by rw [hu]; exact ho), ← arms_congr (s := s) (t := u) (by rw [hu])]
    obtain ⟨hsafe, -, hkept⟩ := planSafe_arms u
    generalize u.each u.arms State.planSafe = t at hsafe hkept ⊢
    refine ⟨by rw [hkept, hu], fun a ha => ?_⟩
    obtain ⟨⟨hact, hn, hpip⟩, hprev, hcount, hvalid, hslot⟩ := hsafe a ha
    exact ⟨hact, hn, hpip, hprev.trans (by rw [hu]; rfl), hcount, hvalid, hslot⟩
  · obtain ⟨u, x, hu, hx⟩ := hlog s
    refine ⟨_, exec_planner hf, ?_⟩
    obtain ⟨hop, hl, hoff, hseen, htold, hsrc, harms⟩ := plannerPhase_off_spec u (by rw [hu]; exact ho) (by rw [hu]; exact he)
    rw [hx, ← arms_congr (s := s) (t := u) (by rw [hu])]
    exact ⟨hop, hl, hoff, hseen, fun h => htold (by rw [hu]; exact h), hsrc, harms⟩
  · obtain ⟨u, x, hu, hx⟩ := hlog s
    refine ⟨_, exec_planner hf, ?_⟩
    rw [hx, plannerPhase_on u (by rw [hu]; exact ho) (by rw [hu]; exact he), ← arms_congr (s := s) (t := u) (by rw [hu])]
    obtain ⟨hn, hl⟩ := arms_spec u
    obtain ⟨hall, hkept⟩ := planArm_all u u.arms hn hl
    have hfld (f : Fld) : u.fld f = s.fld f := by rw [hu]; rfl
    have hpln (a : Nat) : u.plnA a = s.plnA a := by rw [hu]; rfl
    generalize u.each u.arms State.planArm = t at hall hkept ⊢
    refine ⟨by rw [hkept, hu], fun a ha => ?_⟩
    obtain ⟨hact, hfirst, hprev, hpc, hcount, hnoPip, hvalid, hstep, hbal⟩ := hall a ha
    rw [hfld, hpln] at hpc
    rw [hfld, hpln] at hstep
    rw [hfld] at hbal
    exact ⟨hact, hfirst, hprev, hpc, hcount, hnoPip, hvalid, hstep, hbal⟩
  · refine congrArg Host.Outcome.next ?_
    unfold State.inPhase
    rw [hf]
    rfl
  · obtain ⟨hofs, hop, hnow, hcells, hdigs, hon, hoff⟩ := composed_spec s
    refine ⟨_, rfl, hofs, hop, hnow, hcells, hdigs, fun n hn => hoff n fun hm => ?_, fun n hn => ?_⟩
    · obtain ⟨h32, hs⟩ := mem_portsOn.mp hm
      exact hn.elim (fun h => by omega) hs
    · obtain ⟨hlen, hhold, hhub, hlaunch, hlast, hidle⟩ := hon n (mem_portsOn.mpr ⟨n.isLt, hn⟩)
      exact ⟨hlen, hhold, hhub, hlaunch, hlast, fun c => hidle c c.isLt⟩

end Sys2Proof.Machine
end
